-- ==== Sys2Proof/Word.lean ====
section
/-! DEFINITION. The word types of the machine (R3, R13, R14) and their plainest names. -/

namespace Sys2Proof

/-- A byte of memory. -/
abbrev Byte := BitVec 8

/-- A lane register, an instruction word (R13, R38). -/
abbrev Word := BitVec 32

/-- A scalar register (R14). -/
abbrev DWord := BitVec 64

end Sys2Proof
end

