-- ==== Sys2Proof/Config.lean ====
section
/-! DEFINITION. The free values of the model: what the specification leaves open (log 4, 6, 9, 10).

Each is an opaque constant: nothing in Lean can evaluate it or prove a value of it. The step applies it to the plain
counter `State.free` (or to the operands it depends on), so a statement about it holds for every value. -/

namespace Sys2Proof.Config

/-- Choice number `n` among `k` permitted outcomes (R8): any value, taken modulo `k` by its user. -/
opaque choose : Nat → Nat

/-- Ticks of the 125 MHz reference timer that pass in step `n` (R6; log 9). -/
opaque ticksOfStep : Nat → Nat

/-- Core-clock cycles that pass on the issuing core in step `n` (R113; log 9). -/
opaque cyclesOfStep : Nat → Nat

/-- Which of the results within the bound the special-function unit delivers for function `fn` and input `x` (R132):
one fixed function of the device. -/
opaque sfuPick : Nat → Word → Nat

/-- The signature bits (of 2048) that the device fixes for a block (R271). -/
opaque signatureBits : Nat → Nat

/-- Byte `i` of the verified firmware image of a core kind (R493): 0 management, 1 pager. The image begins 8 bytes below
the core's `CODE_BASE`, with its handler word (R394; log 21). -/
opaque firmwareByte : Nat → Nat → Byte

/-- Length in bytes of the firmware image of a core kind (R493). -/
opaque firmwareLen : Nat → Nat

/-- The outcome of start-up on tile `t` (R493, R495): 0 passed with slot A or B, else the FAILCODE. -/
opaque startUp : Nat → Nat

/-- The outcome of the self-test and of training the ports (R495): 0 passed, else FAILCODE 3 or 4. -/
opaque startUpEnd : Nat

/-- Version and digest of the image that tile `t` booted (R494), 512 bits. -/
opaque imageDigest : Nat → BitVec 512

/-- SHAKE256 of `Concat(m, d)`, 512 bits (R494). The function is that of FIPS 202; the specification names it and does
not define it. -/
opaque shake512 : BitVec 512 → BitVec 512 → BitVec 512

/-- Byte `i` of the Falcon-1024 signature of a report (R494, R496). -/
opaque signatureByte : Nat → Nat → Byte

/-- DEV_ID.SERIAL and STEPPING, fused at manufacture (R496). -/
opaque serial : BitVec 32
opaque stepping : BitVec 8

/-- Temperature that sensor `i` of tile `t` reports at its `n`th reading, 1/8 degree Celsius (R498). -/
opaque temperature : Nat → Nat → Nat → BitVec 16

/-- Whether the average power of the last 10 ms exceeds the limit, at decision `n` (R499). -/
opaque overPower : Nat → Bool

end Sys2Proof.Config
end

