-- ==== Sys2Proof/Syntax.lean ====
section
/-! DEFINITION. The instruction syntax of the CT-PV3200: one constructor of `Instr` for each row of
spec/opcode_table.json.

The first part holds the 86 events, the indivisible steps of the agents of the device
(spec/95_what_each_step_holds.md); they have no encoding, and their arguments name the agent or the
object that the step acts on. The second part holds the 339 encoded words (formats of R39, fields under
the names the table gives them; the chain bit C of R43 belongs to the chain, not to the instruction, and
stands in `Decoded`). -/

namespace Sys2Proof

/-- Immediate of format I (R41): the 11-bit field, or the marker `0x400` with the literal word. -/
inductive Imm where
  | short (x : BitVec 11)
  | lit (x : BitVec 32)
  deriving DecidableEq, Repr

/-- Displacement of format MS (R41): the 8-bit field, or the marker `0x80` with the literal word. -/
inductive Disp where
  | short (x : BitVec 8)
  | lit (x : BitVec 32)
  deriving DecidableEq, Repr

/-- The writers of management registers (R484). -/
inductive Writer where
  /-- the host, through BAR0 -/
  | host
  /-- the tile management core of the tile -/
  | mgmt (t : Nat)
  /-- the pager core of the tile -/
  | pager (t : Nat)
  /-- a lane with PRV at least 1 of no such core -/
  | other
  deriving DecidableEq, Repr

/-- The kinds of access that arrive from a peer device (R478). -/
inductive PeerOp where
  | load (n : Nat) (acq : Bool)
  | store (n : Nat) (val : Nat) (rel pois : Bool)
  | atomic (fn : Nat) (wide : Bool) (val swp : Nat) (acq rel pois : Bool)
  | weir (arrivals : Nat) (bytes : Nat)
  | reduce (fn : Nat) (val : BitVec 64) (key : Nat) (epoch : Nat) (poison : Bool)
  deriving DecidableEq, Repr

inductive Instr where
  /-- event POWER_ON_BOOT (R493) -/
  | powerOnBoot
  /-- event CORE_RESET (R33) -/
  | coreReset (u : Nat)
  /-- event RUN (R495) -/
  | run
  /-- event QUARTER_ISSUE (R197) -/
  | quarterIssue (u : Nat)
  /-- event ROTATION_QUANTUM (R145) -/
  | rotationQuantum (g : Nat)
  /-- event LOAD_COMPLETE (R27) -/
  | loadComplete (g k : Nat)
  /-- event STORE_ACK (R27) -/
  | storeAck (k : Nat)
  /-- event JOIN_RELEASE (R176) -/
  | joinRelease (g : Nat)
  /-- event GROUP_FINISH (R143) -/
  | groupFinish (g : Nat)
  /-- event TEAM_RETIRE (R162) -/
  | teamRetire (t : Nat)
  /-- event QUEUE_DOORBELL (R487) -/
  | queueDoorbell (p q : Nat) (v : BitVec 32)
  /-- event RECORD_ACCEPT (R181) -/
  | recordAccept (p q : Nat)
  /-- event TEAM_PLACE (R189) -/
  | teamPlace (gr : Nat)
  /-- event DEP_WEIR_OBSERVE (R191) -/
  | depWeirObserve (gr : Nat)
  /-- event THERMAL_MIGRATION (R199) -/
  | thermalMigration (d : Nat)
  /-- event PLACEMENT_WINDOW_INSTALL (R208) -/
  | placementWindowInstall (p : Nat) (v : BitVec 32)
  /-- event L2_LINE_EVICT (R202) -/
  | l2LineEvict (a w ln : Nat)
  /-- event FADE_TICK (R221) -/
  | fadeTick
  /-- event L2_MISS (R240) -/
  | l2Miss (r : Nat)
  /-- event FILL_DATA_LAND (R245) -/
  | fillDataLand (st f : Nat)
  /-- event TABLE_INVALIDATION (R243) -/
  | tableInvalidation (k st : Nat)
  /-- event COW_BREAK (R250) -/
  | cowBreak (r : Nat)
  /-- event PREFETCH (R254) -/
  | prefetch (a w rg : Nat)
  /-- event WATERMARK_PUBLISH (R267) -/
  | watermarkPublish (d : Nat)
  /-- event SIGNATURE_SWEEP (R271) -/
  | signatureSweep (d : Nat)
  /-- event OWNERSHIP_REQUEST (R275) -/
  | ownershipRequest (k : Nat)
  /-- event DAM_GRANT (R284) -/
  | damGrant (g : Nat)
  /-- event DAM_LEASE_EXPIRY (R286) -/
  | damLeaseExpiry (k : Nat)
  /-- event RFAR_DRAIN (R308) -/
  | rfarDrain (c q : Nat)
  /-- event RFAR_STAGE (R308) -/
  | rfarStage (k : Nat)
  /-- event EPOCH_CLOSE (R309) -/
  | epochClose (e : Nat)
  /-- event SLICE_FOLD (R309) -/
  | sliceFold (e sl : Nat)
  /-- event WEIR_WAIT_END (R316) -/
  | weirWaitEnd (g : Nat)
  /-- event COPY_RESOLVE (R335) -/
  | copyResolve (c x : Nat)
  /-- event COPY_PIECE (R335) -/
  | copyPiece (c x b : Nat)
  /-- event MU_COMMAND_PERFORM (R351) -/
  | muCommandPerform (c q : Nat)
  /-- event CODEBOOK_SWITCH (R367) -/
  | codebookSwitch (c : Nat)
  /-- event NVME_COMPLETION (R380) -/
  | nvmeCompletion (k : Nat) (st : BitVec 16)
  /-- event NVME_TIMEOUT (R380) -/
  | nvmeTimeout (k : Nat)
  /-- event FLASH_SWAP_OUT (R382) -/
  | flashSwapOut (t : Nat)
  /-- event PAGER_REPLY (R393) -/
  | pagerReply (k : Nat)
  /-- event PAGER_REPLY_TIMEOUT (R393) -/
  | pagerReplyTimeout (k : Nat)
  /-- event REPLAY_RESTART (R455) -/
  | replayRestart (gr : Nat)
  /-- event TEAM_SAVE (R418) -/
  | teamSave (t : Nat)
  /-- event TEAM_RESUME (R427) -/
  | teamResume (t : Nat)
  /-- event CTX_BASE_WRITE (R420) -/
  | ctxBaseWrite (t : Nat) (v : BitVec 64)
  /-- event CTX_AREA_READY (R420) -/
  | ctxAreaReady (t : Nat)
  /-- event GANG_MAP_CHANGE (R431) -/
  | gangMapChange (gr gg : Nat)
  /-- event VIEW_TAG_FREE (R432) -/
  | viewTagFree (a w : Nat)
  /-- event DIE_LOSS (R464) -/
  | dieLoss (d : Nat)
  /-- event BASE_TILE_LOSS (R466) -/
  | baseTileLoss (t : Nat)
  /-- event DIE_CLK_CLEAR (R462) -/
  | dieClkClear (d : Nat)
  /-- event HOST_SNOOP (R470) -/
  | hostSnoop (p a : Nat) (inv : Bool)
  /-- event PORT_FILL (R470) -/
  | portFill (p a tag : Nat)
  /-- event PORT_CACHE_EVICT (R468) -/
  | portCacheEvict (p a : Nat)
  /-- event LEASE_EXPIRY (R472) -/
  | leaseExpiry (k : Nat)
  /-- event LEASE_REVOKE (R472) -/
  | leaseRevoke (k : Nat)
  /-- event LEASE_DRAIN_DONE (R472) -/
  | leaseDrainDone (k : Nat)
  /-- event LEASE_FAIL (R472) -/
  | leaseFail (k : Nat)
  /-- event BISNP (R476) -/
  | bisnp (dev a n : Nat)
  /-- event PEER_ACCESS (R478) -/
  | peerAccess (imp x off : Nat) (op : PeerOp)
  /-- event PEER_RETRY (R479) -/
  | peerRetry (k : Nat)
  /-- event POLDER_CONFIG_WRITE (R485) -/
  | polderConfigWrite (p : Nat) (v : BitVec 64)
  /-- event QUEUE_CONTROL_WRITE (R488) -/
  | queueControlWrite (p q : Nat) (v : BitVec 32)
  /-- event KEY_LOAD (R489) -/
  | keyLoad (k : Nat)
  /-- event KEY_CLEAR (R489) -/
  | keyClear (k : Nat)
  /-- event KEY_UPDATE_DONE (R491) -/
  | keyUpdateDone (k : Nat)
  /-- event ATTESTATION (R494) -/
  | attestation (a : BitVec 64)
  /-- event PAGER_WAKE (R497) -/
  | pagerWake (t : Nat)
  /-- event TMC_WAKE (R497) -/
  | tmcWake (t cause : Nat)
  /-- event TILE_HEARTBEAT (R500) -/
  | tileHeartbeat (t wr : Nat)
  /-- event TILE_RATE_SET (R500) -/
  | tileRateSet (t wr rate : Nat)
  /-- event TILE_TAKE (R501) -/
  | tileTake (t wr : Nat)
  /-- event HEARTBEAT_MISS (R501) -/
  | heartbeatMiss (t : Nat)
  /-- event TAKEOVER_TIMEOUT (R501) -/
  | takeoverTimeout (t : Nat)
  /-- event THROTTLE (R498) -/
  | throttle (d : Nat)
  /-- event THROTTLE_END (R498) -/
  | throttleEnd (d : Nat)
  /-- event POWER_CLOCK_STEP (R499) -/
  | powerClockStep (up : Bool)
  /-- event REFRESH (R500) -/
  | refresh (t : Nat)
  /-- event MGMT_REGISTER_WRITE (R483) -/
  | mgmtRegisterWrite (off n : Nat) (v : BitVec 64) (w : Writer)
  /-- event DEVICE_RESET (R409) -/
  | deviceReset
  /-- event PORT_LINK_DOWN (R468) -/
  | portLinkDown (p : Nat)
  /-- event SPILLWAY_WRITE_BACK_DONE (R247) -/
  | spillwayWriteBackDone (k : Nat) (ok : Bool)
  /-- event SHADOW_BANK_DRAIN_DONE (R419) -/
  | shadowBankDrainDone (c : Nat)
  /-- event PR_CONS_WRITE (R497) -/
  | prConsWrite (t : Nat) (v : BitVec 32)
  /-- event COW_RESV_WRITE (R497) -/
  | cowResvWrite (t st : Nat) (v : BitVec 32)
  /-- nop (R52) -/
  | nop
  /-- pblk (R49) -/
  | pblk (p l : BitVec 3) (t : BitVec 8)
  /-- add.i64 (R92) -/
  | addI64 (d a b : BitVec 7)
  /-- sub.i64 (R92) -/
  | subI64 (d a b : BitVec 7)
  /-- and.b64 (R92) -/
  | andB64 (d a b : BitVec 7)
  /-- or.b64 (R92) -/
  | orB64 (d a b : BitVec 7)
  /-- xor.b64 (R92) -/
  | xorB64 (d a b : BitVec 7)
  /-- andn.b64 (R92) -/
  | andnB64 (d a b : BitVec 7)
  /-- sll.b64 (R92) -/
  | sllB64 (d a b : BitVec 7)
  /-- srl.b64 (R92) -/
  | srlB64 (d a b : BitVec 7)
  /-- sra.b64 (R92) -/
  | sraB64 (d a b : BitVec 7)
  /-- ror.b64 (R92) -/
  | rorB64 (d a b : BitVec 7)
  /-- min.i64 (R92) -/
  | minI64 (d a b : BitVec 7)
  /-- max.i64 (R92) -/
  | maxI64 (d a b : BitVec 7)
  /-- min.n64 (R92) -/
  | minN64 (d a b : BitVec 7)
  /-- max.n64 (R92) -/
  | maxN64 (d a b : BitVec 7)
  /-- add.i32 (R92) -/
  | addI32Scalar (d a b : BitVec 7)
  /-- sub.i32 (R92) -/
  | subI32Scalar (d a b : BitVec 7)
  /-- add.i64 (R92) -/
  | addI64Imm (d a : BitVec 7) (i : Imm)
  /-- and.b64 (R92) -/
  | andB64Imm (d a : BitVec 7) (i : Imm)
  /-- or.b64 (R92) -/
  | orB64Imm (d a : BitVec 7) (i : Imm)
  /-- xor.b64 (R92) -/
  | xorB64Imm (d a : BitVec 7) (i : Imm)
  /-- sll.b64 (R90) -/
  | sllB64Imm (d a : BitVec 7) (n : BitVec 6) (lit : Bool)
  /-- srl.b64 (R90) -/
  | srlB64Imm (d a : BitVec 7) (n : BitVec 6) (lit : Bool)
  /-- sra.b64 (R90) -/
  | sraB64Imm (d a : BitVec 7) (n : BitVec 6) (lit : Bool)
  /-- ror.b64 (R90) -/
  | rorB64Imm (d a : BitVec 7) (n : BitVec 6) (lit : Bool)
  /-- ceq.b64 (R102) -/
  | scalarCompare (p : BitVec 3) (a b : BitVec 7) (k : BitVec 4)
  /-- ceq.b64 (R103) -/
  | scalarCompareImm (k : BitVec 4) (p : BitVec 3) (a : BitVec 7) (i : Imm)
  /-- pand (R104) -/
  | pand (d a b : BitVec 3)
  /-- por (R104) -/
  | por (d a b : BitVec 3)
  /-- pxor (R104) -/
  | pxor (d a b : BitVec 3)
  /-- pandn (R104) -/
  | pandn (d a b : BitVec 3)
  /-- mul.i64 (R94) -/
  | mulI64 (d a b : BitVec 7)
  /-- mulh.i64 (R94) -/
  | mulhI64 (d a b : BitVec 7)
  /-- mulh.n64 (R94) -/
  | mulhN64 (d a b : BitVec 7)
  /-- div.i64 (R95) -/
  | divI64 (d a b : BitVec 7)
  /-- div.n64 (R95) -/
  | divN64 (d a b : BitVec 7)
  /-- rem.i64 (R95) -/
  | remI64 (d a b : BitVec 7)
  /-- rem.n64 (R95) -/
  | remN64 (d a b : BitVec 7)
  /-- lea2.b64 (R94) -/
  | lea2B64 (d a b : BitVec 7)
  /-- lea4.b64 (R94) -/
  | lea4B64 (d a b : BitVec 7)
  /-- lea8.b64 (R94) -/
  | lea8B64 (d a b : BitVec 7)
  /-- lea16.b64 (R94) -/
  | lea16B64 (d a b : BitVec 7)
  /-- pack.b64 (R94) -/
  | packB64 (d a b : BitVec 7)
  /-- popc.b64 (R96) -/
  | popcB64 (d a : BitVec 7)
  /-- clz.b64 (R96) -/
  | clzB64 (d a : BitVec 7)
  /-- ctz.b64 (R96) -/
  | ctzB64 (d a : BitVec 7)
  /-- brev.b64 (R96) -/
  | brevB64 (d a : BitVec 7)
  /-- bswap.b64 (R96) -/
  | bswapB64 (d a : BitVec 7)
  /-- bext.n64 (R96) -/
  | bextN64 (d a b : BitVec 7)
  /-- bext.i64 (R96) -/
  | bextI64 (d a b : BitVec 7)
  /-- bins.b64 (R96) -/
  | binsB64 (d a b : BitVec 7)
  /-- mov.i64 (R93) -/
  | movI64 (d : BitVec 7) (i : Imm)
  /-- br (R106) -/
  | br (p : BitVec 3) (n : BitVec 1) (d : BitVec 19) (s : BitVec 2)
  /-- jr (R107) -/
  | jr (a : BitVec 7)
  /-- call (R107) -/
  | call (d a : BitVec 7)
  /-- ret (R107) -/
  | ret (a : BitVec 7)
  /-- mrd (R109) -/
  | mrd (d : BitVec 7) (i : Imm)
  /-- mwr (R110) -/
  | mwr (a : BitVec 7) (i : Imm)
  /-- wait (R111) -/
  | wait (l s : BitVec 6) (p x : BitVec 4)
  /-- ifence (R112) -/
  | ifence
  /-- rdcyc (R113) -/
  | rdcyc (d : BitVec 7)
  /-- rdtime (R113) -/
  | rdtime (d : BitVec 7)
  /-- exit (R178) -/
  | exit
  /-- yield (R179) -/
  | yield
  /-- tbar (R177) -/
  | tbar (a : BitVec 7)
  /-- join (R176) -/
  | join
  /-- idr (R175) -/
  | idrScalar (d a : BitVec 7)
  /-- idr (R175) -/
  | idrLane (d a : BitVec 7)
  /-- launch (R180) -/
  | launch (d a : BitVec 7)
  /-- kput (R397) -/
  | kput (d : BitVec 3) (a : BitVec 7)
  /-- kget (R397) -/
  | kget (d : BitVec 7) (a : BitVec 3)
  /-- brk (R414) -/
  | brk (k : BitVec 6)
  /-- dbg.halt (R415) -/
  | dbgHalt (d a : BitVec 7)
  /-- dbg.resume (R415) -/
  | dbgResume (d a : BitVec 7)
  /-- dbg.step (R415) -/
  | dbgStep (d a : BitVec 7)
  /-- dbg.rdpc (R415) -/
  | dbgRdpc (d a : BitVec 7)
  /-- dbg.watch (R416) -/
  | dbgWatch (d a : BitVec 7)
  /-- dbg.halted (R415) -/
  | dbgHalted (d a : BitVec 7)
  /-- tret (R398) -/
  | tret
  /-- tret.skip (R398) -/
  | tretSkip
  /-- tret.exit (R398) -/
  | tretExit
  /-- tret.to (R398) -/
  | tretTo (a : BitVec 7)
  /-- add.i32 (R97) -/
  | addI32 (d a b : BitVec 7)
  /-- sub.i32 (R97) -/
  | subI32 (d a b : BitVec 7)
  /-- and.b32 (R97) -/
  | andB32 (d a b : BitVec 7)
  /-- or.b32 (R97) -/
  | orB32 (d a b : BitVec 7)
  /-- xor.b32 (R97) -/
  | xorB32 (d a b : BitVec 7)
  /-- andn.b32 (R97) -/
  | andnB32 (d a b : BitVec 7)
  /-- sll.b32 (R97) -/
  | sllB32 (d a b : BitVec 7)
  /-- srl.b32 (R97) -/
  | srlB32 (d a b : BitVec 7)
  /-- sra.b32 (R97) -/
  | sraB32 (d a b : BitVec 7)
  /-- min.i32 (R97) -/
  | minI32 (d a b : BitVec 7)
  /-- max.i32 (R97) -/
  | maxI32 (d a b : BitVec 7)
  /-- min.n32 (R97) -/
  | minN32 (d a b : BitVec 7)
  /-- max.n32 (R97) -/
  | maxN32 (d a b : BitVec 7)
  /-- adds.i32 (R97) -/
  | addsI32 (d a b : BitVec 7)
  /-- subs.i32 (R97) -/
  | subsI32 (d a b : BitVec 7)
  /-- sel.b32 (R98) -/
  | selB32 (d : BitVec 7) (p : BitVec 3) (b : BitVec 7)
  /-- add.i32 (R97) -/
  | addI32Imm (d a : BitVec 7) (i : Imm)
  /-- and.b32 (R97) -/
  | andB32Imm (d a : BitVec 7) (i : Imm)
  /-- or.b32 (R97) -/
  | orB32Imm (d a : BitVec 7) (i : Imm)
  /-- xor.b32 (R97) -/
  | xorB32Imm (d a : BitVec 7) (i : Imm)
  /-- sll.b32 (R90) -/
  | sllB32Imm (d a : BitVec 7) (n : BitVec 6) (lit : Bool)
  /-- srl.b32 (R90) -/
  | srlB32Imm (d a : BitVec 7) (n : BitVec 6) (lit : Bool)
  /-- sra.b32 (R90) -/
  | sraB32Imm (d a : BitVec 7) (n : BitVec 6) (lit : Bool)
  /-- ror.b32 (R90) -/
  | rorB32Imm (d a : BitVec 7) (n : BitVec 6) (lit : Bool)
  /-- mov.b32 (R97) -/
  | movB32Imm (d : BitVec 7) (i : Imm)
  /-- mul.b32 (R99) -/
  | mulB32 (d a b : BitVec 7)
  /-- mulh.i32 (R99) -/
  | mulhI32 (d a b : BitVec 7)
  /-- mulh.n32 (R99) -/
  | mulhN32 (d a b : BitVec 7)
  /-- mad.b32 (R99) -/
  | madB32 (d a b : BitVec 7)
  /-- div.i32 (R99) -/
  | divI32 (d a b : BitVec 7)
  /-- div.n32 (R99) -/
  | divN32 (d a b : BitVec 7)
  /-- rem.i32 (R99) -/
  | remI32 (d a b : BitVec 7)
  /-- rem.n32 (R99) -/
  | remN32 (d a b : BitVec 7)
  /-- mulw.i32 (R99) -/
  | mulwI32 (d a b : BitVec 7)
  /-- mulw.n32 (R99) -/
  | mulwN32 (d a b : BitVec 7)
  /-- madw.n32 (R99) -/
  | madwN32 (d a b : BitVec 7)
  /-- dp4.i8 (R99) -/
  | dp4I8 (d a b : BitVec 7)
  /-- dp4.n8 (R99) -/
  | dp4N8 (d a b : BitVec 7)
  /-- ceq.b32 (R102) -/
  | laneCompare (p : BitVec 3) (a b : BitVec 7) (k : BitVec 4)
  /-- ceq.b32 (R103) -/
  | laneCompareImm (k : BitVec 4) (p : BitVec 3) (a : BitVec 7) (i : Imm)
  /-- bcast.b32 (R105) -/
  | bcastB32 (d a : BitVec 7)
  /-- bcast.b64 (R105) -/
  | bcastB64 (d a : BitVec 7)
  /-- rdl.n32 (R105) -/
  | rdlN32 (d a b : BitVec 7)
  /-- rdl.i32 (R105) -/
  | rdlI32 (d a b : BitVec 7)
  /-- rdl.b64 (R105) -/
  | rdlB64 (d a b : BitVec 7)
  /-- wrl.b32 (R105) -/
  | wrlB32 (d a b : BitVec 7)
  /-- mov.b32 (R105) -/
  | movB32 (d a : BitVec 7)
  /-- mov.b64 (R105) -/
  | movB64 (d a : BitVec 7)
  /-- pget.b32 (R105) -/
  | pgetB32 (d : BitVec 7) (p : BitVec 3)
  /-- popc.b32 (R100) -/
  | popcB32 (d a : BitVec 7)
  /-- clz.b32 (R100) -/
  | clzB32 (d a : BitVec 7)
  /-- ctz.b32 (R100) -/
  | ctzB32 (d a : BitVec 7)
  /-- brev.b32 (R100) -/
  | brevB32 (d a : BitVec 7)
  /-- bswap.b32 (R100) -/
  | bswapB32 (d a : BitVec 7)
  /-- bext.n32 (R100) -/
  | bextN32 (d a b : BitVec 7)
  /-- bext.i32 (R100) -/
  | bextI32 (d a b : BitVec 7)
  /-- bins.b32 (R100) -/
  | binsB32 (d a b : BitVec 7)
  /-- add.f32 (R121) -/
  | addF32 (d a b : BitVec 7)
  /-- sub.f32 (R121) -/
  | subF32 (d a b : BitVec 7)
  /-- mul.f32 (R121) -/
  | mulF32 (d a b : BitVec 7)
  /-- div.f32 (R121) -/
  | divF32 (d a b : BitVec 7)
  /-- sqrt.f32 (R121) -/
  | sqrtF32 (d a : BitVec 7)
  /-- min.f32 (R121) -/
  | minF32 (d a b : BitVec 7)
  /-- max.f32 (R121) -/
  | maxF32 (d a b : BitVec 7)
  /-- minn.f32 (R121) -/
  | minnF32 (d a b : BitVec 7)
  /-- maxn.f32 (R121) -/
  | maxnF32 (d a b : BitVec 7)
  /-- abs.f32 (R121) -/
  | absF32 (d a : BitVec 7)
  /-- neg.f32 (R121) -/
  | negF32 (d a : BitVec 7)
  /-- csgn.f32 (R121) -/
  | csgnF32 (d a b : BitVec 7)
  /-- class.f32 (R123) -/
  | classF32 (d a : BitVec 7)
  /-- ceq.f32 (R122) -/
  | compareF32 (k : BitVec 4) (p : BitVec 3) (a b : BitVec 7)
  /-- rint.f32 (R121) -/
  | rintF32 (d a : BitVec 7) (m : BitVec 3)
  /-- scl.f32 (R121) -/
  | sclF32 (d a b : BitVec 7)
  /-- add.f64 (R121) -/
  | addF64 (d a b : BitVec 7)
  /-- sub.f64 (R121) -/
  | subF64 (d a b : BitVec 7)
  /-- mul.f64 (R121) -/
  | mulF64 (d a b : BitVec 7)
  /-- div.f64 (R121) -/
  | divF64 (d a b : BitVec 7)
  /-- sqrt.f64 (R121) -/
  | sqrtF64 (d a : BitVec 7)
  /-- min.f64 (R121) -/
  | minF64 (d a b : BitVec 7)
  /-- max.f64 (R121) -/
  | maxF64 (d a b : BitVec 7)
  /-- minn.f64 (R121) -/
  | minnF64 (d a b : BitVec 7)
  /-- maxn.f64 (R121) -/
  | maxnF64 (d a b : BitVec 7)
  /-- abs.f64 (R121) -/
  | absF64 (d a : BitVec 7)
  /-- neg.f64 (R121) -/
  | negF64 (d a : BitVec 7)
  /-- csgn.f64 (R121) -/
  | csgnF64 (d a b : BitVec 7)
  /-- class.f64 (R123) -/
  | classF64 (d a : BitVec 7)
  /-- ceq.f64 (R122) -/
  | compareF64 (k : BitVec 4) (p : BitVec 3) (a b : BitVec 7)
  /-- rint.f64 (R121) -/
  | rintF64 (d a : BitVec 7) (m : BitVec 3)
  /-- scl.f64 (R121) -/
  | sclF64 (d a b : BitVec 7)
  /-- add.f16 (R124) -/
  | addF16 (d a b : BitVec 7)
  /-- sub.f16 (R124) -/
  | subF16 (d a b : BitVec 7)
  /-- mul.f16 (R124) -/
  | mulF16 (d a b : BitVec 7)
  /-- min.f16 (R124) -/
  | minF16 (d a b : BitVec 7)
  /-- max.f16 (R124) -/
  | maxF16 (d a b : BitVec 7)
  /-- add2.f16 (R124) -/
  | add2F16 (d a b : BitVec 7)
  /-- sub2.f16 (R124) -/
  | sub2F16 (d a b : BitVec 7)
  /-- mul2.f16 (R124) -/
  | mul2F16 (d a b : BitVec 7)
  /-- add.bf16 (R124) -/
  | addBf16 (d a b : BitVec 7)
  /-- sub.bf16 (R124) -/
  | subBf16 (d a b : BitVec 7)
  /-- mul.bf16 (R124) -/
  | mulBf16 (d a b : BitVec 7)
  /-- min.bf16 (R124) -/
  | minBf16 (d a b : BitVec 7)
  /-- max.bf16 (R124) -/
  | maxBf16 (d a b : BitVec 7)
  /-- add2.bf16 (R124) -/
  | add2Bf16 (d a b : BitVec 7)
  /-- sub2.bf16 (R124) -/
  | sub2Bf16 (d a b : BitVec 7)
  /-- mul2.bf16 (R124) -/
  | mul2Bf16 (d a b : BitVec 7)
  /-- fma.f32 (R125) -/
  | fmaF32 (d a b : BitVec 7)
  /-- fms.f32 (R125) -/
  | fmsF32 (d a b : BitVec 7)
  /-- fnma.f32 (R125) -/
  | fnmaF32 (d a b : BitVec 7)
  /-- fnms.f32 (R125) -/
  | fnmsF32 (d a b : BitVec 7)
  /-- fma.f64 (R125) -/
  | fmaF64 (d a b : BitVec 7)
  /-- fms.f64 (R125) -/
  | fmsF64 (d a b : BitVec 7)
  /-- fnma.f64 (R125) -/
  | fnmaF64 (d a b : BitVec 7)
  /-- fnms.f64 (R125) -/
  | fnmsF64 (d a b : BitVec 7)
  /-- fma.f16 (R125) -/
  | fmaF16 (d a b : BitVec 7)
  /-- fnma.f16 (R125) -/
  | fnmaF16 (d a b : BitVec 7)
  /-- fma2.f16 (R125) -/
  | fma2F16 (d a b : BitVec 7)
  /-- fnma2.f16 (R125) -/
  | fnma2F16 (d a b : BitVec 7)
  /-- fma.bf16 (R125) -/
  | fmaBf16 (d a b : BitVec 7)
  /-- fnma.bf16 (R125) -/
  | fnmaBf16 (d a b : BitVec 7)
  /-- fma2.bf16 (R125) -/
  | fma2Bf16 (d a b : BitVec 7)
  /-- fnma2.bf16 (R125) -/
  | fnma2Bf16 (d a b : BitVec 7)
  /-- cvt (R126) -/
  | cvt (d a : BitVec 7) (x : BitVec 1) (m s t : BitVec 3)
  /-- cvt.e4m3.f32 (R128) -/
  | cvtE4m3F32 (d a b : BitVec 7)
  /-- cvthi.e4m3.f32 (R128) -/
  | cvthiE4m3F32 (d a b : BitVec 7)
  /-- cvt.e5m2.f32 (R128) -/
  | cvtE5m2F32 (d a b : BitVec 7)
  /-- cvthi.e5m2.f32 (R128) -/
  | cvthiE5m2F32 (d a b : BitVec 7)
  /-- cvt.e4m3.f32.sat (R128) -/
  | cvtE4m3F32Sat (d a b : BitVec 7)
  /-- cvthi.e4m3.f32.sat (R128) -/
  | cvthiE4m3F32Sat (d a b : BitVec 7)
  /-- cvt.e5m2.f32.sat (R128) -/
  | cvtE5m2F32Sat (d a b : BitVec 7)
  /-- cvthi.e5m2.f32.sat (R128) -/
  | cvthiE5m2F32Sat (d a b : BitVec 7)
  /-- cvt.f32.e4m3 (R128) -/
  | cvtF32E4m3 (d a : BitVec 7) (k : BitVec 2)
  /-- cvt.f32.e5m2 (R128) -/
  | cvtF32E5m2 (d a : BitVec 7) (k : BitVec 2)
  /-- cvt2.bf16.e4m3 (R128) -/
  | cvt2Bf16E4m3 (d a : BitVec 7) (h : BitVec 1)
  /-- cvt2.bf16.e5m2 (R128) -/
  | cvt2Bf16E5m2 (d a : BitVec 7) (h : BitVec 1)
  /-- qsc (R129) -/
  | qsc (d a : BitVec 7) (t : BitVec 2)
  /-- cvt.w4.f32 (R130) -/
  | cvtW4F32 (d a b : BitVec 7)
  /-- cvt.w3.f32 (R130) -/
  | cvtW3F32 (d a b : BitVec 7)
  /-- cvt.f32.w4 (R130) -/
  | cvtF32W4 (d a b : BitVec 7)
  /-- rcp.f32 (R132) -/
  | rcp (d a : BitVec 7)
  /-- rsqrt.f32 (R132) -/
  | rsqrt (d a : BitVec 7)
  /-- sfsqrt.f32 (R132) -/
  | sfsqrt (d a : BitVec 7)
  /-- exp2.f32 (R132) -/
  | exp2 (d a : BitVec 7)
  /-- log2.f32 (R132) -/
  | log2 (d a : BitVec 7)
  /-- sinpi.f32 (R132) -/
  | sinpi (d a : BitVec 7)
  /-- cospi.f32 (R132) -/
  | cospi (d a : BitVec 7)
  /-- exp.f32 (R132) -/
  | exp (d a : BitVec 7)
  /-- sincospi.f32 (R132) -/
  | sincospi (d a : BitVec 7)
  /-- clmul.b32 (R131) -/
  | clmulB32 (d a b : BitVec 7)
  /-- clmulh.b32 (R131) -/
  | clmulhB32 (d a b : BitVec 7)
  /-- clmulw.b32 (R131) -/
  | clmulwB32 (d a b : BitVec 7)
  /-- clmul.b64 (R131) -/
  | clmulB64 (d a b : BitVec 7)
  /-- clmulh.b64 (R131) -/
  | clmulhB64 (d a b : BitVec 7)
  /-- clmulw.b64 (R131) -/
  | clmulwB64 (d a b : BitVec 7)
  /-- clmulr.b32 (R131) -/
  | clmulrB32 (d a b : BitVec 7)
  /-- clmulr.b64 (R131) -/
  | clmulrB64 (d a b : BitVec 7)
  /-- xch.at.b32 (R168) -/
  | xchAtB32 (d a b : BitVec 7)
  /-- xch.lo.b32 (R168) -/
  | xchLoB32 (d a : BitVec 7) (n : BitVec 5)
  /-- xch.hi.b32 (R168) -/
  | xchHiB32 (d a : BitVec 7) (n : BitVec 5)
  /-- xch.flip.b32 (R168) -/
  | xchFlipB32 (d a : BitVec 7) (n : BitVec 5)
  /-- xch.at.b64 (R168) -/
  | xchAtB64 (d a b : BitVec 7)
  /-- xch.lo.b64 (R168) -/
  | xchLoB64 (d a : BitVec 7) (n : BitVec 5)
  /-- xch.hi.b64 (R168) -/
  | xchHiB64 (d a : BitVec 7) (n : BitVec 5)
  /-- xch.flip.b64 (R168) -/
  | xchFlipB64 (d a : BitVec 7) (n : BitVec 5)
  /-- lall (R169) -/
  | lall (d a : BitVec 3)
  /-- lany (R169) -/
  | lany (d a : BitVec 3)
  /-- lsame.b32 (R169) -/
  | lsameB32 (d : BitVec 3) (a : BitVec 7)
  /-- lmask.b32 (R169) -/
  | lmaskB32 (d : BitVec 7) (a : BitVec 3)
  /-- scan (R171) -/
  | scan (d a : BitVec 7) (p : BitVec 3) (o : BitVec 4)
  /-- scanx (R171) -/
  | scanx (d a : BitVec 7) (p : BitVec 3) (o : BitVec 4)
  /-- red (R172) -/
  | red (d a : BitVec 7) (p : BitVec 3) (o : BitVec 4)
  /-- tput (R174) -/
  | tput (a : BitVec 7) (p : BitVec 3) (o : BitVec 4)
  /-- tget (R174) -/
  | tget (d : BitVec 7) (o : BitVec 4)
  /-- ld.n8 (R297) -/
  | ldN8 (t b x : BitVec 7) (y : BitVec 1) (o : Option (BitVec 32)) (h : BitVec 2)
  /-- ld.i8 (R297) -/
  | ldI8 (t b x : BitVec 7) (y : BitVec 1) (o : Option (BitVec 32)) (h : BitVec 2)
  /-- ld.n16 (R297) -/
  | ldN16 (t b x : BitVec 7) (y : BitVec 1) (o : Option (BitVec 32)) (h : BitVec 2)
  /-- ld.i16 (R297) -/
  | ldI16 (t b x : BitVec 7) (y : BitVec 1) (o : Option (BitVec 32)) (h : BitVec 2)
  /-- ld.b32 (R297) -/
  | ldB32 (t b x : BitVec 7) (y : BitVec 1) (o : Option (BitVec 32)) (h : BitVec 2)
  /-- ld.b64 (R297) -/
  | ldB64 (t b x : BitVec 7) (y : BitVec 1) (o : Option (BitVec 32)) (h : BitVec 2)
  /-- ld.b128 (R297) -/
  | ldB128 (t b x : BitVec 7) (y : BitVec 1) (o : Option (BitVec 32)) (h : BitVec 2)
  /-- st.b8 (R298) -/
  | stB8 (t b x : BitVec 7) (y : BitVec 1) (o : Option (BitVec 32)) (h : BitVec 2)
  /-- st.b16 (R298) -/
  | stB16 (t b x : BitVec 7) (y : BitVec 1) (o : Option (BitVec 32)) (h : BitVec 2)
  /-- st.b32 (R298) -/
  | stB32 (t b x : BitVec 7) (y : BitVec 1) (o : Option (BitVec 32)) (h : BitVec 2)
  /-- st.b64 (R298) -/
  | stB64 (t b x : BitVec 7) (y : BitVec 1) (o : Option (BitVec 32)) (h : BitVec 2)
  /-- st.b128 (R298) -/
  | stB128 (t b x : BitVec 7) (y : BitVec 1) (o : Option (BitVec 32)) (h : BitVec 2)
  /-- ld.b64 (R299) -/
  | ldScalar (t b : BitVec 7) (w : BitVec 3) (d : Disp)
  /-- st.b64 (R299) -/
  | stScalar (t b : BitVec 7) (w : BitVec 2) (d : Disp)
  /-- atom.add.i32 (R302) -/
  | atomAdd (d a : BitVec 7) (s : BitVec 3) (o : BitVec 2) (w : BitVec 1)
  /-- atom.min.i32 (R302) -/
  | atomMinI (d a : BitVec 7) (s : BitVec 3) (o : BitVec 2) (w : BitVec 1)
  /-- atom.max.i32 (R302) -/
  | atomMaxI (d a : BitVec 7) (s : BitVec 3) (o : BitVec 2) (w : BitVec 1)
  /-- atom.min.n32 (R302) -/
  | atomMinN (d a : BitVec 7) (s : BitVec 3) (o : BitVec 2) (w : BitVec 1)
  /-- atom.max.n32 (R302) -/
  | atomMaxN (d a : BitVec 7) (s : BitVec 3) (o : BitVec 2) (w : BitVec 1)
  /-- atom.and.b32 (R302) -/
  | atomAnd (d a : BitVec 7) (s : BitVec 3) (o : BitVec 2) (w : BitVec 1)
  /-- atom.or.b32 (R302) -/
  | atomOr (d a : BitVec 7) (s : BitVec 3) (o : BitVec 2) (w : BitVec 1)
  /-- atom.xor.b32 (R302) -/
  | atomXor (d a : BitVec 7) (s : BitVec 3) (o : BitVec 2) (w : BitVec 1)
  /-- atom.exch.b32 (R302) -/
  | atomExch (d a : BitVec 7) (s : BitVec 3) (o : BitVec 2) (w : BitVec 1)
  /-- atom.cas.b32 (R302) -/
  | atomCas (d a : BitVec 7) (s : BitVec 3) (o : BitVec 2) (w : BitVec 1)
  /-- atom.add.f32 (R302) -/
  | atomAddF (d a : BitVec 7) (s : BitVec 3) (o : BitVec 2) (w : BitVec 1)
  /-- ldo.b32 (R302) -/
  | ldo (d a : BitVec 7) (s : BitVec 3) (o : BitVec 2) (w : BitVec 1)
  /-- sto.b32 (R302) -/
  | sto (d a : BitVec 7) (s : BitVec 3) (o : BitVec 2) (w : BitVec 1)
  /-- rfar.add.i32 (R307) -/
  | rfarAddI32 (a b : BitVec 7)
  /-- rfar.add.i64 (R307) -/
  | rfarAddI64 (a b : BitVec 7)
  /-- rfar.min.i32 (R307) -/
  | rfarMinI32 (a b : BitVec 7)
  /-- rfar.max.i32 (R307) -/
  | rfarMaxI32 (a b : BitVec 7)
  /-- rfar.min.n32 (R307) -/
  | rfarMinN32 (a b : BitVec 7)
  /-- rfar.max.n32 (R307) -/
  | rfarMaxN32 (a b : BitVec 7)
  /-- rfar.and.b32 (R307) -/
  | rfarAndB32 (a b : BitVec 7)
  /-- rfar.or.b32 (R307) -/
  | rfarOrB32 (a b : BitVec 7)
  /-- rfar.xor.b32 (R307) -/
  | rfarXorB32 (a b : BitVec 7)
  /-- rfar.add.f32 (R307) -/
  | rfarAddF32 (a b : BitVec 7)
  /-- rfar.add.f64 (R307) -/
  | rfarAddF64 (a b : BitVec 7)
  /-- rfar.min.f32 (R307) -/
  | rfarMinF32 (a b : BitVec 7)
  /-- rfar.max.f32 (R307) -/
  | rfarMaxF32 (a b : BitVec 7)
  /-- rep.open (R306) -/
  | repOpen (a : BitVec 7)
  /-- rep.flush (R306) -/
  | repFlush
  /-- rep.close (R306) -/
  | repClose
  /-- dam.take (R311) -/
  | damTake (d a b : BitVec 7)
  /-- dam.chk (R311) -/
  | damChk (d a : BitVec 7)
  /-- dam.end (R311) -/
  | damEnd (d a : BitVec 7)
  /-- warm (R316) -/
  | warm (a b : BitVec 7)
  /-- warr (R316) -/
  | warr (d a : BitVec 7) (s : BitVec 3) (n : BitVec 4)
  /-- wwait (R316) -/
  | wwait (s : BitVec 3) (a b : BitVec 7)
  /-- wprobe (R316) -/
  | wprobe (d a : BitVec 7) (s : BitVec 3)
  /-- fence.acq (R317) -/
  | fenceAcq (s : BitVec 3)
  /-- fence.rel (R317) -/
  | fenceRel (s : BitVec 3)
  /-- fence.full (R317) -/
  | fenceFull (s : BitVec 3)
  /-- cctl.l1b (R318) -/
  | cctlL1b (a : BitVec 7)
  /-- cctl.l1all (R318) -/
  | cctlL1all
  /-- cctl.wbl (R318) -/
  | cctlWbl (d a : BitVec 7)
  /-- cctl.wbf (R318) -/
  | cctlWbf (d a : BitVec 7)
  /-- cctl.rel (R318) -/
  | cctlRel (d a : BitVec 7)
  /-- pin.reload (R319) -/
  | pinReload (d a : BitVec 7)
  /-- pin.end (R319) -/
  | pinEnd (d a : BitVec 7)
  /-- pin.set (R319) -/
  | pinSet (d a : BitVec 7)
  /-- pin.clr (R319) -/
  | pinClr (d a : BitVec 7)
  /-- cpt.copy (R335) -/
  | cptCopy (d a b : BitVec 7)
  /-- cpt.ltab (R333) -/
  | cptLtab (a b : BitVec 7)
  /-- cpt.bind (R342) -/
  | cptBind (d a : BitVec 7)
  /-- cpt.adv (R343) -/
  | cptAdv (d a : BitVec 7)
  /-- cpt.rel (R344) -/
  | cptRel (d a : BitVec 7)
  /-- cpt.res (R349) -/
  | cptRes (d a : BitVec 7) (x : BitVec 2)
  /-- mma (R361) -/
  | mma (t : BitVec 4) (z : BitVec 1) (s : BitVec 2) (a b : BitVec 7)
  /-- mld.f32 (R368) -/
  | mld (t : BitVec 4) (a : BitVec 7)
  /-- mst (R369) -/
  | mst (t : BitVec 4) (f : BitVec 1) (a b : BitVec 7)
  /-- mqst (R370) -/
  | mqst (t : BitVec 4) (q : BitVec 1) (a b : BitVec 7)
  /-- mcb (R366) -/
  | mcb (a : BitVec 7)
  /-- mxst (R371) -/
  | mxst (d : BitVec 7)
  /-- mxst.clr (R371) -/
  | mxstClr (d : BitVec 7)
  /-- fqe.pf (R385) -/
  | fqePf (d a : BitVec 7)
  /-- fqe.sync (R385) -/
  | fqeSync (d a : BitVec 7)
  /-- fqe.sub (R386) -/
  | fqeSub (d a : BitVec 7)
  /-- wfork (R446) -/
  | wfork (d a : BitVec 7)
  /-- wenter (R447) -/
  | wenter (d a : BitVec 7)
  /-- wleave (R447) -/
  | wleave (d : BitVec 7)
  /-- wchoose (R448) -/
  | wchoose (d a : BitVec 7)
  /-- wstat (R447) -/
  | wstat (d a : BitVec 7)
  /-- wwho (R447) -/
  | wwho (d : BitVec 7)
  deriving DecidableEq, Repr

end Sys2Proof
end

