-- ==== Sys2Proof/Machine/State.lean ====
section
/-! DEFINITION. The state of the device: every piece of state the specification names (INVENTORY.md, State).

All of it is plain data. Registers, memories and tables are sparse maps in one canonical form (`Map`, laws in
Sys2Proof/Laws/Store.lean): keys strictly rising, no entry equal to what an unlisted key reads as. -/

namespace Sys2Proof.Machine

/-- A sparse table: pairs of a key and a value, keys strictly rising, no entry equal to the table's default. -/
abbrev Map (α : Type) := List (Nat × α)

/-- Why the model stops: never. Every condition that the manual describes is a trap it takes, a state that waits, or a
record; so no constructor is needed. -/
inductive Fault where
  deriving DecidableEq, Repr

/-- Why an instruction has no meaning. -/
inductive Refusal where
  /-- An instruction that the model has not reached: rejected by name in Machine/Dispatch.lean. Safe. -/
  | notModelled (mnemonic : String)
  deriving DecidableEq, Repr

/-- CORE_KIND of `MSTAT` (R23). -/
inductive CoreKind where
  | compute | pager | mgmt
  deriving DecidableEq, Repr

/-- Lane state codes (R21). -/
inductive LaneState where
  | exited | live | parked | joinWait | halted | shadow
  deriving DecidableEq, Repr

/-- Block state of one lane (R49, R51, R137): captured mask bit, remaining pattern, remaining count. -/
structure Blk where
  mask : Bool
  pat : BitVec 8
  left : Nat
  deriving DecidableEq, Repr

def Blk.none : Blk := ⟨false, 0, 0⟩

/-- The registers of a group (R13 to R16, R133) with their poison (R402). A lane register `n` of lane `l` is entry
`32 n + l`; predicates and lane poison are masks over the lanes. -/
structure Regs where
  v : Map Word
  s : Map DWord
  p : Map Word
  k : Map DWord
  vPois : Map Word
  sPois : Map Bool
  pPois : Map Word
  kPois : Map Bool
  mstat : Word
  fpctl : Word
  codeBase : DWord
  trapCause : Word
  info0 : DWord
  info1 : DWord
  info2 : DWord
  info3 : DWord
  deriving DecidableEq, Repr

/-- One register write of an outstanding load (R27, R29). -/
inductive LoadWrite where
  | lane (n l : Nat) (val : Word) (pois : Bool)
  | scalar (n : Nat) (val : DWord) (pois : Bool)
  deriving DecidableEq, Repr

/-- An outstanding load, ordered load or atomic of a group: what it will write at its completion. -/
structure PendLoad where
  writes : List LoadWrite
  /-- the number under which its value comes, while that is not known (R316, R318) -/
  late : Option Nat
  deriving DecidableEq, Repr

/-- Why a group is not ready although it has an issue set (R197). -/
inductive Hold where
  | none
  /-- `tbar` (R177): weir offset and the phase before the arrival -/
  | tbar (off : Nat) (ph : Word)
  /-- `wwait` (R316): weir address, phase to pass, scope, first word of its chain -/
  | wwait (addr : Nat) (ph : Word) (scope : Nat) (pc : Word)
  /-- an acquire waiting for watermarks (R270): clock, signature (`none`: every bit), tick -/
  | acquire (clock : Map Nat) (sig : Option Nat) (since : Nat)
  /-- a release fence waiting for `M_d` (R274) -/
  | fenceRel (die epoch : Nat)
  /-- a full fence waiting for the group's accesses to be performed and for `M_d` (R266, R274) -/
  | fenceFull (die epoch : Nat)
  /-- `dam.take` waiting for its grant (R284, R311): destination, address, lease, first word of its chain -/
  | dam (d addr lease : Nat) (pc : Word)
  /-- `fqe.sync` waiting for its write-backs, then for its Flushes (R385): destination, what is outstanding, drives to
  flush -/
  | sync (d : Nat) (cmds drives : List Nat) (failed : Bool)
  /-- `wleave` waiting (R447): destination, first word of its chain -/
  | leave (d : Nat) (pc : Word)
  /-- `wchoose` committing world `v` of fork `h` into view `p` (R449): destination, held entries performed, writes to be
  acknowledged; `v` is 0 once the fork is closed -/
  | commit (d h v p n : Nat) (acks : List Nat)
  /-- the handler word is being read (R394) -/
  | handlerWord
  deriving DecidableEq, Repr

/-- What lies past a chain (R20, R398): its words, and the `pcv` at which its lanes go on; past the last packet (`ends`) the
lanes take the bad-PC trap instead, and `pc` is the `pcv` of the chain's last word. -/
structure Past where
  pc : Word
  words : Nat
  ends : Bool
  deriving DecidableEq, Repr

/-- pcv, lsv and block state of every lane (R396), and where `tret.skip` resumes. -/
structure LaneSave where
  pcv : Map Word
  lsv : Map LaneState
  blk : Map Blk
  /-- past the trapping chain (R398) -/
  skip : Option Past
  deriving DecidableEq, Repr

/-- A held reduction fault (R399). -/
structure RFault where
  addr : DWord
  cause : Nat
  detail : Nat
  key : DWord
  /-- its epoch: ASID, view and weir address -/
  asid : Nat
  view : Nat
  epa : Nat
  deriving DecidableEq, Repr

/-- A fetched packet (R37): packet index and its three words, lowest first. -/
structure Packet where
  idx : Nat
  w0 : Word
  w1 : Word
  w2 : Word
  deriving DecidableEq, Repr

/-- A group (R133): a base-tile core's single-lane group, or a group of a team. -/
structure Group where
  kind : CoreKind
  /-- tile of a base-tile core; core number of a resident compute group -/
  home : Nat
  team : Nat
  grp : Nat
  role : Nat
  roleKind : Nat
  roleGroup : Nat
  regsN : Nat
  slot : Nat
  asid : Nat
  r : Regs
  pcv : Map Word
  lsv : Map LaneState
  blk : Map Blk
  /-- past the join's chain of a JOINWAIT lane (R176) -/
  joinNext : Map (Option Past)
  /-- past the chain at which a lane parked (R142, R398) -/
  parkEnd : Map (Option Past)
  /-- block state before the chain of a `wwait` or `dam.take` that holds the group: it is issued again if the hold is
  abandoned (R312, R316) -/
  preBlk : Map Blk
  /-- trap save (R396) and handler lanes H -/
  save : Option LaneSave
  hlanes : Word
  /-- handler pcv, if the group has a handler (R394) -/
  handler : Option Word
  /-- rotation (R145) -/
  btc : Nat
  quantum : Nat
  qmask : Word
  issueNo : Nat
  lastIssue : Map Nat
  lastSet : Word
  /-- the counters of `OPCNT` (R27) -/
  ldcnt : Nat
  stcnt : Nat
  cpcnt : Nat
  mxcnt : Nat
  loads : List PendLoad
  /-- reduction epoch (R305): the address of the open epoch -/
  epa : Option Nat
  lseq : Map Nat
  /-- copy engine (R327, R342): layout table, and the context that holds each bound plan -/
  ltabBase : DWord
  ltabCount : Nat
  plans : Map (Option Nat)
  /-- fold epoch E (R173) -/
  foldE : Bool
  /-- current view, and the world: fork handle and index (R434) -/
  view : Nat
  world : Option (Nat × Nat)
  hold : Hold
  /-- debug (R415, R416) -/
  haltPend : Word
  stepPend : Word
  stepArmed : Bool
  watchPass : Word
  faults : List RFault
  pkt : Option Packet
  cycOff : Nat
  rowBase : Nat
  /-- quarter cycle number of the group's last issue (R197), and the groups that `yield` owes an issue (R179) -/
  lastCyc : Nat
  owed : List Nat
  /-- a finished group has released its slot (R143) -/
  finished : Bool
  deriving DecidableEq, Repr

/-- A slot of the fold buffer (R173). -/
structure FoldSlot where
  val : DWord
  op : Nat
  tag : Bool
  deriving DecidableEq, Repr

/-- A fork record (R433): parent view and its world, tags of the worlds, window mask, depth, spoiled worlds. -/
structure Fork where
  parent : Nat
  tags : List Nat
  mask : Nat
  depth : Nat
  spoiled : Word
  deriving DecidableEq, Repr

/-- An entry of a hold buffer (R442). -/
inductive HeldOp where
  | bytes (blk : Nat) (data : Map Byte)
  | warm (addr : Nat) (val : DWord)
  | sto (addr n : Nat) (val : DWord) (ord scope : Nat)
  deriving DecidableEq, Repr

structure Held where
  view : Nat
  op : HeldOp
  /-- its data is poisoned (R403) -/
  pois : Bool
  deriving DecidableEq, Repr

/-- Where a team stands (R147, R162, R395, R418). -/
inductive TeamPlace where
  | resident (core : Nat)
  /-- saved in slot `k` of tile `t` (R421) -/
  | saved (t k : Nat)
  | finished
  | failed
  | retired
  deriving DecidableEq, Repr

/-- A copy fault (R346 to R348). -/
structure CopyFault where
  cause : Nat
  detail : Nat
  side : Nat
  resolve : Bool
  weir : Bool
  handle : Nat
  addr : Nat
  row : Nat
  col : Nat
  delivered : Bool
  deriving DecidableEq, Repr

/-- A box: ownership not yet requested, waiting on an access, running, stopped at a fault, complete. -/
inductive BoxState where
  | fresh | waiting | running | faulted (f : CopyFault) | done
  deriving DecidableEq, Repr

/-- One box of a copy command (R328, R335). -/
structure CopyBox where
  lane : Nat
  sr : Nat
  sc : Nat
  dr : Nat
  dc : Nat
  pos : Nat
  state : BoxState
  padded : Bool
  clipped : Bool
  outcome : Nat
  patch : Option DWord
  /-- its status has been written, and its weir update made or left out (R335, R349) -/
  told : Bool
  weirDone : Bool
  /-- its stores, whose acknowledgement completion waits for -/
  sts : List Nat
  deriving DecidableEq, Repr

/-- The layouts of a command, or of a step of a plan: handles, and records once read. -/
structure CopyPair where
  src : Nat
  dst : Nat
  srcRec : Option Nat
  dstRec : Option Nat
  deriving DecidableEq, Repr

/-- A copy command or a stage of a plan (R335, R343), by its number in issue order, with what it captured at issue. -/
structure CopyCmd where
  id : Nat
  vd : Option Nat
  ctl : Word
  weirAddr : Nat
  stage : Option Nat
  asid : Nat
  view : Nat
  ltabBase : Nat
  ltabCount : Nat
  maint : Bool
  /-- it may come to own registers of its group, which waits meanwhile (R340) -/
  early : Bool
  /-- one for a dynamic copy, one for each step of a stage -/
  pairs : List CopyPair
  resolved : Bool
  fault : Option CopyFault
  boxes : List CopyBox
  /-- doubles read from row-offset arrays by address, `none` where unreadable (R329) -/
  rows : List (Nat × Option Nat)
  /-- blocks it owns as they stood before it (R338): block, bytes, poison -/
  before : List (Nat × Nat × Bool)
  /-- what happens before it (R261, R338) -/
  clock : Map Nat
  deriving DecidableEq, Repr

/-- A bound plan (R342): header and steps with the records they name, as read at the bind. -/
structure Plan where
  header : Nat
  steps : List (Nat × Nat × Nat)
  stage : Nat
  released : Bool
  deriving DecidableEq, Repr

/-- A copy context (R325). -/
structure CopyCtx where
  grp : Nat
  team : Nat
  plan : Option Plan
  cmds : List CopyCmd
  deriving DecidableEq, Repr

structure Team where
  grid : Nat
  lin : Nat
  place : TeamPlace
  nGroups : Nat
  /-- core of its last placement, whose scratchpad it keeps for its gang (R214) -/
  core : Nat
  scratch : Nat
  /-- physical 4 KiB piece of each piece of the allotment (R196) -/
  pieces : List Nat
  fold : Map (Option FoldSlot)
  mbox : DWord
  watch : Map DWord
  forks : Map (Option Fork)
  held : List Held
  /-- child grids not retired, by slot (R160) -/
  children : Map (Option Nat)
  /-- NV, OF, POISON of each quarter (R364) -/
  mxstat : Map (BitVec 3)
  placedAt : Nat
  /-- rises with each placement and resumption: the order of R190 -/
  placeNo : Nat
  /-- tile and slot that hold the scratchpad of a finished team while its gang is away (R157, R214) -/
  padSlot : Option (Nat × Nat)
  /-- flash Reads that hold a swapped-out team back (R382) -/
  waits : List Nat
  /-- copy contexts of a saved team (R423) -/
  imgs : List CopyCtx
  /-- the die to which a thermal move takes it (R199) -/
  dest : Option Nat
  /-- poison of the codebook banks of a saved team (R402) -/
  cbPois : BitVec 2
  /-- 1 while it is being saved, 2 while its restore waits for watermarks (R418, R427) -/
  busy : Nat
  deriving DecidableEq, Repr

/-- An entry of a window table with its pin (R216, R221). -/
structure Window where
  base : Nat
  bytes : Nat
  kind : Nat
  cls : Nat
  deadline : Nat
  fade0 : Nat
  widx : Nat
  fade : Nat
  lapsed : Bool
  deriving DecidableEq, Repr

/-- A grid: its launch record as one little-endian number of 256 bytes (R183) and its course. -/
structure Grid where
  record : Nat
  queue : Option (Nat × Nat × Nat)
  parent : Option (Nat × Nat)
  asid : Nat
  polder : Nat
  level : Nat
  depth : Nat
  maint : Bool
  accepted : Nat
  windows : List Window
  /-- the window table is still to be read (R216) -/
  tableDue : Bool
  next : Nat
  back : List Nat
  retiredTeams : List Nat
  early : Bool
  depPassed : Bool
  view : Nat
  replays : Nat
  /-- those of them that a lost die brought about (R465) -/
  lossReplays : Nat
  replayed : Bool
  wantReplay : Bool
  lastErr : Option (Nat × Nat)
  /-- 0 while it runs; the code of R188 once decided -/
  status : Nat
  reason : Nat
  start : Nat
  lastDie : Option Nat
  /-- retired, and its completion written or lost -/
  done : Bool
  deriving DecidableEq, Repr

/-- Per-core state of a compute core (0 to 1023) or a base-tile core (1024 + u). -/
structure CoreSt where
  cyc : Nat
  kclk : Map Nat
  sig : Nat
  act : Nat
  cbgen : Nat
  cbPois : BitVec 2
  bank : Nat
  draining : Bool
  retired : Bool
  muRetired : BitVec 4
  deriving DecidableEq, Repr

/-- A release write that a location holds (R260): agent, scope, the accesses that happen before it, and where the agent
stood: group, team, gang, die (R257). -/
structure SyncRec where
  agent : Nat
  scope : Nat
  clock : Map Nat
  place : Option (Nat × Nat × Nat × Nat)
  deriving DecidableEq, Repr

/-- A level-1 block (R201): core, its tag, the block at whose home it was filled, its 64 bytes as a number, cycle of its
fill, filled by a fetch, and the X bit of its frame at its fill (R240). `State.l1` holds blocks in the order of their
fills. -/
structure L1Block where
  core : Nat
  blk : Nat
  home : Nat
  data : Nat
  filled : Nat
  fetch : Bool
  x : Bool
  /-- accesses after its fill that met bytes which differ from its own: the agent, the agent's time, those bytes (R262) -/
  seen : List (Nat × Nat × Nat)
  /-- the releases that its words carry, by word (R260) -/
  sync : List (Nat × SyncRec)
  deriving DecidableEq, Repr

/-- A level-2 line (R202, R240, R242); its bytes stand in the home memory. -/
structure L2Line where
  dirty : Bool
  w : Bool
  x : Bool
  gen : Nat
  sharers : Word
  allSharers : Bool
  deriving DecidableEq, Repr

/-- A release record (R268): clock, releasing cores, signature (`none`: every bit set). The record of an on-chip word
carries no clock (R273). -/
structure RelRec where
  clock : Map Nat
  cores : List Nat
  sig : Option Nat
  deriving DecidableEq, Repr

/-- An entry of the inverted table (R238). STATE is 0 free, 1 valid, 2 filling, 3 evicting; the model marks a retired
frame 4 (R409) and a frame held in the copy-on-write reserve 5 (R250). Whether a frame is pinned follows from `pins`. -/
structure Frame where
  state : Nat
  w : Bool
  x : Bool
  table : Bool
  asid : Nat
  view : Nat
  vpn : Nat
  next : Nat
  access : Nat
  sub : BitVec 16
  dirty : BitVec 16
  /-- a NEED_BACKING item was posted and no leaf has changed since (R246) -/
  needPosted : Bool
  /-- the next bypass access is the one that caused the frame's fill: it is not counted again (R253) -/
  counted : Bool
  deriving DecidableEq, Repr

/-- A pin on regions of one ASID (R219): who holds it. -/
inductive PinBy where
  | window (grid idx : Nat)
  | pinSet
  | boot
  | ctxArea (tile : Nat)
  deriving DecidableEq, Repr

structure Pin where
  asid : Nat
  first : Nat
  count : Nat
  by_ : PinBy
  deriving DecidableEq, Repr

/-- An entry of a stack's walk cache (R241): level, VA prefix, the entry, and the lines with the GEN read (R244). -/
structure WalkEntry where
  stack : Nat
  asid : Nat
  level : Nat
  pre : Nat
  entry : Nat
  lines : List (Nat × Nat)
  deriving DecidableEq, Repr

/-- What a TU's frame cache holds (R240). -/
inductive TuHit where
  | aliasLeaf (target : Nat) (w x : Bool)
  | host (port hpa : Nat) (w x : Bool)
  | peer (lease off : Nat) (w x : Bool)
  deriving DecidableEq, Repr

structure TuEntry where
  stack : Nat
  asid : Nat
  view : Nat
  page : Nat
  hit : TuHit
  lines : List (Nat × Nat)
  deriving DecidableEq, Repr

/-- The kinds of access that translation serves (R240, R252). -/
inductive AccKind where
  | load | store | weir | fetch | engineLoad | engineStore
  deriving DecidableEq, Repr

/-- Who waits on a request. -/
inductive ReqWho where
  | lanes (g : Nat) (mask : Word)
  | handler (g : Nat)
  /-- a box (`64 command + box`, 63 for the command itself), what it accesses: 0 source, 1 destination, 2 and 3
  row offsets of them, 4 the weir, 5 a record, and its address -/
  | copy (core ctx box what at_ : Nat)
  | far (contrib : Nat)
  | commit (g : Nat)
  /-- a `dam.take` in the queue of a block (R284, R287) -/
  | take (g : Nat)
  | completion (grid : Nat)
  /-- the read of the queue's entry for a replay (R455) -/
  | replay (grid : Nat)
  | record (grid : Nat)
  /-- the window table of a grid (R216) -/
  | table (grid : Nat)
  | area (tile : Nat)
  /-- an access of the device itself, made again once it can be: the arrival of a `rep.close` (R306), the data and the
  completion of a `fqe.sub` (R386), an access of a peer (R478), the fill of a view frame (R440) -/
  | close (store : Nat)
  | sub (cmd : Nat)
  | peer (imp xwin : Nat)
  | evict (asid view line : Nat)
  /-- the end of a round of the epoch whose weir stands there (R309) -/
  | round (asid view epa : Nat)
  /-- a record of a tile's error ring, an entry of its pager ring: they post no item (R405, R497) -/
  | errRec (tile : Nat)
  | ring (tile : Nat)
  /-- a prefetch of a region: dropped without trace at any fault (R254) -/
  | prefetch
  deriving DecidableEq, Repr

inductive ReqState where
  | fresh
  /-- waits for the frame to change state (R240) -/
  | onFrame (fk : Nat)
  /-- waits for a COW break (R250) -/
  | onCow
  /-- waits for the reply to an item (R393), or for room in the ring (R497) -/
  | onItem (k : Nat)
  /-- waits for a draining lease (R473) -/
  | onLease (i : Nat)
  /-- waits for a port fill (R470) -/
  | onPort (p blk : Nat)
  /-- waits for a peer's response (R479) -/
  | onPeer (tries : Nat)
  /-- waits for a block that an engine owns or a cofferdam holds (R275, R284) -/
  | onBlock (blk : Nat)
  deriving DecidableEq, Repr

/-- The class of a request and its deadline stamp (R222), and the ASID whose polder counts it. -/
structure Stamp where
  asid : Nat
  cls : Nat
  due : Nat
  deriving DecidableEq, Repr

/-- A request that level-2 missed (R240). -/
structure Req where
  id : Nat
  asid : Nat
  view : Nat
  va : Nat
  kind : AccKind
  /-- allocation hint (R225) -/
  hint : Nat
  who : ReqWho
  state : ReqState
  stamp : Stamp
  /-- it caused the fill of the frame that it waits for (R253) -/
  caused : Bool
  /-- its walks that failed the comparison of R244 -/
  fails : Nat
  /-- it breaks a copy-on-write share (R250) -/
  breaks : Bool
  deriving DecidableEq, Repr

/-- A work item of the pager ring (R252, R393). -/
structure Item where
  id : Nat
  tile : Nat
  cause : Nat
  level : Nat
  access : Nat
  asid : Nat
  view : Nat
  va : Nat
  entry : Nat
  frame : Nat
  time : Nat
  /-- ring index once posted (R497) -/
  slot : Option Nat
  deriving DecidableEq, Repr

/-- A fill in flight (R245). -/
structure Fill where
  fk : Nat
  subs : BitVec 16
  cmds : List Nat
  lines : List (Nat × Nat)
  w : Bool
  x : Bool
  stamp : Stamp
  /-- the walk holds its lines until the comparison (R244) -/
  holds : Bool
  /-- a prefetch: a part that fails is dropped without trace (R254, R385) -/
  pf : Bool
  deriving DecidableEq, Repr

/-- A write-back in flight of a victim or on request (R247, R383). -/
structure Spill where
  id : Nat
  fk : Nat
  subs : BitVec 16
  cmds : List Nat
  /-- a part of it failed: NVMe status and outcome (R380, R383) -/
  failed : Option (Nat × Nat)
  /-- free the frame at the end -/
  free : Bool
  stamp : Stamp
  /-- an outstanding load of the same number takes its status (R318) -/
  tell : Bool
  /-- it was begun for a copy-on-write reserve (R250) -/
  resv : Bool
  /-- a `fqe.sync` waits for it (R385) -/
  sync : Bool
  deriving DecidableEq, Repr

/-- An invalidation of a table line that is under way (R243): the stacks yet to act. -/
structure Inval where
  id : Nat
  line : Nat
  asids : List Nat
  toStacks : Word
  deriving DecidableEq, Repr

/-- What a store outstanding waits for (R27, R296). -/
inductive StoreKind where
  /-- a store performed at its home: the invalidations of R243 it waits for -/
  | write (invs : List Nat)
  /-- an `rfar`: contributions not yet staged or folded -/
  | far (left : Nat)
  /-- a `rep.close`: the arrival not yet performed -/
  | close (asid view epa : Nat)
  deriving DecidableEq, Repr

/-- A store not yet acknowledged (R27), with its stamp (R267). `grp` is `none` for writes of engines. -/
structure PendStore where
  id : Nat
  grp : Option Nat
  die : Nat
  stamp : Nat
  kind : StoreKind
  /-- bytes of home memory that nothing has accessed since it wrote them, and what they held before (R8, R464) -/
  undo : List (Nat × Byte)
  deriving DecidableEq, Repr

/-- A cofferdam (R284 to R287). -/
structure Dam where
  id : Nat
  blk : Nat
  grp : Nat
  core : Nat
  ends : Nat
  /-- the key under which its group took it -/
  req : Nat
  buf : Map Byte
  /-- a buffered store carried poison -/
  pois : Bool
  breached : Bool
  deriving DecidableEq, Repr

/-- Ownership of a block by an engine (R275): requested in issue order, held once it takes hold. -/
structure Own where
  id : Nat
  blk : Nat
  core : Nat
  /-- the command, and its box (`64 command + box`) -/
  cmd : Nat
  box : Nat
  grp : Nat
  held : Bool
  /-- destination bytes of the box in the block that are not yet written -/
  left : Nat
  deriving DecidableEq, Repr

inductive ContribPlace where
  | buffered | inFlight | waiting | staged
  deriving DecidableEq, Repr

/-- A far reduction on its way (R305, R307, R308). -/
structure Contrib where
  id : Nat
  asid : Nat
  view : Nat
  va : Nat
  fn : Nat
  val : DWord
  pois : Bool
  key : Nat
  dom : Option Nat
  epa : Nat
  grp : Nat
  core : Nat
  quarter : Nat
  store : Nat
  place : ContribPlace
  deriving DecidableEq, Repr

/-- A round of an epoch that is closing (R309): slices yet to fold, and the updates that wait: arrivals, bytes, whether it
counts an arrival of a group, and the outstanding load that takes its phase (R316). -/
structure Closing where
  asid : Nat
  view : Nat
  epa : Nat
  slices : List Nat
  waits : List (Nat × Nat × Bool × Option Nat)
  deriving DecidableEq, Repr

/-- A matrix command (R351): what it captured at issue. -/
inductive MuOp where
  | mma (t : Nat) (z : Bool) (bsel : Nat) (par side : List Word) (cap : Option (Nat × Nat))
  | mld (t off : Nat)
  | mst (t off : Nat) (bf16 : Bool) (weir : Option Nat)
  | mqst (t off : Nat) (e5m2 : Bool) (weir : Option Nat)
  deriving DecidableEq, Repr

structure MuCmd where
  id : Nat
  grp : Nat
  op : MuOp
  /-- what happens before it (R261, R373) -/
  clock : Map Nat
  deriving DecidableEq, Repr

/-- An `mcb` that waits in its unit (R351): the group, the offset of the table, and what happens before it. -/
structure CbCmd where
  grp : Nat
  off : Nat
  clock : Map Nat
  deriving DecidableEq, Repr

/-- An NVMe command outstanding at a flash queue engine (R378, R379). -/
inductive NvmeFor where
  | fill (fk : Nat)
  | spill (k : Nat)
  /-- a Flush of a `fqe.sync` -/
  | sync (g : Nat)
  | sub (recAddr weir buf : Nat)
  deriving DecidableEq, Repr

structure Nvme where
  id : Nat
  fqe : Nat
  pair : Nat
  op : Nat
  drive : Nat
  ns : Nat
  lba : Nat
  count : Nat
  /-- address and key slot of each block's data -/
  parts : List (Nat × Nat)
  /-- submitted to the drive (R379) -/
  sent : Bool
  /-- the status field and the outcome with which it ended, while its data or its completion wait for memory (R386) -/
  ended : Option (Nat × Nat)
  tries : Nat
  time : Nat
  expected : Nat
  what : NvmeFor
  deriving DecidableEq, Repr

/-- A block of a port cache (R468): 1 Shared, 2 Exclusive, 3 Modified; 4 is a fill that is not installed and serves the
groups `uses` that waited for it (R470). -/
structure PortBlk where
  port : Nat
  blk : Nat
  state : Nat
  uses : List Nat
  deriving DecidableEq, Repr

structure Port where
  down : Bool
  tags : Nat
  snoops : Map (Option Nat)
  deriving DecidableEq, Repr

inductive TagState where
  | free | live | draining
  deriving DecidableEq, Repr

/-- A view tag of an ASID (R432): its state, parent view, windows as (base, bytes), depth, replay attempt. -/
structure ViewTag where
  state : TagState
  parent : Nat
  windows : List (Nat × Nat)
  depth : Nat
  replay : Bool
  deriving DecidableEq, Repr

/-- A compute die (R267, R462, R464, R498). -/
structure Die where
  epoch : Nat
  clock : Map Nat
  mark : Nat
  known : Map Nat
  pub : BitVec 7
  sweeps : Nat
  /-- the epoch that ended when a running sweep began (R271) -/
  sweep : Option Nat
  fullDrops : Nat
  waitTicks : Nat
  lost : Bool
  throttled : Bool
  mhz : Nat
  deriving DecidableEq, Repr

/-- A base tile (R405, R420, R493, R497, R498, R500). -/
structure Tile where
  stage : Nat
  failcode : Nat
  rate : Nat
  rateEff : Nat
  owner : Nat
  orphan : Bool
  lastHb : Nat
  missAt : Option Nat
  /-- no take-over within 10 ms of the miss (R501) -/
  overdue : Bool
  takenFrom : List Nat
  therm : DWord
  sensors : Map (BitVec 16)
  pagerRing : DWord
  prProd : Nat
  prCons : Nat
  cowTarget : Map Nat
  meas : BitVec 512
  errBase : DWord
  errCount : Nat
  errLost : Bool
  ctxBase : DWord
  ctxReady : Bool
  slots : Map Nat
  lost : Bool
  wake : List Nat
  lastTimer : Nat
  deriving DecidableEq, Repr

structure Queue where
  base : DWord
  ctl : Word
  prod : Word
  cons : Word
  acc : Word
  deriving DecidableEq, Repr

/-- A polder and its block (R485, R487). -/
structure Polder where
  cfg : DWord
  tune : DWord
  dl : DWord
  missed : Map Word
  status : Word
  queues : Map Queue
  stage : BitVec 128
  windows : Map (BitVec 128)
  deriving DecidableEq, Repr

/-- The device block (R489, R494 to R496). -/
structure Dev where
  poweredOn : Bool
  run : Bool
  fatal : Bool
  failcode : Nat
  domain : Word
  portMode : Word
  cfgStatus : Word
  driveBind : Map Word
  pwrLimit : Word
  mhz : Nat
  keyData : BitVec 512
  keys : Map (Option (BitVec 512))
  keyPending : List (Nat × Option (BitVec 512))
  nonce : BitVec 256
  attest : Nat
  attestBusy : Option DWord
  featAccept : DWord
  msix : List Nat
  deriving DecidableEq, Repr

/-- A trap request of the word being issued (R390, R391): cause, lane, TRAP_INFO. -/
structure TrapReq where
  cause : Nat
  lane : Nat
  i0 : DWord
  i1 : DWord
  i2 : DWord
  i3 : DWord
  /-- ADDR of a POISON_CONSUMED record (R457) -/
  addr : Nat
  deriving DecidableEq, Repr

/-- The issue in progress (R135, R45, R47). -/
structure Issue where
  unit : Nat
  /-- the issue set, and its lanes with effect for the word being performed -/
  set : Word
  eff : Word
  /-- pcv of the word, of the chain's first word, of the first word after the chain (R108), and the word -/
  pc : Word
  chainPc : Word
  next : Word
  word : Word
  /-- the registers before the chain, while a chain of more than one word issues (R45) -/
  pre : Option Regs
  /-- `OPCNT` as it stood before that chain (R109) -/
  opcnt : Option Word
  /-- past the chain, once its extent is known -/
  skip : Option Past
  /-- only the traps of the chain's words are looked for: no lane parks or halts, no access is made (R401 step 3) -/
  probe : Bool
  /-- lanes that take the bad-PC trap at the end of the chain, and the `pcv` it reports (R20) -/
  late : Option (Word × Word)
  trap : Option TrapReq
  /-- lanes whose pcv a word of the chain has set -/
  moved : Word
  /-- floating-point flags raised by the chain, merged at its end (R119) -/
  raised : BitVec 5
  unif : Bool
  stalled : Bool
  parked : Word
  /-- mismatch of a lane pair of a protected launch (R411): even lane and AUX -/
  mism : Option (Nat × DWord)
  deriving DecidableEq, Repr

/-- An access that the race detector remembers (R281, R283): its agent, the agent's time, the bytes of the sector. -/
structure SectAcc where
  agent : Nat
  time : Nat
  bytes : Word
  write : Bool
  pc : Word
  core : Nat
  grp : Nat
  engine : Bool
  deriving DecidableEq, Repr

/-- The race detector's record of happens-before (R261, R283, R412), by agent number: groups by their number, copy
contexts `2^60 + 16 core + context`, matrix units `2^61 + 4 core + quarter`. -/
structure Race where
  vc : Map (Map Nat)
  sect : Map (List SectAcc)
  sync : Map (List SyncRec)
  relF : Map (List SyncRec)
  acqP : Map (List SyncRec)
  /-- ticks of the last records, and suppressed reports, of a slice or core -/
  recs : Map (List Nat)
  lost : Map Nat
  deriving DecidableEq, Repr

def Race.none : Race := { vc := [], sect := [], sync := [], relF := [], acqP := [], recs := [], lost := [] }

/-- The device. -/
structure State where
  /-- the executing group, its number, and the other groups by number: pager core t is t, management core t is 8 + t,
  group g of team k is 16 + 32 k + g -/
  g : Group
  gid : Nat
  others : Map (Option Group)
  iss : Issue
  /-- steps due, free values drawn, next identifier (log 3, 4) -/
  agenda : List Instr
  free : Nat
  ids : Nat
  /-- reference timer (R6) -/
  tick : Nat
  teams : Map (Option Team)
  grids : Map (Option Grid)
  cores : Map CoreSt
  dies : Map Die
  tiles : Map Tile
  polders : Map Polder
  dev : Dev
  ports : Map Port
  /-- home memory by `((asid * 64 + view) * 2^57 + va)`, and the other memories -/
  mem : Map Byte
  scratch : Map Byte
  /-- words of register-file rows that no group holds (R210) -/
  rows : Map Word
  acc : Map Word
  codebook : Map (BitVec 16)
  host : Map Byte
  pool : Map Byte
  flash : Map Byte
  peer : Map Byte
  /-- poisoned 64-byte blocks (R402) by block key -/
  pois : Map Bool
  /-- blocks of a view: 1 filled clean, 2 written (R440) -/
  viewBlk : Map Nat
  tags : Map ViewTag
  l1 : List L1Block
  l2 : Map (Option L2Line)
  /-- table lines evicted since they last held their bitmap (R243) -/
  lostDir : Map Bool
  rel : Map (Option RelRec)
  /-- stamp of the last write of a registered word (R268): die and epoch as `2^32 die + epoch` -/
  stamps : Map Nat
  lostClk : Map (Map Nat)
  frames : Map Frame
  anchors : Map Nat
  hand : Map Nat
  pins : List Pin
  walk : List WalkEntry
  tu : List TuEntry
  reqs : List Req
  items : List Item
  fills : List Fill
  spills : List Spill
  invals : List Inval
  stores : List PendStore
  dams : List Dam
  owns : List Own
  contribs : List Contrib
  closings : List Closing
  closeArr : Map Nat
  ctxs : Map (Option CopyCtx)
  mu : Map (List MuCmd)
  cbq : Map (List CbCmd)
  nvme : List Nvme
  readTimes : Map (List Nat)
  portCache : List PortBlk
  /-- fills that the prefetch engine of a tile has seen: tile, region, tick (R254) -/
  fillLog : List (Nat × Nat × Nat)
  /-- stamps of prefetches that are due, by region (R254) -/
  pfStamps : List (Nat × Stamp)
  /-- error records that wait for their page: tile and the record's 64 bytes but SEQ and LOST (R405) -/
  errDue : List (Nat × Nat)
  race : Race
  deriving DecidableEq, Repr

/-- Registers all zero, `MSTAT` with its CORE_KIND and PRV (R23, R33). -/
def Regs.zero (mstat : Word) (codeBase : DWord) : Regs :=
  { v := [], s := [], p := [], k := [], vPois := [], sPois := [], pPois := [], kPois := [], mstat := mstat,
    fpctl := 0, codeBase := codeBase, trapCause := 0, info0 := 0, info1 := 0, info2 := 0, info3 := 0 }

/-- A base-tile core after its reset (R33): its single lane LIVE at packet 0. -/
def Group.atReset (kind : CoreKind) (tile : Nat) (mstat : Word) (codeBase : DWord) : Group :=
  { kind := kind, home := tile, team := 0, grp := 0, role := 0, roleKind := 0, roleGroup := 0, regsN := 128,
    slot := 0, asid := 0, r := Regs.zero mstat codeBase, pcv := [], lsv := [(0, .live)], blk := [], joinNext := [], parkEnd := [], preBlk := [], save := none,
    hlanes := 0, handler := none, btc := 0, quantum := 0, qmask := 0, issueNo := 0, lastIssue := [], lastSet := 0,
    ldcnt := 0, stcnt := 0, cpcnt := 0, mxcnt := 0, loads := [], epa := none, lseq := [], ltabBase := 0,
    ltabCount := 0, plans := [], foldE := false, view := 0, world := none, hold := .none, haltPend := 0,
    stepPend := 0, stepArmed := false, watchPass := 0, faults := [], pkt := none, cycOff := 0, rowBase := 0,
    lastCyc := 0, owed := [], finished := false }

/-- The pager core of tile `t` at reset: CORE_KIND 1, PRV 1, CODE_BASE 0x20_0000 (R23, R24, R33, R493). -/
def Group.pagerReset (t : Nat) : Group := Group.atReset .pager t 0x01000010#32 0x200000#64

/-- The tile management core of tile `t` at reset: CORE_KIND 2, PRV 2, CODE_BASE 0x10_0000. -/
def Group.mgmtReset (t : Nat) : Group := Group.atReset .mgmt t 0x02000020#32 0x100000#64

/-- No issue in progress. -/
def Issue.none : Issue :=
  { unit := 0, set := 0, eff := 0, pc := 0, chainPc := 0, next := 0, word := 0, pre := Option.none, opcnt := Option.none, skip := Option.none,
    probe := false, late := Option.none, trap := Option.none, moved := 0, raised := 0, unif := false, stalled := false, parked := 0, mism := Option.none }

/-- A compute or base-tile core at start-up. -/
def CoreSt.reset : CoreSt :=
  { cyc := 0, kclk := [], sig := 0, act := 0, cbgen := 0, cbPois := 0, bank := 0, draining := false,
    retired := false, muRetired := 0 }

/-- A die at start-up: E_d is 1 (R267), PUB 125 (R462), the nominal clock. -/
def Die.reset : Die :=
  { epoch := 1, clock := [], mark := 0, known := [], pub := 125, sweeps := 0, sweep := Option.none, fullDrops := 0, waitTicks := 0,
    lost := false, throttled := false, mhz := 1500 }

/-- A base tile at power-good (R495, R497, R498, R500, R502, R503); OWNER of tile t is t. -/
def Tile.reset (t : Nat) : Tile :=
  { stage := 0, failcode := 0, rate := 1, rateEff := 1, owner := t, orphan := false, lastHb := 0,
    missAt := Option.none, overdue := false, takenFrom := [], therm := 0x0370032002F8#64, sensors := [], pagerRing := 0, prProd := 0,
    prCons := 0, cowTarget := [], meas := 0, errBase := 0, errCount := 0, errLost := false,
    ctxBase := 0, ctxReady := false, slots := [], lost := false, wake := [], lastTimer := 0 }

/-- What an unlisted tile reads as: tile 0's values (every tile stands in the table at reset). -/
def Tile.dflt : Tile := Tile.reset 0

def Queue.reset : Queue := { base := 0, ctl := 0, prod := 0, cons := 0, acc := 0 }

/-- A polder block at reset (R485, R487). -/
def Polder.reset : Polder :=
  { cfg := 0, tune := 0x186A0000#64, dl := 0x0100040010004000#64, missed := [], status := 0, queues := [],
    stage := 0, windows := [] }

/-- The device block at reset (R496). -/
def Dev.reset : Dev :=
  { poweredOn := false, run := false, fatal := false, failcode := 0, domain := 0, portMode := 0, cfgStatus := 0,
    driveBind := [], pwrLimit := 12000, mhz := 1500, keyData := 0, keys := [], keyPending := [], nonce := 0,
    attest := 0, attestBusy := Option.none, featAccept := 0, msix := [] }

def Port.reset : Port := { down := false, tags := 0, snoops := [] }

/-- A frame that is free and linked nowhere (R238). -/
def Frame.free : Frame :=
  { state := 0, w := false, x := false, table := false, asid := 0, view := 0, vpn := 0,
    next := 0xFFFFF, access := 0, sub := 0, dirty := 0, needPosted := false, counted := false }

def ViewTag.reset : ViewTag := { state := .free, parent := 0, windows := [], depth := 0, replay := false }

/-- The device right after power-good: base-tile cores as R33 leaves them, polder 0 enabled (R485), every register at
the value of INVENTORY.md, and the power-on step due. -/
def State.reset : State :=
  { g := Group.pagerReset 0, gid := 0,
    others :=
      [(1, some (Group.pagerReset 1)), (2, some (Group.pagerReset 2)), (3, some (Group.pagerReset 3)),
       (4, some (Group.pagerReset 4)), (5, some (Group.pagerReset 5)), (6, some (Group.pagerReset 6)),
       (7, some (Group.pagerReset 7)), (8, some (Group.mgmtReset 0)), (9, some (Group.mgmtReset 1)),
       (10, some (Group.mgmtReset 2)), (11, some (Group.mgmtReset 3)), (12, some (Group.mgmtReset 4)),
       (13, some (Group.mgmtReset 5)), (14, some (Group.mgmtReset 6)), (15, some (Group.mgmtReset 7))],
    iss := Issue.none, agenda := [.powerOnBoot], free := 0, ids := 1, tick := 0, teams := [],
    grids := [], cores := [], dies := [],
    tiles :=
      [(1, Tile.reset 1), (2, Tile.reset 2), (3, Tile.reset 3), (4, Tile.reset 4), (5, Tile.reset 5),
       (6, Tile.reset 6), (7, Tile.reset 7)],
    polders := [(0, { Polder.reset with cfg := 0x8000000000000000#64 })], dev := Dev.reset, ports := [],
    mem := [], scratch := [], rows := [], acc := [], codebook := [], host := [], pool := [], flash := [], peer := [],
    pois := [], viewBlk := [], tags := [], l1 := [], l2 := [], lostDir := [], rel := [], stamps := [], lostClk := [],
    frames := [], anchors := [], hand := [], pins := [], walk := [], tu := [], reqs := [], items := [], fills := [],
    spills := [], invals := [], stores := [], dams := [], owns := [], contribs := [], closings := [],
    closeArr := [], ctxs := [], mu := [], cbq := [], nvme := [], readTimes := [], portCache := [], fillLog := [], pfStamps := [], errDue := [],
    race := Race.none }

end Sys2Proof.Machine
end

