-- ==== Sys2Proof/Machine/Store.lean ====
section
/-! DEFINITION. Sparse tables, byte strings and bit helpers that every operation uses.

`mapSet` keeps the canonical form of a table (keys strictly rising, no entry at the default); the laws are in
Sys2Proof/Laws/Store.lean. -/

namespace Sys2Proof.Machine

/-- The value of key `q`; an unlisted key reads as `d`. -/
def mapGet {α : Type} (d : α) : Map α → Nat → α
  | [], _ => d
  | (k, v) :: m, q => if k = q then v else mapGet d m q

/-- Sets key `k` to `v` and lists it whatever `v` is. -/
def mapPut {α : Type} : Map α → Nat → α → Map α
  | [], k, v => [(k, v)]
  | (k', v') :: m, k, v =>
    if k < k' then (k, v) :: (k', v') :: m
    else if k = k' then (k, v) :: m
    else (k', v') :: mapPut m k v

/-- Sets key `k` to `v`; writing the default removes the entry. -/
def mapSet {α : Type} [DecidableEq α] (d : α) (m : Map α) (k : Nat) (v : α) : Map α :=
  if v = d then m.filter (fun e => e.1 != k) else mapPut m k v

/-- Keys strictly above `b`, strictly rising, and no entry at the default. -/
def mapWfFrom {α : Type} [DecidableEq α] (d : α) : Option Nat → Map α → Bool
  | _, [] => true
  | none, (k, v) :: m => decide (v ≠ d) && mapWfFrom d (some k) m
  | some b, (k, v) :: m => decide (b < k) && decide (v ≠ d) && mapWfFrom d (some k) m

/-- The canonical form of a table whose unlisted keys read as `d`. -/
def mapWf {α : Type} [DecidableEq α] (d : α) (m : Map α) : Bool := mapWfFrom d none m

/-- The canonical form of a memory: an unlisted byte reads as 0. -/
def Memory.wf (m : Map Byte) : Bool := mapWf 0 m

/-- Changes the value of key `k` by `f`. -/
def mapMod {α : Type} [DecidableEq α] (d : α) (m : Map α) (k : Nat) (f : α → α) : Map α :=
  mapSet d m k (f (mapGet d m k))

/-- Sets the bytes from key `k` on, lowest first. -/
def mapSetBytes (m : Map Byte) (k : Nat) : List Byte → Map Byte
  | [] => m
  | b :: bs => mapSetBytes (mapSet 0 m k b) (k + 1) bs

/-- Sets entries of a byte mask: listed even where the byte is 0, so that the keys say what has been written. -/
def mapSetAll (m : Map Byte) (k : Nat) : List Byte → Map Byte
  | [] => m
  | b :: bs => mapSetAll (mapPut m k b) (k + 1) bs

/-- The `n` bytes from key `k` on, lowest first. -/
def mapGetBytes (m : Map Byte) (k : Nat) : Nat → List Byte
  | 0 => []
  | n + 1 => mapGet 0 m k :: mapGetBytes m (k + 1) n

/-- Keeps the entries whose key satisfies `p`. -/
def mapFilter {α : Type} (p : Nat → Bool) (m : Map α) : Map α := m.filter (fun e => p e.1)

/-- Drops the entries of the `n` keys from `k` on. -/
def mapDrop {α : Type} (m : Map α) (k n : Nat) : Map α := m.filter (fun e => e.1 < k || k + n ≤ e.1)

/-- Copies the `n` entries from key `sk` of `src` to key `dk` of `dst`. -/
def mapCopy {α : Type} (dst : Map α) (dk : Nat) (src : Map α) (sk n : Nat) : Map α :=
  dst.filter (fun e => e.1 < dk)
    ++ (src.filter (fun e => sk ≤ e.1 && e.1 < sk + n)).map (fun e => (e.1 - sk + dk, e.2))
    ++ dst.filter (fun e => dk + n ≤ e.1)

/-- A little-endian number of bytes (R3). -/
def leNat : List Byte → Nat
  | [] => 0
  | b :: bs => b.toNat + 256 * leNat bs

/-- The low `n` bytes of a number, lowest first (R3). -/
def leBytes : Nat → Nat → List Byte
  | 0, _ => []
  | n + 1, x => BitVec.ofNat 8 (x % 256) :: leBytes n (x / 256)

/-- Bits `lo` to `lo + len - 1` of a number. -/
def bitsOf (x lo len : Nat) : Nat := x / 2 ^ lo % 2 ^ len

/-- `n` bytes at offset `off` of a record held as a little-endian number. -/
def recField (r off n : Nat) : Nat := r / 256 ^ off % 256 ^ n

/-- The signed reading of the low `n` bits of a number. -/
def signedOf (n x : Nat) : Int :=
  let y := x % 2 ^ n
  if y < 2 ^ (n - 1) then (y : Int) else (y : Int) - 2 ^ n

/-- An integer as `n` bits (R10). -/
def ofInt (n : Nat) (x : Int) : Nat := (x % (2 ^ n : Int)).toNat

/-- Lanes of a mask, lowest first. -/
def lanesOf (m : Word) : List Nat := (List.range 32).filter (fun l => m.getLsbD l)

/-- The mask of one lane. -/
def laneBit (l : Nat) : Word := BitVec.ofNat 32 (2 ^ l)

/-- The mask of the lanes that satisfy `p`. -/
def maskOf (p : Nat → Bool) : Word :=
  (List.range 32).foldl (fun m l => if p l then m ||| laneBit l else m) 0

/-- Lowest lane of a mask (R10), 32 if it is empty. -/
def lowestLane (m : Word) : Nat := ((List.range 32).find? (fun l => m.getLsbD l)).getD 32

/-- The largest multiple of `n` not above `x` (R10). -/
def alignDown (x n : Nat) : Nat := x / n * n

/-- The remaining elements after the first that satisfies `p` is dropped. -/
def dropFirst {α : Type} (p : α → Bool) : List α → List α
  | [] => []
  | x :: xs => if p x then xs else x :: dropFirst p xs

/-- The list with element `i` changed by `f`. -/
def modNth {α : Type} (f : α → α) : List α → Nat → List α
  | [], _ => []
  | x :: xs, 0 => f x :: xs
  | x :: xs, i + 1 => x :: modNth f xs i

/-- Index of the first element that satisfies `p`. -/
def indexOf {α : Type} (p : α → Bool) : List α → Option Nat
  | [] => none
  | x :: xs => if p x then some 0 else (indexOf p xs).map (· + 1)

/-- Replaces the elements that satisfy `p` by their image under `f`. -/
def modWhere {α : Type} (p : α → Bool) (f : α → α) (xs : List α) : List α :=
  xs.map (fun x => if p x then f x else x)

/-- Inserts in rising order of `key`, after equal keys. -/
def insertBy {α : Type} (key : α → Nat) (x : α) : List α → List α
  | [] => [x]
  | y :: ys => if key x < key y then x :: y :: ys else y :: insertBy key x ys

/-- Stable sort in rising order of `key`. -/
def sortBy {α : Type} (key : α → Nat) (xs : List α) : List α := xs.foldl (fun acc x => insertBy key x acc) []

/-- The element of least `key`, the first of equals. -/
def leastBy {α : Type} (key : α → Nat) : List α → Option α
  | [] => none
  | x :: xs =>
    match leastBy key xs with
    | none => some x
    | some y => if key y < key x then some y else some x

/-- CRC-32 of bytes (reflected, polynomial 0xEDB88320), as the check of a save slot uses it (R423). -/
def crcStep : Nat → Nat → Nat
  | 0, c => c
  | n + 1, c => crcStep n (if c % 2 = 1 then (c / 2) ^^^ 0xEDB88320 else c / 2)

def crc32 (bs : List Byte) : Nat :=
  (bs.foldl (fun c b => crcStep 8 (c ^^^ b.toNat)) 0xFFFFFFFF) ^^^ 0xFFFFFFFF

end Sys2Proof.Machine
end

