-- ==== Sys2Proof/Machine/Aes.lean ====
section
/-! DEFINITION. AES-256 and its XTS mode, under which backing pages of flash and pool are encrypted (R381, R489, R490).
The specification names AES-XTS-256; the cipher is that of FIPS 197 and IEEE 1619 (PRESUMED, log 52). -/

namespace Sys2Proof.Machine

/-! ### AES-256 (FIPS 197) -/

/-- The 256 bytes of the substitution box, the byte for 0 lowest. -/
def aesBoxNat : Nat :=
  0x16bb54b00f2d99416842e6bf0d89a18cdf2855cee9871e9b948ed9691198f8e19e1dc186b95735610ef6034866b53e708a8b * 2 ^ 1648
    + 0xbd4b1f74dde8c6b4a61c2e2578ba08ae7a65eaf4566ca94ed58d6d37c8e779e4959162acd3c25c2406490a3a32e0db0b5ede * 2 ^ 1248
    + 0x14b8ee4688902a22dc4f816073195d643d7ea7c41744975fec130ccdd2f3ff1021dab6bcf5389d928f40a351a89f3c507f02 * 2 ^ 848
    + 0xf94585334d43fbaaefd0cf584c4a39becb6a5bb1fc20ed00d153842fe329b3d63b52a05a6e1b1a2c830975b227ebe2801207 * 2 ^ 448
    + 0x9a059618c323c7041531d871f1e5a534ccf73f362693fdb7c072a49cafa2d4adf04759fa7dc982ca76abd7fe2b670130c56f * 2 ^ 48
    + 0x6bf27b777c63

/-- Its inverse. -/
def aesUnboxNat : Nat :=
  0x7d0c2155631469e126d677ba7e042b17619953833cbbebc8b0f52aae4d3be0a0ef9cc9939f7ae52d0d4ab519a97f51605fec * 2 ^ 1648
    + 0x8027591012b131c7078833a8dd1ff45acd78fec0db9a2079d2c64b3e56fc1bbe18aa0e62b76f89c5291d711af1476edf751c * 2 ^ 1248
    + 0xe837f9e28535ade72274ac9673e6b4f0cecff297eadc674f4111913a6b8a130103bdafc1020f3fca8f1e2cd00645b3b80558 * 2 ^ 848
    + 0xe4f70ad3bc8c00abd890849d8da75746155edab9edfd5048706c92b6655dcc5ca4d41698688664f6f87225d18b6d49a25b76 * 2 ^ 448
    + 0xb224d92866a12e084ec3fa420b954cee3d23c2a632947b54cbe9dec444438e3487ff2f9b8239e37cfbd7f3819ea340bf38a5 * 2 ^ 48
    + 0x3630d56a0952

def aesBox (x : Nat) : Nat := (aesBoxNat >>> (8 * x)) % 256
def aesUnbox (x : Nat) : Nat := (aesUnboxNat >>> (8 * x)) % 256

/-- Multiplication by 2 in the field of AES. -/
def aesTwice (x : Nat) : Nat := if x < 128 then 2 * x else (2 * x - 256) ^^^ 0x1B

/-- Multiplication by a constant below 16. -/
def aesTimes (k x : Nat) : Nat :=
  let x2 := aesTwice x
  let x4 := aesTwice x2
  let x8 := aesTwice x4
  (if k % 2 = 1 then x else 0) ^^^ (if k / 2 % 2 = 1 then x2 else 0) ^^^ (if k / 4 % 2 = 1 then x4 else 0)
    ^^^ (if k / 8 % 2 = 1 then x8 else 0)

def xorBytes (a b : List Nat) : List Nat := a.zipWith (fun x y => x ^^^ y) b

/-- The words of the key schedule, each 4 bytes. -/
def aesWords (key : List Nat) : List (List Nat) :=
  let first := (List.range 8).map (fun i => (key.drop (4 * i)).take 4)
  let next (ws : List (List Nat)) (i : Nat) : List (List Nat) :=
    let t := ws.getD (i - 1) []
    let rot := t.drop 1 ++ t.take 1
    let rcon := [1, 2, 4, 8, 16, 32, 64].getD (i / 8 - 1) 0
    let t' :=
      if i % 8 = 0 then xorBytes (rot.map aesBox) [rcon, 0, 0, 0]
      else if i % 8 = 4 then t.map aesBox
      else t
    ws ++ [xorBytes (ws.getD (i - 8) []) t']
  ((List.range 52).map (· + 8)).foldl next first

/-- The 15 round keys, each 16 bytes. -/
def aesRoundKeys (key : List Nat) : List (List Nat) :=
  let ws := aesWords key
  (List.range 15).map (fun r => ((ws.drop (4 * r)).take 4).flatten)

/-- Row `r` of a block moves by `r` columns. -/
def aesShift (back : Bool) (b : List Nat) : List Nat :=
  (List.range 16).map (fun i =>
    let r := i % 4
    let c := i / 4
    b.getD (r + 4 * ((if back then c + 4 - r else c + r) % 4)) 0)

/-- Each column times a circulant matrix whose first row is `m`. -/
def aesMix (m : List Nat) (b : List Nat) : List Nat :=
  (List.range 16).map (fun i =>
    let r := i % 4
    let c := i / 4
    (List.range 4).foldl (fun a j => a ^^^ aesTimes (m.getD ((j + 4 - r) % 4) 0) (b.getD (4 * c + j) 0)) 0)

def aesEncrypt (ks : List (List Nat)) (b : List Nat) : List Nat :=
  let b := xorBytes b (ks.getD 0 [])
  let b := ((List.range 13).map (· + 1)).foldl (fun b r =>
    xorBytes (aesMix [2, 3, 1, 1] (aesShift false (b.map aesBox))) (ks.getD r [])) b
  xorBytes (aesShift false (b.map aesBox)) (ks.getD 14 [])

def aesDecrypt (ks : List (List Nat)) (b : List Nat) : List Nat :=
  let b := (aesShift true (xorBytes b (ks.getD 14 []))).map aesUnbox
  let b := ((List.range 13).map (13 - ·)).foldl (fun b r =>
    (aesShift true (aesMix [14, 11, 13, 9] (xorBytes b (ks.getD r [])))).map aesUnbox) b
  xorBytes b (ks.getD 0 [])

/-! ### XTS (IEEE 1619) -/

def natBytes (n x : Nat) : List Nat := (List.range n).map (fun i => x / 256 ^ i % 256)
def bytesNat (b : List Nat) : Nat := b.foldr (fun x a => x + 256 * a) 0

/-- The blocks of a data unit, under a mask that doubles from block to block. -/
def xtsBlocks (f : List Nat → List Nat) : Nat → List Byte → Nat → List Byte
  | 0, _, _ => []
  | n + 1, bs, t =>
    let m := natBytes 16 t
    let x := xorBytes (f (xorBytes ((bs.take 16).map BitVec.toNat) m)) m
    let t' := if t < 2 ^ 127 then 2 * t else (2 * t - 2 ^ 128) ^^^ 0x87
    x.map (BitVec.ofNat 8) ++ xtsBlocks f n (bs.drop 16) t'

/-- A page under a key pair, data key first (R489), and a tweak; `back` decrypts. -/
def xtsPage (back : Bool) (key : BitVec 512) (tweak : Nat) (bs : List Byte) : List Byte :=
  let ks := natBytes 64 key.toNat
  let k1 := aesRoundKeys (ks.take 32)
  let k2 := aesRoundKeys (ks.drop 32)
  xtsBlocks (if back then aesDecrypt k1 else aesEncrypt k1) (bs.length / 16) bs (bytesNat (aesEncrypt k2 (natBytes 16 tweak)))

end Sys2Proof.Machine
end

