-- ==== Sys2Proof/Machine/Base.lean ====
section
/-! DEFINITION. Accessors of the state: groups, registers, predicates, machine registers, tables by key.

Every read and write of a register goes through these. Sources are read as they stood before the chain (R45). -/

namespace Sys2Proof.Machine

/-- Outcome of a meaning. -/
abbrev Out := Host.Outcome State Fault Refusal

/-! ### Groups -/

def State.setG (s : State) (f : Group → Group) : State := { s with g := f s.g }
def State.setR (s : State) (f : Regs → Regs) : State := { s with g := { s.g with r := f s.g.r } }
def State.setIss (s : State) (f : Issue → Issue) : State := { s with iss := f s.iss }

/-- Group `k`, if there is one. -/
def State.getG (s : State) (k : Nat) : Option Group := if k = s.gid then some s.g else mapGet none s.others k

/-- Changes group `k` by `f`. -/
def State.modG (s : State) (k : Nat) (f : Group → Group) : State :=
  if k = s.gid then { s with g := f s.g }
  else { s with others := mapMod none s.others k (fun o => o.map f) }

/-- Adds or replaces group `k`. -/
def State.putG (s : State) (k : Nat) (g : Group) : State :=
  if k = s.gid then { s with g := g } else { s with others := mapSet none s.others k (some g) }

/-- Removes group `k` (a released group); where it was the executing group, the first of the others takes its place: the
base-tile cores are always there. -/
def State.dropG (s : State) (k : Nat) : State :=
  if k = s.gid then
    match s.others with
    | (j, some g) :: r => { s with g := g, gid := j, others := r }
    | _ => { s with g := { s.g with finished := true, lsv := [] } }
  else { s with others := mapSet none s.others k none }

/-- Makes group `k` the executing group. -/
def State.focusOn (s : State) (k : Nat) : State :=
  if k = s.gid then s
  else
    match mapGet none s.others k with
    | none => s
    | some g => { s with g := g, gid := k,
                         others := mapSet none (mapSet none s.others k none) s.gid (some s.g) }

/-- The groups with their numbers, in rising order. -/
def State.groups (s : State) : List (Nat × Group) :=
  sortBy (·.1) ((s.gid, s.g) :: s.others.filterMap (fun e => e.2.map (fun g => (e.1, g))))

/-- Number of group `g` of team `t`. -/
def gidOf (t g : Nat) : Nat := 16 + 32 * t + g

/-- The groups of team `t`. -/
def State.teamGroups (s : State) (t : Nat) : List (Nat × Group) :=
  s.groups.filter (fun e => 16 ≤ e.1 && e.2.team == t)

/-- A compute group. -/
def Group.isCompute (g : Group) : Bool := g.kind == .compute

/-- Lanes of the group (R105): 1 on base-tile cores, 32 on compute cores. -/
def Group.width (g : Group) : Nat := if g.isCompute then 32 else 1

/-- Core index of the group's core state: compute core number, or 1024 + unit of a base-tile core. -/
def coreOf (gid : Nat) (g : Group) : Nat := if g.isCompute then g.home else 1024 + gid

def State.core (s : State) : Nat := coreOf s.gid s.g

/-- Base tile of a group: its core's tile, or the tile beneath its die (R195). -/
def Group.tile (g : Group) : Nat := if g.isCompute then g.home / 128 else g.home

/-- Die of a compute group; `32 + t` for a core of base tile t, which has no epoch (R267, R269). -/
def Group.die (g : Group) : Nat := if g.isCompute then g.home / 32 else 32 + g.home

/-- Quarter of a group (R148). -/
def Group.quarter (g : Group) : Nat := g.grp % 4

/-! ### Fields of `MSTAT` (R23) -/

def Regs.tm (r : Regs) : Bool := r.mstat.getLsbD 0
def Regs.prv (r : Regs) : Nat := (r.mstat.extractLsb' 4 2).toNat
def Regs.aen (r : Regs) : Bool := r.mstat.getLsbD 6
def Regs.sstep (r : Regs) : Bool := r.mstat.getLsbD 7
def Regs.replay (r : Regs) : Bool := r.mstat.getLsbD 12
def Regs.prot (r : Regs) : Bool := r.mstat.getLsbD 13
def Regs.unifMode (r : Regs) : Bool := r.mstat.getLsbD 14

/-- A word with bit `n` set to `b`. -/
def setBit (w : Word) (n : Nat) (b : Bool) : Word :=
  if b then w ||| BitVec.ofNat 32 (2 ^ n) else w &&& ~~~(BitVec.ofNat 32 (2 ^ n))

def Regs.setTm (r : Regs) (b : Bool) : Regs := { r with mstat := setBit r.mstat 0 b }
def Regs.setUnifFl (r : Regs) : Regs := { r with mstat := setBit r.mstat 15 true }

/-! ### `FPCTL` (R25) -/

/-- Rounding modes (R73). -/
inductive RMode where
  | rne | rtz | rdn | rup
  deriving DecidableEq, Repr

def rmodeOf (n : Nat) : RMode :=
  match n with
  | 0 => .rne
  | 1 => .rtz
  | 2 => .rdn
  | _ => .rup

def Regs.rm (r : Regs) : RMode := rmodeOf (r.fpctl.extractLsb' 16 2).toNat
def Regs.daz (r : Regs) : Bool := r.fpctl.getLsbD 23
def Regs.ftz (r : Regs) : Bool := r.fpctl.getLsbD 22
/-- Enables NVE, DZE, OFE, UFE, NXE in the bit order of the flags (R25, R26). -/
def Regs.fpEnables (r : Regs) : BitVec 5 := r.fpctl.extractLsb' 8 5
def Regs.fpFlags (r : Regs) : BitVec 5 := r.fpctl.extractLsb' 0 5
/-- Sets flags (R26, R119). -/
def Regs.raise (r : Regs) (f : BitVec 5) : Regs := { r with fpctl := r.fpctl ||| f.zeroExtend 32 }

/-! ### Registers of the executing group -/

/-- The registers a word of the chain reads (R45). -/
def State.src (s : State) : Regs := s.iss.pre.getD s.g.r

def Regs.rdS (r : Regs) (n : Nat) : DWord := mapGet 0 r.s n
def Regs.rdV (r : Regs) (n l : Nat) : Word := mapGet 0 r.v (32 * n + l)
def Regs.rdK (r : Regs) (n : Nat) : DWord := mapGet 0 r.k n
/-- Predicate mask; `p7` reads as 1 in every lane (R15). -/
def Regs.rdP (r : Regs) (n : Nat) : Word := if n = 7 then 0xFFFFFFFF#32 else mapGet 0 r.p n
def Regs.rdPL (r : Regs) (n l : Nat) : Bool := (r.rdP n).getLsbD l

def Regs.poisS (r : Regs) (n : Nat) : Bool := mapGet false r.sPois n
def Regs.poisV (r : Regs) (n : Nat) : Word := mapGet 0 r.vPois n
def Regs.poisK (r : Regs) (n : Nat) : Bool := mapGet false r.kPois n
def Regs.poisP (r : Regs) (n : Nat) : Word := if n = 7 then 0 else mapGet 0 r.pPois n

def Regs.wrS (r : Regs) (n : Nat) (x : DWord) (pois : Bool) : Regs :=
  { r with s := mapSet 0 r.s n x, sPois := mapSet false r.sPois n pois }
def Regs.wrK (r : Regs) (n : Nat) (x : DWord) (pois : Bool) : Regs :=
  { r with k := mapSet 0 r.k n x, kPois := mapSet false r.kPois n pois }
def Regs.wrV (r : Regs) (n l : Nat) (x : Word) (pois : Bool) : Regs :=
  { r with v := mapSet 0 r.v (32 * n + l) x,
           vPois := mapMod 0 r.vPois n (fun m => setBit m l pois) }
/-- Writes bit `l` of predicate `n`; a write of `p7` is discarded (R15). -/
def Regs.wrP (r : Regs) (n l : Nat) (b : Bool) (pois : Bool) : Regs :=
  if n = 7 then r
  else { r with p := mapMod 0 r.p n (fun m => setBit m l b),
                pPois := mapMod 0 r.pPois n (fun m => setBit m l pois) }

/-- A lane pair (R13), low register in bits [31:0]. -/
def Regs.rdV2 (r : Regs) (n l : Nat) : DWord := r.rdV (n + 1) l ++ r.rdV n l
/-- A lane quad. -/
def Regs.rdV4 (r : Regs) (n l : Nat) : BitVec 128 :=
  r.rdV (n + 3) l ++ r.rdV (n + 2) l ++ r.rdV (n + 1) l ++ r.rdV n l
def Regs.wrV2 (r : Regs) (n l : Nat) (x : DWord) (pois : Bool) : Regs :=
  (r.wrV n l (x.extractLsb' 0 32) pois).wrV (n + 1) l (x.extractLsb' 32 32) pois
def Regs.wrV4 (r : Regs) (n l : Nat) (x : BitVec 128) (pois : Bool) : Regs :=
  (r.wrV2 n l (x.extractLsb' 0 64) pois).wrV2 (n + 2) l (x.extractLsb' 64 64) pois

/-- A lane value of 1, 2 or 4 registers. -/
def Regs.rdW (r : Regs) : Nat → Nat → Nat → Nat
  | 0, _, _ => 0
  | w + 1, n, l => (r.rdV n l).toNat + 2 ^ 32 * r.rdW w (n + 1) l
def Regs.wrW (r : Regs) : Nat → Nat → Nat → Nat → Bool → Regs
  | 0, _, _, _, _ => r
  | w + 1, n, l, x, pois => Regs.wrW (r.wrV n l (BitVec.ofNat 32 x) pois) w (n + 1) l (x / 2 ^ 32) pois
/-- Whether any of `w` registers from `n` is poisoned in lane `l`. -/
def Regs.poisW (r : Regs) : Nat → Nat → Nat → Bool
  | 0, _, _ => false
  | w + 1, n, l => (r.poisV n).getLsbD l || r.poisW w (n + 1) l

/-! ### Lanes -/

def Group.lane (g : Group) (l : Nat) : LaneState := mapGet .exited g.lsv l
def Group.setLane (g : Group) (l : Nat) (x : LaneState) : Group := { g with lsv := mapSet .exited g.lsv l x }
def Group.pc (g : Group) (l : Nat) : Word := mapGet 0 g.pcv l
def Group.setPc (g : Group) (l : Nat) (x : Word) : Group := { g with pcv := mapSet 0 g.pcv l x }
def Group.blkOf (g : Group) (l : Nat) : Blk := mapGet Blk.none g.blk l
def Group.setBlk (g : Group) (l : Nat) (b : Blk) : Group := { g with blk := mapSet Blk.none g.blk l b }

/-- The state of a lane; that of a suspended lane is in the trap save (R396). -/
def Group.laneAt (g : Group) (l : Nat) : LaneState :=
  match g.save with
  | some sv => if g.hlanes.getLsbD l then g.lane l else mapGet .exited sv.lsv l
  | none => g.lane l

/-- Sets the state of a lane where it is held. -/
def Group.putLane (g : Group) (l : Nat) (x : LaneState) : Group :=
  match g.save with
  | some sv =>
    if g.hlanes.getLsbD l then g.setLane l x else { g with save := some { sv with lsv := mapSet .exited sv.lsv l x } }
  | none => g.setLane l x

/-- `pcv` of a lane, of a suspended one in the trap save. -/
def Group.pcAt (g : Group) (l : Nat) : Word :=
  match g.save with
  | some sv => if g.hlanes.getLsbD l then g.pc l else mapGet 0 sv.pcv l
  | none => g.pc l

/-- Lanes in a state. -/
def Group.lanesIn (g : Group) (x : LaneState) : Word := maskOf (fun l => g.lane l == x)

/-- Applies a change to every lane of a mask. -/
def Group.eachLane (g : Group) (m : Word) (f : Group → Nat → Group) : Group := (lanesOf m).foldl f g

/-- JOINWAIT lanes whose join is to be released (R176). While a handler runs its own lanes alone count (log 48). -/
def Group.joinDue (g : Group) : Word :=
  let mine (l : Nat) : Bool := g.save.isNone || g.hlanes.getLsbD l
  let blocks (j : Word) (l : Nat) : Bool :=
    mine l && (g.lane l == .live || g.lane l == .parked) && (g.pc l).toNat ≤ j.toNat
  maskOf (fun l => mine l && g.lane l == .joinWait && !(List.range 32).any (blocks (g.pc l)))

/-- The packet index and slot of a `pcv` (R19). -/
def pcPacket (pc : Word) : Nat := pc.toNat / 4
def pcSlot (pc : Word) : Nat := pc.toNat % 4
def mkPc (p sl : Nat) : Word := BitVec.ofNat 32 (4 * p + sl)

/-! ### Tables -/

def State.team (s : State) (t : Nat) : Option Team := mapGet none s.teams t
def State.setTeam (s : State) (t : Nat) (f : Team → Team) : State :=
  { s with teams := mapMod none s.teams t (fun o => o.map f) }
def State.grid (s : State) (k : Nat) : Option Grid := mapGet none s.grids k
def State.setGrid (s : State) (k : Nat) (f : Grid → Grid) : State :=
  { s with grids := mapMod none s.grids k (fun o => o.map f) }
def State.coreSt (s : State) (c : Nat) : CoreSt := mapGet CoreSt.reset s.cores c
def State.setCore (s : State) (c : Nat) (f : CoreSt → CoreSt) : State :=
  { s with cores := mapMod CoreSt.reset s.cores c f }
def State.die (s : State) (d : Nat) : Die := mapGet Die.reset s.dies d
def State.setDie (s : State) (d : Nat) (f : Die → Die) : State := { s with dies := mapMod Die.reset s.dies d f }
def State.tile (s : State) (t : Nat) : Tile := mapGet Tile.dflt s.tiles t
def State.setTile (s : State) (t : Nat) (f : Tile → Tile) : State :=
  { s with tiles := mapMod Tile.dflt s.tiles t f }
def State.polder (s : State) (p : Nat) : Polder := mapGet Polder.reset s.polders p
def State.setPolder (s : State) (p : Nat) (f : Polder → Polder) : State :=
  { s with polders := mapMod Polder.reset s.polders p f }
def Polder.queue (p : Polder) (q : Nat) : Queue := mapGet Queue.reset p.queues q
def Polder.setQueue (p : Polder) (q : Nat) (f : Queue → Queue) : Polder :=
  { p with queues := mapMod Queue.reset p.queues q f }
def State.setDev (s : State) (f : Dev → Dev) : State := { s with dev := f s.dev }
def State.port (s : State) (p : Nat) : Port := mapGet Port.reset s.ports p
def State.setPort (s : State) (p : Nat) (f : Port → Port) : State :=
  { s with ports := mapMod Port.reset s.ports p f }
def State.frame (s : State) (fk : Nat) : Frame := mapGet Frame.free s.frames fk
def State.setFrame (s : State) (fk : Nat) (f : Frame → Frame) : State :=
  { s with frames := mapMod Frame.free s.frames fk f }
def State.tag (s : State) (asid v : Nat) : ViewTag := mapGet ViewTag.reset s.tags (asid * 64 + v)
def State.setTag (s : State) (asid v : Nat) (f : ViewTag → ViewTag) : State :=
  { s with tags := mapMod ViewTag.reset s.tags (asid * 64 + v) f }
def State.ctx (s : State) (c x : Nat) : Option CopyCtx := mapGet none s.ctxs (16 * c + x)
def State.setCtx (s : State) (c x : Nat) (o : Option CopyCtx) : State :=
  { s with ctxs := mapSet none s.ctxs (16 * c + x) o }
def State.muq (s : State) (c q : Nat) : List MuCmd := mapGet [] s.mu (4 * c + q)
def State.setMuq (s : State) (c q : Nat) (x : List MuCmd) : State := { s with mu := mapSet [] s.mu (4 * c + q) x }

/-- The team of the executing group. -/
def State.myTeam (s : State) : Option Team := if s.g.isCompute then s.team s.g.team else none
/-- The grid of the executing group. -/
def State.myGrid (s : State) : Option Grid :=
  match s.myTeam with
  | none => none
  | some t => s.grid t.grid

/-- A fresh identifier. -/
def State.fresh (s : State) : State × Nat := ({ s with ids := s.ids + 1 }, s.ids)

/-- A choice among `k` permitted outcomes (R8): a free value modulo `k`. -/
def State.choose (s : State) (k : Nat) : State × Nat := ({ s with free := s.free + 1 }, Config.choose s.free % k)

/-- Signals an MSI-X vector (R486). -/
def State.signal (s : State) (v : Nat) : State := s.setDev (fun d => { d with msix := d.msix ++ [v] })

/-- The fatal interrupt (R503). -/
def State.fatal (s : State) : State := (s.setDev (fun d => { d with fatal := true })).signal 0

/-- Makes step `e` due. -/
def State.due (s : State) (e : Instr) : State := { s with agenda := s.agenda ++ [e] }

/-- Posts an event in a team's mailbox; an event while VALID is 1 sets OVF (R413). -/
def State.postDebug (s : State) (tm event grp code : Nat) (lanes : Word) : State :=
  s.setTeam tm (fun t =>
    if t.mbox.getLsbD 63 then { t with mbox := t.mbox ||| 0x4000000000000000#64 }
    else { t with mbox := BitVec.ofNat 64 (2 ^ 63 + event * 2 ^ 59 + grp * 2 ^ 54 + code * 2 ^ 46 + lanes.toNat) })

/-! ### Fields of a launch record (R183 to R185) -/

def Grid.ctrl (g : Grid) : Nat := recField g.record 0 4
def Grid.dim (g : Grid) (i : Nat) : Nat :=
  let x := recField g.record (4 + 4 * i) 4
  if x = 0 then 2 ^ 32 else x
def Grid.teamCount (g : Grid) : Nat := g.dim 0 * g.dim 1 * g.dim 2
def Grid.gangSize (g : Grid) : Nat := 2 ^ bitsOf g.ctrl 20 2
def Grid.scratchUnits (g : Grid) : Nat := recField g.record 0x3C 4 % 512
def Grid.shareCap (g : Grid) : Nat := bitsOf (recField g.record 0x3C 4) 21 11
def Grid.roleDesc (g : Grid) (i : Nat) : Nat := recField g.record (0x40 + 8 * i) 8
/-- Fields of a role descriptor (R185). -/
def roleEntry (d : Nat) : Nat := d % 2 ^ 32
def roleValid (d : Nat) : Bool := bitsOf d 39 1 == 1
def roleKindOf (d : Nat) : Nat := bitsOf d 32 2
def roleRegs (d : Nat) : Nat := bitsOf d 40 8
def roleGroups (d : Nat) : Nat := bitsOf d 48 8
/-- The valid roles: index and descriptor. -/
def Grid.roles (g : Grid) : List (Nat × Nat) :=
  ((List.range 4).map (fun i => (i, g.roleDesc i))).filter (fun e => roleValid e.2)
def Grid.groupCount (g : Grid) : Nat := (g.roles.map (fun e => roleGroups e.2)).foldl (· + ·) 0
def Grid.isReplay (g : Grid) : Bool := bitsOf g.ctrl 8 1 == 1
def Grid.isEarly (g : Grid) : Bool := bitsOf g.ctrl 11 1 == 1
def Grid.hasDep (g : Grid) : Bool := bitsOf g.ctrl 5 1 == 1
def Grid.afterPrev (g : Grid) : Bool := bitsOf g.ctrl 10 1 == 1
def Grid.hasMtx (g : Grid) : Bool := g.roles.any (fun e => roleKindOf e.2 == 2)

/-- Identity values (R149, R175), by number. -/
def identity (g : Group) (t : Team) (gr : Grid) (n l : Nat) : Nat :=
  let x := gr.dim 0
  let y := gr.dim 1
  match n with
  | 0 => l
  | 1 => g.grp
  | 2 => g.role
  | 3 => g.roleKind
  | 4 => g.roleGroup
  | 5 => t.lin % x
  | 6 => t.lin / x % y
  | 7 => t.lin / (x * y)
  | 8 => gr.dim 0 % 2 ^ 32
  | 9 => gr.dim 1 % 2 ^ 32
  | 10 => gr.dim 2 % 2 ^ 32
  | 11 => t.lin
  | 12 => t.lin / gr.gangSize
  | 13 => t.lin % gr.gangSize
  | 14 => gr.gangSize
  | 15 => gr.depth
  | _ => 0

/-! ### Clocks -/

/-- The greater of two 32-bit epochs, as R315 compares. -/
def laterOf (x y : Nat) : Nat :=
  let d := (y + 2 ^ 32 - x % 2 ^ 32) % 2 ^ 32
  if 1 ≤ d && d < 2 ^ 31 then y else x

/-- The merge of two epoch clocks (R267, R270). -/
def clkMerge (x y : Map Nat) : Map Nat := y.foldl (fun m e => mapMod 0 m e.1 (fun v => laterOf v e.2)) x

/-- The merge of two clocks of counts that do not wrap (R261). -/
def clkMax (x y : Map Nat) : Map Nat := y.foldl (fun m e => mapMod 0 m e.1 (fun v => max v e.2)) x

/-! ### Key arithmetic -/

/-- Key of a byte of home memory (R200). -/
def memKey (asid view va : Nat) : Nat := (asid * 64 + view) * 2 ^ 57 + va
/-- Key of the 64-byte block of a home byte (R402), disjoint from the keys of other places. -/
def homeBlk (asid view va : Nat) : Nat := 4 * (memKey asid view va / 64)
/-- Block of a physical scratchpad byte. -/
def spadBlk (core off : Nat) : Nat := 4 * ((core * 2 ^ 20 + off) / 64) + 1
/-- Block of an accumulator byte: bank, then the layout of R353. -/
def accBlk (core bank off : Nat) : Nat := 4 * (((core * 2 + bank) * 2 ^ 18 + off) / 64) + 2
/-- Block of host memory behind a port. -/
def hostBlk (port hpa : Nat) : Nat := 4 * ((port * 2 ^ 64 + hpa) / 64) + 3

def State.isPois (s : State) (b : Nat) : Bool := mapGet false s.pois b
def State.setPois (s : State) (b : Nat) (x : Bool) : State := { s with pois := mapSet false s.pois b x }

def onChipBase : Nat := 0x01FFFE0000000000
def localBase : Nat := 0x01FFFFFFFF000000
def mgmtBase : Nat := 0x01FFFF0000000000
def tableBase : Nat := 0x01FFFC0000000000
def inTable (va : Nat) : Bool := tableBase ≤ va && va < onChipBase
def onChip (va : Nat) : Bool := onChipBase ≤ va

end Sys2Proof.Machine
end

