-- ==== Sys2Proof/Machine/Xlate.lean ====
section
/-! DEFINITION. Homes, the on-chip map, the backing tables, and where a byte is found (R205 to R215, R229 to R241).

`State.locate` follows R240 up to the point where the fill unit must act. It answers where the byte is, or that the
request must be served by the event L2_MISS (Machine/Fill.lean), or what it waits for. -/

namespace Sys2Proof.Machine

/-! ### Polder ranges and homes -/

def cfgAsidFirst (c : DWord) : Nat := (c.extractLsb' 0 10).toNat
def cfgAsidCount (c : DWord) : Nat := (c.extractLsb' 10 11).toNat
def cfgKeyFirst (c : DWord) : Nat := (c.extractLsb' 21 10).toNat
def cfgKeyCount (c : DWord) : Nat := (c.extractLsb' 31 11).toNat
def cfgPrio (c : DWord) : Nat := (c.extractLsb' 42 6).toNat
def cfgEnabled (c : DWord) : Bool := c.getLsbD 63

/-- The polder that owns an ASID (R485); ASID 0 belongs to none. -/
def State.polderOf (s : State) (asid : Nat) : Option Nat :=
  (s.polders.find? (fun e => cfgEnabled e.2.cfg && cfgAsidFirst e.2.cfg ≤ asid
    && asid < cfgAsidFirst e.2.cfg + cfgAsidCount e.2.cfg)).map (·.1)

/-- Fields of a placement window record (R207). -/
structure PWin where
  base : Nat
  size : Nat
  first : Nat
  count : Nat
  shift : Nat
  tensor : Nat
  deriving DecidableEq, Repr

def pwinOf (x : BitVec 128) : PWin :=
  { base := bitsOf x.toNat 0 64, size := bitsOf x.toNat 64 32, first := bitsOf x.toNat 96 8,
    count := bitsOf x.toNat 104 8, shift := bitsOf x.toNat 112 8, tensor := bitsOf x.toNat 120 8 }

/-- The fixed hash of R206. -/
def fixedHash (va : Nat) : Nat :=
  (List.range 9).foldl (fun h i => h ^^^ bitsOf (va % 2 ^ 57) (16 + 5 * i) 5) 0

/-- The governing placement window of an address (R207). -/
def State.pwin (s : State) (asid va : Nat) : Option PWin :=
  if asid = 0 then none
  else
    match s.polderOf asid with
    | none => none
    | some p =>
      ((s.polder p).windows.map (fun e => pwinOf e.2)).find? (fun w =>
        w.size != 0 && w.base ≤ va && va < w.base + 2 ^ 21 * w.size)

/-- Home stack of an address (R205 to R207). -/
def State.stackOf (s : State) (asid va : Nat) : Nat :=
  match s.pwin asid va with
  | none => fixedHash va
  | some w => (w.first + va / 2 ^ w.shift % 2 ^ w.count) % 32

/-- Home slice of an address (R205). -/
def State.sliceOf (s : State) (asid va : Nat) : Nat := 32 * s.stackOf asid va + bitsOf va 8 5

/-- Base tile of a stack (R205). -/
def tileOfStack (st : Nat) : Nat := st / 4

/-- Key of a level-2 line (R202). -/
def lineKey (asid view va : Nat) : Nat := (asid * 64 + view) * 2 ^ 49 + va / 256
/-- Key of a level-1 block (R201). -/
def blkKey (asid view va : Nat) : Nat := (asid * 64 + view) * 2 ^ 51 + va / 64

/-- `n` bytes of home memory as a number (R3). -/
def State.ld (s : State) (asid view va n : Nat) : Nat := leNat (mapGetBytes s.mem (memKey asid view va) n)
def State.stb (s : State) (asid view va n x : Nat) : State :=
  { s with mem := mapSetBytes s.mem (memKey asid view va) (leBytes n x) }

/-! ### Where bytes are -/

/-- A place that holds bytes; an access of several bytes takes them in ascending order from there. -/
inductive Loc where
  /-- scratchpad by physical offset -/
  | spad (core off : Nat)
  /-- byte `b` of the register file of group `gid`: register `b / 128`, lane `b % 128 / 4` -/
  | reg (gid b : Nat)
  /-- byte of the register file in rows that no group holds -/
  | row (core off : Nat)
  /-- an access that a device has lost: reads 0 and writes nothing -/
  | gone
  | acc (core bank off : Nat)
  | mgmt (off : Nat)
  | home (asid view va : Nat)
  | host (port hpa : Nat)
  /-- byte of peer memory: device, export window, offset -/
  | peer (dev xwin off : Nat)
  deriving DecidableEq, Repr

/-- Who reaches the on-chip region: a lane or an engine, its privilege, its team (R212). -/
structure Actor where
  lane : Bool
  prv : Nat
  team : Option Nat
  core : Nat
  deriving DecidableEq, Repr

/-- The actor of the executing group's lanes. -/
def State.actor (s : State) : Actor :=
  { lane := true, prv := s.g.r.prv, team := if s.g.isCompute then some s.g.team else none, core := s.core }

/-- Physical scratchpad place of an offset of a team's allotment (R196, R212). -/
def Team.spad (t : Team) (o : Nat) : Loc := .spad t.core (t.pieces.getD (o / 4096) 0 * 4096 + o % 4096)

/-- Gang team `j` of a team (R156, R214). -/
def State.gangTeam (s : State) (t : Team) (size j : Nat) : Option Team :=
  (s.teams.findSome? (fun e => e.2.bind (fun u =>
    if u.grid = t.grid ∧ u.lin = t.lin / size * size + j then some u else none)))

/-- The resident group that holds row `r` of core `c`'s register file (R210, R424). -/
def State.rowGroup (s : State) (c r : Nat) : Option (Nat × Nat) :=
  (s.groups.find? (fun e => e.2.isCompute && !e.2.finished && e.2.home == c && e.2.rowBase ≤ r && r < e.2.rowBase + e.2.regsN)).map
    (fun e => (e.1, r - e.2.rowBase))

/-- One byte of the on-chip region (R209 to R215, R483): the reason of the window-access trap, or its place. -/
def State.onChipByte (s : State) (a : Actor) (va : Nat) : Except Nat Loc :=
  if va < mgmtBase then
    let c := (va - onChipBase) / 2 ^ 30
    let o := (va - onChipBase) % 2 ^ 30
    if (0x1C0000 ≤ o && o < 0x200000) || 0x280000 ≤ o then .error 2
    else if a.prv = 0 || !a.lane then .error 6
    else if o < 0x100000 then .ok (.spad c o)
    else if o < 0x1C0000 then
      match s.rowGroup c ((o - 0x100000) / 128) with
      | none => .ok (.row c (o - 0x100000))
      | some (k, n) => .ok (.reg k (128 * n + o % 128))
    else
      let b := (s.coreSt c).bank
      if o < 0x240000 then .ok (.acc c b (o - 0x200000)) else .ok (.acc c (1 - b) (o - 0x240000))
  else if va < localBase then
    if va - mgmtBase < 0x2000000 && a.lane && 1 ≤ a.prv then .ok (.mgmt (va - mgmtBase)) else .error 2
  else
    let o := va - localBase
    let inReg := 0x200000 ≤ o && o < 0x280000
    let inAcc := 0x400000 ≤ o && o < 0x440000
    if !(o < 0x100000 || inReg || inAcc || 0x800000 ≤ o) then .error 2
    else if a.lane && (inReg || inAcc) then .error 3
    else
      match a.team.bind s.team with
      | none => .error 5
      | some t =>
        if o < 0x100000 then
          if o < t.scratch then .ok (t.spad o) else .error 1
        else if inReg then
          .ok (.reg (gidOf (a.team.getD 0) ((o - 0x200000) / 0x4000)) ((o - 0x200000) % 0x4000))
        else if inAcc then .ok (.acc t.core (s.coreSt t.core).bank (o - 0x400000))
        else
          let j := (o - 0x800000) / 0x100000
          let size := ((s.grid t.grid).map Grid.gangSize).getD 1
          if size ≤ j then .error 4
          else
            match s.gangTeam t size j with
            | none => .error 1
            | some u => if o % 0x100000 < u.scratch then .ok (u.spad (o % 0x100000)) else .error 1

/-- The window check of an access (R215): reason of the lowest byte that fails, or the place of the first byte. -/
def State.onChipLoc (s : State) (a : Actor) (va : Nat) : Nat → Except Nat Loc
  | 0 => .error 2
  | 1 => s.onChipByte a va
  | n + 1 =>
    match s.onChipByte a va with
    | .error r => .error r
    | .ok l =>
      match s.onChipLoc a (va + 1) n with
      | .error r => .error r
      | .ok _ => .ok l

/-! ### Reading and writing a place -/

/-- Key of a byte of peer memory. -/
def peerKey (dev xwin off : Nat) : Nat := (dev * 1024 + xwin) * 2 ^ 57 + off
def hostKey (port hpa : Nat) : Nat := port * 2 ^ 64 + hpa
def poolKey (target addr : Nat) : Nat := target * 2 ^ 64 + addr
def flashKey (drive ns addr : Nat) : Nat := (drive * 16 + ns) * 2 ^ 64 + addr
def accKey (core bank off : Nat) : Nat := (core * 2 + bank) * 65536 + off / 4

/-- Key of a word of a core's register file. -/
def rowKey (core w : Nat) : Nat := core * 196608 + w

/-- The rows that group `k` holds are given up with the values of its lane registers in them (R143, R210). -/
def State.giveRows (s : State) (k : Nat) : State :=
  match s.getG k with
  | none => s
  | some g =>
    if g.rowBase + g.regsN ≤ 6144 && g.isCompute && !g.finished then
      { s with rows := mapCopy s.rows (rowKey g.home (32 * g.rowBase)) g.r.v 0 (32 * g.regsN) }
    else s

/-- `n` rows of a core are taken by a group, whose registers they now hold. -/
def State.dropRows (s : State) (c row n : Nat) : State :=
  { s with rows := mapDrop s.rows (rowKey c (32 * row)) (32 * n) }

/-- A word of 32 bits with its bytes from `i` on replaced. -/
def patchByte (w : Word) (i : Nat) (b : Byte) : Word :=
  (w &&& ~~~(BitVec.ofNat 32 (255 * 256 ^ i))) ||| (BitVec.ofNat 32 (b.toNat * 256 ^ i))

def byteOf (w : Word) (i : Nat) : Byte := w.extractLsb' (8 * i) 8

/-- Byte `i` from a place on. Management registers are read by `State.mgmtRead` (Machine/Mgmt.lean). -/
def State.rdByte (s : State) (l : Loc) (i : Nat) : Byte :=
  match l with
  | .spad c o => mapGet 0 s.scratch (c * 2 ^ 20 + o + i)
  | .reg k b =>
    match s.getG k with
    | none => 0
    | some g => byteOf (g.r.rdV ((b + i) / 128) ((b + i) % 128 / 4)) ((b + i) % 4)
  | .row c o => byteOf (mapGet 0 s.rows (rowKey c ((o + i) / 4))) ((o + i) % 4)
  | .gone => 0
  | .acc c bk o => byteOf (mapGet 0 s.acc (accKey c bk (o + i))) ((o + i) % 4)
  | .mgmt _ => 0
  | .home a v x => mapGet 0 s.mem (memKey a v x + i)
  | .host p h => mapGet 0 s.host (hostKey p h + i)
  | .peer d x o => mapGet 0 s.peer (peerKey d x o + i)

def State.rdBytes (s : State) (l : Loc) (n : Nat) : List Byte := (List.range n).map (s.rdByte l)

def State.rdLoc (s : State) (l : Loc) (n : Nat) : Nat := leNat (s.rdBytes l n)

def State.wrByte (s : State) (l : Loc) (i : Nat) (b : Byte) : State :=
  match l with
  | .spad c o => { s with scratch := mapSet 0 s.scratch (c * 2 ^ 20 + o + i) b }
  | .reg k x =>
    s.modG k (fun g =>
      let n := (x + i) / 128
      let ln := (x + i) % 128 / 4
      { g with r := g.r.wrV n ln (patchByte (g.r.rdV n ln) ((x + i) % 4) b) false })
  | .row c o => { s with rows := mapMod 0 s.rows (rowKey c ((o + i) / 4)) (fun w => patchByte w ((o + i) % 4) b) }
  | .gone => s
  | .acc c bk o =>
    { s with acc := mapMod 0 s.acc (accKey c bk (o + i)) (fun w => patchByte w ((o + i) % 4) b) }
  | .mgmt _ => s
  | .home a v x => { s with mem := mapSet 0 s.mem (memKey a v x + i) b }
  | .host p h => { s with host := mapSet 0 s.host (hostKey p h + i) b }
  | .peer d x o => { s with peer := mapSet 0 s.peer (peerKey d x o + i) b }

/-- Writes bytes from a place on, lowest first. -/
def State.wrBytesFrom (s : State) (l : Loc) : Nat → List Byte → State
  | _, [] => s
  | i, b :: bs => State.wrBytesFrom (s.wrByte l i b) l (i + 1) bs

def State.wrLoc (s : State) (l : Loc) (n x : Nat) : State := s.wrBytesFrom l 0 (leBytes n x)

/-- Key of the poison block of byte `i` of a place (R402); lane registers hold their own poison. -/
def Loc.pblk (l : Loc) (i : Nat) : Option Nat :=
  match l with
  | .spad c o => some (spadBlk c (o + i))
  | .acc c b o => some (accBlk c b (o + i))
  | .home a v x => some (homeBlk a v (x + i))
  | .host p h => some (hostBlk p (h + i))
  | _ => none

/-- Whether one of `n` bytes of a place is poisoned. -/
def State.locPois (s : State) (l : Loc) (n : Nat) : Bool :=
  (List.range n).any (fun i =>
    match l with
    | .reg k b =>
      match s.getG k with
      | none => false
      | some g => (g.r.poisV ((b + i) / 128)).getLsbD ((b + i) % 128 / 4)
    | l => match l.pblk i with
      | none => false
      | some b => s.isPois b)

/-- Poisons the blocks that hold `n` bytes of a place (R403). -/
def State.poisonLoc (s : State) (l : Loc) (n : Nat) : State :=
  (List.range n).foldl (fun s i =>
    match l with
    | .reg k b => s.modG k (fun g => { g with r :=
        { g.r with vPois := mapMod 0 g.r.vPois ((b + i) / 128) (fun m => setBit m ((b + i) % 128 / 4) true) } })
    | l => match l.pblk i with
      | none => s
      | some b => s.setPois b true) s

/-! ### Frames (R237 to R239) -/

/-- Key of a frame: stack and number. -/
def frameKey (st f : Nat) : Nat := st * 2 ^ 20 + f

/-- The hash of a key (R239). -/
def frameHash (asid view va : Nat) : Nat :=
  let x := (asid * 64 + view) * 2 ^ 41 + bitsOf va 16 41
  bitsOf x 0 20 ^^^ bitsOf x 20 20 ^^^ bitsOf x 40 17

/-- The head of a chain; `0xFFFFF` ends it. -/
def State.anchor (s : State) (st h : Nat) : Nat := mapGet 0xFFFFF s.anchors (st * 2 ^ 20 + h)

/-- The search of R239 along a chain, with as many steps as a stack has frames in use. -/
def State.chainFind (s : State) (st asid view vpn : Nat) : Nat → Nat → Option Nat
  | 0, _ => none
  | n + 1, f =>
    if f = 0xFFFFF then none
    else
      let e := s.frame (frameKey st f)
      if e.state ≠ 0 ∧ e.asid = asid ∧ e.view = view ∧ e.vpn = vpn then some f
      else State.chainFind s st asid view vpn n e.next

/-- The frame of a key in its home stack, if it has one (R239). -/
def State.findFrame (s : State) (st asid view va : Nat) : Option Nat :=
  s.chainFind st asid view (va / 2 ^ 16) (s.frames.length + 1) (s.anchor st (frameHash asid view va))

/-- Sub-page number (R238). -/
def subOf (va : Nat) : Nat := bitsOf va 12 4

/-- The frame of a key that holds a sub-page, if it stands. -/
def State.subFrame (s : State) (asid view va : Nat) : Option Nat :=
  let st := s.stackOf asid va
  match s.findFrame st asid view va with
  | none => none
  | some f => if (s.frame (frameKey st f)).sub.getLsbD (subOf va) then some (frameKey st f) else none

/-- Counts a level-2 line fill from a frame or a bypass access to it (R253). -/
def State.countAccess (s : State) (fk : Nat) : State :=
  s.setFrame fk (fun e => { e with access := min 4095 (e.access + 1) })

/-- Links frame `f` at the head of its chain (R239). -/
def State.linkFrame (s : State) (st f : Nat) (e : Frame) : State :=
  let h := frameHash e.asid e.view (e.vpn * 2 ^ 16)
  let s := s.setFrame (frameKey st f) (fun _ => { e with next := s.anchor st h })
  { s with anchors := mapSet 0xFFFFF s.anchors (st * 2 ^ 20 + h) f }

/-- Lowest frame of a stack from 256 up in STATE 0 (R246). -/
def State.lowestFree (s : State) (st : Nat) : Option Nat :=
  let f := ((s.frames.filter (fun e => e.1 / 2 ^ 20 == st && e.2.state != 0)).map (fun e => e.1 % 2 ^ 20)).foldl
    (fun c f => if f = c then c + 1 else c) 256
  if f ≤ 786431 then some f else none

/-- A frame of a key, in STATE 2 with nothing present yet. -/
def Frame.forKey (asid view rg : Nat) (table : Bool) : Frame :=
  { Frame.free with state := 2, w := table, table := table, asid := asid, view := view, vpn := rg,
                    access := 1, sub := if table then 0xFFFF else 0 }

/-- A table-region page takes frame `f`, zeroed and marked TABLE (R228). -/
def State.giveTable (s : State) (st f va : Nat) : State :=
  let s := s.linkFrame st f { Frame.forKey 0 0 (va / 2 ^ 16) true with state := 1 }
  { s with mem := mapDrop s.mem (memKey 0 0 (alignDown va 65536)) 65536 }

/-! ### The backing tables (R229 to R236) -/

def entType (e : Nat) : Nat := e % 4
def entW (e : Nat) : Bool := bitsOf e 2 1 == 1
def entX (e : Nat) : Bool := bitsOf e 3 1 == 1
def entCont (e : Nat) : Nat := bitsOf e 4 2
def entCow (e : Nat) : Bool := bitsOf e 6 1 == 1
def entShrd (e : Nat) : Bool := bitsOf e 7 1 == 1
def entKind (e : Nat) : Nat := bitsOf e 8 2
def entNpf (e : Nat) : Bool := bitsOf e 12 1 == 1
def entKey (e : Nat) : Nat := bitsOf e 16 10
def entLoc (e : Nat) : Nat := bitsOf e 40 56
def entRc (e : Nat) : Nat := bitsOf e 96 32
def entNext (e : Nat) : Nat := bitsOf e 13 28 * 8192
def entTgt (e : Nat) : Nat := bitsOf e 12 45 * 4096

/-- Bits of the VA below an entry of a level (R230). -/
def levelShift (l : Nat) : Nat := 12 + 9 * l

/-- A write permission that honours SHRD (R475). -/
def leafW (e : Nat) : Bool := entW e && !entShrd e

/-- The offset part of LOC (R233). -/
def locOff (e : Nat) : Nat :=
  match entKind e with
  | 1 => bitsOf (entLoc e) 0 44
  | 2 => bitsOf (entLoc e) 0 47
  | 3 => bitsOf (entLoc e) 0 52
  | _ => 0

def contBad (l c : Nat) : Bool := c == 3 || (c != 0 && 2 ≤ l) || (c == 1 && l == 1)

/-- Malformed entries (R231 to R235); `bisnp` says whether feature 7 was accepted (R492). -/
def entBad (bisnp : Bool) (asid l e : Nat) : Bool :=
  match entType e with
  | 0 => e != 0
  | 1 => l == 0 || bitsOf e 2 11 != 0 || bitsOf e 41 87 != 0
  | 2 =>
    l == 4 || bitsOf e 26 14 != 0 || bitsOf e 13 3 != 0 || entCow e || contBad l (entCont e)
      || locOff e % 512 ^ l != 0 || (entKind e == 0 && entLoc e != 0) || (entShrd e && entKind e != 1)
      || (entShrd e && !bisnp)
  | _ =>
    l == 4 || asid == 0 || bitsOf e 7 5 != 0 || bitsOf e 57 71 != 0 || entTgt e % 2 ^ levelShift l != 0
      || (entCow e && l != 0) || contBad l (entCont e) || tableBase < entTgt e + 2 ^ levelShift l

/-- A port is up in CXL mode (R473, R495). -/
def State.portUp (s : State) (p : Nat) : Bool := bitsOf s.dev.portMode.toNat (2 * p) 2 == 1 && !(s.port p).down

/-- Whether an optional feature was accepted (R492). -/
def State.feat (s : State) (n : Nat) : Bool := s.dev.featAccept.getLsbD n

inductive WalkKind where
  | leaf | aliasTo | notMapped | malformed
  /-- a table page that the walk reads has no frame, and none is free for it: nothing of it is mapped -/
  | blocked
  deriving DecidableEq, Repr

/-- Where a walk ended: level (5 for the ASID table), the entry and its address, the lines read with GEN, and the entries
that the walk cache may take. -/
structure WalkOut where
  kind : WalkKind
  level : Nat
  entry : Nat
  addr : Nat
  lines : List (Nat × Nat)
  steps : List WalkEntry
  deriving DecidableEq, Repr

def L2Line.fresh (w x lost : Bool) : L2Line :=
  { dirty := false, w := w, x := x, gen := 0, sharers := 0, allSharers := lost }

/-- The lost clock of a slice takes in a record's clock (R272). -/
def State.loseClock (s : State) (sl : Nat) (c : Map Nat) : State :=
  { s with lostClk := mapMod [] s.lostClk sl (fun m => clkMerge m c) }

/-- ASID, view and address of a line key. -/
def lineAsid (lk : Nat) : Nat := lk / 2 ^ 55
def lineView (lk : Nat) : Nat := lk / 2 ^ 49 % 64
def lineVa (lk : Nat) : Nat := lk % 2 ^ 49 * 256

/-- Drops a level-2 line (R202): its registrations go, release records to the lost clock (R268, R272), a table line loses
its directory extension (R242), and the race detector forgets its sectors (R283). -/
def State.dropLine (s : State) (lk : Nat) : State :=
  let words := s.rel.filter (fun e => e.1 % 2 == 0 && e.1 / 128 == lk)
  let s := words.foldl (fun s e =>
    match e.2 with
    | none => s
    | some r => { s with rel := mapSet none s.rel e.1 none }.loseClock (s.sliceOf (lineAsid lk) (lineVa lk)) r.clock) s
  let s := { s with race := { s.race with sect := s.race.sect.filter (fun e => e.1 % 2 == 1 || e.1 / 16 != lk) },
                    stamps := s.stamps.filter (fun e => e.1 / 128 != lk) }
  match mapGet none s.l2 lk with
  | none => s
  | some l =>
    { s with l2 := mapSet none s.l2 lk none,
             lostDir := if l.sharers == 0#32 then s.lostDir else mapSet false s.lostDir lk true }

/-- The fill whose walk holds a table line until its comparison (R244): the fill's frame. -/
def State.heldBy (s : State) (lk : Nat) : Option Nat :=
  (s.fills.find? (fun f => f.holds && f.lines.any (fun l => l.1 == lk))).map (·.fk)

/-- Whether a line may leave level-2 within a step: a line that a walk holds may not, and a line of a view that is dirty
goes to its view frame first (R244, R440). -/
def State.evictable (s : State) (lk : Nat) : Bool :=
  if lineView lk = 0 then (s.heldBy lk).isNone
  else (s.subFrame (lineAsid lk) (lineView lk) (lineVa lk)).isSome || !((mapGet none s.l2 lk).map (·.dirty)).getD false

/-- The bytes that view `v` holds of a 64-byte block go: its next read takes those of the view above (R440). -/
def State.dropViewBlk (s : State) (asid v va : Nat) : State :=
  { s with viewBlk := mapSet 0 s.viewBlk (blkKey asid v va) 0, pois := mapSet false s.pois (homeBlk asid v va) false }

/-- A line leaves level-2: its bytes stand in its frame; those of a clean line of a view without one go (R202, R440). -/
def State.evictLine (s : State) (lk : Nat) : State :=
  let a := lineAsid lk
  let v := lineView lk
  let s' := s.dropLine lk
  if v != 0 && (s.subFrame a v (lineVa lk)).isNone then
    (List.range 4).foldl (fun s i => s.dropViewBlk a v (lineVa lk + 64 * i)) s'
  else s'

/-- The lines that a slice holds. -/
def State.sliceLines (s : State) (sl : Nat) : List Nat :=
  (s.l2.map (·.1)).filter (fun k => s.sliceOf (lineAsid k) (lineVa k) == sl)

/-- A slice that is full, 2048 lines of 256 bytes (R202), lets one of them go that may leave at once. The choice is
free; where none may, the slice holds a line too many until L2_LINE_EVICT takes one (log 53). -/
def State.makeRoom (s : State) (lk : Nat) : State :=
  if s.l2.length < 2048 then s
  else
    let ls := s.sliceLines (s.sliceOf (lineAsid lk) (lineVa lk))
    if ls.length < 2048 then s
    else
      let ls := ls.filter s.evictable
      if ls.isEmpty then s
      else
        let (s, i) := s.choose ls.length
        match ls[i]? with
        | some k => s.evictLine k
        | none => s

/-- Adds a level-2 line. -/
def State.addLine (s : State) (lk : Nat) (w x : Bool) : State :=
  match mapGet none s.l2 lk with
  | some _ => s
  | none =>
    let s := s.makeRoom lk
    { s with l2 := mapSet none s.l2 lk (some (L2Line.fresh w x (mapGet false s.lostDir lk))) }

/-- The line of a table page comes into level-2 as a load of the table region brings it (R228, R241): the first miss of a
page takes the lowest free frame; `false` where none is free. -/
def State.tableLine (s : State) (va : Nat) : State × Bool :=
  let lk := lineKey 0 0 va
  if (mapGet none s.l2 lk).isSome then (s, true)
  else
    let st := s.stackOf 0 va
    match s.findFrame st 0 0 va with
    | some f => ((s.countAccess (frameKey st f)).addLine lk true false, true)
    | none =>
      match s.lowestFree st with
      | none => (s, false)
      | some f => ((s.giveTable st f va).addLine lk true false, true)

/-- One table entry read by the walker of stack `st` at its home (R241, R242), with its line and GEN; `none` reads
without trace. -/
def State.tableRead (s : State) (st : Option Nat) (off : Nat) : State × Option (Nat × (Nat × Nat)) :=
  let va := tableBase + off
  let lk := lineKey 0 0 va
  match st with
  | none => (s, some (s.ld 0 0 va 16, (lk, 0)))
  | some st =>
    match s.tableLine va with
    | (s, false) => (s, none)
    | (s, true) =>
      let e := s.ld 0 0 va 16
      match mapGet none s.l2 lk with
      | none => (s, some (e, (lk, 0)))
      | some l =>
        ({ s with l2 := mapSet none s.l2 lk (some { l with sharers := l.sharers ||| laneBit st }) }, some (e, (lk, l.gen)))

/-- The levels of a walk from level `l` down (R241), where `cache` allows through the stack's walk cache. -/
def State.walkFrom (s : State) (st : Option Nat) (cache : Bool) (asid va : Nat) :
    Nat → Nat → List (Nat × Nat) → List WalkEntry → State × WalkOut
  | l, node, lines, steps =>
    let off := node + 16 * bitsOf va (levelShift l) 9
    let hit := if !cache then none else st.bind (fun st => s.walk.find? (fun w =>
      w.stack == st && w.asid == asid && w.level == l && w.pre == va / 2 ^ levelShift l))
    let (s, got) :=
      match hit with
      | some w => (s, some (w.entry, lines ++ w.lines))
      | none =>
        match s.tableRead st off with
        | (s, none) => (s, none)
        | (s, some (e, ln)) => (s, some (e, lines ++ [ln]))
    let addr := tableBase + off
    match got with
    | none => (s, ⟨.blocked, l, 0, addr, lines, steps⟩)
    | some (e, lines) =>
      if entBad (s.feat 7) asid l e then (s, ⟨.malformed, l, e, addr, lines, steps⟩)
      else
        let steps :=
          match st, hit with
          | some st, none => if entType e = 0 then steps else steps ++ [⟨st, asid, l, va / 2 ^ levelShift l, e, lines⟩]
          | _, _ => steps
        match entType e, l with
        | 0, _ => (s, ⟨.notMapped, l, e, addr, lines, steps⟩)
        | 1, l' + 1 => State.walkFrom s st cache asid va l' (entNext e) lines steps
        | 2, _ => (s, ⟨.leaf, l, e, addr, lines, steps⟩)
        | 3, _ => (s, ⟨.aliasTo, l, e, addr, lines, steps⟩)
        | _, _ => (s, ⟨.malformed, l, e, addr, lines, steps⟩)

/-- Entry of the ASID table (R229). -/
def asidState (e : Nat) : Nat := e % 4
def asidBad (e : Nat) : Bool :=
  2 ≤ e % 4 || bitsOf e 72 56 != 0 || bitsOf e 41 23 != 0 || bitsOf e 2 11 != 0

/-- One walk from the ASID table (R241 step 1). -/
def State.walkOnce (s : State) (st : Option Nat) (cache : Bool) (asid va : Nat) : State × WalkOut :=
  let addr := tableBase + 16 * asid
  match s.tableRead st (16 * asid) with
  | (s, none) => (s, ⟨.blocked, 5, 0, addr, [], []⟩)
  | (s, some (e, ln)) =>
    if asidBad e then (s, ⟨.malformed, 5, e, addr, [ln], []⟩)
    else if asidState e = 0 then (s, ⟨.notMapped, 5, e, addr, [ln], []⟩)
    else s.walkFrom st cache asid va 4 (entNext e) [ln] []

/-- The comparison of R244: every line read still stands in level-2 with its GEN. -/
def State.gensMatch (s : State) (ls : List (Nat × Nat)) : Bool :=
  ls.all (fun l => match mapGet none s.l2 l.1 with
    | some x => x.gen == l.2
    | none => false)

/-- The walk cache takes an entry. -/
def State.cacheStep (s : State) (w : WalkEntry) : State :=
  let same (x : WalkEntry) : Bool := x.stack == w.stack && x.asid == w.asid && x.level == w.level && x.pre == w.pre
  { s with walk := s.walk.filter (fun x => !same x) ++ [w] }

/-- A walk and its comparison (R241, R244): one that fails it is made again from the root, reading every entry at its
home. No write falls between the reads of that walk and its comparison. -/
def State.walkTo (s : State) (st : Option Nat) (asid va : Nat) : State × WalkOut :=
  let (s, w) := s.walkOnce st true asid va
  let (s, w) := if st.isNone || s.gensMatch w.lines then (s, w) else s.walkOnce st false asid va
  (w.steps.foldl State.cacheStep s, w)

/-- The walk without trace. -/
def State.walkRaw (s : State) (asid va : Nat) : WalkOut := (s.walkTo none asid va).2

/-- The walks of the sub-pages `m` of a frame by the fill unit of its stack. -/
def State.walkSubs (s : State) (fk : Nat) (e : Frame) (m : BitVec 16) : State × List (Nat × WalkOut) :=
  ((List.range 16).filter (fun i => m.getLsbD i)).foldl (fun acc i =>
    let (s, w) := acc.1.walkTo (some (fk / 2 ^ 20)) e.asid (e.vpn * 2 ^ 16 + 4096 * i)
    (s, acc.2 ++ [(i, w)])) (s, [])

/-- Target address of an alias for `va` (R234). -/
def aliasVa (w : WalkOut) (va : Nat) : Nat := entTgt w.entry + va % 2 ^ levelShift w.level

/-- Page number, in units of 4 KiB from the leaf's start, of the sub-page of `va`. -/
def leafPage (w : WalkOut) (va : Nat) : Nat := va % 2 ^ levelShift w.level / 4096

/-- Length of the run that an entry acts in (R236): its `2^CONT`-fold run where every entry of it agrees, else 1. -/
def State.runOf (s : State) (w : WalkOut) : Nat :=
  let n := match entCont w.entry with
    | 1 => 4
    | 2 => 16
    | _ => 1
  let first := alignDown w.addr (16 * n)
  let i0 := (w.addr - first) / 16
  let same (i : Nat) : Bool :=
    let e := s.ld 0 0 (first + 16 * i) 16
    if entType w.entry = 2 then
      e % 2 ^ 40 ||| 0xC00 == w.entry % 2 ^ 40 ||| 0xC00
        && entLoc e + 512 ^ w.level * i0 == entLoc w.entry + 512 ^ w.level * i
    else
      e % 4096 == w.entry % 4096 && e / 2 ^ 57 == w.entry / 2 ^ 57
        && entTgt e + 2 ^ levelShift w.level * i0 == entTgt w.entry + 2 ^ levelShift w.level * i
  if n = 1 then 1 else if (List.range n).all same then n else 1

/-! ### The lease table (R471) -/

structure Lease where
  expiry : Nat
  base : Nat
  size : Nat
  target : Nat
  xwin : Nat
  state : Nat
  type : Nat
  ro : Bool
  endCause : Nat
  deriving DecidableEq, Repr

def leaseVa (i : Nat) : Nat := tableBase + 0x40000 + 32 * i

def State.lease (s : State) (i : Nat) : Lease :=
  let r := s.ld 0 0 (leaseVa i) 32
  { expiry := recField r 0 8, base := recField r 8 8, size := recField r 16 8, target := recField r 24 2,
    xwin := recField r 26 2, state := recField r 28 1, type := recField r 29 1 % 4,
    ro := bitsOf (recField r 29 1) 2 1 == 1, endCause := recField r 30 1 }

/-- What a lease answers to an access at page offset `p` (R473, R475, R492): `none` if it may proceed, else the
outcome; outcome 0 stands for waiting until a draining lease has ended. -/
def State.leaseRefusal (s : State) (i p : Nat) (shrd fill : Bool) : Option Nat :=
  let l := s.lease i
  if l.state = 0 || 5 ≤ l.state || l.size ≤ 4096 * p || l.type = 0 || l.type = 3 then some 8
  else if l.state = 3 then some (if l.endCause = 5 then 5 else 6)
  else if l.state = 4 then some 7
  else if l.type = 1 && !s.feat 6 then some 8
  else if l.type = 2 && !s.feat 8 then some 10
  else if shrd && !l.ro then some 8
  else if l.state = 2 then
    if l.type = 2 then some (if l.endCause = 5 then 5 else 6) else if fill then some 0 else none
  else none

/-! ### Locating a byte (R240) -/

def AccKind.isWrite : AccKind → Bool
  | .store | .weir | .engineStore => true
  | _ => false

def AccKind.isFetch : AccKind → Bool
  | .fetch => true
  | _ => false

/-- ACCESS of a work item (R252). -/
def AccKind.code : AccKind → Nat
  | .load => 0
  | .store | .weir => 1
  | .fetch => 2
  | .engineLoad | .engineStore => 3

/-- Whether permission bits allow a kind of access. -/
def AccKind.allowed (k : AccKind) (w x : Bool) : Bool := (!k.isWrite || w) && (!k.isFetch || x)

inductive Found where
  | at (l : Loc)
  /-- the fill unit must serve it -/
  | miss
  | wait (r : ReqState)
  deriving DecidableEq, Repr

/-- The permission walk of R240 step 3: whether the leaf allows the access; sets the frame's bit where the leaves of all
its present sub-pages may. -/
def State.permWalk (s : State) (st f : Nat) (k : AccKind) (asid va : Nat) : State × Bool :=
  let e := s.frame (frameKey st f)
  if k.allowed e.w e.x then (s, true)
  else
    let (s, w) := s.walkTo (some st) asid va
    if w.kind == .leaf && k.allowed (leafW w.entry) (entX w.entry) then
      let (s, ws) := s.walkSubs (frameKey st f) e e.sub
      let all (p : Nat → Bool) : Bool := ws.all (fun x => x.2.kind == .leaf && p x.2.entry)
      (s.setFrame (frameKey st f) (fun e =>
        { e with w := e.w || (k.isWrite && all leafW), x := e.x || (k.isFetch && all entX) }), true)
    else (s, false)

/-- Level-2 and the frames of one key (R240 steps 1 to 3), without aliases; `bypass` is hint 2 (R225). The bypass access
that caused the frame's fill is not counted (R253). -/
def State.locateFrame (s : State) (k : AccKind) (bypass : Bool) (asid view va : Nat) : State × Found :=
  let lk := lineKey asid view va
  let hit := match mapGet none s.l2 lk with
    | some l => k.allowed l.w l.x
    | none => false
  if hit then (s, .at (.home asid view va))
  else
    let st := s.stackOf asid va
    match s.findFrame st asid view va with
    | none => (s, .miss)
    | some f =>
      let fk := frameKey st f
      let e := s.frame fk
      if e.state ≠ 1 then (s, .wait (.onFrame fk))
      else if !e.sub.getLsbD (subOf va) then (s, .miss)
      else
        let (s, ok) := s.permWalk st f k asid va
        if !ok then (s, .miss)
        else
          let e := s.frame fk
          if (mapGet none s.l2 lk).isSome then (s, .at (.home asid view va))
          else if !bypass then ((s.countAccess fk).addLine lk e.w e.x, .at (.home asid view va))
          else if e.counted then (s.setFrame fk (fun e => { e with counted := false }), .at (.home asid view va))
          else (s.countAccess fk, .at (.home asid view va))

/-- A host-backed byte (R468): the port cache must hold the block. A fill that is not installed serves each group that
waited for it once (R470). -/
def State.locateHost (s : State) (k : AccKind) (port hpa : Nat) : State × Found :=
  let b := hpa / 64
  match s.portCache.find? (fun e => e.port == port && e.blk == b) with
  | some e =>
    if e.state = 4 then
      if k.isWrite || !e.uses.contains s.gid then (s, .wait (.onPort port b))
      else
        let used (x : PortBlk) : PortBlk :=
          if x.port = port ∧ x.blk = b then { x with uses := x.uses.filter (· != s.gid) } else x
        let left (x : PortBlk) : Bool := !(x.state == 4 && x.uses.isEmpty)
        ({ s with portCache := (s.portCache.map used).filter left }, .at (.host port hpa))
    else if k.isWrite && e.state = 1 then (s, .wait (.onPort port b))
    else
      let up (x : PortBlk) : PortBlk := { x with state := if k.isWrite then 3 else x.state }
      ({ s with portCache := modWhere (fun x => x.port == port && x.blk == b) up s.portCache }, .at (.host port hpa))
  | none => (s, .wait (.onPort port b))

/-- A TU's frame cache (R240 step 1). -/
def State.tuFind (s : State) (asid view va : Nat) : Option TuHit :=
  let st := s.stackOf asid va
  (s.tu.find? (fun t => t.stack == st && t.asid == asid && t.view == view && t.page == va / 4096)).map TuEntry.hit

/-- Translation at the home of one key: its frames, or a location outside the device that the TU holds (R240, R241). -/
def State.locateKey (s : State) (k : AccKind) (bypass : Bool) (asid view va : Nat) : State × Found :=
  match s.locateFrame k bypass asid view va with
  | (s, .miss) =>
    match s.tuFind asid view va with
    | some (.host port hpa w x) =>
      if !k.allowed w x || !s.portUp port then (s, .miss) else s.locateHost k port (hpa + va % 4096)
    | some (.peer lease off w x) =>
      let l := s.lease lease
      if !k.allowed w x || (s.leaseRefusal lease (off / 4096) false true).isSome then (s, .miss)
      else (s, .at (.peer l.target l.xwin (l.base + off + va % 4096)))
    | _ => (s, .miss)
  | r => r

def Window.has (w : Window) (va : Nat) : Bool := w.base ≤ va && va < w.base + w.bytes

/-- The grid's first team has been placed. -/
def Grid.started (g : Grid) : Bool := g.next != 0 || g.replays != 0

/-- A level-2 access reloads the fade counters of the PIN windows that hold the line (R221). -/
def State.reloadFade (s : State) (asid va : Nat) : State :=
  let pin (g : Grid) (w : Window) : Bool := g.asid == asid && g.started && !g.done && w.kind == 1 && w.fade0 != 0 && !w.lapsed && w.has va
  if s.grids.any (fun e => match e.2 with
      | some g => g.windows.any (pin g)
      | none => false) then
    { s with grids := s.grids.map (fun e => (e.1, e.2.map (fun g =>
        { g with windows := g.windows.map (fun w => if pin g w then { w with fade := w.fade0 } else w) }))) }
  else s

/-- The copy-on-write share of a run is being broken: every access to it is ordered after the break (R250). -/
def State.cowBusy (s : State) (asid va : Nat) : Bool :=
  s.reqs.any (fun r => r.breaks && r.asid == asid && r.view == 0 && r.va / 2 ^ 16 == va / 2 ^ 16
    && (let n := s.runOf (s.walkRaw asid r.va)
        va / (4096 * n) == r.va / (4096 * n)))

/-- Translation of an access that level-1 has missed (R221, R240, R241, R250), as far as no fill is needed. -/
def State.locate (s : State) (k : AccKind) (bypass : Bool) (asid view va : Nat) : State × Found :=
  let s := s.reloadFade asid va
  if s.cowBusy asid va then (s, .wait .onCow)
  else
    match s.locateKey k bypass asid view va with
    | (s, .miss) =>
      match s.tuFind asid view va with
      | some (.aliasLeaf target w x) =>
        if !k.allowed w x then (s, .miss) else s.locateKey k bypass 0 0 (target + va % 4096)
      | _ => (s, .miss)
    | r => r

/-- The key whose line or frame holds an address: its own, or the target of an alias (R234). -/
def State.homeKey (s : State) (asid view va : Nat) : Nat × Nat × Nat :=
  if inTable va then (0, 0, va)
  else if (s.findFrame (s.stackOf asid va) asid view va).isSome then (asid, view, va)
  else
    let w := s.walkRaw asid va
    if w.kind == .aliasTo then (0, 0, aliasVa w va) else (asid, view, va)

/-- The key under which an access is made: the table region belongs to ASID 0 and view 0 (R228). -/
def tableKey (asid view va : Nat) : Nat × Nat := if inTable va then (0, 0) else (asid, view)

end Sys2Proof.Machine
end

