-- ==== Sys2Proof/Machine/Fill.lean ====
section
/-! DEFINITION. The fill unit, the spillway and the flash queue engines' part in them: victims, fills, write-back,
work items of the pager ring, and the waking of what waits (R216 to R221, R240 to R254, R377 to R383, R393, R497). -/

namespace Sys2Proof.Machine

/-! ### Cofferdams and ownership of blocks (R275, R284 to R287) -/

/-- Key of the block that an access touches, for ownership: poison blocks, or one register of a group. -/
def Loc.ownKey (l : Loc) (i : Nat) : Option Nat :=
  match l with
  | .reg k b => some (4 * (2 ^ 90 + k * 128 + (b + i) / 128))
  | l => l.pblk i

/-- Blocks that `n` bytes of a place touch. -/
def Loc.blocks (l : Loc) (n : Nat) : List Nat := ((List.range n).filterMap l.ownKey).dedup

/-- A block is held by a cofferdam or owned by an engine. -/
def State.blkTaken (s : State) (b : Nat) : Bool :=
  s.dams.any (fun d => !d.breached && d.blk == b) || s.owns.any (fun o => o.held && o.blk == b)

/-- The first block of an access that an engine owns, or a cofferdam of a group other than `me` holds. -/
def State.heldBlk (s : State) (me : Option Nat) (l : Loc) (n : Nat) : Option Nat :=
  if s.owns.isEmpty && s.dams.isEmpty then none
  else (l.blocks n).find? (fun b =>
    s.owns.any (fun o => o.held && o.blk == b) || s.dams.any (fun d => !d.breached && d.blk == b && some d.grp != me))

/-! ### Writes that may yet not take effect (R8, R464) -/

/-- The writes that made `n` bytes of home memory from key `k` on have taken effect. -/
def State.settleKeys (s : State) (k n : Nat) : State :=
  if s.stores.all (fun y => y.undo.isEmpty) then s
  else { s with stores := s.stores.map (fun y => { y with undo := y.undo.filter (fun e => e.1 < k || k + n ≤ e.1) }) }

/-- Bytes that an access has met, or that leave their home: the writes that made them have taken effect. -/
def State.settleUndo (s : State) (l : Loc) (n : Nat) : State :=
  match l with
  | .home a v x => s.settleKeys (memKey a v x) n
  | _ => s

/-! ### Waking -/

/-- Lanes held pending that have become LIVE halt, and the event is posted (R415). -/
def State.settleHalts (s : State) (k : Nat) : State :=
  match s.getG k with
  | none => s
  | some g =>
    if g.haltPend = 0 ∧ g.stepPend = 0 then s
    else
      let live := maskOf (fun l => g.laneAt l == .live)
      let h := live &&& g.haltPend
      let t := live &&& g.stepPend &&& ~~~h
      let s := s.modG k (fun g => ({ g with haltPend := g.haltPend &&& ~~~h, stepPend := g.stepPend &&& ~~~(t ||| h) }).eachLane
        (h ||| t) (fun g l => g.putLane l .halted))
      let s := if h = 0 then s else s.postDebug g.team 4 g.grp 0 h
      if t = 0 then s else s.postDebug g.team 2 g.grp 0 t

/-- Parked lanes become LIVE; a suspended lane does so in the trap save only (R396). -/
def State.wakeLanes (s : State) (k : Nat) (m : Word) : State :=
  (s.modG k (fun g => g.eachLane m (fun g l => if g.laneAt l = .parked then g.putLane l .live else g))).settleHalts k

/-- The view whose bytes a read of a view takes (R438): its own once the block is there, else the nearest ancestor's. -/
def State.viewHolder (s : State) (asid va : Nat) : Nat → Nat → Nat
  | 0, _ => 0
  | n + 1, v =>
    if v = 0 then 0
    else if mapGet 0 s.viewBlk (blkKey asid v va) != 0 then v
    else State.viewHolder s asid va n (s.tag asid v).parent

/-- The read of the handler word of group `k` (R394): the word where it can be read, `none` where there is no handler,
or what the read waits for. -/
def State.handlerRead (s : State) (k : Nat) : State × Except ReqState (Option DWord) :=
  match s.getG k with
  | none => (s, .ok none)
  | some g =>
    let a := (g.r.codeBase.toNat + 2 ^ 64 - 8) % 2 ^ 64
    let act : Actor := { lane := true, prv := g.r.prv, team := if g.isCompute then some g.team else none, core := coreOf k g }
    let take (s : State) (l : Loc) : State × Except ReqState (Option DWord) :=
      (s, .ok (if s.locPois l 8 then none else some (BitVec.ofNat 64 (s.rdLoc l 8))))
    if 2 ^ 57 ≤ a || a % 8 != 0 || (inTable a && g.r.prv == 0) then (s, .ok none)
    else if onChip a then
      match s.onChipLoc act a 8 with
      | .error _ => (s, .ok none)
      | .ok l => take s l
    else
      let ky := tableKey g.asid (s.viewHolder g.asid a 8 g.view) a
      match s.locate .load false ky.1 ky.2 a with
      | (s, .at l) => take s l
      | (s, .miss) => (s, .error .fresh)
      | (s, .wait r) => (s, .error r)

/-- Takes the handler word into group `k` once it has been read (R394). -/
def State.setHandler (s : State) (k : Nat) (w : Option DWord) : State :=
  s.modG k (fun g =>
    { g with hold := .none, handler := w.bind (fun x => if x.getLsbD 32 then some (x.extractLsb' 0 32) else none) })

/-- Changes box `b` (`64 command + box`) of a context. -/
def CopyCtx.modBox (c : CopyCtx) (b : Nat) (f : CopyBox → CopyBox) : CopyCtx :=
  let up (q : CopyCmd) : CopyCmd := { q with boxes := modNth f q.boxes (b % 64) }
  { c with cmds := modWhere (fun q => q.id == b / 64) up c.cmds }

/-- A box that waited runs on (R335). -/
def State.wakeBox (s : State) (core ctx b : Nat) : State :=
  let wake (x : CopyBox) : CopyBox := if x.state = .waiting then { x with state := .running } else x
  s.setCtx core ctx ((s.ctx core ctx).map (fun c => c.modBox b wake))

/-- What a served request lets go on (R240, R245): lanes, or the step that makes the access of the device again. -/
def State.wakeWho (s : State) (w : ReqWho) : State :=
  match w with
  | .lanes g m => s.wakeLanes g m
  | .copy core ctx b _ _ => s.wakeBox core ctx b
  | .far k =>
    { s with contribs := modWhere (fun c => c.id == k)
               (fun c => if c.place = .waiting then { c with place := .inFlight } else c) s.contribs }
  | .handler g =>
    match s.handlerRead g with
    | (s, .ok w) => s.setHandler g w
    | (s, .error _) => s.setHandler g none
  | .record k => s.due (.recordAccept (k / 16) (k % 16))
  | .completion _ | .table _ => s.due (.teamRetire 0)
  | .replay gr => s.due (.replayRestart gr)
  | .area t => s.due (.ctxAreaReady t)
  | .close id => s.due (.storeAck id)
  | .sub k => s.due (.nvmeCompletion k 0)
  | .evict a v ln => s.due (.l2LineEvict a v ln)
  | .ring t | .errRec t => s.due (.pagerWake t)
  | .take g => s.due (.damGrant g)
  | .peer _ _ | .commit _ | .prefetch | .round _ _ _ => s

/-- Requests in a state are served afresh from step 1 of R240. -/
def State.refresh (s : State) (st : ReqState) : State :=
  { s with reqs := modWhere (fun r => r.state == st) (fun r => { r with state := .fresh }) s.reqs }

/-- A request is done with; where it was breaking a copy-on-write share, those that waited for the break are served
afresh. -/
def State.dropReq (s : State) (r : Req) : State :=
  let s := { s with reqs := s.reqs.filter (fun x => x.id != r.id) }
  if r.breaks then s.refresh .onCow else s

def State.wakeReq (s : State) (r : Req) : State := (s.dropReq r).wakeWho r.who

def State.setReq (s : State) (id : Nat) (st : ReqState) : State :=
  { s with reqs := modWhere (fun r => r.id == id) (fun r => { r with state := st }) s.reqs }

/-- Requests that wait for the pager to refill a copy-on-write reserve are served afresh (R250). -/
def State.refreshCow (s : State) : State :=
  let low (r : Req) : Bool := s.items.any (fun i => r.state == .onItem i.id && i.cause == 5)
  { s with reqs := modWhere low (fun r => { r with state := .fresh }) s.reqs }

/-- A `dam.take` that waits in a queue. -/
def ReqWho.isTake : ReqWho → Bool
  | .take _ => true
  | _ => false

/-- The queue of a block moves on (R275, R284): in the order of their arrival, the accesses before its first `dam.take`
go on, or that take is granted. -/
def State.releaseBlk (s : State) (b : Nat) : State :=
  let q := s.reqs.filter (fun r => r.state == .onBlock b)
  let now := q.takeWhile (fun r => !r.who.isTake)
  if now.isEmpty then
    match q.head? with
    | some r => s.wakeWho r.who
    | none => s
  else now.foldl State.wakeReq s

/-! ### Requests, and their deadlines (R222, R223) -/

/-- The grid for which an access is made. -/
def State.gridOfWho (s : State) (w : ReqWho) : Option Nat :=
  let ofGroup (k : Nat) : Option Nat := (s.getG k).bind (fun g => if g.isCompute then (s.team g.team).map Team.grid else none)
  match w with
  | .lanes g _ | .handler g | .commit g | .take g => ofGroup g
  | .copy core ctx _ _ _ => (s.ctx core ctx).bind (fun c => (s.team c.team).map Team.grid)
  | .far k => (s.contribs.find? (fun c => c.id == k)).bind (fun c => ofGroup c.grp)
  | .close k => (s.stores.find? (fun x => x.id == k)).bind (fun x => x.grp.bind ofGroup)
  | .completion gr | .replay gr | .table gr => some gr
  | _ => none

/-- The class of an access to `va` for a grid, and how many ticks after its issue it is due (R222). -/
def State.classFor (s : State) (gr : Option Nat) (asid va : Nat) : Nat × Nat :=
  let e := (gr.bind s.grid).bind (fun g => g.windows.find? (fun w => w.kind == 2 && w.has va))
  let c := (e.map Window.cls).getD 1
  let dflt := ((s.polderOf asid).map (fun p => bitsOf (s.polder p).dl.toNat (16 * c) 16)).getD 0
  (c, (e.map (fun w => if w.deadline = 0 then dflt else w.deadline)).getD dflt)

/-- The class and the deadline stamp of an access to `va` for a grid (R222). -/
def State.stampFor (s : State) (gr : Option Nat) (asid va : Nat) : Stamp :=
  let x := s.classFor gr asid va
  ⟨asid, x.1, (s.tick + x.2) % 2 ^ 16⟩

/-- A request of a class is served with a slack, modulo 2^16: with a negative one it counts as missed in its polder (R223). -/
def State.countSlack (s : State) (asid cls slack : Nat) : State :=
  if slack % 2 ^ 16 < 2 ^ 15 then s
  else
    match s.polderOf asid with
    | none => s
    | some p =>
      s.setPolder p (fun x => { x with missed := mapMod 0 x.missed cls (fun w => if w = 0xFFFFFFFF#32 then w else w + 1) })

/-- A request is served after its issue. -/
def State.countServed (s : State) (d : Stamp) : State :=
  s.countSlack d.asid d.cls (d.due + 2 ^ 16 - s.tick % 2 ^ 16)

/-- An access is served in the tick of its issue. -/
def State.countNow (s : State) (gr : Option Nat) (asid va : Nat) : State :=
  let x := s.classFor gr asid va
  s.countSlack asid x.1 x.2

/-- A request as level-2 takes it. -/
def State.newReq (s : State) (asid view va : Nat) (k : AccKind) (hint : Nat) (w : ReqWho) (st : ReqState) (d : Stamp) : State :=
  let (s, id) := s.fresh
  { s with reqs := s.reqs ++ [Req.mk id asid view va k hint w st d false 0 false] }

/-- Registers what an access waits for; lanes of one group that wait for one sub-page share a request, and an access of
the device has one. -/
def State.addReq (s : State) (asid view va : Nat) (k : AccKind) (hint : Nat) (w : ReqWho) (st : ReqState) : State :=
  let d := s.stampFor (s.gridOfWho w) asid va
  match w with
  | .lanes g m =>
    let same (r : Req) : Bool :=
      r.asid == asid && r.view == view && r.va / 4096 == va / 4096 && r.kind == k && r.hint == hint && r.state == st
        && (match r.who with
            | .lanes g' _ => g' == g
            | _ => false)
    match s.reqs.find? same with
    | some r =>
      let join (r : Req) : Req := { r with who := match r.who with
        | .lanes g' m' => .lanes g' (m' ||| m)
        | w => w }
      { s with reqs := modWhere (fun x => x.id == r.id) join s.reqs }
    | none => s.newReq asid view va k hint w st d
  | .copy _ _ _ _ _ => s.newReq asid view va k hint w st d
  | w => if s.reqs.any (fun r => r.who == w) then s else s.newReq asid view va k hint w st d

/-- An outstanding access for `w`. -/
def State.waitsFor (s : State) (w : ReqWho) : Bool := s.reqs.any (fun r => r.who == w)

/-! ### Pins (R219, R220) -/

/-- A range of 64 KiB regions holds a region. -/
def Pin.holds (p : Pin) (asid rg : Nat) : Bool := p.asid == asid && p.first ≤ rg && rg < p.first + p.count

/-- A pin holds the frames of its own ASID's regions. Where a page of its range is an alias, the frame of the target is
held under ASID 0, and the pin does not hold it (DEDUCED from R219 and R238, log 54). -/
def State.pinned (s : State) (asid rg : Nat) : Bool := s.pins.any (fun p => p.holds asid rg)

/-- Regions that pins hold in a stack (R220). -/
def State.pinCount (s : State) (st : Nat) : Nat :=
  (s.frames.filter (fun e => e.1 / 2 ^ 20 == st && e.2.state == 1 && s.pinned e.2.asid e.2.vpn)).length

/-! ### Work items (R252, R393, R497) -/

def ringSize (d : DWord) : Nat := 2 ^ (min 10 (d.extractLsb' 0 4).toNat + 6)
def ringBase (d : DWord) : Nat := (d.extractLsb' 12 45).toNat * 4096

/-- The 32 bytes of an item (R252) as a number. -/
def Item.bytes (i : Item) : Nat :=
  i.cause + i.level * 256 + i.access * 4096 + (i.asid + i.view * 65536) * 2 ^ 32 + i.va * 2 ^ 64
    + i.entry * 2 ^ 128 + i.frame * 2 ^ 192

/-- Marks what a write to home bytes changes: the line and the sub-page become dirty, and the first write to a
sub-page after its fill sets D in its leaf (R202, R247). A write-back under way does not make the sub-page clean. -/
def State.markDirty (s : State) (asid view va : Nat) : State :=
  let lk := lineKey asid view va
  let s := match mapGet none s.l2 lk with
    | some l => { s with l2 := mapSet none s.l2 lk (some { l with dirty := true }) }
    | none => s
  let st := s.stackOf asid va
  match s.findFrame st asid view va with
  | none => s
  | some f =>
    let fk := frameKey st f
    let bit := BitVec.ofNat 16 (2 ^ subOf va)
    let late (x : Spill) : Spill := { x with subs := x.subs &&& ~~~bit }
    let s := if s.spills.isEmpty then s else { s with spills := modWhere (fun x => x.fk == fk) late s.spills }
    if (s.frame fk).dirty.getLsbD (subOf va) then s
    else
      let s := s.setFrame fk (fun e => { e with dirty := e.dirty ||| bit })
      if view ≠ 0 ∨ inTable va then s
      else
        let w := s.walkRaw asid va
        if w.kind = .leaf then s.stb 0 0 w.addr 16 (w.entry ||| 0x400) else s

/-- Marks what a write to home bytes changes; a block written under a view is one that the view has written (R440). -/
def State.touchHome (s : State) (asid view va : Nat) : State :=
  let s := s.markDirty asid view va
  if view = 0 then s else { s with viewBlk := mapSet 0 s.viewBlk (blkKey asid view va) 2 }

/-- Posts an item to the pager core of a stack's tile (R252); returns its identifier. The step after this one writes it
into the ring (PAGER_WAKE). -/
def State.postItem (s : State) (st cause level access asid view va entry frame : Nat) : State × Nat :=
  let (s, id) := s.fresh
  let t := tileOfStack st
  let s := { s with items := s.items ++ [Item.mk id t cause level access asid view va entry frame s.tick none] }
  (s.due (.pagerWake t), id)

/-- FRAME of an item (R252, R380, R473). -/
def frameField (st f : Nat) : Nat := f + st * 2 ^ 24
def backingField (st f nvme outcome remote : Nat) : Nat :=
  frameField st f + nvme * 2 ^ 32 + outcome * 2 ^ 48 + remote * 2 ^ 56

/-- Requests that post no item at a fault: error records, entries of a pager ring, prefetches (R254, R405; log 45). -/
def ReqWho.quiet : ReqWho → Bool
  | .errRec _ | .ring _ | .prefetch => true
  | _ => false

/-- A fault drops such a request, and the record for which it was made (R405). -/
def State.quietFault (s : State) (q : Req) : State :=
  let s := s.dropReq q
  match q.who with
  | .errRec t =>
    ({ s with errDue := dropFirst (fun e => e.1 == t) s.errDue }.setTile t (fun x => { x with errLost := true })).due (.pagerWake t)
  | _ => s

/-! ### Freeing frames (R239, R245) -/

/-- Unlinks frame `f` from its chain. -/
def State.unlinkFrame (s : State) (st f : Nat) : State :=
  let e := s.frame (frameKey st f)
  let h := frameHash e.asid e.view (e.vpn * 2 ^ 16)
  if s.anchor st h = f then { s with anchors := mapSet 0xFFFFF s.anchors (st * 2 ^ 20 + h) e.next }
  else
    match s.frames.find? (fun x => x.1 / 2 ^ 20 == st && x.2.state != 0 && x.2.next == f) with
    | none => s
    | some p => s.setFrame p.1 (fun x => { x with next := e.next })

/-- Drops a sub-page's lines and bytes at its home (R241, R476). -/
def State.dropSub (s : State) (asid view va : Nat) : State :=
  let p := alignDown va 4096
  let s := s.settleKeys (memKey asid view p) 4096
  let s := (List.range 16).foldl (fun s i => s.dropLine (lineKey asid view (p + 256 * i))) s
  { s with mem := mapDrop s.mem (memKey asid view p) 4096,
           pois := s.pois.filter (fun e => !(e.1 % 4 == 0 && homeBlk asid view p ≤ e.1 && e.1 < homeBlk asid view p + 256)),
           viewBlk := if view = 0 then s.viewBlk else mapDrop s.viewBlk (blkKey asid view p) 64,
           tu := s.tu.filter (fun t => !(t.asid == asid && t.view == view && t.page == p / 4096)) }

/-- Frees a frame: its lines, its bytes and its frame-cache translations go; requests that waited for it are served
afresh (R245, R248). -/
def State.freeFrame (s : State) (st f : Nat) : State :=
  let e := s.frame (frameKey st f)
  let s := s.unlinkFrame st f
  let s := (List.range 16).foldl (fun s i => s.dropSub e.asid e.view (e.vpn * 2 ^ 16 + 4096 * i)) s
  (s.setFrame (frameKey st f) (fun _ => Frame.free)).refresh (.onFrame (frameKey st f))

/-! ### Victims (R246) -/

/-- A leaf that can take a sub-page's data (R246, R247). -/
def WalkOut.takes (w : WalkOut) : Bool := w.kind == .leaf && entKind w.entry != 0 && entKind w.entry != 3

/-- Whether a dirty sub-page of a frame has no place that can take its data (R246, R247). -/
def State.needsBacking (s : State) (fk : Nat) : State × Bool :=
  let e := s.frame fk
  let (s, ws) := s.walkSubs fk e e.dirty
  (s, ws.any (fun x => !x.2.takes))

def State.eligible (s : State) (fk : Nat) : Bool :=
  let e := s.frame fk
  e.state == 1 && !e.table && e.view == 0 && !s.pinned e.asid e.vpn && !s.spills.any (fun x => x.fk == fk)
    && !s.reqs.any (fun r => r.breaks && r.asid == e.asid && r.va / 2 ^ 16 == e.vpn)

/-- One NEED_BACKING item for a frame until a leaf of it changes (R246). What the item holds besides its cause, key and
frame is not stated: LEVEL 15, ACCESS 0, ENTRY 0, and the address of the region as VA (DESIGN CHOICE, log 55). -/
def State.askBacking (s : State) (st f : Nat) : State :=
  let e := s.frame (frameKey st f)
  if e.needPosted then s
  else
    let s := s.setFrame (frameKey st f) (fun e => { e with needPosted := true })
    (s.postItem st 7 15 0 e.asid e.view (e.vpn * 2 ^ 16) 0 (frameField st f)).1

/-- The hand's sweep (R246), at most `n` frames; a prefetch takes only ACCESS 0 and halves nothing (R254). -/
def State.sweep (s : State) (st : Nat) (pf : Bool) : Nat → State × Option Nat
  | 0 => (s, none)
  | n + 1 =>
    let hand := mapGet 256 s.hand st
    let s := { s with hand := mapSet 256 s.hand st (if hand = 786431 then 256 else hand + 1) }
    let fk := frameKey st hand
    if s.eligible fk then
      let (s, nb) := s.needsBacking fk
      if (s.frame fk).access = 0 ∧ !nb then (s, some hand)
      else
        let s := if nb then s.askBacking st hand else s
        let s := if pf then s else s.setFrame fk (fun e => { e with access := e.access / 2 })
        State.sweep s st pf n
    else State.sweep s st pf n

/-- The victim of R246. -/
def State.victim (s : State) (st : Nat) (pf : Bool) : State × Option Nat :=
  match s.lowestFree st with
  | some f => (s, some f)
  | none => s.sweep st pf (2 * 786176)

/-! ### Keys (R489 to R491) and drives (R377 to R380) -/

/-- The value of a key slot; slot 0 is plaintext (R489). -/
def State.slotVal (s : State) (k : Nat) : Option (BitVec 512) := if k = 0 then none else mapGet none s.dev.keys k

/-- Whether a transfer under slot `k` for an ASID is permitted (R490). ASID 0 has no owning polder, so every loaded
slot serves it (DEDUCED, log 19). -/
def State.keyOk (s : State) (asid k : Nat) : Bool :=
  k == 0 || ((s.slotVal k).isSome &&
    (asid == 0 || (match s.polderOf asid with
      | none => false
      | some p =>
        let c := (s.polder p).cfg
        cfgKeyFirst c ≤ k && k < cfgKeyFirst c + cfgKeyCount c)))

/-- The tweak of a page on flash (R381) and in the pool (R490). -/
def flashTweak (drive ns lba : Nat) : Nat := drive * 2 ^ 51 + ns * 2 ^ 47 + lba
def poolTweak (lease page : Nat) : Nat := lease * 2 ^ 44 + page

/-- A page of 4096 bytes copied from one memory into another through a key slot (R381, R490): `back` deciphers. -/
def State.movePage (s : State) (back : Bool) (slot tweak : Nat) (dst : Map Byte) (dk : Nat) (src : Map Byte) (sk : Nat) :
    Map Byte :=
  match s.slotVal slot with
  | none => mapCopy dst dk src sk 4096
  | some key => mapSetBytes dst dk (xtsPage back key tweak (mapGetBytes src sk 4096))

/-- Poison of a pool block. -/
def poolBlk (target addr : Nat) : Nat := hostBlk (16 + target) addr

/-- Copies the poison of a page's 64 blocks between block keys. -/
def State.pagePois (s : State) (dst src : Nat) : State :=
  (List.range 64).foldl (fun s i => s.setPois (dst + 4 * i) (s.isPois (src + 4 * i))) s

/-- A page of flash goes into a sub-page at its home. Flash holds no poison: every block is clean (R403). -/
def State.flashIn (s : State) (drive ns lba slot asid view va : Nat) : State :=
  let s := { s with mem := s.movePage true slot (flashTweak drive ns lba) s.mem (memKey asid view va) s.flash (flashKey drive ns (4096 * lba)) }
  (List.range 64).foldl (fun s i => s.setPois (homeBlk asid view va + 4 * i) false) s

/-- A sub-page goes from its home to a page of flash. -/
def State.flashOut (s : State) (drive ns lba slot asid view va : Nat) : State :=
  { s with flash := s.movePage false slot (flashTweak drive ns lba) s.flash (flashKey drive ns (4096 * lba)) s.mem (memKey asid view va) }

/-- Binding of a drive (R495). -/
def State.bind (s : State) (d : Nat) : Word := mapGet 0x3A0#32 s.dev.driveBind d
def State.driveOk (s : State) (d : Nat) : Bool := s.feat 5 && (s.bind d).getLsbD 4

/-- Mean completion time of a drive's last 64 Reads (R382). -/
def State.meanRead (s : State) (d : Nat) : Nat :=
  let ts := mapGet [] s.readTimes d
  if ts.length < 64 then 2500 else (ts.foldl (· + ·) 0) / 64

/-- Two commands name a common LBA. -/
def Nvme.meets (x y : Nvme) : Bool :=
  x.drive == y.drive && x.ns == y.ns && x.lba < y.lba + y.count && y.lba < x.lba + x.count

/-- An earlier command holds command `c` back from its drive (R379): a Write before a Read or Dataset Management, any
before a Write. -/
def State.nvmeBlocked (s : State) (c : Nvme) : Bool :=
  s.nvme.any (fun x => x.id < c.id && x.meets c && (x.op == 1 || c.op == 1))

/-- Commands that a pair holds: a queue has 256 entries (R379). -/
def State.pairLoad (s : State) (fqe pair : Nat) : Nat :=
  (s.nvme.filter (fun x => x.sent && x.fqe == fqe && x.pair == pair && x.ended.isNone)).length

/-- Every command that nothing holds back is submitted to its drive, in the order of the requests: its time runs from
there, and the expected wait of a Read is known (R379, R380, R382). -/
def State.nvmeSend (s : State) : State :=
  s.nvme.foldl (fun s c =>
    let n := s.pairLoad c.fqe c.pair
    if c.sent || s.nvmeBlocked c || 256 ≤ n then s
    else
      let up (x : Nvme) : Nvme := { x with sent := true, time := s.tick, expected := (n + 1) * s.meanRead c.drive }
      { s with nvme := modWhere (fun x => x.id == c.id) up s.nvme }) s

/-- A request for an NVMe command takes the least-occupied pair of its class (R379). -/
def State.submit (s : State) (sub : Bool) (op drive ns lba count : Nat) (parts : List (Nat × Nat)) (what : NvmeFor) :
    State × Nat :=
  let (s, id) := s.fresh
  let q := drive % 16
  let pairs := if sub then (List.range 16).map (· + 48) else List.range 48
  let load (p : Nat) : Nat := (s.nvme.filter (fun c => c.fqe == q && c.pair == p)).length
  let p := (leastBy load pairs).getD 0
  ({ s with nvme := s.nvme ++ [Nvme.mk id q p op drive ns lba count parts false none 0 s.tick 0 what] }.nvmeSend, id)

/-! ### Fills (R245) -/

/-- What stands in the way of fetching a sub-page whose leaf is known: 0 for an outcome 0 (draining), the outcome
code, or `none`. -/
def State.fetchRefusal (s : State) (asid e pg : Nat) : Option Nat :=
  if !s.keyOk asid (entKey e) then some 13
  else
    match entKind e with
    | 1 => s.leaseRefusal (bitsOf (entLoc e) 44 12) (locOff e + pg) (entShrd e) true
    | 2 => if s.driveOk (bitsOf (entLoc e) 51 5) then none else some 4
    | _ => none

/-- Lease of a KIND 1 leaf. -/
def leafLease (e : Nat) : Nat := bitsOf (entLoc e) 44 12

/-- Whether a leaf's page lives on a peer (R477). -/
def State.isPeerLeaf (s : State) (e : Nat) : Bool := entKind e == 1 && (s.lease (leafLease e)).type == 2

/-- A sub-page that a fill may fetch now: its leaf. -/
def State.fetchable (s : State) (w : WalkOut) (asid va : Nat) : Bool :=
  w.kind == .leaf && entKind w.entry != 3 && !s.isPeerLeaf w.entry
    && (s.fetchRefusal asid w.entry (leafPage w va)).isNone

/-- Bytes that no rule gives. -/
def State.freeBytes (s : State) (n : Nat) : State × List Byte :=
  ({ s with free := s.free + n }, (List.range n).map (fun i => BitVec.ofNat 8 (Config.choose (s.free + i))))

/-- Other agents may have written a shared page of the pool before it is fetched (R475, R476). -/
def State.othersWrote (s : State) (target a : Nat) : State :=
  match s.choose 2 with
  | (s, 0) => s
  | (s, _) =>
    let (s, bs) := s.freeBytes 4096
    { s with pool := mapSetBytes s.pool (poolKey target a) bs }

/-- Fetches a sub-page of KIND 0 or 1 (R245 step 3); one of KIND 2 comes by a Read. -/
def State.fetchNow (s : State) (w : WalkOut) (asid view va : Nat) : State :=
  let e := w.entry
  let p := alignDown va 4096
  match entKind e with
  | 0 => { s with mem := mapDrop s.mem (memKey asid view p) 4096 }
  | 1 =>
    let l := s.lease (leafLease e)
    let pg := locOff e + leafPage w va
    let a := l.base + 4096 * pg
    let s := if entShrd e then s.othersWrote l.target a else s
    { s with mem := s.movePage true (entKey e) (poolTweak (leafLease e) pg) s.mem (memKey asid view p) s.pool (poolKey l.target a) }.pagePois
      (homeBlk asid view p) (poolBlk l.target a)
  | _ => s

/-- Sets A in a leaf (R245 step 3). -/
def State.setA (s : State) (w : WalkOut) : State := (s.stb 0 0 w.addr 16 (s.ld 0 0 w.addr 16 ||| 0x800)).markDirty 0 0 w.addr

/-- A 4 KiB block of flash and its sub-page: drive, namespace slot, LBA, address of the data, key slot. -/
structure FlashBlk where
  drive : Nat
  ns : Nat
  lba : Nat
  va : Nat
  key : Nat
  deriving DecidableEq, Repr

/-- The block of a leaf of KIND 2. -/
def flashBlkOf (w : WalkOut) (va : Nat) : FlashBlk :=
  ⟨bitsOf (entLoc w.entry) 51 5, bitsOf (entLoc w.entry) 47 4, locOff w.entry + leafPage w va, va, entKey w.entry⟩

/-- Blocks of consecutive LBAs of one drive and namespace slot are merged, up to 16 (R381, R383); those of a Write are
also adjacent. -/
def mergeRuns (adj : Bool) : List FlashBlk → List (List FlashBlk)
  | [] => []
  | x :: xs =>
    match mergeRuns adj xs with
    | (y :: ys) :: rs =>
      if x.drive = y.drive ∧ x.ns = y.ns ∧ y.lba = x.lba + 1 ∧ (!adj ∨ y.va = x.va + 4096) ∧ ys.length < 15 then
        (x :: y :: ys) :: rs
      else [x] :: (y :: ys) :: rs
    | rs => [x] :: rs

/-- Requests for merged blocks; answers the commands. -/
def State.submitRuns (s : State) (op : Nat) (runs : List (List FlashBlk)) (what : NvmeFor) : State × List Nat :=
  runs.foldl (fun acc r =>
    match r.head? with
    | none => acc
    | some b =>
      let (s, id) := acc.1.submit false op b.drive b.ns b.lba r.length (r.map (fun x => (x.va, x.key))) what
      (s, acc.2 ++ [id])) (s, [])

/-- Steps 2 and 3 of R245 on frame `f` for the sub-pages `want`: the frame stands in STATE 2, data of KIND 0 and 1 has
been fetched, Reads are requested for KIND 2. `d` is the stamp of the request that caused it; `holds` makes the fill hold
the lines of its walks (R244), and a prefetch drops without trace what it cannot fetch. -/
def State.fillBegin (s : State) (st f asid view rg : Nat) (want : BitVec 16) (d : Stamp) (holds pf : Bool) : State :=
  let fk := frameKey st f
  let e := { s.frame fk with asid := asid, view := view, vpn := rg }
  let (s, ws) := s.walkSubs fk e want
  let va (i : Nat) : Nat := rg * 2 ^ 16 + 4096 * i
  let good := ws.filter (fun x => s.fetchable x.2 asid (va x.1))
  let s := good.foldl (fun s x => (s.setA x.2).fetchNow x.2 asid view (va x.1)) s
  let flash := (good.filter (fun x => entKind x.2.entry == 2)).map (fun x => flashBlkOf x.2 (va x.1))
  let (s, cmds) := s.submitRuns 2 (mergeRuns false (sortBy (fun b => (b.drive * 16 + b.ns) * 2 ^ 47 + b.lba) flash)) (.fill fk)
  let subs := good.foldl (fun (m : BitVec 16) x => m ||| BitVec.ofNat 16 (2 ^ x.1)) 0
  let w := good.all (fun x => leafW x.2.entry) && (e.sub == 0 || e.w)
  let x := good.all (fun x => entX x.2.entry) && (e.sub == 0 || e.x)
  let s := s.setFrame fk (fun e => { e with state := 2 })
  { s with fills := s.fills ++ [Fill.mk fk subs cmds (ws.flatMap (fun x => x.2.lines)).dedup w x d holds pf] }

/-- Key of a region in the prefetch engine's log (R254). -/
def regionKey (asid view rg : Nat) : Nat := (asid * 64 + view) * 2 ^ 41 + rg

/-- The prefetch engine of a tile watches a completed fill of its stacks (R254): with a neighbour filled within 4096 ticks
it asks for the regions past the pair, with the class and the deadline of this fill. -/
def State.watchFill (s : State) (st asid view rg : Nat) (d : Stamp) : State :=
  let depth := match s.polderOf asid with
    | none => 0
    | some p => ((s.polder p).tune.extractLsb' 0 4).toNat
  let t := tileOfStack st
  let near (r : Nat) : Bool := s.fillLog.any (fun e => e.1 == t && e.2.1 == regionKey asid view r && s.tick ≤ e.2.2 + 4096)
  let tops := (if 0 < rg && near (rg - 1) then [rg] else []) ++ (if near (rg + 1) then [rg + 1] else [])
  let s := { s with fillLog := (t, regionKey asid view rg, s.tick) :: s.fillLog.filter (fun e => s.tick ≤ e.2.2 + 4096) }
  (tops.flatMap (fun n => (List.range depth).map (fun i => n + 1 + i))).foldl (fun s r =>
    { s with pfStamps := s.pfStamps ++ [(regionKey asid view r, d)] }.due (.prefetch asid view r)) s

/-- A waiting request meets the frame that has been filled (R245 step 4, R253): the line fill or the bypass access that
serves the one that caused the fill is not counted again. -/
def State.landReq (s : State) (fk : Nat) (r : Req) : State :=
  let k := s.homeKey r.asid r.view r.va
  let e := s.frame fk
  if k.1 == e.asid && k.2.1 == e.view && k.2.2 / 2 ^ 16 == e.vpn && e.sub.getLsbD (subOf k.2.2) then
    let lk := lineKey k.1 k.2.1 k.2.2
    let own := k.1 == r.asid
    let s :=
      if r.hint = 2 then (if r.caused then s.setFrame fk (fun e => { e with counted := true }) else s)
      else if (mapGet none s.l2 lk).isSome then s
      else (if r.caused then s else s.countAccess fk).addLine lk e.w e.x
    if own then (s.countServed r.stamp).wakeReq r else s.setReq r.id .fresh
  else s.setReq r.id .fresh

/-- Step 4 of R245 once the data has landed: the frame enters STATE 1 and the waiting requests are served in the order of
their arrival; a walk whose GEN no longer matches is discarded and the requests walk again (R244). -/
def State.fillLand (s : State) (fl : Fill) : State :=
  let fk := fl.fk
  let e := s.frame fk
  let s := ({ s with fills := s.fills.filter (fun x => x.fk != fk) }).countServed fl.stamp
  if !s.gensMatch fl.lines then
    let mine (r : Req) : Bool := r.state == .onFrame fk && r.caused
    let s := { s with reqs := modWhere mine (fun r => { r with fails := r.fails + 1 }) s.reqs }
    if e.sub = 0 then s.freeFrame (fk / 2 ^ 20) (fk % 2 ^ 20)
    else (s.setFrame fk (fun e => { e with state := 1 })).refresh (.onFrame fk)
  else
    let s := s.setFrame fk (fun e =>
      { e with state := 1, access := 1, sub := e.sub ||| fl.subs, w := fl.w, x := fl.x })
    let s := (s.reqs.filter (fun r => r.state == .onFrame fk)).foldl (fun s r => s.landReq fk r) s
    s.watchFill (fk / 2 ^ 20) e.asid e.view e.vpn fl.stamp

/-! ### Write-back (R247, R383) -/

/-- Takes the dirty sub-page at `va` of a frame to its place in the pool; the outcome where that is refused. -/
def State.spillPool (s : State) (e : Frame) (w : WalkOut) (va : Nat) : State × Option Nat :=
  let pg := locOff w.entry + leafPage w va
  let lease := leafLease w.entry
  if !s.keyOk e.asid (entKey w.entry) then (s, some 13)
  else
    match s.leaseRefusal lease pg (entShrd w.entry) false with
    | some o => (s, some o)
    | none =>
      let l := s.lease lease
      let a := l.base + 4096 * pg
      ({ s with pool := s.movePage false (entKey w.entry) (poolTweak lease pg) s.pool (poolKey l.target a) s.mem
                  (memKey e.asid e.view va) }.pagePois (poolBlk l.target a) (homeBlk e.asid e.view va), none)

/-- Whether a sub-page holds a poisoned block. -/
def State.pagePoisoned (s : State) (asid view va : Nat) : Bool :=
  (List.range 64).any (fun i => s.isPois (homeBlk asid view va + 4 * i))

/-- What keeps a Write of a sub-page from its drive: the outcome (R380, R383, R490). -/
def State.flashRefusal (s : State) (e : Frame) (w : WalkOut) (va : Nat) : Option Nat :=
  if !s.keyOk e.asid (entKey w.entry) then some 13
  else if !s.driveOk (flashBlkOf w va).drive then some 4
  else if s.pagePoisoned e.asid e.view va then some 2
  else none

/-- The dirty lines of a frame are written to it (R202, R245). -/
def State.cleanLines (s : State) (e : Frame) (subs : BitVec 16) : State :=
  { s with l2 := s.l2.map (fun x =>
      (x.1, x.2.map (fun l =>
        if lineAsid x.1 == e.asid && lineView x.1 == e.view && lineVa x.1 / 2 ^ 16 == e.vpn && subs.getLsbD (subOf (lineVa x.1))
        then { l with dirty := false } else l))) }

/-- The write-back of a frame's dirty sub-pages begins (R245 step 1, R247): pool pages are written, flash Writes are
requested. A sub-page with no place that can take it stays dirty. `x` holds the number and the purpose of the write-back;
`only2` takes KIND 2 alone (R385). -/
def State.spillStart (s : State) (x : Spill) (only2 : Bool) : State :=
  let fk := x.fk
  let e := s.frame fk
  let (s, ws) := s.walkSubs fk e e.dirty
  let s := (s.cleanLines e e.dirty).settleKeys (memKey e.asid e.view (e.vpn * 2 ^ 16)) 65536
  let va (i : Nat) : Nat := e.vpn * 2 ^ 16 + 4096 * i
  let takes := ws.filter (fun y => y.2.takes && (!only2 || entKind y.2.entry == 2))
  let (s, bad) := (takes.filter (fun y => entKind y.2.entry == 1)).foldl (fun (acc : State × List Nat) y =>
      let (s, o) := acc.1.spillPool e y.2 (va y.1)
      (s, acc.2 ++ o.toList)) (s, [])
  let flash := takes.filter (fun y => entKind y.2.entry == 2)
  let bad := bad ++ flash.filterMap (fun y => s.flashRefusal e y.2 (va y.1))
  let ok := (flash.filter (fun y => (s.flashRefusal e y.2 (va y.1)).isNone)).map (fun y => flashBlkOf y.2 (va y.1))
  let (s, cmds) := s.submitRuns 1 (mergeRuns true ok) (.spill x.id)
  let subs := takes.foldl (fun (m : BitVec 16) y => m ||| BitVec.ofNat 16 (2 ^ y.1)) 0
  { s with spills := s.spills ++ [{ x with subs := subs, cmds := cmds, failed := bad.head?.map (fun o => (0, o)) }] }

/-- A write-back as it begins. -/
def Spill.new (id fk : Nat) (free tell resv sync : Bool) (d : Stamp) : Spill :=
  { id := id, fk := fk, subs := 0, cmds := [], failed := none, free := free, stamp := d, tell := tell, resv := resv, sync := sync }

/-- A victim's write-back (R245 step 1): the frame stands in STATE 3 until it ends. -/
def State.spillBegin (s : State) (st f : Nat) (resv : Bool) (d : Stamp) : State :=
  let fk := frameKey st f
  let (s, id) := s.fresh
  (s.setFrame fk (fun e => { e with state := 3 })).spillStart (Spill.new id fk true false resv false d) false

/-- The value of the loads that wait under number `k` is known (R316, R318). -/
def State.lateDone (s : State) (k : Nat) (v : DWord) : State :=
  let put (w : LoadWrite) : LoadWrite := match w with
    | .scalar n _ p => .scalar n v p
    | w => w
  let up (x : PendLoad) : PendLoad := if x.late = some k then { x with writes := x.writes.map put, late := none } else x
  s.groups.foldl (fun s e =>
    if e.2.loads.any (fun x => x.late == some k) then s.modG e.1 (fun g => { g with loads := g.loads.map up }) else s) s

/-- The reserve of a stack grows towards its target (R250): a frame is taken, or a victim's write-back begins. -/
def State.cowGrow (s : State) (st : Nat) : Nat → State
  | 0 => s
  | n + 1 =>
    match s.victim st false with
    | (s, none) => s
    | (s, some f) =>
      let fk := frameKey st f
      let take (s : State) : State := s.setFrame fk (fun _ => { Frame.free with state := 5 })
      if (s.frame fk).state = 0 then State.cowGrow (take s) st n
      else if (s.frame fk).dirty = 0 then State.cowGrow (take (s.freeFrame st f)) st n
      else State.cowGrow (s.spillBegin st f true (s.stampFor none (s.frame fk).asid ((s.frame fk).vpn * 2 ^ 16))) st n

/-- Frames that a stack holds in reserve (R250). -/
def State.cowCount (s : State) (st : Nat) : Nat :=
  (s.frames.filter (fun e => e.1 / 2 ^ 20 == st && e.2.state == 5)).length

/-- The status of `cctl.wbf` and `cctl.rel` (R318). -/
def State.cctlStatus (s : State) (fk : Nat) (sp : Spill) (ok : Bool) : Nat :=
  let e := s.frame fk
  if (s.needsBacking fk).2 then 3 else if sp.failed.isSome || !ok then 4
  else if sp.free && s.pinned e.asid e.vpn then 2 else 0

/-- The end of a write-back (R247, R318, R383, R474): the sub-pages written are clean unless a part failed; then DIRTYMASK
stays as it is, and BACKING is posted. A frame whose every dirty sub-page was written is freed where that was asked. -/
def State.spillEnd (s : State) (sp : Spill) (ok : Bool) : State :=
  let s := ({ s with spills := s.spills.filter (fun x => x.id != sp.id) }).countServed sp.stamp
  let fk := sp.fk
  let st := fk / 2 ^ 20
  let f := fk % 2 ^ 20
  let e := s.frame fk
  let bad := sp.failed.isSome || !ok
  let s := if bad then
      (s.postItem st 10 15 1 e.asid e.view (e.vpn * 2 ^ 16) 0 (backingField st f (sp.failed.getD (0, 2)).1 (sp.failed.getD (0, 2)).2 0)).1
    else s.setFrame fk (fun e => { e with dirty := e.dirty &&& ~~~sp.subs })
  let x := s.cctlStatus fk sp ok
  let s := if sp.tell then s.lateDone sp.id (BitVec.ofNat 64 x) else s
  if sp.free && !bad && (s.frame fk).dirty == 0 && !(sp.tell && x != 0) then
    let lo := blkKey e.asid e.view (e.vpn * 2 ^ 16)
    let s := if sp.tell then { s with l1 := s.l1.filter (fun b => !(lo ≤ b.home && b.home < lo + 1024)) } else s
    let s := s.freeFrame st f
    if sp.resv && s.cowCount st < mapGet 0 (s.tile (tileOfStack st)).cowTarget st then
      (s.setFrame fk (fun _ => { Frame.free with state := 5 })).refreshCow
    else s
  else (s.setFrame fk (fun e => { e with state := 1 })).refresh (.onFrame fk)

/-! ### The pager ring and the error ring (R252, R405, R497) -/

/-- A write of `n` bytes that the device makes for itself under ASID 0 into a table page or any other; `false` where it
waits for a request of `w`. -/
def State.ringWrite (s : State) (w : ReqWho) (va n x : Nat) : State × Bool :=
  match s.locate .store false 0 0 va with
  | (s, .at l) =>
    match s.heldBlk none l n with
    | some b => (s.addReq 0 0 va .store 0 w (.onBlock b), false)
    | none =>
      let s := s.wrLoc l n x
      match l with
      | .home a v h => (s.markDirty a v h, true)
      | _ => (s, true)
  | (s, .miss) => (s.addReq 0 0 va .store 0 w .fresh, false)
  | (s, .wait r) => (s.addReq 0 0 va .store 0 w r, false)

/-- Writes an item into its tile's ring while the ring has room (R497). An item that cannot be written, since the ring's
page has a translation fault, waits on in the fill unit (log 45). -/
def State.pumpItem (s : State) (it : Item) : State :=
  let t := s.tile it.tile
  let n := ringSize t.pagerRing
  let va := ringBase t.pagerRing + 64 * (t.prProd % n)
  if it.slot.isSome || ringBase t.pagerRing = 0 || onChip va || n ≤ (t.prProd + 2 ^ 32 - t.prCons) % 2 ^ 32
      || s.waitsFor (.ring it.tile) then s
  else
    match s.ringWrite (.ring it.tile) va 64 it.bytes with
    | (s, false) => s
    | (s, true) =>
      let up (x : Item) : Item := { x with slot := some t.prProd, time := s.tick }
      let s := { s with items := modWhere (fun x => x.id == it.id) up s.items }
      s.setTile it.tile (fun t => { t with prProd := (t.prProd + 1) % 2 ^ 32 })

/-- Writes the oldest error record of a tile that waits (R405): SEQ and LOST are those at the write. -/
def State.pumpRec (s : State) (t : Nat) : State :=
  match s.errDue.find? (fun e => e.1 == t) with
  | none => s
  | some e =>
    let tl := s.tile t
    let base := ringBase tl.errBase
    let va := base + 64 * (tl.errCount % ringSize tl.errBase)
    let rest (s : State) : State := { s with errDue := dropFirst (fun x => x.1 == t) s.errDue }
    if base = 0 || onChip va then (rest s).setTile t (fun x => { x with errLost := true })
    else if s.waitsFor (.errRec t) then s
    else
      let q := (tl.errCount + 1) % 2 ^ 32
      match s.ringWrite (.errRec t) va 64 (e.2 + (if q = 0 then 1 else q) + if tl.errLost then 2 ^ 59 else 0) with
      | (s, false) => s
      | (s, true) => (rest s).setTile t (fun x => { x with errCount := x.errCount + 1, errLost := false })

/-- Writes what waits for the rings of a tile, in order. -/
def State.pump (s : State) (t : Nat) : State :=
  let s := (s.errDue.filter (fun e => e.1 == t)).foldl (fun s _ => s.pumpRec t) s
  (s.items.filter (fun i => i.tile == t && i.slot.isNone)).foldl State.pumpItem s

end Sys2Proof.Machine
end

