-- ==== Sys2Proof/Machine/Race.lean ====
section
/-! DEFINITION. Error records and the race detector (R281 to R283, R405 to R407, R412). -/

namespace Sys2Proof.Machine

/-! ### Error records -/

/-- Fields of an error record (R406); SEQ, LOST and TIME are added when it is written. -/
structure ErrRec where
  kind : Nat
  sev : Nat
  unit : Nat := 13
  flags : Nat := 0
  res : Nat := 0
  key : Nat := 0
  addr : Nat := 0
  pcv : Nat := 0
  lanes : Nat := 0
  team : Nat := 0
  tag : Nat := 0
  who : Nat := 0
  code : Nat := 0
  detail : Nat := 0
  synd : Nat := 0
  aux : Nat := 0
  deriving DecidableEq, Repr

/-- KEY of an error record. -/
def State.keyField (s : State) (asid view : Nat) : Nat :=
  asid + view * 2 ^ 10 + (s.polderOf asid).getD 0 * 2 ^ 16

/-- TAG of a grid (R183). -/
def Grid.tag (g : Grid) : Nat := recField g.record 0xB0 4

/-- A program-level record of group `k`. -/
def State.recOf (s : State) (k kind sev : Nat) : ErrRec :=
  match s.getG k with
  | none => { kind := kind, sev := sev }
  | some g =>
    let base : ErrRec := { kind := kind, sev := sev, res := g.home, key := s.keyField g.asid g.view }
    if !g.isCompute then base
    else
      match s.team g.team with
      | none => base
      | some t =>
        { base with team := t.lin, tag := ((s.grid t.grid).map Grid.tag).getD 0, who := g.grp + g.home * 32 }

/-- The 64 bytes of a record. -/
def ErrRec.bytes (e : ErrRec) (seq time : Nat) (lost : Bool) : Nat :=
  seq + e.kind * 2 ^ 32 + e.sev * 2 ^ 40 + e.unit * 2 ^ 48 + (e.flags + if lost then 8 else 0) * 2 ^ 56
    + (e.res % 2 ^ 32) * 2 ^ 64 + e.key * 2 ^ 96 + e.addr * 2 ^ 128 + (e.pcv % 2 ^ 32) * 2 ^ 192
    + (e.lanes % 2 ^ 32) * 2 ^ 224 + (e.team % 2 ^ 32) * 2 ^ 256 + (e.tag % 2 ^ 32) * 2 ^ 288
    + (e.who % 2 ^ 16) * 2 ^ 320 + (e.code % 2 ^ 8) * 2 ^ 336 + (e.detail % 2 ^ 8) * 2 ^ 344
    + (e.synd % 2 ^ 32) * 2 ^ 352 + (time % 2 ^ 64) * 2 ^ 384 + (e.aux % 2 ^ 64) * 2 ^ 448

/-- Records an error in the ring of a tile (R405): it is written once the page of the ring can be, and dropped where it
cannot. -/
def State.writeRec (s : State) (t : Nat) (e : ErrRec) : State :=
  { s with errDue := s.errDue ++ [(t, e.bytes 0 s.tick false)] }.pumpRec t

/-! ### Happens-before (R257, R260, R261) -/

/-- Group order, and what an agent knows of others (R261). An agent's own component counts from 1. -/
def Race.clock (r : Race) (a : Nat) : Map Nat := mapSet 0 (mapGet [] r.vc a) a (max 1 (mapGet 0 (mapGet [] r.vc a) a))

def copyAgent (core ctx : Nat) : Nat := 2 ^ 60 + 16 * core + ctx
def muAgent (core q : Nat) : Nat := 2 ^ 61 + 4 * core + q

/-- The agent number of a grid: its command path (R278). -/
def gridAgent (gr : Nat) : Nat := 2 ^ 62 + gr

/-- Where a group of a team stands: itself, its team, gang and die (R257). -/
def State.teamPlace (s : State) (g t core : Nat) : Option (Nat × Nat × Nat × Nat) :=
  (s.team t).map (fun x => (g, t, x.grid * 2 ^ 32 + x.lin / ((s.grid x.grid).map Grid.gangSize).getD 1, core / 32))

/-- Where an agent stands; `none` for every agent of a base tile and of the command path. An engine stands where the group
does for which it acts. -/
def State.agentPlace (s : State) (a : Nat) : Option (Nat × Nat × Nat × Nat) :=
  let ofGroup (k : Nat) : Option (Nat × Nat × Nat × Nat) :=
    (s.getG k).bind (fun g => if g.isCompute then s.teamPlace a g.team g.home else none)
  if 2 ^ 62 ≤ a then none
  else if 2 ^ 61 ≤ a then
    let c := (a - 2 ^ 61) / 4
    match (s.muq c ((a - 2 ^ 61) % 4)).head? with
    | some m => ofGroup m.grp
    | none =>
      ((s.groups.find? (fun e => e.2.isCompute && e.2.home == c && e.2.roleKind == 2)).map (·.1)).bind ofGroup
  else if 2 ^ 60 ≤ a then
    (s.ctx ((a - 2 ^ 60) / 16) ((a - 2 ^ 60) % 16)).bind (fun c => s.teamPlace a c.team ((a - 2 ^ 60) / 16))
  else ofGroup a

/-- Whether an agent that stands at `y` lies within scope `sc` of one at `x` (R257): for base-tile agents TEAM, GANG and
DIE act as DEVICE. -/
def withinScope (x : Option (Nat × Nat × Nat × Nat)) (sc : Nat) (y : Option (Nat × Nat × Nat × Nat)) : Bool :=
  4 ≤ sc || (match x, y with
    | none, _ => sc != 0
    | some _, none => false
    | some a, some b =>
      match sc with
      | 0 => a.1 == b.1
      | 1 => a.2.1 == b.2.1
      | 2 => a.2.2.1 == b.2.2.1
      | _ => a.2.2.2 == b.2.2.2)

/-- The agent number of another device. -/
def peerAgent (dev : Nat) : Nat := 2 ^ 64 + dev

/-- A release synchronises with an acquire of agent `a` at scope `sc` (R260): each lies within the other's scope. An agent
of another device lies within SYSTEM scope alone. -/
def State.syncs (s : State) (r : SyncRec) (a sc : Nat) : Bool :=
  let p := s.agentPlace a
  if (2 ^ 64 ≤ r.agent || 2 ^ 64 ≤ a) && !(5 ≤ sc && 5 ≤ r.scope) then false
  else r.agent == a || (withinScope r.place r.scope p && withinScope p sc r.place)

/-- What agent `a` has done happens before what is recorded from here on; its own count rises. -/
def State.hbTick (s : State) (a : Nat) : State :=
  { s with race := { s.race with vc := mapSet [] s.race.vc a (mapMod 0 (s.race.clock a) a (· + 1)) } }

/-- A release of agent `a` as it stands. -/
def State.syncRec (s : State) (a sc : Nat) : SyncRec := ⟨a, sc, s.race.clock a, s.agentPlace a⟩

/-- A release by agent `a` at words `ws` (R259, R260); `cont` continues their release sequences. -/
def State.hbRelease (s : State) (a : Nat) (ws : List Nat) (sc : Nat) (cont : Bool) : State :=
  let r := s.syncRec a sc
  let put (m : Map (List SyncRec)) (w : Nat) : Map (List SyncRec) := mapMod [] m w (fun o => (if cont then o else []) ++ [r])
  { s with race := { s.race with sync := ws.foldl put s.race.sync } }.hbTick a

/-- An agent acts for another group from now on: it knows of no other agent yet. -/
def State.hbFresh (s : State) (a : Nat) : State :=
  { s with race := { s.race with vc := mapSet [] s.race.vc a [(a, mapGet 0 (s.race.clock a) a + 1)] } }

/-- Agent `a` takes up a clock (R261). -/
def State.hbTake (s : State) (a : Nat) (c : Map Nat) : State :=
  { s with race := { s.race with vc := mapSet [] s.race.vc a (clkMax (s.race.clock a) c) } }

/-- Agent `a` takes up the releases among `rs` that synchronise with it. -/
def State.hbTakeAll (s : State) (a sc : Nat) (rs : List SyncRec) : State :=
  (rs.filter (fun r => s.syncs r a sc)).foldl (fun s r => s.hbTake a r.clock) s

/-- The releases that words carry. -/
def State.syncAt (s : State) (ws : List Nat) : List SyncRec := ws.flatMap (fun w => mapGet [] s.race.sync w)

/-- An acquire by agent `a` of what words hold (R260). -/
def State.hbAcquire (s : State) (a : Nat) (ws : List Nat) (sc : Nat) : State := s.hbTakeAll a sc (s.syncAt ws)

/-- An edge from one agent to another (R261). -/
def State.hbEdge (s : State) (x y : Nat) : State := (s.hbTake y (s.race.clock x)).hbTick x

/-- A command that an engine has completed for group `k`, with what happened before it: it happens before the completion of
the group's grid (R278). -/
def State.hbDone (s : State) (k a : Nat) (c : Map Nat) : State :=
  match (s.getG k).bind (fun g => s.team g.team) with
  | none => s
  | some t => (s.hbTake (gridAgent t.grid) (mapSet 0 c a (mapGet 0 (s.race.clock a) a))).hbTick a

/-- A release fence (R260): later writes of the agent carry it. One of a scope replaces the one before it. -/
def State.hbRelFence (s : State) (a sc : Nat) : State :=
  let put (o : List SyncRec) : List SyncRec := o.filter (fun x => x.scope != sc) ++ [s.syncRec a sc]
  { s with race := { s.race with relF := mapMod [] s.race.relF a put } }.hbTick a

/-- An acquire fence (R260): earlier reads of the agent synchronise. -/
def State.hbAcqFence (s : State) (a sc : Nat) : State :=
  let rs := mapGet [] s.race.acqP a
  let s' := s.hbTakeAll a sc rs
  { s' with race := { s'.race with acqP := mapSet [] s'.race.acqP a (rs.filter (fun r => !s.syncs r a sc)) } }

/-- Key of a word of a place, for release records and the race detector; `none` where nothing is tracked. -/
def Loc.wordKey (l : Loc) (i : Nat) : Option Nat :=
  match l with
  | .spad c o => some (2 * ((c * 2 ^ 20 + o + i) / 4) + 1)
  | .home a v x => some (2 * ((memKey a v x + i) / 4))
  | _ => none

/-- The words that `n` bytes of a place touch. -/
def Loc.words (l : Loc) (n : Nat) : List Nat := ((List.range n).filterMap l.wordKey).dedup

/-- How an access joins the order of its words (R260): a read, a write that ends their release sequences, an indivisible
read and write that continues them. -/
inductive Joins where
  | read | write | both
  deriving DecidableEq, Repr

/-- A write of the words carries the release fences of its agent, and ends or continues their release sequences. -/
def State.orderWrite (s : State) (agent : Nat) (words : List Nat) (cont : Bool) : State :=
  let f := mapGet [] s.race.relF agent
  if f.isEmpty && (cont || s.race.sync.isEmpty) then s
  else words.foldl (fun s w =>
    let old := if cont then mapGet [] s.race.sync w else []
    { s with race := { s.race with sync := mapSet [] s.race.sync w (old ++ f) } }) s

/-- A read takes up the releases that its words carry, for an acquire fence that may follow. -/
def State.orderRead (s : State) (agent : Nat) (got : List SyncRec) : State :=
  if got.isEmpty then s
  else { s with race := { s.race with acqP := mapMod [] s.race.acqP agent (fun o => (o ++ got).dedup) } }

/-- An access at a place joins the order of its words. -/
def State.noteOrder (s : State) (agent : Nat) (l : Loc) (n : Nat) (j : Joins) : State :=
  let ws := l.words n
  let s := if j = .write then s else s.orderRead agent (s.syncAt ws)
  if j = .read then s else s.orderWrite agent ws (j == .both)

/-! ### What level-1 may still serve (R262) -/

/-- The parts of an access by 64-byte blocks. -/
def blockParts (va n : Nat) : List (Nat × Nat) :=
  (List.range ((va % 64 + n + 63) / 64)).map (fun i =>
    let lo := max va (alignDown va 64 + 64 * i)
    (lo, min (va + n) (alignDown va 64 + 64 * (i + 1)) - lo))

/-- The 64-byte blocks of home memory that an access touches: as level-1 tags their homes, and as places. -/
def Loc.homeBlks (l : Loc) (n : Nat) : List (Nat × Loc) :=
  match l with
  | .home a v x => (blockParts x n).map (fun p => (blkKey a v p.1, Loc.home a v (alignDown p.1 64)))
  | _ => []

/-- Bytes `o` to `o + n - 1` of two blocks that differ. -/
def diffMask (x y o n : Nat) : Nat :=
  (List.range n).foldl (fun m i => if recField x (o + i) 1 = recField y (o + i) 1 then m else m ||| 2 ^ (o + i)) 0

/-- A copy has been found to lack bytes `m` that agent `a` has met at time `t`. -/
def L1Block.lacks (b : L1Block) (a t m : Nat) : L1Block :=
  if m = 0 || b.seen.any (fun e => e.1 == a && m &&& e.2.2 == m) then b else { b with seen := b.seen ++ [(a, t, m)] }

/-- Agent `a` has read or written `n` bytes at a home: from now on a level-1 copy that lacks what stands there may not
serve what happens after that access (R262). -/
def State.seeBytes (s : State) (a : Nat) (l : Loc) (n : Nat) : State :=
  if s.l1.isEmpty then s
  else
    match l with
    | .home as v x =>
      let t := mapGet 0 (s.race.clock a) a
      (blockParts x n).foldl (fun s p =>
        let k := blkKey as v p.1
        if s.l1.any (fun b => b.home == k) then
          let d := s.rdLoc (.home as v (alignDown p.1 64)) 64
          let up (b : L1Block) : L1Block := b.lacks a t (diffMask b.data d (p.1 % 64) p.2)
          { s with l1 := modWhere (fun b => b.home == k) up s.l1 }
        else s) s
    | _ => s

/-- The same for an access by which the writes that made these bytes have taken effect (R464). -/
def State.seeHome (s : State) (a : Nat) (l : Loc) (n : Nat) : State := (s.settleUndo l n).seeBytes a l n

/-- Agent `a` has read `n` bytes from byte `o` of a level-1 copy: an older copy that differs may not serve what happens
after. -/
def State.seeCopy (s : State) (a : Nat) (c : L1Block) (o n : Nat) : State :=
  let t := mapGet 0 (s.race.clock a) a
  let up (b : L1Block) : L1Block := if b.home == c.home then b.lacks a t (diffMask b.data c.data o n) else b
  let older := s.l1.takeWhile (fun b => !(b.core == c.core && b.blk == c.blk))
  { s with l1 := older.map up ++ s.l1.drop older.length }

/-- No access that happens before a read of agent `a` now has met bytes `o` to `o + n - 1` as the copy lacks them. -/
def State.mayServe (s : State) (a : Nat) (b : L1Block) (o n : Nat) : Bool :=
  b.seen.isEmpty || (let c := s.race.clock a
    let m := (2 ^ n - 1) * 2 ^ o
    b.seen.all (fun e => mapGet 0 c e.1 < e.2.1 || e.2.2 &&& m == 0))

/-! ### Races (R281 to R283) -/

/-- Key of a sector (R281). -/
def Loc.sector (l : Loc) (i : Nat) : Option Nat :=
  match l with
  | .spad c o => some (2 * ((c * 2 ^ 20 + o + i) / 32) + 1)
  | .home a v x => some (2 * ((memKey a v x + i) / 32))
  | _ => none

/-- Bytes of a sector that `n` bytes from `i` of a place touch. -/
def Loc.sectorMask (l : Loc) (n : Nat) (sec : Nat) : Word :=
  (List.range n).foldl (fun m i =>
    if l.sector i = some sec then
      match l with
      | .spad _ o => m ||| laneBit ((o + i) % 32)
      | .home _ _ x => m ||| laneBit ((x + i) % 32)
      | _ => m
    else m) 0

/-- Who makes an access, for race records; an engine's command carries what happens before it (R338, R373). -/
structure Accessor where
  agent : Nat
  core : Nat
  grp : Nat
  engine : Bool
  pc : Word
  lanes : Word
  gid : Nat
  clock : Option (Map Nat)
  deriving DecidableEq, Repr

/-- Writes a RACE record unless 64 stand within 2^17 ticks at the slice or core `u` (R412). -/
def State.raceRecord (s : State) (u tile va : Nat) (first : SectAcc) (a : Accessor) (write : Bool) : State :=
  let recent := (mapGet [] s.race.recs u).filter (fun t => s.tick < t + 2 ^ 17)
  if 64 ≤ recent.length then
    { s with race := { s.race with lost := mapMod 0 s.race.lost u (· + 1), recs := mapSet [] s.race.recs u recent } }
  else
    let synd := mapGet 0 s.race.lost u
    let s := { s with race := { s.race with lost := mapSet 0 s.race.lost u 0,
                                            recs := mapSet [] s.race.recs u (s.tick :: recent) } }
    let bit (b : Bool) (n : Nat) : Nat := if b then 2 ^ n else 0
    let aux := first.core + first.grp * 2 ^ 10 + bit first.engine 15 + bit first.write 16 + bit write 17
      + (if first.engine then 0 else first.pc.toNat) * 2 ^ 32
    s.writeRec tile { s.recOf a.gid 8 2 with
      addr := va, pcv := a.pc.toNat, lanes := a.lanes.toNat, who := a.grp + a.core * 32 + bit a.engine 15,
      aux := aux, synd := synd, code := 0, detail := 0 }

/-- Accesses of an agent may be part of a race (R281): those of groups and of engines. -/
def racing (agent : Nat) (engine : Bool) : Bool := engine || agent < 2 ^ 59

/-- Two accesses of one sector conflict (R281): they share bytes, one writes, and they come from different groups or from
a group and an engine. -/
def SectAcc.conflicts (x : SectAcc) (a : Accessor) (m : Word) (write : Bool) : Bool :=
  x.agent != a.agent && !(x.engine && a.engine) && racing x.agent x.engine && racing a.agent a.engine
    && (x.write || write) && x.bytes &&& m != 0

/-- A plain access remembered in one sector, with the races it closes against earlier ones that its agent's clock `c` has
not seen (R281, R282). -/
def State.noteSector (s : State) (a : Accessor) (l : Loc) (va n : Nat) (write : Bool) (c : List (Nat × Nat))
    (sec : Nat) : State :=
  let m := l.sectorMask n sec
  let old := mapGet [] s.race.sect sec
  let hits := old.filter (fun x => x.conflicts a m write && mapGet 0 c x.agent < x.time)
  let keep := old.filter (fun x => !(x.agent == a.agent && x.write == write && x.bytes &&& m == x.bytes))
  let now := keep ++ [SectAcc.mk a.agent (mapGet 0 c a.agent) m write a.pc a.core a.grp a.engine]
  let s := { s with race := { s.race with sect := mapSet [] s.race.sect sec now } }
  hits.foldl (fun s f =>
    match l with
    | .home as _ x =>
      let sl := s.sliceOf as x
      s.raceRecord (2 * sl) (sl / 128) (alignDown va 32) f a write
    | _ => s.raceRecord (2 * a.core + 1) (a.core / 128) (alignDown va 32) f a write) s

/-- The clock of an access: its agent's, with its own count (R261). -/
def State.accClock (s : State) (a : Accessor) : Map Nat :=
  let c := s.race.clock a.agent
  match a.clock with
  | none => c
  | some m => mapSet 0 m a.agent (mapGet 0 c a.agent)

/-- A plain access outside any cofferdam at its home: it is remembered in its sectors with the races it closes, joins the
order of its words, and is seen by what follows it (R260 to R262, R281 to R283). `va` is its address. A write of a
compute die may yet be undone with the one that it overwrites (R464). -/
def State.noteAccess (s : State) (a : Accessor) (l : Loc) (va n : Nat) (write : Bool) : State :=
  let c := s.accClock a
  let s := ((List.range n).filterMap l.sector).dedup.foldl (fun s sec => s.noteSector a l va n write c sec) s
  let s := s.noteOrder a.agent l n (if write then .write else .read)
  if write && 16 ≤ a.agent then s.seeBytes a.agent l n else s.seeHome a.agent l n

end Sys2Proof.Machine
end

