-- ==== Sys2Proof/Machine/Ops.lean ====
section
/-! DEFINITION. Shared operations: failing a team, taking a trap and returning from one, release and acquire, level-1,
held blocks, weirs, views. -/

namespace Sys2Proof.Machine

/-! ### Cofferdams (R286) -/

/-- Breaches the cofferdams that satisfy `p`: their buffers are discarded and the queues released (R286). -/
def State.breachDams (s : State) (p : Dam → Bool) : State :=
  let hit := s.dams.filter (fun d => !d.breached && p d)
  let s := { s with dams := modWhere (fun d => !d.breached && p d) (fun d => { d with breached := true, buf := [] }) s.dams }
  hit.foldl (fun s d => s.releaseBlk d.blk) s

/-! ### Views (R432, R450, R452) -/

def inRange (k b n : Nat) : Bool := b ≤ k && k < b + n

/-- A contribution leaves the device's keeping; its word's count falls. -/
def State.farGone (s : State) (c : Contrib) : State :=
  let up (x : PendStore) : PendStore := { x with kind := match x.kind with
    | .far n => .far (n - 1)
    | y => y }
  { s with contribs := s.contribs.filter (fun x => x.id != c.id),
           stores := modWhere (fun x => x.id == c.store) up s.stores }

/-- Drops everything that a view holds, without write-back; its tag is draining (R450). -/
def State.discardView (s : State) (asid v : Nat) : State :=
  let mine := (s.l2.map (·.1)).filter (fun k => inRange k ((asid * 64 + v) * 2 ^ 49) (2 ^ 49))
  let s := mine.foldl State.dropLine s
  let s := (s.frames.filter (fun e => e.2.asid == asid && e.2.view == v && e.2.state != 0)).foldl
    (fun s e => s.freeFrame (e.1 / 2 ^ 20) (e.1 % 2 ^ 20)) s
  let s := { s with
    mem := mapDrop s.mem (memKey asid v 0) (2 ^ 57),
    stores := (s.settleKeys (memKey asid v 0) (2 ^ 57)).stores,
    pois := s.pois.filter (fun e => !(e.1 % 4 == 0 && inRange e.1 (homeBlk asid v 0) (2 ^ 53))),
    viewBlk := mapDrop s.viewBlk (blkKey asid v 0) (2 ^ 51),
    l1 := s.l1.filter (fun b => !inRange b.blk (blkKey asid v 0) (2 ^ 51)),
    closings := s.closings.filter (fun c => !(c.asid == asid && c.view == v)) }
  let s := (s.contribs.filter (fun c => c.asid == asid && c.view == v)).foldl State.farGone s
  s.setTag asid v (fun t => { t with state := if t.state = .free then .free else .draining })

def Team.fork (t : Team) (h : Nat) : Option Fork := mapGet none t.forks h

/-- Closes a fork, discarding all its worlds but those in `keep` (R448, R450, R452). -/
def State.closeFork (s : State) (tm asid h : Nat) (keep : List Nat) : State :=
  match (s.team tm).bind (fun t => t.fork h) with
  | none => s
  | some f =>
    let s := (f.tags.filter (fun v => !keep.contains v)).foldl (fun s v => s.discardView asid v) s
    s.setTeam tm (fun t => { t with forks := mapSet none t.forks h none,
                                    held := t.held.filter (fun e => !f.tags.contains e.view) })

/-- Closes every open fork of a team, the deepest first (R452). -/
def State.closeForks (s : State) (tm asid : Nat) : State :=
  (List.range 8).foldl (fun s i => s.closeFork tm asid (7 - i) []) s

/-! ### Failing a team or a grid (R162, R163, R395) -/

/-- A group of a failed team stops issuing; what it issued completes. -/
def Group.stop (g : Group) : Group :=
  { g with lsv := [], blk := [], save := none, hold := .none, loads := [], ldcnt := 0, haltPend := 0, stepPend := 0,
           stepArmed := false, faults := [], pkt := none }

/-- Marks a grid decided with a status and reason unless it is decided already. -/
def State.decideGrid (s : State) (k status reason : Nat) : State :=
  s.setGrid k (fun g => if g.status = 0 then { g with status := status, reason := reason } else g)

/-- Whether a team has a place on a core or in a slot. -/
def Team.running (t : Team) : Bool :=
  match t.place with
  | .resident _ | .saved _ _ => true
  | _ => false

/-- A finished team whose gang is away gives its slot back. -/
def State.freePad (s : State) (t : Nat) : State :=
  match (s.team t).bind Team.padSlot with
  | none => s
  | some (tl, k) =>
    (s.setTile tl (fun x => { x with slots := mapSet 0 x.slots k 0 })).setTeam t (fun x => { x with padSlot := none })

/-- A waiting `dam.take` of a group leaves its queue; a take behind it may be granted (R312). -/
def State.leaveQueue (s : State) (k : Nat) : State :=
  let mine := s.reqs.filter (fun r => r.who == .take k)
  mine.foldl (fun s r =>
    let s := s.dropReq r
    match r.state with
    | .onBlock b => if s.blkTaken b then s else s.releaseBlk b
    | _ => s) s

/-- One team stops; its grid is decided. -/
def State.failOne (s : State) (tm status : Nat) : State :=
  match s.team tm with
  | none => s
  | some t =>
    let asid := ((s.grid t.grid).map Grid.asid).getD 0
    let s := s.decideGrid t.grid status 0
    if !t.running then s.freePad tm
    else
      let gs := (List.range t.nGroups).map (gidOf tm)
      let s := gs.foldl (fun s k => s.modG k Group.stop) s
      let s := s.breachDams (fun d => gs.contains d.grp)
      let s := gs.foldl State.leaveQueue s
      let s := { s with reqs := s.reqs.filter (fun r => match r.who with
        | .lanes k _ | .handler k | .commit k => !gs.contains k
        | _ => true) }
      let s := match t.place with
        | .saved tl k =>
          (gs.foldl (fun (s : State) j => s.modG j (fun g => { g with cpcnt := 0 })) s).setTile tl
            (fun x => { x with slots := mapSet 0 x.slots k 0 })
        | _ =>
          let d := t.dest.getD 0
          if t.busy = 2 then s.setTile (d / 2 ^ 16) (fun x => { x with slots := mapSet 0 x.slots (d % 2 ^ 16) 0 }) else s
      (s.closeForks tm asid).setTeam tm (fun t => { t with place := .failed, waits := [], imgs := [], busy := 0 })

/-- Grids that descend from teams `ts`, to `n` levels (R163). -/
def State.descendants (s : State) : Nat → List Nat → List Nat
  | 0, _ => []
  | n + 1, ts =>
    let gs := s.grids.filterMap (fun e => match e.2 with
      | some g => (match g.parent with
        | some (t, _) => if ts.contains t && !g.done then some e.1 else none
        | none => none)
      | none => none)
    if gs.isEmpty then []
    else
      let next := s.teams.filterMap (fun e => match e.2 with
        | some t => if gs.contains t.grid then some e.1 else none
        | none => none)
      gs ++ State.descendants s n next

/-- Teams of a grid, by number. -/
def State.teamsOf (s : State) (k : Nat) : List Nat :=
  s.teams.filterMap (fun e => match e.2 with
    | some t => if t.grid == k then some e.1 else none
    | none => none)

/-- A team fails with its unretired descendants (R163, R395). -/
def State.failTeam (s : State) (tm : Nat) : State :=
  let gs := s.descendants 11 [tm]
  let s := s.failOne tm 3
  gs.foldl (fun s k => (s.teamsOf k).foldl (fun s t => s.failOne t 3) (s.decideGrid k 3 0)) s

/-! ### Errors whose cause is hardware (R408) -/

/-- Whether an error of group `k` calls for a replay, and the flags of its record: REPLAY, REPEAT. -/
def State.replayFlags (s : State) (k unit res : Nat) : Option (Nat × Nat) :=
  match s.getG k with
  | none => none
  | some g =>
    if !g.isCompute || !g.r.replay then none
    else
      match (s.team g.team).bind (fun t => s.grid t.grid) with
      | none => none
      | some gr =>
        if 3 ≤ gr.replays - gr.lossReplays then none
        else some (((s.team g.team).map (·.grid)).getD 0,
          1 + if gr.replayed && gr.lastErr == some (unit, res) then 2 else 0)

/-- A resource found lasting-faulty is retired (R409): a core by UNIT 13, a matrix unit by UNIT 8. -/
def State.retireResource (s : State) (unit res : Nat) : State :=
  let note (s : State) (c : Nat) : State := s.writeRec (c / 128) { kind := 10, sev := 4, unit := unit, res := res, aux := 2, flags := 4 }
  match unit with
  | 13 => note (s.setCore res (fun c => { c with retired := true })) res
  | 8 => note (s.setCore (res / 4) (fun c => { c with muRetired := c.muRetired ||| BitVec.ofNat 4 (2 ^ (res % 4)) })) (res / 4)
  | _ => s

/-- Calls for a replay of a grid; an error met again at the same resource retires it (R408, R409, R455). -/
def State.callReplay (s : State) (gr unit res : Nat) : State :=
  let twice := ((s.grid gr).map (fun g => g.replayed && g.lastErr == some (unit, res))).getD false
  let s := if twice then s.retireResource unit res else s
  (s.setGrid gr (fun g => { g with wantReplay := true, lastErr := some (unit, res) })).due (.replayRestart gr)

/-! ### Traps (R390 to R401, R504) -/

/-- A trap request with its `TRAP_INFO`. -/
def mkTrap (cause lane : Nat) (i0 i1 i2 i3 : DWord) : TrapReq := ⟨cause, lane, i0, i1, i2, i3, 0⟩

/-- `TRAP_CAUSE` (R391). -/
def causeWord (t : TrapReq) (async : Bool) : Word :=
  BitVec.ofNat 32 (t.cause + 512 * t.lane + if async then 0x4000 else 0)

/-- A `wwait` or a waiting `dam.take` is abandoned: its lanes stand at its chain again (R312, R316). -/
def Group.abandon (g : Group) : Group :=
  let back (pc : Word) : Group :=
    g.eachLane g.lastSet (fun g l => (g.setPc l pc).setBlk l (mapGet Blk.none g.preBlk l))
  match g.hold with
  | .wwait _ _ _ pc => { back pc with hold := .none }
  | .dam _ _ _ pc => { back pc with hold := .none }
  | _ => g

/-- Entry of a handler (R396) by lanes `h` of the executing group. -/
def State.enterHandler (s : State) (t : TrapReq) (async : Bool) (h : Word) (pc : Word) : State :=
  let s := (s.breachDams (fun d => d.grp == s.gid)).leaveQueue s.gid
  s.setG (fun g =>
    let g := g.abandon
    let sv : LaneSave := ⟨g.pcv, g.lsv, g.blk, if async then none else s.iss.skip⟩
    let g := g.eachLane h (fun g l =>
      let g := (g.setPc l pc).setBlk l Blk.none
      if g.lane l = .shadow then g else g.setLane l .live)
    { g with save := some sv, hlanes := h,
             r := { g.r.setTm true with trapCause := causeWord t async, info0 := t.i0, info1 := t.i1,
                                        info2 := t.i2, info3 := t.i3 } })

/-- The reason that goes with a trap's cause (R406): the causes that have one hold it in `TRAP_INFO2` (R55, R215, R252,
R293, R362). -/
def TrapReq.reason (t : TrapReq) : Nat := if [1, 8, 9, 10, 12].contains t.cause then t.i2.toNat % 256 else 0

/-- The record of a trap that goes to the host, with its PCV, LANES, CODE and DETAIL (R406). -/
def State.trapRec (s : State) (t : TrapReq) (kind sev aux : Nat) : ErrRec :=
  { s.recOf s.gid kind sev with
    pcv := s.iss.pc.toNat, lanes := s.iss.set.toNat, code := t.cause, detail := t.reason, aux := aux }

/-- A base-tile lane that no handler serves is HALTED with its state kept (R395, R503). -/
def State.haltBase (s : State) : State :=
  let s := s.setG (fun g => g.setLane 0 .halted)
  if s.g.kind = .pager then s.fatal else s

/-- A trap goes to the host (R395): a record, and the team fails or the base-tile lane halts. -/
def State.trapToHost (s : State) (t : TrapReq) (async : Bool) : State :=
  let dbl := s.g.r.tm
  let aux := if dbl then (causeWord t async).toNat else t.i1.toNat
  let s := s.writeRec s.g.tile (s.trapRec t (if dbl then 11 else 4) (if s.g.isCompute then 3 else 4) aux)
  if s.g.isCompute then s.failTeam s.g.team else s.haltBase

/-- Takes a trap for the executing group (R392, R395, R396); poison consumed is recorded, and replayed where R408 says
so. A floating-point trap sets its flags (R26). -/
def State.takeTrap (s : State) (t : TrapReq) (async : Bool) (h : Word) : State :=
  let s := if t.cause = 6 then s.setR (fun r => r.raise (t.i0.extractLsb' 0 5)) else s
  let rp := if t.cause = 13 then s.replayFlags s.gid 13 s.g.home else none
  let s :=
    if t.cause = 13 then
      s.writeRec s.g.tile { s.recOf s.gid 3 3 with
        flags := (rp.map (·.2)).getD 0, addr := t.addr, pcv := t.i0.toNat, lanes := t.i3.toNat,
        aux := t.i2.toNat, code := 13 }
    else s
  let s := s.setIss (fun i => { i with trap := some t })
  match rp with
  | some (gr, _) => s.callReplay gr 13 s.g.home
  | none =>
    if s.g.r.tm then s.trapToHost t async
    else
      match s.g.handler with
      | none => s.trapToHost t async
      | some pc => s.enterHandler t async h pc

/-- A precise trap of the chain at hand. -/
def State.trap (s : State) (t : TrapReq) : State := s.takeTrap t false s.iss.set

/-- Lanes `m` have advanced past the last packet (R20): the bad-PC trap, with the `pcv` of the last word executed. -/
def State.badPcEnd (s : State) (m last : Word) : State :=
  (s.setIss (fun i => { i with set := m, eff := m, pc := last, skip := none })).trap
    (mkTrap 4 (lowestLane m) (last.zeroExtend 64) 0 0 0)

/-- Block state after `n` words (R49). -/
def Blk.past (b : Blk) (n : Nat) : Blk :=
  if b.left ≤ n then Blk.none else { b with pat := b.pat >>> n, left := b.left - n }

/-- Return from a handler (R398): every lane takes its saved state, then `f` places the lanes of H. -/
def State.trapReturn (s : State) (f : Group → Nat → Group) : State :=
  match s.g.save with
  | none => s
  | some sv =>
    s.setG (fun g =>
      let gone (l : Nat) : Bool := g.hlanes.getLsbD l && g.lane l == .exited
      let dead := maskOf gone
      let g := { g with pcv := sv.pcv, lsv := sv.lsv, blk := sv.blk, save := none, r := g.r.setTm false }
      let g := g.eachLane dead (fun g l => (g.setLane l .exited).setBlk l Blk.none)
      g.eachLane (g.hlanes &&& ~~~dead) f)

/-! ### Level-1 (R201, R264, R270) -/

/-- Drops level-1 blocks of a core that satisfy `p`. -/
def State.l1Drop (s : State) (core : Nat) (p : L1Block → Bool) : State :=
  { s with l1 := s.l1.filter (fun b => !(b.core == core && p b)) }

/-- Drops the level-1 block of a tag. -/
def State.l1DropBlk (s : State) (core k : Nat) : State := s.l1Drop core (fun b => b.blk == k)

/-- Drops a core's level-1 copies of the blocks that `n` bytes of a place touch, whatever their tags. -/
def State.l1DropLoc (s : State) (core : Nat) (l : Loc) (n : Nat) : State :=
  if s.l1.isEmpty then s
  else
    let ks := (l.homeBlks n).map (·.1)
    s.l1Drop core (fun b => ks.contains b.home)

/-- A block of level-1 that may still serve a read of `n` bytes from byte `o` by agent `a`: at most 32,768 cycles old
(R264), and lacking nothing that the agent must observe (R262). -/
def State.l1Find (s : State) (a core k o n : Nat) : Option L1Block :=
  (s.l1.find? (fun b => b.core == core && b.blk == k)).bind
    (fun b => if (s.coreSt core).cyc ≤ b.filled + 32768 && s.mayServe a b o n then some b else none)

/-- The releases that the words of a block carry. -/
def State.blkSync (s : State) (l : Loc) : List (Nat × SyncRec) :=
  (l.words 64).flatMap (fun w => (mapGet [] s.race.sync w).map (fun r => (w, r)))

/-- Fills a block from its home; a level-1 holds 4096 blocks, and a poisoned block is never held (R201, R403). `x` says
whether the block may be fetched (R240). -/
def State.l1Fill (s : State) (core asid view va : Nat) (src : Loc) (fetch x : Bool) : State :=
  let k := blkKey asid view va
  let s := (s.settleUndo src 64).l1DropBlk core k
  if s.locPois src 64 then s
  else
    let mine := s.l1.filter (fun b => b.core == core)
    let rest := if 4096 ≤ mine.length then dropFirst (fun b => b.core == core) s.l1 else s.l1
    let home := ((src.homeBlks 64).head?.map (·.1)).getD k
    { s with l1 := rest ++ [L1Block.mk core k home (s.rdLoc src 64) (s.coreSt core).cyc fetch x [] (s.blkSync src)] }

/-- Bytes of a stored value placed in a block's data. -/
def patchNat (d : Nat) : Nat → List Byte → Nat
  | _, [] => d
  | i, b :: bs => patchNat (d - d / 256 ^ i % 256 * 256 ^ i + b.toNat * 256 ^ i) (i + 1) bs

/-- A store also writes its bytes into the issuing core's copies of the location (R201, R258). -/
def State.l1Write (s : State) (core : Nat) (l : Loc) (bs : List Byte) : State :=
  match l with
  | .home a v x =>
    if s.l1.isEmpty then s
    else
      let put (s : State) (y : Nat × Byte) : State :=
        let up (b : L1Block) : L1Block := { b with data := patchNat b.data ((x + y.1) % 64) [y.2] }
        { s with l1 := modWhere (fun b => b.core == core && b.home == blkKey a v (x + y.1)) up s.l1 }
      ((List.range bs.length).zip bs).foldl put s
  | _ => s

/-- The issuing core's copies of words that it has stored to carry what the words carry (R260). -/
def State.l1Sync (s : State) (core : Nat) (l : Loc) (n : Nat) : State :=
  if s.l1.isEmpty then s
  else
    let ws := l.words n
    let ks := (l.homeBlks n).map (·.1)
    let got := ws.flatMap (fun w => (mapGet [] s.race.sync w).map (fun r => (w, r)))
    let up (b : L1Block) : L1Block := { b with sync := b.sync.filter (fun e => !ws.contains e.1) ++ got }
    { s with l1 := modWhere (fun b => b.core == core && ks.contains b.home) up s.l1 }

/-- An acquire that empties a level-1 is counted (R462). -/
def State.l1DropAll (s : State) (core : Nat) : State :=
  let s := s.l1Drop core (fun _ => true)
  if core < 1024 then s.setDie (core / 32) (fun d => { d with fullDrops := min 65535 (d.fullDrops + 1) }) else s

/-! ### Epochs, clocks, release and acquire (R267 to R274, R463)

The dies are 0 to 31; 32 + t stands for base tile t, whose cores have no epoch. -/

/-- Comparison of R315. -/
def passed (q p : Nat) : Bool :=
  let d := (q + 2 ^ 32 - p % 2 ^ 32) % 2 ^ 32
  1 ≤ d && d < 2 ^ 31

/-- M_d as the acknowledged stores of the die give it (R267): one below the oldest stamp outstanding, or below E_d. -/
def State.watermark (s : State) (d : Nat) : Nat :=
  let e := (s.die d).epoch
  let low := (s.stores.filter (fun x => x.die == d)).foldl (fun m x => if passed m x.stamp then x.stamp else m) e
  (low + 2 ^ 32 - 1) % 2 ^ 32

/-- Clock component `j` counts as covered on die `e` (R270, R463, R464). A base tile knows what the dies have published. -/
def State.covered (s : State) (e j v : Nat) : Bool :=
  let k := if e < 32 then mapGet 0 (s.die e).known j else (s.die j).mark
  v == k || passed k v || 2 ^ 30 ≤ ((s.die j).epoch + 2 ^ 32 - v) % 2 ^ 32 || (s.die j).lost

def State.allCovered (s : State) (e : Nat) (v : Map Nat) : Bool := v.all (fun c => s.covered e c.1 c.2)

/-- D_d with its own component E_d (R267). -/
def State.dieClock (s : State) (d : Nat) : Map Nat := mapSet 0 (s.die d).clock d (s.die d).epoch

def State.bumpEpoch (s : State) (d : Nat) : State :=
  s.setDie d (fun x => { x with epoch := (x.epoch + 1) % 2 ^ 32 })

/-- The signature bits of a block (R271). -/
def sigBits (b : Nat) : Nat := Config.signatureBits b % 2 ^ 2048

/-- A block written by a core's groups or engines sets bits of its signature (R271). -/
def State.signBlk (s : State) (core b : Nat) : State :=
  s.setCore core (fun c => { c with sig := c.sig ||| sigBits b })

/-- The blocks that a write of `n` bytes touches are signed (R271). -/
def State.signLoc (s : State) (core : Nat) (l : Loc) (n : Nat) : State :=
  (l.homeBlks n).foldl (fun s k => s.signBlk core k.1) s

/-- Registers the stamp of a write of a die in the words of a level-2 line (R267, R268); engines and cores of a base tile
leave none. -/
def State.stampWords (s : State) (die : Nat) (l : Loc) (n : Nat) : State :=
  match l with
  | .home a v x =>
    if (mapGet none s.l2 (lineKey a v x)).isNone then s
    else (l.words n).foldl (fun s w =>
      { s with stamps := mapSet 0 s.stamps w (if die < 32 then 2 ^ 32 * die + (s.die die).epoch else 0) }) s
  | _ => s

/-- The release records of a slice are those of 512 words: a further one takes the place of another, whose clock the lost
clock takes in (R272). -/
def State.putRecords (s : State) (sl : Nat) (ws : List Nat) (r : RelRec) : State :=
  ws.foldl (fun s w =>
    let same := s.rel.filter (fun e => e.1 % 2 == 0 && e.1 != w && s.sliceOf (lineAsid (e.1 / 128)) (lineVa (e.1 / 128)) == sl)
    let s := match same with
      | (k, some r) :: _ =>
        if 512 ≤ same.length then { s with rel := mapSet none s.rel k none }.loseClock sl r.clock else s
      | _ => s
    { s with rel := mapSet none s.rel w (some r) }) s

/-- A release write of `n` bytes at a place by an agent of core `core`, die `die` (R269, R272, R273). `cont`: an indivisible
write, which continues the release sequences of its words. -/
def State.releaseAt (s : State) (core die : Nat) (l : Loc) (n : Nat) (cont : Bool) : State :=
  let ws := l.words n
  let old := if cont then ws.filterMap (fun w => mapGet none s.rel w) else []
  let cores := (old.flatMap RelRec.cores ++ [core]).dedup
  match l with
  | .spad _ _ => ws.foldl (fun s w => { s with rel := mapSet none s.rel w (some ⟨[], cores, none⟩) }) s
  | .home a _ x =>
    let v := old.foldl (fun v r => clkMerge v r.clock) (if die < 32 then s.dieClock die else (s.coreSt core).kclk)
    let sg := old.foldl (fun g r => match g, r.sig with
      | some g, some h => some (g ||| h)
      | _, _ => none) (some (s.coreSt core).sig)
    let s := (s.stampWords die l n).putRecords (s.sliceOf a x) ws ⟨v, cores, sg⟩
    if die < 32 then s.bumpEpoch die else s
  | _ => s

/-- A write of a plain kind: it ends the release sequences of the words it writes and leaves its stamp (R260, R267,
R268). -/
def State.plainWrite (s : State) (die : Nat) (l : Loc) (n : Nat) : State :=
  let s := s.stampWords die l n
  if s.rel.isEmpty && s.race.sync.isEmpty then s
  else (l.words n).foldl (fun s w =>
    { s with rel := mapSet none s.rel w none, race := { s.race with sync := mapSet [] s.race.sync w [] } }) s

/-- The end of an acquire whose clock is covered (R270 steps 2 and 3). -/
def State.mergeClock (s : State) (core die : Nat) (v : Map Nat) (sig : Option Nat) : State :=
  let k := (s.coreSt core).kclk
  let above := v.any (fun c => c.1 != die && (mapGet 0 k c.1 != c.2) && passed c.2 (mapGet 0 k c.1))
  let s :=
    if above then s.l1DropAll core
    else
      match sig with
      | none => s.l1DropAll core
      | some g => s.l1Drop core (fun b => sigBits b.home &&& g == sigBits b.home)
  let s := s.setCore core (fun c => { c with kclk := clkMerge c.kclk v, sig := c.sig ||| sig.getD (2 ^ 2048 - 1) })
  if die < 32 then s.setDie die (fun d => { d with clock := clkMerge d.clock (mapSet 0 v die 0) }) else s

/-- What an acquire read of words at a home takes up (R270, R272): the record of each word that carries one from which it
acquires, the lost clock for a word without record. -/
def State.acquired (s : State) (a x : Nat) (ws : List Nat) (scope : Nat) : List RelRec :=
  ws.filterMap (fun w =>
    match mapGet none s.rel w with
    | some r => if (s.syncAt [w]).any (fun y => s.syncs y s.gid scope) then some r else none
    | none =>
      let c := mapGet [] s.lostClk (s.sliceOf a x)
      if c.isEmpty then none else some ⟨c, [], none⟩)

/-- A signature that names every block of either. -/
def sigJoin (x y : Option Nat) : Option Nat :=
  match x, y with
  | some g, some h => some (g ||| h)
  | _, _ => none

/-- An acquire read of `n` bytes of a place by the executing group (R270, R272, R273, R469, R479); the group is held where
it must wait for watermarks, or for a sweep of its die (R271). -/
def State.acquireAt (s : State) (l : Loc) (n scope : Nat) : State :=
  let core := s.core
  let die := s.g.die
  match l with
  | .home a _ x =>
    match s.acquired a x (l.words n) scope with
    | [] => if (s.die die).sweep.isSome then s.setG (fun g =>
        { g with hold := match g.hold with
            | .none => .acquire [] (some 0) s.tick
            | h => h }) else s
    | r :: rs =>
      let v := rs.foldl (fun v r => clkMerge v r.clock) r.clock
      let sg := rs.foldl (fun g r => sigJoin g r.sig) r.sig
      if s.allCovered die v && (s.die die).sweep.isNone then s.mergeClock core die v sg
      else s.setG (fun g =>
        { g with hold := match g.hold with
            | .acquire c h t => .acquire (clkMerge c v) (sigJoin h sg) t
            | _ => .acquire v sg s.tick })
  | .spad _ _ =>
    if ((l.words n).filterMap (fun w => mapGet none s.rel w)).any (fun r => r.cores.any (· != core)) then s.l1DropAll core else s
  | .host _ _ | .peer _ _ _ => s.l1DropAll core
  | _ => s

/-! ### Stores outstanding (R27, R267) -/

/-- What the bytes of a place hold before a write to it (R464). Table pages keep what is written to them. -/
def State.undoAt (s : State) (l : Loc) (n : Nat) : List (Nat × Byte) :=
  match l with
  | .home a v x => if inTable x then [] else (List.range n).map (fun i => (memKey a v x + i, mapGet 0 s.mem (memKey a v x + i)))
  | _ => []

/-- A store of group `grp` becomes outstanding, stamped with its die's epoch; answers its identifier. `undo` holds what
its bytes replaced. -/
def State.addStore (s : State) (grp : Option Nat) (die : Nat) (k : StoreKind) (undo : List (Nat × Byte)) : State × Nat :=
  let (s, id) := s.fresh
  ({ s with stores := s.stores ++ [PendStore.mk id grp die (s.die die).epoch k undo] }, id)

/-! ### Weirs (R309, R313 to R315) -/

structure Weir where
  atgt : Nat
  arr : Nat
  btgt : Nat
  bytes : Nat
  phase : Nat
  deriving DecidableEq, Repr

def Weir.ofNat (x : Nat) : Weir := ⟨bitsOf x 0 16, bitsOf x 16 16, bitsOf x 32 32, bitsOf x 64 32, bitsOf x 96 32⟩
def Weir.toNat (w : Weir) : Nat :=
  w.atgt % 2 ^ 16 + w.arr % 2 ^ 16 * 2 ^ 16 + w.btgt % 2 ^ 32 * 2 ^ 32 + w.bytes % 2 ^ 32 * 2 ^ 64
    + w.phase % 2 ^ 32 * 2 ^ 96

/-- Counts of an update, before the phase is considered (R314). -/
def Weir.count (w : Weir) (a b : Nat) : Weir :=
  { w with arr := min (w.arr + a) 65535, bytes := min (w.bytes + b) (2 ^ 32 - 1) }

/-- Whether a weir's counts meet both targets (R314). -/
def Weir.full (w : Weir) : Bool := !(w.atgt == 0 && w.btgt == 0) && w.atgt ≤ w.arr && w.btgt ≤ w.bytes

/-- The phase step (R314). -/
def Weir.advance (w : Weir) : Weir := { w with phase := (w.phase + 1) % 2 ^ 32, arr := 0, bytes := 0 }

/-- The update U(a, b) as a function of the weir (R314). -/
def Weir.update (w : Weir) (a b : Nat) : Weir :=
  let w := w.count a b
  if w.full then w.advance else w

def State.rdWeir (s : State) (l : Loc) : Weir := Weir.ofNat (s.rdLoc l 16)

/-- Writes a weir where it lies. -/
def State.wrWeir (s : State) (l : Loc) (w : Weir) : State :=
  let s := s.wrLoc l 16 w.toNat
  match l with
  | .home a v x => s.touchHome a v x
  | _ => s

/-- Key of a weir, for the arrivals and closes of an epoch. -/
def Loc.weirKey (l : Loc) : Nat := (l.wordKey 0).getD 0

/-- Whether a contribution belongs to the epoch whose weir lies under a key. -/
def State.ofEpoch (s : State) (c : Contrib) (asid view epa : Nat) : Bool :=
  s.homeKey c.asid c.view c.epa == (asid, view, epa)

/-- The home slice of a contribution's location (R87, R205, R234). -/
def State.contribSlice (s : State) (c : Contrib) : Nat :=
  let k := s.homeKey c.asid c.view c.va
  s.sliceOf k.1 k.2.2

/-- The slices that hold staged contributions of an epoch; the others have nothing to fold (R309). -/
def State.epochSlices (s : State) (asid view epa : Nat) : List Nat :=
  ((s.contribs.filter (fun c => c.place == .staged && s.ofEpoch c asid view epa)).map s.contribSlice).dedup

/-- An update U(a, b) at a place (R314); an update that closes a round of an epoch defers its phase (R309), and updates
that arrive during a close wait: `late` numbers the load that then takes the phase (R316). -/
def State.weirUpdate (s : State) (l : Loc) (a b : Nat) (closing : Bool) (late : Option Nat) : State :=
  let k := l.weirKey
  let key := match l with
    | .home as v x => (as, v, x)
    | _ => (0, 0, 0)
  match s.closings.find? (fun c => (Loc.home c.asid c.view c.epa).weirKey == k) with
  | some _ =>
    let up (c : Closing) : Closing := { c with waits := c.waits ++ [(a, b, closing, late)] }
    { s with closings := modWhere (fun c => (Loc.home c.asid c.view c.epa).weirKey == k) up s.closings }
  | none =>
    let old := s.rdWeir l
    let s := match late with
      | some n => s.lateDone n (BitVec.ofNat 64 old.phase)
      | none => s
    let w := old.count a b
    let n := mapGet 0 s.closeArr k + if closing then 1 else 0
    let s := { s with closeArr := mapSet 0 s.closeArr k n }
    if w.full && n != 0 then
      { s.wrWeir l w with closings := s.closings ++ [Closing.mk key.1 key.2.1 key.2.2 (s.epochSlices key.1 key.2.1 key.2.2) []] }
    else s.wrWeir l (if w.full then w.advance else w)

/-- Whether an update at a place would wait for the end of a close (R309). -/
def State.weirClosing (s : State) (l : Loc) : Bool :=
  s.closings.any (fun c => (Loc.home c.asid c.view c.epa).weirKey == l.weirKey)

end Sys2Proof.Machine
end

