-- ==== Sys2Proof/Machine/Operands.lean ====
section
/-! DEFINITION. Operand forms: what a word reads and writes, which conditions stand before its effect (R13, R16, R28,
R29, R32, R134, R152, R165, R167, R404, R492), and how a result reaches its destination (R88, R138, R403).

Every meaning of an encoded instruction is `issued info s body`: the conditions of R56 steps 2 (reasons 11 to 13), 4
and 5, then the stalls, then the first traps of step 6, then `body`. -/

namespace Sys2Proof.Machine

/-- The pipes (R53); `pblk` belongs to none. -/
inductive Pipe where
  | s | v | t | m | none
  deriving DecidableEq, Repr

/-- A register operand: `w` lane registers from `n`, a scalar, a predicate, a `k` register, a machine register. -/
inductive Reg where
  | v (n w : Nat)
  | s (n : Nat)
  | p (n : Nat)
  | k (n : Nat)
  | m (n : Nat)
  deriving DecidableEq, Repr

/-- What an instruction needs of the mode: `MSTAT.TM`, a privilege, or the condition of a machine register. -/
inductive Need where
  | none
  | tm
  | prv (n : Nat)
  | mreg (n : Nat) (write : Bool)
  deriving DecidableEq, Repr

/-- The counter of `OPCNT` that an operation raises (R27). -/
inductive Cnt where
  | none | ld | st | cp | mx
  deriving DecidableEq, Repr

/-- What stands before the effect of a word. -/
structure Info where
  pipe : Pipe
  reads : List Reg := []
  writes : List Reg := []
  /-- available on base-tile cores (R2) -/
  base : Bool := true
  /-- ROLE_KIND that alone may issue it; 0 for every role (R152) -/
  role : Nat := 0
  /-- optional feature (R492) -/
  feat : Option Nat := none
  need : Need := .none
  counter : Cnt := .none
  /-- lane operands that must be uniform (R167) -/
  uniform : List Reg := []
  /-- operands whose poison is consumed (R404) -/
  consumes : List Reg := []
  /-- effective address that a lane forms from the held bits (R457) -/
  ea : Option (Regs → Nat → Nat) := none
  /-- can transfer control (R50) -/
  control : Bool := false

/-! ### Traps of a word -/

/-- The illegal-instruction trap (R55) at a word. -/
def illTrap (pc word : Word) (lane reason : Nat) : TrapReq :=
  mkTrap 1 lane (pc.zeroExtend 64) (word.zeroExtend 64) (BitVec.ofNat 64 reason) 0

/-- The illegal-instruction trap of the word at hand. -/
def State.ill (s : State) (reason : Nat) : TrapReq := illTrap s.iss.pc s.iss.word (lowestLane s.iss.set) reason

/-- A trap of a cause at the word at hand, with the fields the rule of the cause sets. -/
def State.trapOf (s : State) (cause : Nat) (i0 i1 i2 i3 : Nat) : TrapReq :=
  mkTrap cause (lowestLane s.iss.eff) (BitVec.ofNat 64 i0) (BitVec.ofNat 64 i1) (BitVec.ofNat 64 i2) (BitVec.ofNat 64 i3)

/-! ### The conditions -/

/-- A pair register number is even, a quad register number a multiple of 4 (R13). -/
def Reg.aligned : Reg → Bool
  | .v n w => w == 0 || n % w == 0
  | _ => true

/-- The lowest lane register of an operand at or above the allotment (R134). -/
def Reg.outside (n : Nat) : Reg → Option Nat
  | .v a w => if n < a + w then some (max a n) else none
  | _ => none

/-- The least of the numbers found. -/
def leastOf (xs : List (Option Nat)) : Option Nat := leastBy id (xs.filterMap id)

/-- The assigned machine-register numbers (R32). -/
def mregAssigned (compute : Bool) (n : Nat) : Bool :=
  n ≤ 4 || n == 8 || (0x10 ≤ n && n ≤ 0x14) || n == 0x20 || n == 0x21 || (n == 0x30 && compute) || n == 0x40 || n == 0x41

/-- The condition for access of a machine register (R32). -/
def mregAllowed (tm : Bool) (prv n : Nat) (write : Bool) : Bool :=
  if n = 8 then !write || 1 ≤ prv
  else if 0x10 ≤ n ∧ n ≤ 0x14 then tm
  else if n = 0x20 ∨ n = 0x21 then 1 ≤ prv
  else if n = 0x40 ∨ n = 0x41 then prv == 2
  else true

/-- Whether the mode allows the word. -/
def Need.ok (r : Regs) : Need → Bool
  | .none => true
  | .tm => r.tm
  | .prv n => n ≤ r.prv
  | .mreg n w => mregAllowed r.tm r.prv n w

/-- `TRAP_INFO1` of the privileged-register trap: the number for a move (R109), else the word (DEDUCED, log 11). -/
def Need.info1 (word : Word) : Need → Nat
  | .mreg n _ => n
  | _ => word.toNat

/-- An outstanding load will write the register (R29). -/
def LoadWrite.hits : LoadWrite → Reg → Bool
  | .lane n _ _ _, .v a w => a ≤ n && n < a + w
  | .scalar n _ _, .s a => n == a
  | _, _ => false

/-- An engine owns or has asked for the lane register of group `k` (R275, R340). -/
def Reg.owned (k : Nat) (owns : List Own) : Reg → Bool
  | .v a w => owns.any (fun o => 4 * (2 ^ 90 + k * 128 + a) ≤ o.blk && o.blk < 4 * (2 ^ 90 + k * 128 + a + w))
  | _ => false

/-- A copy command of group `k` will write a status to the register (R336), or may come to own it (R340). -/
def Reg.copied (k : Nat) (ctxs : Map (Option CopyCtx)) : Reg → Bool
  | .v a w => ctxs.any (fun e => match e.2 with
    | some c => c.grp == k && c.cmds.any (fun q =>
        (match q.vd with
         | some n => a ≤ n && n < a + w && q.boxes.any (fun b => !b.told)
         | none => false) || (q.early && !q.resolved && q.fault.isNone))
    | none => false)
  | _ => false

/-- The counter stands at its maximum (R28). -/
def Cnt.full (g : Group) : Cnt → Bool
  | .none => false
  | .ld => 63 ≤ g.ldcnt
  | .st => 63 ≤ g.stcnt
  | .cp => 15 ≤ g.cpcnt
  | .mx => 15 ≤ g.mxcnt

/-- The word must wait (R28, R29); a chain of more than one word is held to it before any of its words issues (R45). -/
def Info.stalls (inf : Info) (s : State) : Bool :=
  s.iss.pre.isNone && (inf.counter.full s.g
    || (inf.reads ++ inf.writes).any (fun r =>
      s.g.loads.any (fun l => l.writes.any (fun x => x.hits r)) || r.owned s.gid s.owns
        || r.copied s.gid s.ctxs))

/-- Lanes of `m` in which an operand is poisoned (R402). -/
def Reg.poisMask (r : Regs) (m : Word) : Reg → Word
  | .v n w => (List.range w).foldl (fun a i => a ||| (r.poisV (n + i) &&& m)) 0
  | .s n => if r.poisS n then m else 0
  | .p n => r.poisP n &&& m
  | .k n => if r.poisK n then m else 0
  | .m _ => 0

/-- `TRAP_INFO2` of a consumed operand (R404): the lowest poisoned register of it. -/
def Reg.poisCode (r : Regs) (m : Word) : Reg → Nat
  | .v n w => ((List.range w).find? (fun i => r.poisV (n + i) &&& m != 0#32)).getD 0 + n
  | .s n => n
  | .p n => 128 + n
  | .k n => n
  | .m n => n

/-- Even lanes of a mask in a protected launch, else the mask (R410). -/
def Regs.lead (r : Regs) (m : Word) : Word := if r.prot then m &&& 0x55555555#32 else m

/-- Lanes with effect whose uniform operand differs from that of the lowest (R167). -/
def Reg.differs (r : Regs) (m : Word) : Reg → Word
  | .v n w =>
    let m := r.lead m
    let x := r.rdW w n (lowestLane m)
    maskOf (fun l => m.getLsbD l && r.rdW w n l != x)
  | _ => 0

def Reg.num : Reg → Nat
  | .v n _ => n
  | .s n => n
  | .p n => n
  | .k n => n
  | .m n => n

/-- The nonuniform-operand trap, the first operand that differs (R167). -/
def Info.nonuniform (inf : Info) (s : State) : Option TrapReq :=
  match inf.uniform.find? (fun r => r.differs s.src s.iss.eff != 0#32) with
  | none => none
  | some r =>
    some (s.trapOf 11 s.iss.pc.toNat s.iss.word.toNat r.num (r.differs s.src s.iss.eff).toNat)

/-- The poison-consumed trap (R404), the first operand that is poisoned. -/
def Info.poisoned (inf : Info) (s : State) : Option TrapReq :=
  match inf.consumes.find? (fun r => r.poisMask s.src s.iss.eff != 0#32) with
  | none => none
  | some r =>
    let m := r.poisMask s.src s.iss.eff
    let t := s.trapOf 13 s.iss.pc.toNat s.iss.word.toNat (r.poisCode s.src m) m.toNat
    some { t with lane := lowestLane m, addr := match inf.ea with
      | none => 0
      | some f => f s.src (lowestLane m) % 2 ^ 64 }

/-- Reasons 11 to 13 of the illegal-instruction trap, which hold whatever lanes have effect. -/
def Info.unavailable (inf : Info) (s : State) : Option Nat :=
  if !inf.base && !s.g.isCompute then some 11
  else if !(inf.feat.all s.feat) then some 11
  else if inf.role != 0 && s.g.isCompute && s.g.roleKind != inf.role then some 12
  else
    match inf.need with
    | .mreg n _ => if mregAssigned s.g.isCompute n then none else some 13
    | _ => none

/-- The illegal-operand trap (R13, R134), then the privileged-register trap (R16, R32). -/
def Info.operandTrap (inf : Info) (s : State) : Option TrapReq :=
  let rs := inf.reads ++ inf.writes
  if !rs.all Reg.aligned then some (s.trapOf 2 0 0 0 0)
  else
    match leastOf (rs.map (Reg.outside s.g.regsN)) with
    | some n => some (s.trapOf 2 0 n 0 0)
    | none =>
      if !inf.need.ok s.src then some (s.trapOf 3 s.iss.pc.toNat (inf.need.info1 s.iss.word) 0 0) else none

/-- What a word meets before its effect. -/
inductive Gate where
  | trap (t : TrapReq)
  | idle
  | stall
  | go
  deriving DecidableEq, Repr

/-- The static checks of a word (R56 steps 2, 4 and 5). -/
def Info.static (inf : Info) (s : State) : Option TrapReq :=
  match inf.unavailable s with
  | some r => some (s.ill r)
  | none => if s.iss.eff = 0 then none else inf.operandTrap s

def Info.gate (inf : Info) (s : State) : Gate :=
  match inf.static s with
  | some t => .trap t
  | none =>
    if s.iss.eff = 0 then .idle
    else if inf.stalls s then .stall
    else
      match if s.src.unifMode then none else inf.nonuniform s with
      | some t => .trap t
      | none =>
        match inf.poisoned s with
        | some t => .trap t
        | none => .go

/-- The word's issue is put off (R28, R45). -/
def State.stall (s : State) : State := s.setIss (fun i => { i with stalled := true })

/-- `MSTAT.UNIF_FL` will be set where a uniform operand differed (R167). -/
def Info.noteUnif (inf : Info) (s : State) : State :=
  if (inf.nonuniform s).isSome then s.setIss (fun i => { i with unif := true }) else s

/-- The form of every meaning of an encoded word. -/
def issued (inf : Info) (s : State) (body : State → State) : Out :=
  match inf.gate s with
  | .trap t => .next (s.trap t)
  | .idle => .next s
  | .stall => .next s.stall
  | .go => .next (body (inf.noteUnif s))

/-! ### Results -/

/-- Poison of a result in a lane: any register source it reads (R403). -/
def Info.pois (inf : Info) (r : Regs) (l : Nat) : Bool :=
  inf.reads.any (fun x => (x.poisMask r (laneBit l)) != 0#32)

/-- Poison of a scalar result. -/
def Info.poisAny (inf : Info) (s : State) : Bool :=
  inf.reads.any (fun x => (x.poisMask s.src s.iss.eff) != 0#32)

/-- Writes of the lanes with effect. -/
def State.eachEff (s : State) (f : Regs → Nat → Regs) : State :=
  s.setR (fun r => (lanesOf s.iss.eff).foldl f r)

/-- One lane register in every lane with effect. -/
def lane1 (inf : Info) (d : BitVec 7) (f : Nat → Word) (s : State) : State :=
  s.eachEff (fun r l => r.wrV d.toNat l (f l) (inf.pois s.src l))

/-- A lane pair in every lane with effect. -/
def lane2 (inf : Info) (d : BitVec 7) (f : Nat → DWord) (s : State) : State :=
  s.eachEff (fun r l => r.wrV2 d.toNat l (f l) (inf.pois s.src l))

/-- A predicate bit in every lane with effect. -/
def lanePred (inf : Info) (d : Nat) (f : Nat → Bool) (s : State) : State :=
  s.eachEff (fun r l => r.wrP d l (f l) (inf.pois s.src l))

/-- A scalar, once (R138). -/
def scalarOut (inf : Info) (d : BitVec 7) (x : DWord) (s : State) : State :=
  s.setR (fun r => r.wrS d.toNat x (inf.poisAny s))

/-! ### Shapes of S and V words -/

/-- Three scalars. -/
def infS3 (d a b : BitVec 7) : Info :=
  { pipe := .s, reads := [.s a.toNat, .s b.toNat], writes := [.s d.toNat] }
/-- Two scalars. -/
def infS2 (d a : BitVec 7) : Info := { pipe := .s, reads := [.s a.toNat], writes := [.s d.toNat] }
/-- Three scalars with the destination read. -/
def infS4 (d a b : BitVec 7) : Info :=
  { pipe := .s, reads := [.s a.toNat, .s b.toNat, .s d.toNat], writes := [.s d.toNat] }
def infSD (d : BitVec 7) : Info := { pipe := .s, writes := [.s d.toNat] }
/-- A scalar compare. -/
def infSP (p : BitVec 3) (a b : BitVec 7) : Info :=
  { pipe := .s, reads := [.s a.toNat, .s b.toNat], writes := [.p p.toNat] }
def infSPI (p : BitVec 3) (a : BitVec 7) : Info :=
  { pipe := .s, reads := [.s a.toNat], writes := [.p p.toNat] }
/-- Predicate logic. -/
def infP3 (d a b : BitVec 3) : Info :=
  { pipe := .s, reads := [.p a.toNat, .p b.toNat], writes := [.p d.toNat] }
/-- Lane words by widths of D, A and B, in a pipe. -/
def infV3 (pipe : Pipe) (wd wa wb : Nat) (d a b : BitVec 7) : Info :=
  { pipe := pipe, reads := [.v a.toNat wa, .v b.toNat wb], writes := [.v d.toNat wd] }
def infV2 (pipe : Pipe) (wd wa : Nat) (d a : BitVec 7) : Info :=
  { pipe := pipe, reads := [.v a.toNat wa], writes := [.v d.toNat wd] }
/-- Lane words whose destination is also a source. -/
def infV4 (pipe : Pipe) (wd wa wb : Nat) (d a b : BitVec 7) : Info :=
  { pipe := pipe, reads := [.v a.toNat wa, .v b.toNat wb, .v d.toNat wd], writes := [.v d.toNat wd] }
def infVD (d : BitVec 7) : Info := { pipe := .v, writes := [.v d.toNat 1] }
/-- A lane compare. -/
def infVP (w : Nat) (p : BitVec 3) (a b : BitVec 7) : Info :=
  { pipe := .v, reads := [.v a.toNat w, .v b.toNat w], writes := [.p p.toNat] }
def infVPI (p : BitVec 3) (a : BitVec 7) : Info :=
  { pipe := .v, reads := [.v a.toNat 1], writes := [.p p.toNat] }
/-- A word without register operands. -/
def inf0 (pipe : Pipe) : Info := { pipe := pipe }

/-! ### Reading operands -/

def State.rs (s : State) (n : BitVec 7) : DWord := s.src.rdS n.toNat
def State.rv (s : State) (n : BitVec 7) (l : Nat) : Word := s.src.rdV n.toNat l
def State.rv2 (s : State) (n : BitVec 7) (l : Nat) : DWord := s.src.rdV2 n.toNat l
def State.rv4 (s : State) (n : BitVec 7) (l : Nat) : BitVec 128 := s.src.rdV4 n.toNat l

end Sys2Proof.Machine

namespace Sys2Proof

/-- The immediate of majors `0x04` to `0x0A` (R89). -/
def Imm.val64 : Imm → DWord
  | .short x => x.signExtend 64
  | .lit x => x.signExtend 64
/-- The immediate of majors `0x13` to `0x19`. -/
def Imm.val32 : Imm → Word
  | .short x => x.signExtend 32
  | .lit x => x
/-- An unsigned immediate (R41): a machine-register number. -/
def Imm.unsigned : Imm → Nat
  | .short x => x.toNat
  | .lit x => x.toNat
/-- A displacement in bytes (R41). -/
def Disp.val : Disp → DWord
  | .short x => x.signExtend 64
  | .lit x => x.signExtend 64

end Sys2Proof

namespace Sys2Proof.Machine

/-- The lane of a uniform lane operand: the lowest with effect (R167). -/
def State.lead (s : State) : Nat := lowestLane (s.src.lead s.iss.eff)

/-- The lanes that act in memory: even lanes of a protected launch (R410). -/
def State.leadLanes (s : State) : Word := s.src.lead s.iss.eff

/-- A lane and, in a protected launch, its partner (R410). -/
def State.pairMask (s : State) (m : Word) : Word :=
  if s.src.prot then m ||| ((m &&& 0x55555555#32) <<< 1) ||| ((m &&& 0xAAAAAAAA#32) >>> 1) else m

/-- Lanes of the issue set leave it before the chain, in state `x` (R142, R414, R416): no word has effect in them. A
shadow stays SHADOW. While only the chain's traps are looked for no lane leaves it (R401). -/
def State.leaveChain (s : State) (m : Word) (x : LaneState) : State :=
  let m := s.pairMask m
  if s.iss.probe then s
  else
  (s.setG (fun g => g.eachLane m (fun g l =>
      { (if g.lane l = .shadow then g else g.setLane l x).setPc l s.iss.chainPc with parkEnd := mapSet none g.parkEnd l s.iss.skip }))).setIss
    (fun i => { i with parked := i.parked ||| m, moved := i.moved ||| m })

/-- A load of lane `l` also reaches the shadow of that lane (R410). -/
def State.withShadow (s : State) (l : Nat) : List Nat :=
  if s.src.prot && s.iss.eff.getLsbD (l + 1) && l % 2 == 0 then [l, l + 1] else [l]

end Sys2Proof.Machine
end

