-- ==== Sys2Proof/Machine/Flags.lean ====
section
/-! DEFINITION. Conditions and flags: the condition codes of integer compares (R101), the exceptions of floating-point
words and their trap (R25, R26, R118, R119). -/

namespace Sys2Proof.Machine

/-- A condition code of R101 on two values. -/
def intCond {w : Nat} (k : BitVec 4) (a b : BitVec w) : Bool :=
  match k.toNat with
  | 0 => a == b
  | 1 => a != b
  | 2 => a.slt b
  | 3 => !a.slt b
  | 4 => a.ult b
  | 5 => !a.ult b
  | 6 => a.sle b
  | 7 => !a.sle b
  | 8 => a.ule b
  | 9 => !a.ule b
  | 10 => a &&& b != 0#w
  | 11 => a &&& b == 0#w
  | _ => false

/-! Exceptions in the bit order of `FPCTL` [4:0] (R25). -/

def flagNV : BitVec 5 := 16#5
def flagDZ : BitVec 5 := 8#5
def flagOF : BitVec 5 := 4#5
def flagUF : BitVec 5 := 2#5
def flagNX : BitVec 5 := 1#5

/-- A result and the exceptions it raises. -/
abbrev FpRes := Nat × BitVec 5

/-- Exceptions that become flags at the end of the chain (R119). -/
def State.raise (s : State) (f : BitVec 5) : State := s.setIss (fun i => { i with raised := i.raised ||| f })

/-- The floating-point trap (R26, R118): `f` the union of the exceptions, `l` the lane it is reported for. -/
def State.fpTrap (s : State) (l : Nat) (f : BitVec 5) : State :=
  s.trap (mkTrap 6 l (f.zeroExtend 64) 0 0 0)

/-- The end of a floating-point word (R118): the trap where an enabled exception was raised in some lane, else the
flags and the results. `f l` are the exceptions of lane `l`, which a poisoned result silences (R403). -/
def fpFinishOn (pois : Nat → Bool) (f : Nat → BitVec 5) (write : State → State) (s : State) : State :=
  let ls := (lanesOf s.iss.eff).filter (fun l => !pois l)
  let u := ls.foldl (fun m l => m ||| f l) 0
  let en := s.src.fpEnables
  if u &&& en != 0#5 then
    s.fpTrap ((ls.find? (fun l => f l &&& en != 0#5)).getD 0) u
  else (write s).raise u

/-- The same where poison is that of the lane's own sources. -/
def fpFinish (inf : Info) (f : Nat → BitVec 5) (write : State → State) (s : State) : State :=
  fpFinishOn (inf.pois s.src) f write s

/-- A floating-point lane word with a result of `w` registers. -/
def fpLanes (inf : Info) (w : Nat) (d : BitVec 7) (f : Nat → FpRes) (s : State) : State :=
  fpFinish inf (fun l => (f l).2)
    (fun s => s.eachEff (fun r l => r.wrW w d.toNat l (f l).1 (inf.pois s.src l))) s

/-- A floating-point compare. -/
def fpPred (inf : Info) (p : BitVec 3) (f : Nat → Bool × BitVec 5) (s : State) : State :=
  fpFinish inf (fun l => (f l).2) (lanePred inf p.toNat (fun l => (f l).1)) s

end Sys2Proof.Machine
end

