-- ==== Sys2Proof/Machine/Pins.lean ====
section
/-! DEFINITION. Pins on regions and the save area of a tile (R219, R220, R319, R420). -/

namespace Sys2Proof.Machine

/-- Regions of a pin whose home is stack `st`. -/
def State.pinLoad (s : State) (st : Nat) (p : Pin) : Nat :=
  ((List.range p.count).filter (fun i => s.stackOf p.asid ((p.first + i) * 2 ^ 16) == st)).length

/-- The PIN windows of a grid as pins. -/
def Grid.windowPins (g : Grid) (id : Nat) : List Pin :=
  ((List.range g.windows.length).zip g.windows).filterMap (fun w =>
    if w.2.kind = 1 then some ⟨g.asid, w.2.base / 2 ^ 16, w.2.bytes / 2 ^ 16, .window id w.1⟩ else none)

/-- The pins of a grid's windows that do not stand and have not lapsed. -/
def State.newPins (s : State) (id : Nat) (g : Grid) : List Pin :=
  let lapsed (k : Nat) : Bool := ((g.windows[k]?).map Window.lapsed).getD false
  (g.windowPins id).filter (fun p => !s.pins.any (fun q => q.by_ == p.by_) && (match p.by_ with
    | .window _ k => !lapsed k
    | _ => true))

/-- Pins that unretired grids have been granted and that take hold when their first team is placed (R220, R221). -/
def State.pinsDue (s : State) : List Pin :=
  s.grids.flatMap (fun e => match e.2 with
    | some g => if g.done || g.next != 0 then [] else s.newPins e.1 g
    | none => [])

/-- Whether a further pin keeps every stack within 393,216 frames (R220). -/
def State.pinFits (s : State) (p : Pin) : Bool :=
  p.count ≤ 32 * 393216 && (List.range 32).all (fun st => ((p :: s.pins ++ s.pinsDue).map (s.pinLoad st)).foldl (· + ·) 0 ≤ 393216)

/-- Adds a pin; frames present stay, and pages of the range are pinned as they are filled (R219). -/
def State.addPin (s : State) (p : Pin) : State × Bool :=
  if s.pinFits p then ({ s with pins := s.pins ++ [p] }, true) else (s, false)

/-- Fields of `CTX_BASE` (R420). -/
def ctxAreaBase (v : DWord) : Nat := (v.extractLsb' 21 36).toNat * 2 ^ 21
def ctxSlots (v : DWord) : Nat := (v.extractLsb' 0 10).toNat

/-- The regions of an area are asked for: each absent one is a request served by the fill unit. -/
def State.askRegions (s : State) (t first : Nat) : Nat → State
  | 0 => s
  | n + 1 =>
    let s := State.askRegions s t first n
    let va := (first + n) * 2 ^ 16
    if (s.findFrame (s.stackOf 0 va) 0 0 va).isSome then s
    else s.newReq 0 0 va .load 0 (.area t) .fresh (s.stampFor none 0 va)

/-- A write of `CTX_BASE` (R420). -/
def State.ctxBaseWrite (s : State) (t : Nat) (v : DWord) : State :=
  let tl := s.tile t
  if !tl.slots.isEmpty then s
  else
    let s := { s with pins := s.pins.filter (fun p => p.by_ != PinBy.ctxArea t),
                      reqs := s.reqs.filter (fun r => r.who != ReqWho.area t) }
    let s := s.setTile t (fun x => { x with ctxBase := v &&& 0x01FFFFFFFFE003FF#64, ctxReady := false, slots := [] })
    let a := ctxAreaBase v
    let n := 32 * ctxSlots v
    if tableBase < a + 2 ^ 16 * n then s
    else
      match s.addPin ⟨0, a / 2 ^ 16, n, .ctxArea t⟩ with
      | (s, false) => s
      | (s, true) => (s.askRegions t (a / 2 ^ 16) n).due (.ctxAreaReady t)

/-- `CTX_BASE` as it reads: READY is bit 63. -/
def Tile.ctxWord (t : Tile) : DWord := t.ctxBase ||| (if t.ctxReady then 0x8000000000000000#64 else 0)

end Sys2Proof.Machine
end

