-- ==== Sys2Proof/Machine/Control.lean ====
section
/-! DEFINITION. Control: `nop`, `pblk`, branches, calls, machine-register moves, waits, clocks, `exit`, `yield`, `join`,
`idr`, handler and debug words (R49, R52, R106 to R113, R175, R176, R178, R179, R397, R398, R414 to R416). -/

namespace Sys2Proof.Machine

/-- `nop` (R52). -/
def execNop (s : State) : Out := issued (inf0 .s) s id

/-- `pblk` issues alone, on no pipe (R49). -/
def infPblk (p : BitVec 3) : Info := { pipe := .none, reads := [.p p.toNat], consumes := [.p p.toNat] }

/-- `pblk` (R49, R137): the block state of every lane of the issue set. -/
def execPblk (p l : BitVec 3) (t : BitVec 8) (s : State) : Out :=
  issued (infPblk p) s (fun s =>
    s.setG (fun g => g.eachLane s.iss.set (fun g x => g.setBlk x ⟨s.src.rdPL p.toNat x, t, l.toNat + 1⟩)))

/-! ### Transfers of control -/

/-- Lanes `m` move to a `pcv`; a transfer ends their block (R51). -/
def State.transfer (s : State) (m : Word) (pc : Word) : State :=
  (s.setG (fun g => g.eachLane m (fun g l => (g.setPc l pc).setBlk l Blk.none))).setIss
    (fun i => { i with moved := i.moved ||| m })

/-- Even lanes of the pairs of a protected launch in which a condition differs (R411). -/
def pairDiffer (m : Word) (f : Nat → Bool) : Option Nat :=
  (List.range 16).findSome? (fun i =>
    if m.getLsbD (2 * i) && m.getLsbD (2 * i + 1) && f (2 * i) != f (2 * i + 1) then some (2 * i) else none)

def infBr (p : BitVec 3) : Info := { pipe := .s, reads := [.p p.toNat], consumes := [.p p.toNat], control := true }

/-- `br` (R106). In a protected launch the pairs' next `pcv` are compared (R411). -/
def execBr (p : BitVec 3) (n : BitVec 1) (d : BitVec 19) (x : BitVec 2) (s : State) : Out :=
  issued (infBr p) s (fun s =>
    let taken (l : Nat) : Bool := xor (s.src.rdPL p.toNat l) (n == 1#1)
    let m := maskOf (fun l => s.iss.eff.getLsbD l && taken l)
    let t : Int := (pcPacket s.iss.pc : Int) + d.toInt
    if m = 0 then s
    else
      match if s.src.prot then pairDiffer s.iss.eff taken else none with
      | some l => s.setIss (fun i => { i with mism := some (l, 0) })
      | none =>
        if t < 0 ∨ (2 ^ 30 : Int) ≤ t then
          s.trap { s.trapOf 4 s.iss.pc.toNat (ofInt 64 t) 0 0 with lane := lowestLane m }
        else s.transfer m (mkPc t.toNat x.toNat))

def infJr (a : BitVec 7) : Info :=
  { pipe := .s, reads := [.s a.toNat], consumes := [.s a.toNat], control := true }
def infCall (d a : BitVec 7) : Info :=
  { pipe := .s, reads := [.s a.toNat], writes := [.s d.toNat], consumes := [.s a.toNat], control := true }

/-- A jump to a `pcv` held in a scalar (R107); `k` is what precedes the transfer. -/
def State.jumpTo (s : State) (a : BitVec 7) (k : State → State) : State :=
  let t := s.rs a
  if t.extractLsb' 32 32 != 0 then s.trap (s.trapOf 4 t.toNat s.iss.pc.toNat 0 0)
  else (k s).transfer s.iss.eff (t.extractLsb' 0 32)

/-- `jr` (R107). -/
def execJr (a : BitVec 7) (s : State) : Out := issued (infJr a) s (fun s => s.jumpTo a id)

/-- `call` (R107, R108). -/
def execCall (d a : BitVec 7) (s : State) : Out :=
  issued (infCall d a) s (fun s =>
    s.jumpTo a (fun s => s.setR (fun r => r.wrS d.toNat (s.iss.next.zeroExtend 64) false)))

/-- `ret` (R107). -/
def execRet (a : BitVec 7) (s : State) : Out := issued (infJr a) s (fun s => s.jumpTo a id)

/-! ### Machine registers -/

/-- `OPCNT` of a group (R27). -/
def Group.opcnt (g : Group) : Word :=
  BitVec.ofNat 32 (g.ldcnt % 64 + g.stcnt % 64 * 2 ^ 8 + g.cpcnt % 16 * 2 ^ 16 + g.mxcnt % 16 * 2 ^ 24)

/-- `OPCNT` as it stood before any word of the chain issued (R109, R111). -/
def State.opcnt (s : State) : Word := s.iss.opcnt.getD s.g.opcnt

/-- The value of a machine register (R32, R109). -/
def State.mregRead (s : State) (n : Nat) : DWord :=
  let r := s.src
  match n with
  | 0x000 => r.mstat.zeroExtend 64
  | 0x001 => r.fpctl.zeroExtend 64
  | 0x002 => s.opcnt.zeroExtend 64
  | 0x003 => s.iss.pc.zeroExtend 64
  | 0x004 => 1
  | 0x008 => r.codeBase
  | 0x010 => r.trapCause.zeroExtend 64
  | 0x011 => r.info0
  | 0x012 => r.info1
  | 0x013 => r.info2
  | 0x014 => r.info3
  | 0x020 => (s.tile s.g.tile).errBase
  | 0x021 => (s.tile s.g.tile).ctxWord
  | 0x030 => (s.myTeam.map Team.mbox).getD 0
  | 0x040 => 0x3FF
  | 0x041 => s.dev.featAccept
  | _ => 0

/-- A field-wise write (R7): `rw` bits take the value, `w1c` bits clear where it is 1, the others keep theirs. -/
def fieldWrite {w : Nat} (rw w1c old x : BitVec w) : BitVec w := (old &&& ~~~rw &&& ~~~(w1c &&& x)) ||| (x &&& rw)

/-- A write of `CODE_BASE` (R18); on a base-tile core the handler word is read again before the next fetch (R394). -/
def State.codeBaseWrite (s : State) (x : DWord) : State :=
  let s := s.setR (fun r => { r with codeBase := x &&& 0xFFFFFFFFFFFFF000#64 })
  if s.g.isCompute then s
  else
    match s.handlerRead s.gid with
    | (s, .ok w) => s.setHandler s.gid w
    | (s, .error st) =>
      let a := (s.g.r.codeBase.toNat + 2 ^ 64 - 8) % 2 ^ 64
      let ky := tableKey s.g.asid 0 a
      (s.addReq ky.1 ky.2 a .load 0 (.handler s.gid) st).setG (fun g => { g with hold := .handlerWord })

/-- A write of a machine register (R110). -/
def State.mregWrite (s : State) (n : Nat) (x : DWord) : State :=
  let w := x.extractLsb' 0 32
  match n with
  | 0x000 => s.setR (fun r => { r with mstat := fieldWrite 0x000000C0#32 0x00008000#32 r.mstat w })
  | 0x001 => s.setR (fun r => { r with fpctl := fieldWrite 0x00C31F00#32 0x0000001F#32 r.fpctl w })
  | 0x008 => s.codeBaseWrite x
  | 0x011 => s.setR (fun r => { r with info0 := x })
  | 0x012 => s.setR (fun r => { r with info1 := x })
  | 0x013 => s.setR (fun r => { r with info2 := x })
  | 0x014 => s.setR (fun r => { r with info3 := x })
  | 0x020 => s.setTile s.g.tile (fun t => { t with errBase := x &&& 0x01FFFFFFFFFFF00F#64 })
  | 0x021 => s.ctxBaseWrite s.g.tile x
  | 0x030 => s.setTeam s.g.team (fun t => { t with mbox := fieldWrite 0#64 0xC000000000000000#64 t.mbox x })
  | 0x041 =>
    if s.g.kind = .mgmt ∧ s.g.home = 0 ∧ !s.dev.run then s.setDev (fun d => { d with featAccept := x &&& 0x3FF#64 })
    else s
  | _ => s

def infMrd (d : BitVec 7) (i : Imm) : Info :=
  { pipe := .s, reads := [.m i.unsigned], writes := [.s d.toNat], need := .mreg i.unsigned false }
def infMwr (a : BitVec 7) (i : Imm) : Info :=
  { pipe := .s, reads := [.s a.toNat], writes := [.m i.unsigned], need := .mreg i.unsigned true, consumes := [.s a.toNat] }

/-- `mrd` (R109). -/
def execMrd (d : BitVec 7) (i : Imm) (s : State) : Out :=
  issued (infMrd d i) s (scalarOut (infMrd d i) d (s.mregRead i.unsigned))

/-- `mwr` (R110). -/
def execMwr (a : BitVec 7) (i : Imm) (s : State) : Out :=
  issued (infMwr a i) s (fun s => s.mregWrite i.unsigned (s.rs a))

/-! ### Waits and clocks -/

/-- Whether a field of `OPCNT` exceeds a limit; the maximum places no condition (R111). -/
def overLimit (c : Word) (lo len lim : Nat) : Bool := lim < bitsOf c.toNat lo len

/-- `wait` (R111). -/
def execWait (l x : BitVec 6) (p m : BitVec 4) (s : State) : Out :=
  issued (inf0 .s) s (fun s =>
    let c := s.opcnt
    if overLimit c 0 6 l.toNat || overLimit c 8 6 x.toNat || overLimit c 16 4 p.toNat || overLimit c 24 4 m.toNat
    then s.stall else s)

/-- `ifence` (R112): it stalls until STCNT is 0, and the packets fetched are discarded, the one at hand too: words that follow
in it outside the chain are read again (DESIGN CHOICE, log 15). -/
def execIfence (s : State) : Out :=
  issued (inf0 .s) s (fun s =>
    if bitsOf s.opcnt.toNat 8 6 != 0 then s.stall else s.setG (fun g => { g with pkt := none }))

def infClock (d : BitVec 7) : Info := { pipe := .s, writes := [.s d.toNat] }

/-- `rdcyc` (R113, R428). -/
def execRdcyc (d : BitVec 7) (s : State) : Out :=
  issued (infClock d) s (scalarOut (infClock d) d (BitVec.ofNat 64 ((s.coreSt s.core).cyc + s.g.cycOff)))

/-- `rdtime` (R113). -/
def execRdtime (d : BitVec 7) (s : State) : Out :=
  issued (infClock d) s (scalarOut (infClock d) d (BitVec.ofNat 64 s.tick))

/-! ### Lanes and identity -/

/-- A management core that exits waits for the next multiple of 2^16 ticks after it (R22, R497). -/
def State.noteExit (s : State) : State :=
  if s.g.kind = .mgmt then s.setTile s.g.home (fun x => { x with lastTimer := s.tick }) else s

/-- `exit` (R178). -/
def execExit (s : State) : Out :=
  issued { pipe := .s, control := true } s (fun s =>
    let s := s.noteExit
    (s.setG (fun g => g.eachLane s.iss.eff (fun g l => (g.setLane l .exited).setBlk l Blk.none))).setIss
      (fun i => { i with moved := i.moved ||| s.iss.eff }))

/-- Resident groups of the same quarter (R197). -/
def State.quarterMates (s : State) : List Nat :=
  (s.groups.filter (fun e => e.1 != s.gid && e.2.isCompute && e.2.home == s.g.home && e.2.quarter == s.g.quarter
    && !e.2.finished && (match (s.team e.2.team).map Team.place with
      | some (.resident _) => true
      | _ => false))).map (·.1)

/-- `yield` (R179). -/
def execYield (s : State) : Out :=
  issued { pipe := .s, base := false } s (fun s => s.setG (fun g => { g with owed := s.quarterMates }))

/-- `join` (R176). -/
def execJoin (s : State) : Out :=
  issued { pipe := .s, base := false } s (fun s =>
    (s.setG (fun g => g.eachLane s.iss.eff (fun g l =>
      { ((if g.lane l = .shadow then g else g.setLane l .joinWait).setPc l s.iss.chainPc).setBlk l
          ((g.blkOf l).past ((s.iss.skip.map Past.words).getD 1)) with joinNext := mapSet none g.joinNext l s.iss.skip }))).setIss
      (fun i => { i with moved := i.moved ||| s.iss.eff }))

def infIdrS (d : BitVec 7) : Info := { pipe := .s, base := false, writes := [.s d.toNat] }
def infIdrV (d : BitVec 7) : Info := { pipe := .s, base := false, writes := [.v d.toNat 1] }

/-- Identity value `n` of lane `l` (R149). -/
def State.ident (s : State) (n l : Nat) : Nat :=
  match s.myTeam, s.myGrid with
  | some t, some gr => identity s.g t gr n l
  | _, _ => 0

/-- `idr` to a scalar (R175). -/
def execIdrScalar (d a : BitVec 7) (s : State) : Out :=
  issued (infIdrS d) s (scalarOut (infIdrS d) d (BitVec.ofNat 64 (s.ident a.toNat 0)))

/-- `idr` to a lane register (R175); LANE of a shadow is its even partner's (R410). -/
def execIdrLane (d a : BitVec 7) (s : State) : Out :=
  issued (infIdrV d) s (lane1 (infIdrV d) d (fun l =>
    BitVec.ofNat 32 (s.ident a.toNat (if s.src.prot then l - l % 2 else l))))

/-! ### Handler words -/

def infKput (d : BitVec 3) (a : BitVec 7) : Info :=
  { pipe := .s, reads := [.s a.toNat], writes := [.k d.toNat], need := .tm, consumes := [.s a.toNat] }
def infKget (d : BitVec 7) (a : BitVec 3) : Info :=
  { pipe := .s, reads := [.k a.toNat], writes := [.s d.toNat], need := .tm }

/-- `kput` (R397). -/
def execKput (d : BitVec 3) (a : BitVec 7) (s : State) : Out :=
  issued (infKput d a) s (fun s => s.setR (fun r => r.wrK d.toNat (s.rs a) false))

/-- `kget` (R397). -/
def execKget (d : BitVec 7) (a : BitVec 3) (s : State) : Out :=
  issued (infKget d a) s (scalarOut (infKget d a) d (s.src.rdK a.toNat))

/-- The return of a handler: no lane of the issue set advances (R398). -/
def State.tretWith (s : State) (f : LaneSave → Group → Nat → Group) : State :=
  match s.g.save with
  | none => s.setR (fun r => r.setTm false)
  | some sv =>
    ((s.trapReturn (f sv)).setIss (fun i => { i with moved := 0xFFFFFFFF#32 })).settleHalts s.gid

/-- The lanes of H that the return of a handler leaves LIVE or SHADOW. -/
def Group.returning (g : Group) : Word := maskOf (fun l => g.hlanes.getLsbD l && g.lane l != .exited)

def infTret : Info := { pipe := .s, need := .tm, control := true }

/-- `tret` (R398). -/
def execTret (s : State) : Out := issued infTret s (fun s => s.tretWith (fun _ g _ => g))

/-- `tret.skip` (R398; log 14): past the last packet its lanes take the bad-PC trap once they have returned (R20). -/
def execTretSkip (s : State) : Out :=
  issued infTret s (fun s =>
    let past := s.g.save.bind LaneSave.skip
    let t := s.tretWith (fun _ g l =>
      match past with
      | none => g
      | some p => (g.setPc l p.pc).setBlk l ((g.blkOf l).past p.words))
    match past with
    | some ⟨pc, _, true⟩ =>
      if s.g.returning = 0 then t else t.setIss (fun i => { i with late := some (s.g.returning, pc) })
    | _ => t)

/-- `tret.exit` (R398). -/
def execTretExit (s : State) : Out :=
  issued infTret s (fun s => s.noteExit.tretWith (fun _ g l => (g.setLane l .exited).setBlk l Blk.none))

def infTretTo (a : BitVec 7) : Info :=
  { pipe := .s, reads := [.s a.toNat], need := .tm, consumes := [.s a.toNat], control := true }

/-- `tret.to` (R398). -/
def execTretTo (a : BitVec 7) (s : State) : Out :=
  issued (infTretTo a) s (fun s =>
    s.tretWith (fun _ g l => (g.setPc l ((s.rs a).extractLsb' 0 32)).setBlk l Blk.none))

/-! ### Debug -/

/-- `brk` (R414). -/
def execBrk (k : BitVec 6) (s : State) : Out :=
  issued { pipe := .s, base := false } s (fun s =>
    (s.leaveChain s.iss.eff .halted).postDebug s.g.team 1 s.g.grp k.toNat s.iss.eff)

/-- A `dbg` word and its destination, which op 4 also reads (R415). -/
def infDbg (d a : BitVec 7) (rd : Bool) : Info :=
  { pipe := .s, base := false, reads := if rd then [.s a.toNat, .s d.toNat] else [.s a.toNat], writes := [.s d.toNat],
    consumes := if rd then [.s a.toNat, .s d.toNat] else [.s a.toNat] }

/-- The target of a `dbg` word: a group of the issuing team that has not finished. -/
def State.dbgTarget (s : State) (x : DWord) : Option (Nat × Group) :=
  let k := gidOf s.g.team (bitsOf x.toNat 0 5)
  match s.getG k with
  | none => none
  | some g => if g.finished then none else some (k, g)

/-- The lane mask of a `dbg` word. -/
def dbgLanes (x : DWord) : Word := x.extractLsb' 32 32

/-- A `dbg` word: its target's answer, or 2^63 + 1 with nothing done. -/
def State.dbg (s : State) (d a : BitVec 7) (f : State → Nat → Group → State × DWord) : State :=
  let (s', x) := match s.dbgTarget (s.rs a) with
    | none => (s, 0x8000000000000001#64)
    | some (k, g) => f s k g
  s'.setR (fun r => r.wrS d.toNat x false)

/-- Named lanes in a state. -/
def named (g : Group) (m : Word) (x : LaneState) : Word := maskOf (fun l => m.getLsbD l && g.laneAt l == x)

/-- Named lanes that are PARKED or JOINWAIT: they are held pending (R415). -/
def namedWaiting (g : Group) (m : Word) : Word := named g m .parked ||| named g m .joinWait

/-- `dbg.halt` (R415). -/
def execDbgHalt (d a : BitVec 7) (s : State) : Out :=
  issued (infDbg d a false) s (fun s => s.dbg d a (fun s k g =>
    let m := dbgLanes (s.rs a)
    let h := named g m .live
    let w := namedWaiting g m
    let s := s.modG k (fun g => ({ g with haltPend := g.haltPend ||| w }).eachLane h (fun g l => g.putLane l .halted))
    (if h = 0 then s else s.postDebug g.team 4 g.grp 0 h, h.zeroExtend 64)))

/-- Named HALTED lanes become LIVE and the target's packet is discarded; what the debugger's group did happens before
(R415). -/
def State.resumeLanes (s : State) (k : Nat) (m : Word) : State :=
  (s.modG k (fun g => ({ g with pkt := none }).eachLane m (fun g l => g.putLane l .live))).hbEdge s.gid k

/-- `dbg.resume` (R415). -/
def execDbgResume (d a : BitVec 7) (s : State) : Out :=
  issued (infDbg d a false) s (fun s => s.dbg d a (fun s k g =>
    let m := named g (dbgLanes (s.rs a)) .halted
    (s.resumeLanes k m, m.zeroExtend 64)))

/-- `dbg.step` (R415). -/
def execDbgStep (d a : BitVec 7) (s : State) : Out :=
  issued (infDbg d a false) s (fun s => s.dbg d a (fun s k g =>
    let m := named g (dbgLanes (s.rs a)) .halted
    let w := namedWaiting g (dbgLanes (s.rs a))
    ((s.resumeLanes k m).modG k (fun g => { g with stepArmed := true, stepPend := g.stepPend ||| w }), m.zeroExtend 64)))

/-- Code of a lane state (R21). -/
def LaneState.code : LaneState → Nat
  | .exited => 0
  | .live => 1
  | .parked => 2
  | .joinWait => 3
  | .halted => 4
  | .shadow => 5

/-- `dbg.rdpc` (R415). -/
def execDbgRdpc (d a : BitVec 7) (s : State) : Out :=
  issued (infDbg d a false) s (fun s => s.dbg d a (fun s _ g =>
    let l := bitsOf (s.rs a).toNat 32 5
    (s, BitVec.ofNat 64 ((g.laneAt l).code * 2 ^ 32 + (g.pcAt l).toNat))))

/-- A watchpoint descriptor that R416 admits. -/
def watchGood (x : DWord) : Bool :=
  let len := bitsOf x.toNat 20 4
  len ≤ 12 && bitsOf x.toNat 0 20 % 2 ^ len == 0 && bitsOf x.toNat 26 38 == 0

/-- `dbg.watch` (R416). -/
def execDbgWatch (d a : BitVec 7) (s : State) : Out :=
  issued (infDbg d a true) s (fun s => s.dbg d a (fun s _ _ =>
    if watchGood (s.rs d) then
      (s.setTeam s.g.team (fun t => { t with watch := mapSet 0 t.watch (bitsOf (s.rs a).toNat 0 2) (s.rs d) }), 0)
    else (s, 1)))

/-- `dbg.halted` (R415). -/
def execDbgHalted (d a : BitVec 7) (s : State) : Out :=
  issued (infDbg d a false) s (fun s => s.dbg d a (fun s _ g =>
    (s, (maskOf (fun l => g.laneAt l == .halted)).zeroExtend 64)))

end Sys2Proof.Machine
end

