-- ==== Sys2Proof/Machine/Mgmt.lean ====
section
/-! DEFINITION. The management space: what its registers read, what a write does, and the events of those writes
(R483 to R492, R495 to R497, R499 to R503). -/

namespace Sys2Proof.Machine

/-! ### Reads -/

/-- DEV_STATUS (R495). -/
def Dev.status (d : Dev) : Nat :=
  (if d.failcode != 0 then 15 else if d.run then 3 else if d.poweredOn then 2 else 0)
    + (if d.fatal then 16 else 0) + d.failcode % 256 * 2 ^ 8 + d.mhz % 2 ^ 16 * 2 ^ 16

/-- DEV_ID (R496). -/
def devId : Nat := 0x3200 + Config.stepping.toNat * 2 ^ 16 + Config.serial.toNat * 2 ^ 32

/-- A word of the device block (R485, R489, R494 to R496); write-only registers read 0. -/
def State.devWord (s : State) (o : Nat) : Nat :=
  let d := s.dev
  if o = 0x0 then devId % 2 ^ 32
  else if o = 0x4 then devId / 2 ^ 32
  else if o = 0x8 then d.status
  else if o = 0x10 then (if d.run then 1 else 0)
  else if o = 0x18 then d.domain.toNat
  else if o = 0x20 then d.portMode.toNat
  else if o = 0x30 then d.cfgStatus.toNat
  else if 0x100 ≤ o ∧ o < 0x180 then (s.bind ((o - 0x100) / 4)).toNat
  else if o = 0x200 then d.pwrLimit.toNat
  else if 0x800 ≤ o ∧ o < 0x1000 then bitsOf (s.polder ((o - 0x800) / 8)).cfg.toNat (8 * (o % 8)) 32
  else if o = 0x1044 then (if d.keyPending.isEmpty then 0 else 1)
  else if o = 0x1128 then d.attest
  else 0

/-- TILE_CTL (R500). -/
def Tile.ctl (t : Tile) : Nat :=
  t.owner % 8 * 4 + t.rate % 4 * 2 ^ 8 + t.rateEff % 4 * 2 ^ 10 + if t.orphan then 2 ^ 12 else 0

/-- A temperature of a tile (R498): 0 to 3 its dies, 4 to 7 its stacks, 8 the base tile. -/
def Tile.sensor (t : Tile) (i : Nat) : Nat := (mapGet 0 t.sensors i).toNat

/-- A word of a tile block (R494, R497, R498, R500). -/
def State.tileWord (s : State) (t o : Nat) : Nat :=
  let x := s.tile t
  if o = 0x8 then x.ctl
  else if o = 0x10 then x.pagerRing.toNat % 2 ^ 32
  else if o = 0x14 then x.pagerRing.toNat / 2 ^ 32
  else if o = 0x18 then x.prProd
  else if o = 0x1C then x.prCons
  else if 0x20 ≤ o ∧ o < 0x30 then
    let st := 4 * t + (o - 0x20) / 4
    mapGet 0 x.cowTarget st % 2 ^ 13 + s.cowCount st % 2 ^ 13 * 2 ^ 16
  else if o = 0x40 then x.therm.toNat % 2 ^ 32
  else if o = 0x44 then x.therm.toNat / 2 ^ 32
  else if 0x60 ≤ o ∧ o < 0x70 then x.sensor ((o - 0x60) / 2) + x.sensor ((o - 0x60) / 2 + 1) * 2 ^ 16
  else if o = 0x70 then x.sensor 8
  else if 0x100 ≤ o ∧ o < 0x140 then recField x.meas.toNat (o - 0x100) 4
  else 0

/-- A word of a polder block (R487). -/
def State.polderWord (s : State) (p o : Nat) : Nat :=
  let x := s.polder p
  if o < 0x8 then recField x.tune.toNat o 4
  else if o < 0x10 then recField x.dl.toNat (o - 8) 4
  else if o < 0x20 then (mapGet 0 x.missed ((o - 0x10) / 4)).toNat
  else if o = 0x20 then x.status.toNat
  else if 0x100 ≤ o ∧ o < 0x300 then
    let q := x.queue ((o - 0x100) / 0x20)
    match (o - 0x100) % 0x20 with
    | 0x0 => q.base.toNat % 2 ^ 32
    | 0x4 => q.base.toNat / 2 ^ 32
    | 0x8 => q.ctl.toNat
    | 0x10 => q.cons.toNat
    | _ => 0
  else if 0x800 ≤ o ∧ o < 0x810 then recField x.stage.toNat (o - 0x800) 4
  else if 0x1000 ≤ o ∧ o < 0x1400 then recField (mapGet 0 x.windows ((o - 0x1000) / 16)).toNat (o % 16) 4
  else 0

/-- A word of the management space; `own` is the tile of the issuing core, which the host does not have (R484). -/
def State.mgmtWord (s : State) (own : Option Nat) (off : Nat) : Nat :=
  let b := off / 0x10000
  let o := off % 0x10000
  if b = 0 then s.devWord o
  else if b ≤ 8 then s.tileWord (b - 1) o
  else if b = 15 then
    match own with
    | some t => s.tileWord t o
    | none => 0
  else if 16 ≤ b ∧ b < 272 then s.polderWord (b - 16) o
  else 0

/-- A read of 4 or 8 bytes (R483). -/
def State.mgmtRead (s : State) (own : Option Nat) (off n : Nat) : Nat :=
  if n = 8 then s.mgmtWord own off % 2 ^ 32 + s.mgmtWord own (off + 4) % 2 ^ 32 * 2 ^ 32
  else s.mgmtWord own off % 2 ^ 32

/-! ### What the register writes do -/

/-- The management core of a tile is held in reset after a take-over (R501). -/
def State.coreTaken (s : State) (u : Nat) : Bool := s.tiles.any (fun e => e.2.takenFrom.contains u)

/-- The management core of the tile that owns tile `t` makes the write (R503). -/
def State.byOwner (s : State) (t : Nat) : Writer → Bool
  | .mgmt u => (s.tile t).owner == u && !s.coreTaken u
  | _ => false

def State.byMgmt (s : State) : Writer → Bool
  | .mgmt u => !s.coreTaken u
  | _ => false

def cfgRangesMeet (f n g m : Nat) : Bool := max f g < min (f + n) (g + m)

/-- A write of `POLDER_CFG` (R485). -/
def State.polderConfig (s : State) (p : Nat) (v : DWord) : State :=
  let v := v &&& 0x8000FFFFFFFFFFFF#64
  let busy := (s.polder p).queues.any (fun e => e.2.ctl.getLsbD 0)
    || s.grids.any (fun e => match e.2 with
      | some g => g.polder == p && !g.done
      | none => false)
  let range (f n : Nat) : Bool := 1024 < f + n || (f == 0 && n != 0)
  let meets (c : DWord) : Bool :=
    cfgEnabled c && (cfgRangesMeet (cfgAsidFirst v) (cfgAsidCount v) (cfgAsidFirst c) (cfgAsidCount c)
      || cfgRangesMeet (cfgKeyFirst v) (cfgKeyCount v) (cfgKeyFirst c) (cfgKeyCount c))
  let bad := range (cfgAsidFirst v) (cfgAsidCount v) || range (cfgKeyFirst v) (cfgKeyCount v)
    || (cfgEnabled v && s.polders.any (fun e => e.1 != p && meets e.2.cfg))
  let st (x : Word) (s : State) : State := s.setDev (fun d => { d with cfgStatus := x })
  if busy then st 1 s
  else if bad then st 2 s
  else st 0 (s.setPolder p (fun x => { x with cfg := v }))

def State.polderStatus (s : State) (p : Nat) (x : Word) : State := s.setPolder p (fun y => { y with status := x })

/-- A write of `Q_CTL` (R488, R495). A write that clears ENABLE leaves the other fields (DEDUCED, log 20). -/
def State.queueControl (s : State) (p q : Nat) (v : Word) : State :=
  let po := s.polder p
  let qu := po.queue q
  let n := v.toNat
  let k := bitsOf n 1 5
  let good := bitsOf n 23 9 == 0 && 4 ≤ k && k ≤ 16 && bitsOf n 6 6 ≤ cfgPrio po.cfg
    && cfgAsidFirst po.cfg ≤ bitsOf n 12 10 && bitsOf n 12 10 < cfgAsidFirst po.cfg + cfgAsidCount po.cfg
    && (!v.getLsbD 22 || p == 0) && cfgEnabled po.cfg
  let put (x : Word) (s : State) : State := s.setPolder p (fun y => y.setQueue q (fun z => { z with ctl := x }))
  if !s.dev.run then s.polderStatus p 1
  else if qu.ctl.getLsbD 0 then
    if v.getLsbD 0 then s.polderStatus p 2 else (put (setBit qu.ctl 0 false) s).polderStatus p 0
  else if v.getLsbD 0 ∧ !good then s.polderStatus p 2
  else (put (v &&& 0x007FFFFF#32) s).polderStatus p 0

/-- A write of `Q_BASE` (R488). -/
def State.queueBase (s : State) (p q : Nat) (v : DWord) : State :=
  if ((s.polder p).queue q).ctl.getLsbD 0 || v.extractLsb' 0 8 != 0 then s.polderStatus p 2
  else (s.setPolder p (fun y => y.setQueue q (fun z => { z with base := v }))).polderStatus p 0

/-- A doorbell (R487, R488): entries up to the index may be accepted. -/
def State.doorbell (s : State) (p q : Nat) (v : Word) : State :=
  let qu := (s.polder p).queue q
  let k := bitsOf qu.ctl.toNat 1 5
  if 2 ^ 31 ≤ (v - qu.prod).toNat || 2 ^ k < (v - qu.cons).toNat then s.polderStatus p 2
  else
    let s := (s.setPolder p (fun y => y.setQueue q (fun z => { z with prod := v }))).polderStatus p 0
    if qu.ctl.getLsbD 0 then s.due (.recordAccept p q) else s

/-- Whether a placement window record keeps the table of R207. -/
def pwinGood (x : BitVec 128) : Bool :=
  let w := pwinOf x
  w.base % 2 ^ 21 == 0 && w.base < 2 ^ 57 && w.first < 32 && w.count ≤ 5 && 16 ≤ w.shift && w.shift ≤ 56
    && (w.tensor == 0 || (16 ≤ w.tensor && w.tensor ≤ 53))

/-- A page of a range, under an ASID of the polder, has a frame, a line or a fill (R208). -/
def State.rangeHeld (s : State) (c : DWord) (b n : Nat) : Bool :=
  let mine (a : Nat) : Bool := cfgAsidFirst c ≤ a && a < cfgAsidFirst c + cfgAsidCount c
  n != 0 &&
    (s.frames.any (fun e => e.2.state != 0 && e.2.state != 4 && e.2.state != 5 && mine e.2.asid
        && e.2.vpn * 2 ^ 16 < b + n && b < (e.2.vpn + 1) * 2 ^ 16)
      || s.l2.any (fun e => mine (lineAsid e.1) && b ≤ lineVa e.1 && lineVa e.1 < b + n)
      || s.l1.any (fun e => mine (e.blk / 2 ^ 57) && inRange (e.blk % 2 ^ 51 * 64) b n))

/-- Installs PW_STAGE as window `w` (R208). SIZE 0 disables the window; its other fields are checked all the same (DEDUCED,
log 20). -/
def State.installWindow (s : State) (p : Nat) (v : Word) : State :=
  let po := s.polder p
  let i := bitsOf v.toNat 0 6
  let old := pwinOf (mapGet 0 po.windows i)
  let new := pwinOf po.stage
  let past (w : PWin) : Bool := w.size != 0 && onChipBase < w.base + 2 ^ 21 * w.size
  if !pwinGood po.stage || past old || past new || s.rangeHeld po.cfg old.base (2 ^ 21 * old.size)
      || s.rangeHeld po.cfg new.base (2 ^ 21 * new.size) then s.polderStatus p 1
  else (s.setPolder p (fun y => { y with windows := mapSet 0 y.windows i y.stage })).polderStatus p 0

/-- A transfer uses a key slot (R491). -/
def State.slotBusy (s : State) (k : Nat) : Bool := s.nvme.any (fun c => c.parts.any (fun x => x.2 == k))

/-- A load or clear of a slot: at once, or when the transfers that use the slot have ended (R489, R491). -/
def State.keyWrite (s : State) (k : Nat) (x : Option (BitVec 512)) : State :=
  if k = 0 then s
  else if s.slotBusy k || !s.dev.keyPending.isEmpty then s.setDev (fun d => { d with keyPending := d.keyPending ++ [(k, x)] })
  else s.setDev (fun d => { d with keys := mapSet none d.keys k x })

/-- The first change that waits is made once no transfer uses its slot. -/
def State.keyDone (s : State) (k : Nat) : State :=
  match s.dev.keyPending with
  | [] => s
  | (k', x) :: rest =>
    if k' = k ∧ !s.slotBusy k then s.setDev (fun d => { d with keyPending := rest, keys := mapSet none d.keys k x })
    else s

/-- `PR_CONS` (R497): room in the ring lets waiting items enter. -/
def State.prConsPut (s : State) (t : Nat) (v : Word) : State :=
  (s.setTile t (fun x => { x with prCons := v.toNat })).pump t

/-- Frames that a reserve holds above its target are given back (R250). -/
def State.cowTrim (s : State) (st : Nat) : Nat → State
  | 0 => s
  | n + 1 =>
    match s.frames.find? (fun e => e.1 / 2 ^ 20 == st && e.2.state == 5) with
    | none => s
    | some e => State.cowTrim (s.setFrame e.1 (fun _ => Frame.free)) st n

/-- A write of `COW_RESV` for stack `st` of tile `t` (R497): the target is 0 to 4096. Requests that waited for the
reserve are served afresh. -/
def State.cowResvPut (s : State) (t st : Nat) (v : Word) : State :=
  let n := min 4096 (bitsOf v.toNat 0 13)
  let s := s.setTile t (fun x => { x with cowTarget := mapSet 0 x.cowTarget st n })
  let c := s.cowCount st
  ((s.cowGrow st (n - c)).cowTrim st (c - n)).refreshCow

/-- A write of `TILE_CTL`: a heartbeat, and RATE (R500 to R502). -/
def State.heartbeat (s : State) (t : Nat) : State :=
  let eff (x : Tile) : Nat := if x.orphan then min 2 x.rate else x.rateEff
  s.setTile t (fun x => { x with rateEff := eff x, lastHb := s.tick, missAt := none, overdue := false, orphan := false })

def State.rateSet (s : State) (t r : Nat) : State :=
  s.setTile t (fun x => { x with rate := r % 4, rateEff := min 2 (r % 4) })

/-- A take-over of tile `t` by the management core of tile `u` (R501). -/
def State.takeTile (s : State) (t u : Nat) : State :=
  let x := s.tile t
  let sib := (s.tile (t ^^^ 1)).owner
  if x.missAt.isNone || !(u == (t ^^^ 1) || u == sib) || s.coreTaken u then s
  else
    let s := s.setTile t (fun y => { y with owner := u, orphan := false, missAt := none, overdue := false, lastHb := s.tick,
                                            takenFrom := y.takenFrom ++ [x.owner] })
    s.modG (8 + x.owner) (fun g => { g with lsv := [], blk := [], save := none, loads := [], ldcnt := 0, hold := .none })

/-- Bytes `o` to `o + n - 1` of a number replaced. -/
def patchAt (old o n v : Nat) : Nat :=
  old - bitsOf old (8 * o) (8 * n) * 2 ^ (8 * o) + v % 2 ^ (8 * n) * 2 ^ (8 * o)

/-- `ATTEST_CMD` (R494, R497): refused while one is in progress, else the lead core is woken to make the report. -/
def State.attestCmd (s : State) (a : DWord) : State :=
  if s.dev.attestBusy.isSome then s.setDev (fun d => { d with attest := 2 })
  else
    let a := a &&& 0xFFFFFFFFFFFFF000#64
    ((s.setDev (fun d => { d with attestBusy := some a })).setTile 0 (fun x => { x with wake := x.wake ++ [2] })).due
      (.attestation a)

/-- A write into the device block (R485, R489, R494 to R496). -/
def State.devPut (s : State) (o n v : Nat) (w : Writer) : State :=
  let m := s.byMgmt w
  let x := BitVec.ofNat 32 v
  let early := m && !s.dev.run
  if o = 0x10 then
    if w = .mgmt 0 ∧ early ∧ v % 2 = 1 then s.due .run else s
  else if o = 0x18 then (if early then s.setDev (fun d => { d with domain := x &&& 0x3FF#32 }) else s)
  else if o = 0x20 then (if early then s.setDev (fun d => { d with portMode := x }) else s)
  else if 0x100 ≤ o ∧ o < 0x180 then
    if early then s.setDev (fun d => { d with driveBind := mapSet 0x3A0#32 d.driveBind ((o - 0x100) / 4) (x &&& 0x3FF#32) })
    else s
  else if o = 0x200 then
    if m || w == .host then s.setDev (fun d => { d with pwrLimit := BitVec.ofNat 32 (max 3000 (min 12000 (v % 2 ^ 32))) })
    else s
  else if 0x800 ≤ o ∧ o < 0x1000 then
    let p := (o - 0x800) / 8
    if m || w == .host then s.due (.polderConfigWrite p (BitVec.ofNat 64 (patchAt (s.polder p).cfg.toNat (o % 8) n v)))
    else s
  else if 0x1000 ≤ o ∧ o < 0x1040 then
    if m then s.setDev (fun d => { d with keyData := BitVec.ofNat 512 (patchAt d.keyData.toNat (o - 0x1000) n v) }) else s
  else if o = 0x1040 then
    if m then s.due (if bitsOf v 10 1 = 1 then .keyClear (bitsOf v 0 10) else .keyLoad (bitsOf v 0 10)) else s
  else if 0x1100 ≤ o ∧ o < 0x1120 then
    if w = .host then s.setDev (fun d => { d with nonce := BitVec.ofNat 256 (patchAt d.nonce.toNat (o - 0x1100) n v) })
    else s
  else if o = 0x1120 then
    if w = .host ∧ n = 8 then s.attestCmd (BitVec.ofNat 64 v) else s
  else s

/-- A write into the block of tile `t` (R497, R498, R500, R501, R503). -/
def State.tilePut (s : State) (t o n v : Nat) (w : Writer) : State :=
  let own := s.byOwner t w
  if o = 0x8 then
    match w with
    | .mgmt u =>
      if own then
        let s := if v % 2 = 1 then s.due (.tileHeartbeat t u) else s
        s.due (.tileRateSet t u (bitsOf v 8 2))
      else s
    | _ => s
  else if o = 0xC then
    match w with
    | .mgmt u => if v % 2 = 1 then s.due (.tileTake t u) else s
    | _ => s
  else if 0x10 ≤ o ∧ o < 0x18 then
    if own then (s.setTile t (fun x =>
      let y := BitVec.ofNat 64 (patchAt x.pagerRing.toNat (o - 0x10) n v) &&& 0x01FFFFFFFFFFF00F#64
      { x with pagerRing := y })).pump t
    else s
  else if o = 0x1C then (if w = .pager t then s.due (.prConsWrite t (BitVec.ofNat 32 v)) else s)
  else if 0x20 ≤ o ∧ o < 0x30 then
    if w = .pager t then s.due (.cowResvWrite t (4 * t + (o - 0x20) / 4) (BitVec.ofNat 32 v)) else s
  else if 0x40 ≤ o ∧ o < 0x48 then
    if own then s.setTile t (fun x =>
      let y := BitVec.ofNat 64 (patchAt x.therm.toNat (o - 0x40) n v) &&& 0x0000FFFFFFFFFFFF#64
      { x with therm := y })
    else s
  else s

/-- A write into the block of polder `p` (R487, R488). -/
def State.polderPut (s : State) (p o n v : Nat) (w : Writer) : State :=
  if !(s.byMgmt w || w == .host) then s
  else if o < 0x8 then s.setPolder p (fun x =>
    let y := BitVec.ofNat 64 (patchAt x.tune.toNat o n v) &&& 0x0007FFFFFFFF000F#64
    { x with tune := y })
  else if o < 0x10 then s.setPolder p (fun x => { x with dl := BitVec.ofNat 64 (patchAt x.dl.toNat (o - 8) n v) })
  else if 0x100 ≤ o ∧ o < 0x300 then
    let q := (o - 0x100) / 0x20
    let r := (o - 0x100) % 0x20
    if r < 8 then s.queueBase p q (BitVec.ofNat 64 (patchAt ((s.polder p).queue q).base.toNat r n v))
    else if r = 8 then s.due (.queueControlWrite p q (BitVec.ofNat 32 v))
    else if r = 0xC then s.due (.queueDoorbell p q (BitVec.ofNat 32 v))
    else s
  else if 0x800 ≤ o ∧ o < 0x810 then s.setPolder p (fun x =>
    let y := BitVec.ofNat 128 (patchAt x.stage.toNat (o - 0x800) n v)
    { x with stage := y })
  else if o = 0x810 then s.due (.placementWindowInstall p (BitVec.ofNat 32 v))
  else s

/-- One register write of 4 or 8 bytes. -/
def State.mgmtPut (s : State) (off n v : Nat) (w : Writer) : State :=
  let b := off / 0x10000
  let o := off % 0x10000
  if b = 0 then s.devPut o n v w
  else if b ≤ 8 then s.tilePut (b - 1) o n v w
  else if b = 15 then
    match w with
    | .mgmt t | .pager t => s.tilePut t o n v w
    | _ => s
  else if 16 ≤ b ∧ b < 272 then s.polderPut (b - 16) o n v w
  else s

/-- Offsets at which a 64-bit register or a longer field stands. -/
def mgmtWide (off : Nat) : Bool :=
  let b := off / 0x10000
  let o := off % 0x10000
  if b = 0 then (0x800 ≤ o && o < 0x1040) || (0x1100 ≤ o && o < 0x1128)
  else if b < 16 then o == 0x10 || o == 0x40
  else o < 0x10 || (0x100 ≤ o && o < 0x300 && (o - 0x100) % 0x20 == 0) || (0x800 ≤ o && o < 0x810)

/-- A store of 4 or 8 bytes (R483): to one register, or to the two 32-bit registers that 8 bytes cover. -/
def State.mgmtWrite (s : State) (off n v : Nat) (w : Writer) : State :=
  if n = 8 ∧ !mgmtWide off then (s.mgmtPut off 4 (v % 2 ^ 32) w).mgmtPut (off + 4) 4 (v / 2 ^ 32) w
  else s.mgmtPut off n v w

/-! ### The events of these writes -/

/-- MGMT_REGISTER_WRITE (R483). -/
def execMgmtRegisterWrite (off n : Nat) (v : BitVec 64) (w : Writer) (s : State) : Out :=
  .next (if (n = 4 ∨ n = 8) ∧ off % n = 0 then s.mgmtWrite off n v.toNat w else s)

/-- POLDER_CONFIG_WRITE (R485). -/
def execPolderConfigWrite (p : Nat) (v : BitVec 64) (s : State) : Out := .next (s.polderConfig p v)

/-- QUEUE_CONTROL_WRITE (R488). -/
def execQueueControlWrite (p q : Nat) (v : BitVec 32) (s : State) : Out := .next (s.queueControl p q v)

/-- QUEUE_DOORBELL (R487). -/
def execQueueDoorbell (p q : Nat) (v : BitVec 32) (s : State) : Out := .next (s.doorbell p q v)

/-- PLACEMENT_WINDOW_INSTALL (R208). -/
def execPlacementWindowInstall (p : Nat) (v : BitVec 32) (s : State) : Out := .next (s.installWindow p v)

/-- KEY_LOAD (R489). -/
def execKeyLoad (k : Nat) (s : State) : Out := .next (s.keyWrite k (some s.dev.keyData))

/-- KEY_CLEAR (R489). -/
def execKeyClear (k : Nat) (s : State) : Out := .next (s.keyWrite k none)

/-- KEY_UPDATE_DONE (R491). -/
def execKeyUpdateDone (k : Nat) (s : State) : Out := .next (s.keyDone k)

/-- PR_CONS_WRITE (R497). -/
def execPrConsWrite (t : Nat) (v : BitVec 32) (s : State) : Out := .next (s.prConsPut t v)

/-- COW_RESV_WRITE (R497). -/
def execCowResvWrite (t st : Nat) (v : BitVec 32) (s : State) : Out := .next (s.cowResvPut t st v)

/-- TILE_HEARTBEAT (R500): from the owner alone. -/
def execTileHeartbeat (t wr : Nat) (s : State) : Out :=
  .next (if s.byOwner t (.mgmt wr) then s.heartbeat t else s)

/-- TILE_RATE_SET (R500). -/
def execTileRateSet (t wr rate : Nat) (s : State) : Out :=
  .next (if s.byOwner t (.mgmt wr) then s.rateSet t rate else s)

/-- TILE_TAKE (R501). -/
def execTileTake (t wr : Nat) (s : State) : Out := .next (s.takeTile t wr)

end Sys2Proof.Machine
end

