-- ==== Sys2Proof/Machine/Access.lean ====
section
/-! DEFINITION. The accesses of memory words: checks, the bytes they reach, parking, views, cofferdams, level-1, and
writes with all that follows from them (R201, R225, R242, R243, R264, R284, R285, R292 to R296, R416, R437 to R444). -/

namespace Sys2Proof.Machine

/-! ### Invalidating writes of the tables (R242, R243) -/

/-- A leaf without A, D and RC. -/
def entStrip (e : Nat) : Nat := e % 2 ^ 96 - bitsOf e 10 2 * 2 ^ 10

/-- A write that changes the 16 bytes at a table offset is invalidating unless it changes A, D or RC of a leaf alone. -/
def entChanged (off old new : Nat) : Bool :=
  if off < 0x4000 || entType old != 2 || entType new != 2 then old != new else entStrip old != entStrip new

/-- The translation of an address passes through a table line, itself or by an alias (R243). -/
def State.passes (s : State) (asid va lk : Nat) : Bool :=
  let w := s.walkRaw asid va
  w.lines.any (fun l => l.1 == lk)
    || (w.kind == .aliasTo && (s.walkRaw 0 (aliasVa w va)).lines.any (fun l => l.1 == lk))

/-- The ASIDs of a table line (R243), of whose entries those at `ents` change: for the ASID table the ASIDs of these
entries, for a node every ASID whose translations passed through the line. -/
def State.lineAsids (s : State) (lk : Nat) (ents : List Nat) : List Nat :=
  let has (ls : List (Nat × Nat)) : Bool := ls.any (fun l => l.1 == lk)
  if lineVa lk - tableBase < 0x4000 then ents.map (fun a => (a - tableBase) / 16)
  else
    let ofWalk := (s.walk.filter (fun w => has w.lines)).map WalkEntry.asid
    let ofTu := (s.tu.filter (fun t => has t.lines || s.passes t.asid (4096 * t.page) lk)).map TuEntry.asid
    let ofFrames := (s.frames.filter (fun e => e.2.state != 0 && !e.2.table && (List.range 16).any (fun i =>
      e.2.sub.getLsbD i && s.passes e.2.asid (e.2.vpn * 2 ^ 16 + 4096 * i) lk))).map (fun e => e.2.asid)
    let ofL1 := (s.l1.filter (fun b => b.fetch && s.passes (b.blk / 2 ^ 57) (b.blk % 2 ^ 51 * 64) lk)).map (fun b => b.blk / 2 ^ 57)
    (ofWalk ++ ofTu ++ ofFrames ++ ofL1).dedup

/-- An invalidating write of a table line: GEN rises, and every sharer is sent an invalidation; its number, if one is
under way. -/
def State.tableInval (s : State) (lk : Nat) (asids : List Nat) : State × List Nat :=
  let s := s.addLine lk true false
  let l := (mapGet none s.l2 lk).getD (L2Line.fresh true false false)
  let dst := if l.allSharers then 0xFFFFFFFF#32 else l.sharers
  let l := { l with gen := (l.gen + 1) % 2 ^ 32, sharers := 0, allSharers := false, dirty := true }
  let s := { s with l2 := mapSet none s.l2 lk (some l), lostDir := mapSet false s.lostDir lk false }
  if dst = 0 then (s, [])
  else
    let (s, id) := s.fresh
    ({ s with invals := s.invals ++ [Inval.mk id lk asids dst] }, [id])

/-- A further NEED_BACKING item may be posted for the frames of which a leaf has changed since `s` (R246). -/
def State.leavesChanged (s s' : State) : State :=
  let same (e : Frame) : Bool := (List.range 16).all (fun i =>
    let va := e.vpn * 2 ^ 16 + 4096 * i
    (s.walkRaw e.asid va).kind == (s'.walkRaw e.asid va).kind
      && entStrip (s.walkRaw e.asid va).entry == entStrip (s'.walkRaw e.asid va).entry)
  { s' with frames := s'.frames.map (fun e => (e.1, if e.2.needPosted && !same e.2 then { e.2 with needPosted := false } else e.2)) }

/-- Lease whose entry holds an address of the table region (R471). -/
def leaseAt (va : Nat) : Option Nat :=
  if tableBase + 0x40000 ≤ va ∧ va < tableBase + 0x60000 then some ((va - tableBase - 0x40000) / 32) else none

/-- Bytes as they may be written: a write to a draining lease has no effect (R472). -/
def State.leaseKeep (s : State) (va : Nat) (bs : List Byte) : List Byte :=
  ((List.range bs.length).zip bs).map (fun x =>
    match leaseAt (va + x.1) with
    | some i => if (s.lease i).state = 2 then mapGet 0 s.mem (memKey 0 0 (va + x.1)) else x.2
    | none => x.2)

/-- A write of STATE 2 to an active lease revokes it (R472). -/
def State.leaseRevoked (s : State) (i : Nat) : State := s.stb 0 0 (leaseVa i + 0x1E) 1 6

/-- Writes bytes of a table page; answers the invalidations that the write has brought about (R242, R243). -/
def State.tableWrite (s : State) (va : Nat) (bs : List Byte) : State × List Nat :=
  let n := bs.length
  let bs := s.leaseKeep va bs
  let on := ((List.range n).filterMap (fun i => leaseAt (va + i))).dedup.filter (fun i => (s.lease i).state == 1)
  let ents := (List.range ((va % 16 + n + 15) / 16)).map (fun i => alignDown va 16 + 16 * i)
  let s' := s.wrBytesFrom (.home 0 0 va) 0 bs
  let s' := on.foldl (fun s i => if (s.lease i).state = 2 then s.leaseRevoked i else s) s'
  let hit := ents.filter (fun a =>
    let off := a - tableBase
    !(0x40000 ≤ off && off < 0x68000) && entChanged off (s.ld 0 0 a 16) (s'.ld 0 0 a 16))
  if hit.isEmpty then (s', [])
  else
    let who := ((hit.map (lineKey 0 0)).dedup).map (fun lk => (lk, s.lineAsids lk (hit.filter (fun a => lineKey 0 0 a == lk))))
    let s' := if s.frames.any (fun e => e.2.needPosted) then s.leavesChanged s' else s'
    who.foldl (fun (acc : State × List Nat) w =>
      let (s, ids) := acc.1.tableInval w.1 w.2
      (s, acc.2 ++ ids)) (s', [])

/-- A walk holds a table line to which a write may go (R244): what the write waits for. -/
def State.tableHeld (s : State) (k : AccKind) (va : Nat) : Option ReqState :=
  if k.isWrite && inTable va then (s.heldBy (lineKey 0 0 va)).map ReqState.onFrame else none

/-! ### Kinds of access -/

/-- How the regions of R295 treat a word. -/
inductive Place where
  | plain | atom | far | weir | epoch | block
  deriving DecidableEq, Repr

/-- How a word acts outside the windows of its view (R439). -/
inductive Outside where
  | read | held | refused
  deriving DecidableEq, Repr

/-- A kind of access. -/
structure Kind where
  k : AccKind
  /-- alignment outside and in the on-chip region (R294) -/
  out : Nat
  inn : Nat
  region : Place
  away : Outside
  deriving DecidableEq, Repr

def kLoad (n : Nat) : Kind := ⟨.load, if n = 16 then 16 else 1, n, .plain, .read⟩
def kStore (n : Nat) : Kind := ⟨.store, if n = 16 then 16 else 1, n, .plain, .held⟩

/-- Whether the region that `n` bytes reach does not permit the kind of access (R295, R483). -/
def Kind.refused (kd : Kind) (va n : Nat) : Bool :=
  if kd.region = .block then false
  else if mgmtBase ≤ va ∧ va < localBase then !(kd.region == .plain && (n == 4 || n == 8))
  else if onChipBase ≤ va ∧ va < mgmtBase then kd.region != .plain
  else if localBase ≤ va then kd.region == .far || kd.region == .epoch
  else if inTable va then kd.region != .plain && kd.region != .atom
  else false

/-- Whether a view or one of those above it is a replayable launch's (R439). -/
def State.inReplay (s : State) (asid : Nat) : Nat → Nat → Bool
  | 0, _ => false
  | n + 1, v => v != 0 && ((s.tag asid v).replay || State.inReplay s asid n (s.tag asid v).parent)

/-- Whether a byte lies in a view's own windows (R437). -/
def State.ownWindow (s : State) (asid v va : Nat) : Bool := (s.tag asid v).windows.any (fun w => inRange va w.1 w.2)

/-- The nearest view, from `v` upwards, whose windows hold a byte (R439). -/
def State.viewOver (s : State) (asid va : Nat) : Nat → Nat → Nat
  | 0, _ => 0
  | n + 1, v => if v = 0 then 0 else if s.ownWindow asid v va then v else State.viewOver s asid va n (s.tag asid v).parent

/-- Whether an access is not permitted under the group's view (reason 5, R438). -/
def State.viewRefuses (s : State) (kd : Kind) (va n : Nat) : Bool :=
  let v := s.g.view
  v != 0 && !onChip va && (List.range n).any (fun i => !s.ownWindow s.g.asid v (va + i)) &&
    (match kd.away with
     | .read => false
     | .held => s.inReplay s.g.asid 8 v
     | .refused => true)

/-- The reason of the access-kind trap for one access, if it has one; `pre` is a reason that the word adds. -/
def State.kindReason (s : State) (kd : Kind) (pre : Option Nat) (va n : Nat) : Option Nat :=
  let a := if onChip va || onChip (va + n - 1) then kd.inn else kd.out
  if va % a ≠ 0 then some 1
  else if kd.refused va n then some 2
  else
    match pre with
    | some r => some r
    | none => if s.viewRefuses kd va n then some 5 else none

/-- The access-kind trap (R293) for lane `l`. -/
def State.kindTrap (s : State) (l ea reason : Nat) (m : Word) (shared : Bool) : TrapReq :=
  { s.trapOf 10 s.iss.pc.toNat ea reason (if shared then 1 else m.toNat) with lane := l }

/-- The window check of an access that reaches the on-chip region (R215). -/
def State.windowReason (s : State) (va n : Nat) : Option Nat :=
  let first := if onChip va then va else onChipBase
  if va + n ≤ onChipBase then none
  else
    match s.onChipLoc s.actor first (va + n - first) with
    | .error r => some r
    | .ok _ => none

/-- The checks of R292 over the lanes of a word, `n` bytes each. -/
def State.checkAccess (s : State) (kd : Kind) (pre : Option Nat) (n : Nat) (shared : Bool) (xs : List (Nat × Nat)) :
    Option TrapReq :=
  match xs.find? (fun x => 2 ^ 57 ≤ x.2) with
  | some (l, ea) => some { s.trapOf 7 ea 0 0 0 with lane := l }
  | none =>
    match xs.find? (fun x => (s.windowReason x.2 n).isSome) with
    | some (l, ea) => some { s.trapOf 8 s.iss.pc.toNat ea ((s.windowReason ea n).getD 0) 0 with lane := l }
    | none =>
      match if s.g.r.prv = 0 then xs.find? (fun x => inTable x.2 || inTable (x.2 + n - 1)) else none with
      | some (l, ea) => some { s.trapOf 9 0 ea 9 0 with lane := l }
      | none =>
        match xs.find? (fun x => (s.kindReason kd pre x.2 n).isSome) with
        | none => none
        | some (l, ea) =>
          let r := s.kindReason kd pre ea n
          let m := xs.foldl (fun m x => if s.kindReason kd pre x.2 n == r then m ||| laneBit x.1 else m) 0
          some (s.kindTrap l ea (r.getD 0) m shared)

/-! ### Watchpoints (R416) -/

/-- The team's own scratchpad offset that an address names, through the local region or its own gang window. -/
def State.ownOffset (s : State) (va : Nat) : Option Nat :=
  if va < localBase then none
  else
    let o := va - localBase
    if o < 0x100000 then some o
    else
      match s.myTeam, s.myGrid with
      | some t, some gr =>
        if 0x800000 ≤ o ∧ (o - 0x800000) / 0x100000 = t.lin % gr.gangSize then some (o % 0x100000) else none
      | _, _ => none

/-- The watchpoint slot that an access touches. -/
def State.watchSlot (s : State) (store : Bool) (va n : Nat) : Option Nat :=
  match s.ownOffset va, s.myTeam with
  | some o, some t =>
    (List.range 4).find? (fun i =>
      let d := (mapGet 0 t.watch i).toNat
      let lo := bitsOf d 0 20
      bitsOf d 24 2 / (if store then 1 else 2) % 2 == 1 && lo < o + n && o < lo + 2 ^ bitsOf d 20 4)
  | _, _ => none

/-- Lanes whose accesses meet an armed watchpoint, with the slot of the first. -/
def State.watched (s : State) (store : Bool) (n : Nat) (xs : List (Nat × Nat)) : Option (Word × Nat) :=
  if (s.myTeam.map (fun t => t.watch.isEmpty)).getD true then none
  else
    let hit := xs.filter (fun x => !s.g.watchPass.getLsbD x.1 && (s.watchSlot store x.2 n).isSome)
    match hit with
    | [] => none
    | (_, ea) :: _ => some (hit.foldl (fun m x => m ||| laneBit x.1) 0, (s.watchSlot store ea n).getD 0)

/-- Lanes halt before the chain at a watchpoint; a resumed lane passes the check of its next issue once (R415, R416). -/
def State.watchHalt (s : State) (m : Word) (slot : Nat) : State :=
  ((s.leaveChain m .halted).setG (fun g => { g with watchPass := g.watchPass ||| m })).postDebug s.g.team 3 s.g.grp slot m

/-! ### Where the bytes of an access are -/

/-- A part of an access within one 64-byte block. -/
structure Piece where
  va : Nat
  n : Nat
  loc : Loc
  /-- the level-1 copy that serves it -/
  copy : Option L1Block
  /-- it goes to the hold buffer -/
  hold : Bool
  deriving DecidableEq, Repr

/-- Why an access is not made now. -/
inductive Stop where
  | park (asid view va : Nat) (k : AccKind) (hint : Nat) (st : ReqState)
  | refuse (r : Nat)
  deriving DecidableEq, Repr

/-- The frame cache knows the page as host-backed. -/
def State.hostPage (s : State) (asid view va : Nat) : Bool :=
  s.tu.any (fun t => t.asid == asid && t.view == view && t.page == va / 4096 && (match t.hit with
    | .host _ _ _ _ => true
    | _ => false))

/-- The answer of a peer device to an access (R478, R479): any of those the peer and the path may give. The kind and
severity of the record of a lost store are not stated: they are free. -/
inductive PeerAns where
  | done | wait (r : ReqState) | lost
  deriving DecidableEq, Repr

/-- A BACKING item of an access that its backing refuses (R252, R473). -/
def State.backingItem (s : State) (k : AccKind) (asid view va outcome remote : Nat) : State × Nat :=
  let st := s.stackOf asid va
  s.postItem st 10 15 k.code asid view va 0 (backingField st 0 0 outcome remote)

def State.peerTry (s : State) (k : AccKind) (asid view va : Nat) : State × PeerAns :=
  match s.choose 5 with
  | (s, 0) => (s, .done)
  | (s, 1) => (s, .wait (.onPeer 1))
  | (s, 2) =>
    let (s, id) := s.backingItem k asid view va 11 0
    (s, .wait (.onItem id))
  | (s, 3) =>
    let (s, c) := s.choose 10
    let (s, id) := s.backingItem k asid view va 12 (c + 1)
    (s, .wait (.onItem id))
  | (s, _) =>
    let (s, id) := s.backingItem k asid view va 10 0
    if k.isWrite then
      let (s, kind) := s.choose 256
      let (s, sev) := s.choose 256
      (s.writeRec (tileOfStack (s.stackOf asid va))
        { kind := kind, sev := sev, unit := 10, addr := va, key := s.keyField asid view }, .lost)
    else (s, .wait (.onItem id))

/-- Looks for bytes under one key; a block that an engine owns or another group's cofferdam holds is waited for, but
not by a cofferdam word itself. -/
def State.findLoc (s : State) (kd : Kind) (hint : Nat) (asid view va n : Nat) : State × Except Stop Loc :=
  let park (s : State) (r : ReqState) : State × Except Stop Loc := (s, .error (.park asid view va kd.k hint r))
  if (kd.region == .weir || kd.region == .epoch) && s.hostPage asid view va then (s, .error (.refuse 2))
  else
    match s.tableHeld kd.k va with
    | some r => park s r
    | none =>
      match s.locate kd.k (hint == 2) asid view va with
      | (s, .miss) => park s .fresh
      | (s, .wait r) => park s r
      | (s, .at l) =>
        let s := s.countNow (s.gridOfWho (.lanes s.gid 0)) asid va
        match if kd.region == .block then none else s.heldBlk (some s.gid) l n with
        | some b => park s (.onBlock b)
        | none =>
          match l with
          | .peer _ _ _ =>
            match s.peerTry kd.k asid view va with
            | (s, .done) => (s, .ok l)
            | (s, .wait r) => park s r
            | (s, .lost) => (s, .ok .gone)
          | _ => (s, .ok l)

/-- Whether the view-0 mapping allows a write or a fetch under a view (R439); a copy-on-write alias allows a write. -/
def State.viewAllows (s : State) (k : AccKind) (asid va : Nat) : Bool :=
  let w := s.walkRaw asid va
  match w.kind with
  | .leaf => k.allowed (leafW w.entry) (entX w.entry)
  | .aliasTo =>
    k.allowed (entW w.entry) (entX w.entry) && ((k.isWrite && entCow w.entry) ||
      (let t := s.walkRaw 0 (aliasVa w va)
       t.kind == .leaf && k.allowed (leafW t.entry) (entX t.entry)))
  | _ => false

/-- The line of `va` comes into level-2 under view `w` (R440): from the view's own frame, from the nearest view above that
holds it, or from view 0. -/
def State.viewFill (s : State) (asid w va : Nat) : State × Option Stop :=
  let b := alignDown va 256
  let lk := lineKey asid w va
  let add (s : State) : State := s.addLine lk (s.viewAllows .store asid va) (s.viewAllows .fetch asid va)
  if (mapGet none s.l2 lk).isSome then (s, none)
  else if mapGet 0 s.viewBlk (blkKey asid w va) != 0 then
    match s.subFrame asid w va with
    | some fk => (add (s.countAccess fk), none)
    | none => (add s, none)
  else
    let u := s.viewHolder asid va 8 (s.tag asid w).parent
    let (s, r) := if u != 0 then (s, Except.ok (Loc.home asid u b))
      else if s.hostPage asid 0 va then (s, .error (.refuse 5))
      else s.findLoc (kLoad 1) 0 asid 0 (alignDown va 64) 1
    match r with
    | .error e => (s, some e)
    | .ok (.home a x h) =>
      let h := alignDown h 256
      let s := (List.range 4).foldl (fun s i =>
        { s with viewBlk := mapSet 0 s.viewBlk (blkKey asid w (b + 64 * i)) 1 }.setPois (homeBlk asid w (b + 64 * i))
          (s.isPois (homeBlk a x (h + 64 * i)))) (s.settleUndo (.home a x h) 256)
      (add { s with mem := mapCopy s.mem (memKey asid w b) s.mem (memKey a x h) 256 }, none)
    | .ok _ => (s, some (.refuse 5))

/-- A level-1 copy that serves a plain load; a present block may also have been evicted (R201, R264). -/
def State.l1Serve (s : State) (asid view va n : Nat) : State × Option L1Block :=
  let k := blkKey asid view va
  match s.l1Find s.gid s.core k (va % 64) n with
  | none => (s, none)
  | some b =>
    match s.choose 2 with
    | (s, 0) => (s, some b)
    | (s, _) => (s.l1DropBlk s.core k, none)

/-- The X bit that a level-1 block takes at its fill from home `l` (R240): that of its line or frame, and of the alias
through which it was reached. -/
def State.blockX (s : State) (asid va : Nat) (l : Loc) : Bool :=
  match l with
  | .home a v h =>
    let own := match mapGet none s.l2 (lineKey a v h), s.subFrame a v h with
      | some x, _ => x.x
      | none, some fk => (s.frame fk).x
      | none, none => false
    own && (a == asid || (match s.tuFind asid 0 va with
      | some (.aliasLeaf _ _ x) => x
      | _ => false))
  | _ => false

/-- Held bytes of the group's world (R443): byte `va` as the latest entry that covers it gives it. -/
def HeldOp.byteAt (o : HeldOp) (va : Nat) : Option Byte :=
  match o with
  | .bytes b d => if va / 64 = b ∧ d.any (fun e => e.1 == va % 64) then some (mapGet 0 d (va % 64)) else none
  | .warm a x =>
    if inRange va a 12 then
      let w : Weir := { atgt := bitsOf x.toNat 0 16, arr := 0, btgt := bitsOf x.toNat 16 32, bytes := 0, phase := 0 }
      some (BitVec.ofNat 8 (recField w.toNat (va - a) 1))
    else none
  | .sto a n x _ _ => if inRange va a n then some (BitVec.ofNat 8 (recField x.toNat (va - a) 1)) else none

def State.heldByte (s : State) (va : Nat) : Option Byte :=
  match s.myTeam with
  | none => none
  | some t => ((t.held.filter (fun h => h.view == s.g.view)).filterMap (fun h => h.op.byteAt va)).getLast?

/-- A poisoned entry of the group's world covers one of the bytes. -/
def State.heldPois (s : State) (va n : Nat) : Bool :=
  match s.myTeam with
  | none => false
  | some t => t.held.any (fun h => h.view == s.g.view && h.pois && (List.range n).any (fun i => (h.op.byteAt (va + i)).isSome))

def State.heldTouches (s : State) (va n : Nat) : Bool :=
  s.g.view != 0 && (List.range n).any (fun i => (s.heldByte (va + i)).isSome)

/-- The cofferdam of the executing group that holds a block. -/
def State.ownDam (s : State) (l : Loc) : Option Dam :=
  match l.pblk 0 with
  | none => none
  | some b => s.dams.find? (fun d => !d.breached && d.blk == b && d.grp == s.gid)

/-- One part of an access outside the on-chip region (R225, R228, R240, R439). A load whose hint is not the default never
fills level-1, whether it hits level-2 or not (DEDUCED from R225 and R226, log 56). -/
def State.resolveOff (s : State) (kd : Kind) (hint va n : Nat) : State × Except Stop Piece :=
  let v := if inTable va then 0 else s.g.view
  let asid := if inTable va then 0 else s.g.asid
  let own := v != 0 && s.ownWindow asid v va
  if kd.k.isWrite && v != 0 && !own then (s, .ok ⟨va, n, .home asid 0 va, none, true⟩)
  else
    let w := if v = 0 then 0 else s.viewOver asid va 8 v
    let l1 := s.g.isCompute && kd.region == .plain && kd.k == .load && !inTable va && !s.heldTouches va n
    let (s, c) := if l1 && (s.ownDam (.home asid w va)).isNone then s.l1Serve asid w va n else (s, none)
    match c with
    | some b => (s, .ok ⟨va, n, .home asid w va, some b, false⟩)
    | none =>
      let (s, r) :=
        if w = 0 then
          s.findLoc kd hint asid 0 va n
        else if kd.k.isWrite && !s.viewAllows kd.k asid va then (s, .error (.park asid w va kd.k hint .fresh))
        else
          match s.viewFill asid w va with
          | (s, some e) => (s, .error e)
          | (s, none) =>
            match if kd.region == .block then none else s.heldBlk (some s.gid) (.home asid w va) n with
            | some b => (s, .error (.park asid w va kd.k hint (.onBlock b)))
            | none => (s, .ok (.home asid w va))
      match r with
      | .error e => (s, .error e)
      | .ok l =>
        match l with
        | .home a x h =>
          let s := if l1 && hint == 0 && (s.ownDam l).isNone then
              s.l1Fill s.core asid w va (.home a x (alignDown h 64)) false (s.blockX asid va l)
            else s
          (s, .ok ⟨va, n, l, none, false⟩)
        | _ => (s, .ok ⟨va, n, l, none, false⟩)

/-- One part of an access. -/
def State.resolvePart (s : State) (kd : Kind) (hint va n : Nat) : State × Except Stop Piece :=
  if onChip va then
    match s.onChipByte s.actor va with
    | .error _ => (s, .error (.refuse 2))
    | .ok l =>
      match s.heldBlk (some s.gid) l n with
      | some b => (s, .error (.park s.g.asid 0 va kd.k hint (.onBlock b)))
      | none => (s, .ok ⟨va, n, l, none, false⟩)
  else s.resolveOff kd hint va n

/-- All parts of one access; the first that stops decides. -/
def State.resolve (s : State) (kd : Kind) (hint va n : Nat) : State × Except Stop (List Piece) :=
  (blockParts va n).foldl (fun (acc : State × Except Stop (List Piece)) p =>
    match acc with
    | (s, .error e) => (s, .error e)
    | (s, .ok ps) =>
      match s.resolvePart kd hint p.1 p.2 with
      | (s, .error e) => (s, .error e)
      | (s, .ok q) => (s, .ok (ps ++ [q]))) (s, .ok [])

/-- Lanes park (R142) on what an access waits for. -/
def State.parkOn (s : State) (m : Word) (e : Stop) : State :=
  match e with
  | .park a v va k h st => (s.addReq a v va k h (.lanes s.gid m) st).leaveChain m .parked
  | .refuse _ => s

/-- The accesses of a word, lane by lane: checks, watchpoints and places. `f` takes the lanes that go on with their
parts. A scalar word is `shared`: one access, for every lane with effect. -/
def State.accesses (s : State) (kd : Kind) (pre : Option Nat) (hint n : Nat) (shared : Bool) (xs : List (Nat × Nat))
    (f : State → List (Nat × Nat × List Piece) → State) : State :=
  match s.checkAccess kd pre n shared xs with
  | some t => s.trap t
  | none =>
    let all (l : Nat) : Word := if shared then s.iss.eff else laneBit l
    let hit := s.watched kd.k.isWrite n xs
    let halted := match hit with
      | none => 0#32
      | some (m, _) => if shared then s.iss.eff else m
    let xs := xs.filter (fun x => !halted.getLsbD x.1)
    let (s, rs) := xs.foldl (fun (acc : State × List (Nat × Nat × Except Stop (List Piece))) x =>
      let (s, r) := acc.1.resolve kd hint x.2 n
      (s, acc.2 ++ [(x.1, x.2, r)])) (s, [])
    let bad (r : Except Stop (List Piece)) : Option Nat := match r with
      | .error (.refuse r) => some r
      | _ => none
    match rs.find? (fun x => (bad x.2.2).isSome) with
    | some (l, ea, e) =>
      let m := rs.foldl (fun m x => if bad x.2.2 == bad e then m ||| laneBit x.1 else m) 0
      s.trap (s.kindTrap l ea ((bad e).getD 0) m shared)
    | none =>
      let s := match hit with
        | none => s
        | some (_, slot) => s.watchHalt halted slot
      let s := rs.foldl (fun s x => match x.2.2 with
        | .error e => s.parkOn (all x.1) e
        | .ok _ => s) s
    let go := rs.filterMap (fun x => match x.2.2 with
        | .ok ps => some (x.1, x.2.1, ps)
        | .error _ => none)
      if go.isEmpty then s else f s go

/-! ### Reading and writing the parts -/

/-- Who makes a plain access of lane `l`. -/
def State.accessor (s : State) (l : Nat) : Accessor :=
  { agent := s.gid, core := s.core, grp := s.g.grp, engine := false, pc := s.iss.pc, lanes := laneBit l, gid := s.gid,
    clock := none }

/-- Byte `i` of a part as the group reads it: its own cofferdam's and its world's held stores prevail (R285, R443). -/
def State.pieceByte (s : State) (p : Piece) (i : Nat) : Byte :=
  let base : Byte := match p.copy, p.loc with
    | some b, _ => BitVec.ofNat 8 (recField b.data ((p.va + i) % 64) 1)
    | none, .mgmt o => BitVec.ofNat 8 (recField (s.mgmtRead (some s.g.tile) o p.n) i 1)
    | none, l => s.rdByte l i
  let base := match s.ownDam p.loc with
    | some d => if d.buf.any (fun e => e.1 == (p.va + i) % 64) then mapGet 0 d.buf ((p.va + i) % 64) else base
    | none => base
  if s.g.view = 0 then base else (s.heldByte (p.va + i)).getD base

def State.piecesRead (s : State) (ps : List Piece) : Nat × Bool :=
  (leNat (ps.flatMap (fun p => (List.range p.n).map (s.pieceByte p))),
    ps.any (fun p => p.copy.isNone && s.locPois p.loc p.n) || (s.g.view != 0 && ps.any (fun p => s.heldPois p.va p.n)))

/-- What a read of the parts by lane `l` brings about (R260 to R262, R281, R283): a part that level-1 serves, or that the
group holds under its own cofferdam, is part of no race. -/
def State.noteParts (s : State) (l : Nat) (ps : List Piece) : State :=
  ps.foldl (fun s p =>
    match p.copy with
    | some b =>
      let ws := (Loc.home (b.home / 2 ^ 57) (b.home / 2 ^ 51 % 64) (b.home % 2 ^ 51 * 64 + p.va % 64)).words p.n
      (s.orderRead s.gid ((b.sync.filter (fun e => ws.contains e.1)).map (·.2))).seeCopy s.gid b (p.va % 64) p.n
    | none =>
      if (s.ownDam p.loc).isSome then (s.noteOrder s.gid p.loc p.n .read).seeHome s.gid p.loc p.n
      else s.noteAccess (s.accessor l) p.loc p.va p.n false) s

/-- Marks a world spoiled (R444). -/
def State.spoil (s : State) : State :=
  match s.g.world with
  | none => s
  | some (h, i) => s.setTeam s.g.team (fun t =>
      { t with forks := mapMod none t.forks h (fun o => o.map (fun f => { f with spoiled := f.spoiled ||| laneBit i })) })

def State.worldSpoiled (s : State) : Bool :=
  match s.g.world, s.myTeam with
  | some (h, i), some t => ((t.fork h).map (fun f => f.spoiled.getLsbD i)).getD false
  | _, _ => false

/-- Takes an entry of the hold buffer, which has 64 (R442, R444). -/
def State.holdOp (s : State) (o : HeldOp) (pois : Bool) : State :=
  if s.worldSpoiled then s
  else
    match s.myTeam with
    | none => s
    | some t =>
      if 64 ≤ t.held.length then s.spoil
      else s.setTeam s.g.team (fun t => { t with held := t.held ++ [⟨s.g.view, o, pois⟩] })

/-- A held store: it merges into the last entry that its world has taken, if that is of its block (R442). -/
def State.holdBytes (s : State) (va : Nat) (bs : List Byte) (pois : Bool) : State :=
  if s.worldSpoiled then s
  else
    let mine : Option (Nat × Held) := match s.myTeam with
      | none => none
      | some t => (((List.range t.held.length).zip t.held).filter (fun h => h.2.view == s.g.view)).getLast?
    match mine with
    | some (i, ⟨_, .bytes b d, po⟩) =>
      if b = va / 64 then s.setTeam s.g.team (fun t =>
        { t with held := modNth (fun _ => ⟨s.g.view, .bytes b (mapSetAll d (va % 64) bs), po || pois⟩) t.held i })
      else s.holdOp (.bytes (va / 64) (mapSetAll [] (va % 64) bs)) pois
    | _ => s.holdOp (.bytes (va / 64) (mapSetAll [] (va % 64) bs)) pois

/-- The writer of a management register (R484). -/
def State.writer (s : State) : Writer :=
  match s.g.kind with
  | .mgmt => .mgmt s.g.home
  | .pager => .pager s.g.home
  | .compute => .other

/-- What a write of home bytes brings about besides the bytes (R202, R271, R440). -/
def State.wroteHome (s : State) (asid view va : Nat) : State :=
  (s.touchHome asid view va).signBlk s.core (blkKey asid view va)

/-- The executing core's level-1 copies of a location that its group updates at the home go (R201, R258). -/
def State.l1DropPiece (s : State) (p : Piece) : State := s.l1DropLoc s.core p.loc p.n

/-- Writes the bytes of one part; answers the invalidations that its completion waits for (R243). -/
def State.pieceWrite (s : State) (p : Piece) (bs : List Byte) (plain : Bool) : State × List Nat :=
  if p.hold then (s.holdBytes p.va bs false, [])
  else
    match s.ownDam p.loc with
    | some d =>
      let up (x : Dam) : Dam := { x with buf := mapSetAll x.buf (p.va % 64) bs }
      ({ s with dams := modWhere (fun x => x.id == d.id) up s.dams }, [])
    | none =>
      match p.loc with
      | .mgmt o => (s.due (.mgmtRegisterWrite o p.n (BitVec.ofNat 64 (leNat bs)) s.writer), [])
      | .home a v h =>
        let (s, ids) := if inTable h then s.tableWrite h bs else (s.wrBytesFrom p.loc 0 bs, [])
        let s := s.wroteHome a v h
        let s := if plain then (s.l1Write s.core p.loc bs).plainWrite s.g.die p.loc p.n
          else (s.l1DropPiece p).stampWords s.g.die p.loc p.n
        (s, ids)
      | l =>
        let s := s.wrBytesFrom l 0 bs
        (if plain then s.plainWrite s.g.die l p.n else s, [])

/-- What the bytes of parts that are written at their homes hold before a store of a compute die (R464). -/
def State.undoBytes (s : State) (ps : List Piece) : List (Nat × Byte) :=
  if !s.g.isCompute then []
  else ps.flatMap (fun p => if p.hold || (s.ownDam p.loc).isSome then [] else s.undoAt p.loc p.n)

/-- Bytes `i` to `i + n - 1` of a value for the parts of an access. -/
def sliceBytes (bs : List Byte) (base : Nat) (p : Piece) : List Byte := (bs.drop (p.va - base)).take p.n

/-- The poison of the blocks that one word wrote (R403): poisoned data poisons a block, and clean data that covers all
64 bytes cleans it. `ws` holds the block, the byte and the poison of every byte. -/
def State.settlePois (s : State) (ws : List (Nat × Nat × Bool)) : State :=
  if s.pois.isEmpty && ws.all (fun w => !w.2.2) then s
  else
    ((ws.map (·.1)).dedup).foldl (fun s b =>
      let mine := ws.filter (fun w => w.1 == b)
      if mine.any (fun w => w.2.2) then s.setPois b true
      else if ((mine.map (·.2.1)).dedup).length = 64 then s.setPois b false
      else s) s

/-- Block and byte of every byte of a part that is written where it lies. -/
def State.poisBytes (s : State) (p : Piece) (pois : Bool) : List (Nat × Nat × Bool) :=
  if p.hold || (s.ownDam p.loc).isSome then []
  else (List.range p.n).filterMap (fun i => (p.loc.pblk i).map (fun b => (b, (p.va + i) % 64, pois)))

/-- The plain stores of a word: lane, address, parts, bytes, poison; in ascending lane order (R258). One store is
outstanding from then on. -/
def State.storeAll (s : State) (ws : List (Nat × Nat × List Piece × List Byte × Bool)) : State × List Nat :=
  let marks := ws.flatMap (fun w => w.2.2.1.flatMap (fun p => s.poisBytes p w.2.2.2.2))
  let (s, ids) := ws.foldl (fun (acc : State × List Nat) w =>
    w.2.2.1.foldl (fun (acc : State × List Nat) p =>
      let bs := sliceBytes w.2.2.2.1 w.2.1 p
      if p.hold then (acc.1.holdBytes p.va bs w.2.2.2.2, acc.2)
      else
        let (s, ids) := acc.1.pieceWrite p bs true
        match s.ownDam p.loc with
        | some d =>
          let up (x : Dam) : Dam := { x with pois := x.pois || w.2.2.2.2 }
          ({ s with dams := modWhere (fun x => x.id == d.id) up s.dams }, acc.2 ++ ids)
        | none => ((s.noteAccess (s.accessor w.1) p.loc p.va p.n true).l1Sync s.core p.loc p.n, acc.2 ++ ids)) acc) (s, [])
  (s.settlePois marks, ids)

/-! ### Counters -/

/-- A load becomes outstanding (R27, R296); `late` numbers a value that is not known yet. -/
def State.addLoadLate (s : State) (ws : List LoadWrite) (late : Option Nat) : State :=
  s.setG (fun g => { g with ldcnt := g.ldcnt + 1, loads := g.loads ++ [PendLoad.mk ws late] })

def State.addLoad (s : State) (ws : List LoadWrite) : State := s.addLoadLate ws none

/-- A store of the executing group becomes outstanding; `undo` holds what its bytes replaced. -/
def State.countStore (s : State) (k : StoreKind) (undo : List (Nat × Byte)) : State :=
  ((s.addStore (some s.gid) s.g.die k undo).1).setG (fun g => { g with stcnt := g.stcnt + 1 })

/-- The plain stores of a word are made and counted (R27). -/
def State.storeWord (s : State) (ws : List (Nat × Nat × List Piece × List Byte × Bool)) : State :=
  let undo := s.undoBytes (ws.flatMap (fun w => w.2.2.1))
  let (s, ids) := s.storeAll ws
  s.countStore (.write ids) undo

/-- A release that must wait until the writes it orders are acknowledged (R269, R273, R463, R469, R479). -/
def State.releaseWaits (s : State) (l : Loc) (scope : Nat) : Bool :=
  let far := (s.die s.g.die).epoch + 2 ^ 32 - s.watermark s.g.die
  let slow := match l with
    | .home _ _ _ => !s.g.isCompute || scope == 5
    | _ => true
  (slow && (s.g.stcnt != 0 || s.stores.any (fun x => x.grp.isNone && x.die == s.g.die)))
    || (s.g.isCompute && 2 ^ 29 ≤ far % 2 ^ 32)

end Sys2Proof.Machine
end

