-- ==== Sys2Proof/Machine/IntOps.lean ====
section
/-! DEFINITION. Integer operations on words: division, bit counts, bit fields, saturation (R66, R90 to R100). -/

namespace Sys2Proof.Machine

/-- Quotient of R95, signed. At the most negative dividend and −1 the quotient wraps to the dividend. -/
def quotS {w : Nat} (a b : BitVec w) : BitVec w := if b = 0#w then BitVec.allOnes w else a.sdiv b
/-- Remainder of R95, signed. -/
def remS {w : Nat} (a b : BitVec w) : BitVec w := if b = 0#w then a else a.srem b
/-- Quotient of R95, unsigned. -/
def quotU {w : Nat} (a b : BitVec w) : BitVec w := if b = 0#w then BitVec.allOnes w else a.udiv b
/-- Remainder of R95, unsigned. -/
def remU {w : Nat} (a b : BitVec w) : BitVec w := if b = 0#w then a else a.umod b

/-- High half of the signed product. -/
def mulhS {w : Nat} (a b : BitVec w) : BitVec w := (a.signExtend (2 * w) * b.signExtend (2 * w)).extractLsb' w w
/-- High half of the unsigned product. -/
def mulhU {w : Nat} (a b : BitVec w) : BitVec w := (a.zeroExtend (2 * w) * b.zeroExtend (2 * w)).extractLsb' w w

def minS {w : Nat} (a b : BitVec w) : BitVec w := if b.slt a then b else a
def maxS {w : Nat} (a b : BitVec w) : BitVec w := if a.slt b then b else a
def minU {w : Nat} (a b : BitVec w) : BitVec w := if b.ult a then b else a
def maxU {w : Nat} (a b : BitVec w) : BitVec w := if a.ult b then b else a

/-- Saturation of an exact result to the signed range (R66). -/
def satS (w : Nat) (x : Int) : BitVec w :=
  if x < -(2 ^ (w - 1) : Int) then BitVec.ofInt w (-(2 ^ (w - 1) : Int))
  else if (2 ^ (w - 1) : Int) - 1 < x then BitVec.ofInt w ((2 ^ (w - 1) : Int) - 1)
  else BitVec.ofInt w x

/-- Number of ones. -/
def popcount {w : Nat} (a : BitVec w) : Nat := ((List.range w).filter (fun i => a.getLsbD i)).length
/-- Number of leading zeros, `w` for zero. -/
def leadingZeros {w : Nat} (a : BitVec w) : Nat :=
  ((List.range w).find? (fun i => a.getLsbD (w - 1 - i))).getD w
/-- Lowest set bit, `w` for zero. -/
def lowestSet {w : Nat} (a : BitVec w) : Nat := ((List.range w).find? (fun i => a.getLsbD i)).getD w
/-- The bits in reverse order. -/
def bitReverse {w : Nat} (a : BitVec w) : BitVec w := a.reverse
/-- The bytes of a number of `n` bytes in reverse order. -/
def byteReverse {w : Nat} (n : Nat) (a : BitVec w) : BitVec w :=
  BitVec.ofNat w (leNat (leBytes n a.toNat).reverse)

/-- Length of a field that starts at `pos` (R96). -/
def fieldLen (w pos len : Nat) : Nat := min len (w - pos)

/-- `bext.n` (R96). -/
def bextN {w : Nat} (a : BitVec w) (pos len : Nat) : BitVec w :=
  BitVec.ofNat w (bitsOf a.toNat pos (fieldLen w pos len))
/-- `bext.i` (R96). -/
def bextI {w : Nat} (a : BitVec w) (pos len : Nat) : BitVec w :=
  let n := fieldLen w pos len
  if n = 0 then 0#w else BitVec.ofInt w (signedOf n (bitsOf a.toNat pos n))
/-- `bins` (R96). -/
def bins {w : Nat} (d a : BitVec w) (pos len : Nat) : BitVec w :=
  let n := fieldLen w pos len
  let m := (BitVec.ofNat w (2 ^ n - 1)) <<< pos
  (d &&& ~~~m) ||| ((a <<< pos) &&& m)

/-- Sum of four byte products (R99). -/
def dot4 (f : BitVec 8 → Int) (a b : Word) : Int :=
  (List.range 4).foldl (fun z i => z + f (byteOf a i) * f (byteOf b i)) 0

end Sys2Proof.Machine
end

