-- ==== Sys2Proof/Machine/SoftFloat.lean ====
section
/-! DEFINITION. Floating-point values: formats, rounding, arithmetic, conversions (R67 to R87, R117, R121 to R130).

Every operation computes an exact value and rounds it once by `roundTo`. A value is sign, whole number, power of two;
a root or a quotient that is not such a number carries a sticky bit far below the rounding position. -/

namespace Sys2Proof.Machine

/-! ### Formats (R67, R68) -/

structure Fmt where
  eb : Nat
  fb : Nat
  /-- E4M3 has no infinity -/
  hasInf : Bool := true
  /-- DAZ and FTZ apply (R76) -/
  flushable : Bool := true
  deriving DecidableEq, Repr

def f64 : Fmt := { eb := 11, fb := 52 }
def f32 : Fmt := { eb := 8, fb := 23 }
def f16 : Fmt := { eb := 5, fb := 10 }
def bf16 : Fmt := { eb := 8, fb := 7 }
def e5m2 : Fmt := { eb := 5, fb := 2, flushable := false }
def e4m3 : Fmt := { eb := 4, fb := 3, hasInf := false, flushable := false }

def Fmt.width (f : Fmt) : Nat := f.eb + f.fb + 1
def Fmt.bias (f : Fmt) : Int := 2 ^ (f.eb - 1) - 1
def Fmt.emin (f : Fmt) : Int := 1 - f.bias
def Fmt.signBit (f : Fmt) : Nat := 2 ^ (f.eb + f.fb)
/-- Magnitude code of infinity; in E4M3, of the NaN. -/
def Fmt.infMag (f : Fmt) : Nat := if f.hasInf then (2 ^ f.eb - 1) * 2 ^ f.fb else 2 ^ (f.eb + f.fb) - 1
/-- Magnitude code of the largest finite value. -/
def Fmt.maxMag (f : Fmt) : Nat := f.infMag - 1
/-- The code with a sign. -/
def Fmt.signed (f : Fmt) (sg : Bool) (mag : Nat) : Nat := mag + if sg then f.signBit else 0
/-- The canonical NaN (R68). -/
def Fmt.qnan (f : Fmt) : Nat := if f.hasInf then f.infMag + 2 ^ (f.fb - 1) else f.infMag
/-- A NaN made quiet. -/
def Fmt.quiet (f : Fmt) (x : Nat) : Nat := if f.hasInf then x ||| 2 ^ (f.fb - 1) else x

/-- A value read from a format. -/
inductive FV where
  | nan (raw : Nat) (sig : Bool)
  | inf (sg : Bool)
  /-- (−1)^sg × m × 2^e -/
  | num (sg : Bool) (m : Nat) (e : Int)
  deriving DecidableEq, Repr

def Fmt.sgn (f : Fmt) (x : Nat) : Bool := x / f.signBit % 2 == 1
def Fmt.mag (f : Fmt) (x : Nat) : Nat := x % f.signBit

/-- Decodes the low bits of `x` (R67, R68). -/
def Fmt.dec (f : Fmt) (x : Nat) : FV :=
  let sg := f.sgn x
  let mag := f.mag x
  let e := mag / 2 ^ f.fb
  let fr := mag % 2 ^ f.fb
  if f.infMag < mag ∨ (!f.hasInf ∧ mag = f.infMag) then
    .nan (x % (2 * f.signBit)) (f.hasInf && fr / 2 ^ (f.fb - 1) == 0)
  else if mag = f.infMag then .inf sg
  else if e = 0 then .num sg fr (f.emin - f.fb)
  else .num sg (2 ^ f.fb + fr) ((e : Int) - f.bias - f.fb)

/-- Bits of an input after DAZ (R76). -/
def Fmt.daz (f : Fmt) (daz : Bool) (x : Nat) : Nat :=
  if daz && f.flushable && f.mag x / 2 ^ f.fb == 0 then f.signed (f.sgn x) 0 else x % (2 * f.signBit)

def FV.isNan : FV → Bool
  | .nan _ _ => true
  | _ => false
def FV.isSnan : FV → Bool
  | .nan _ s => s
  | _ => false

/-! ### Rounding (R73 to R76) -/

/-- The rounding controls of a word. -/
structure FpCtl where
  rm : RMode
  daz : Bool
  ftz : Bool
  deriving DecidableEq, Repr

def Regs.fctl (r : Regs) : FpCtl := ⟨r.rm, r.daz, r.ftz⟩

/-- Round to nearest even, no flushing: the sums of R83. -/
def plainRne : FpCtl := ⟨.rne, false, false⟩

/-- m / 2^k rounded to a whole number, and whether it was inexact (R73). -/
def roundShift (rm : RMode) (sg : Bool) (m k : Nat) : Nat × Bool :=
  let n := m / 2 ^ k
  let r := m % 2 ^ k
  let up := match rm with
    | .rne => decide (2 ^ k < 2 * r) || (decide (2 * r = 2 ^ k) && n % 2 == 1 && r != 0)
    | .rtz => false
    | .rdn => sg && r != 0
    | .rup => !sg && r != 0
  (if up then n + 1 else n, r != 0)

/-- Whether an overflow gives infinity (R74). -/
def overflowInf (rm : RMode) (sg : Bool) : Bool :=
  match rm with
  | .rne => true
  | .rtz => false
  | .rdn => sg
  | .rup => !sg

/-- `Round` of (−1)^sg × m × 2^e with its flags (R73 to R76); `sat` gives the largest finite magnitude on overflow. -/
def roundTo (f : Fmt) (c : FpCtl) (sat : Bool) (sg : Bool) (m : Nat) (e : Int) : FpRes :=
  if m = 0 then (f.signed sg 0, 0)
  else
    let q := max ((Nat.log2 m : Int) + e) f.emin - f.fb
    let (n, nx) := if q ≤ e then (m * 2 ^ (e - q).toNat, false) else roundShift c.rm sg m (q - e).toNat
    let mag := if n < 2 ^ f.fb then n else (q + f.fb + f.bias).toNat * 2 ^ f.fb + (n - 2 ^ f.fb)
    if f.maxMag < mag then
      (f.signed sg (if !sat && overflowInf c.rm sg then f.infMag else f.maxMag), flagOF ||| flagNX)
    else if mag != 0 && decide (mag < 2 ^ f.fb) && c.ftz && f.flushable then (f.signed sg 0, flagUF ||| flagNX)
    else
      let tiny := mag != 0 && decide (mag < 2 ^ f.fb)
      (f.signed sg mag, if nx then (if tiny then flagNX ||| flagUF else flagNX) else 0)

/-! ### NaNs (R77, R78) -/

def nvOf (xs : List FV) : BitVec 5 := if xs.any FV.isSnan then flagNV else 0

/-- The first NaN of the inputs, made quiet, if there is one (R78). -/
def firstNan (f : Fmt) (xs : List FV) : Option Nat :=
  xs.findSome? (fun x => match x with
    | .nan raw _ => some (f.quiet raw)
    | _ => none)

/-- The rule of R78 before an operation on numbers. -/
def withNan (f : Fmt) (xs : List FV) (k : FpRes) : FpRes :=
  match firstNan f xs with
  | some n => (n, nvOf xs)
  | none => k

def FV.neg : FV → FV
  | .inf s => .inf (!s)
  | .num s m e => .num (!s) m e
  | x => x

/-! ### Arithmetic (R117, R121, R125) -/

/-- An exact sum of two numbers: sign for zero by R117. -/
def sumZeroSign (rm : RMode) (s1 s2 : Bool) : Bool := if s1 == s2 then s1 else rm == .rdn

/-- Signed reading at exponent `e0`. -/
def scaled (sg : Bool) (m : Nat) (e e0 : Int) : Int :=
  let x : Int := (m * 2 ^ (e - e0).toNat : Nat)
  if sg then -x else x

/-- Round of the sum of two non-NaN values. -/
def addCore (f : Fmt) (c : FpCtl) (a b : FV) : FpRes :=
  match a, b with
  | .inf s, .inf t => if s == t then (f.signed s f.infMag, 0) else (f.qnan, flagNV)
  | .inf s, _ => (f.signed s f.infMag, 0)
  | _, .inf t => (f.signed t f.infMag, 0)
  | .num s m e, .num t n g =>
    let e0 := min e g
    let z := scaled s m e e0 + scaled t n g e0
    if z = 0 then
      (f.signed (if m = 0 ∧ n = 0 then sumZeroSign c.rm s t else c.rm == .rdn) 0, 0)
    else roundTo f c false (decide (z < 0)) z.natAbs e0
  | _, _ => (f.qnan, 0)

/-- A product, exact: `none` for 0 × ∞. -/
def mulExact (a b : FV) : Option FV :=
  match a, b with
  | .inf s, .inf t => some (.inf (xor s t))
  | .inf s, .num t n _ => if n = 0 then none else some (.inf (xor s t))
  | .num s m _, .inf t => if m = 0 then none else some (.inf (xor s t))
  | .num s m e, .num t n g => some (.num (xor s t) (m * n) (e + g))
  | _, _ => none

/-- Round of an exact value. -/
def roundFV (f : Fmt) (c : FpCtl) (x : FV) : FpRes :=
  match x with
  | .nan raw s => (f.quiet raw, if s then flagNV else 0)
  | .inf s => (f.signed s f.infMag, 0)
  | .num s m e => roundTo f c false s m e

def fAdd (f : Fmt) (c : FpCtl) (x y : Nat) : FpRes :=
  let a := f.dec (f.daz c.daz x)
  let b := f.dec (f.daz c.daz y)
  withNan f [a, b] (addCore f c a b)

def fSub (f : Fmt) (c : FpCtl) (x y : Nat) : FpRes :=
  let a := f.dec (f.daz c.daz x)
  let b := f.dec (f.daz c.daz y)
  withNan f [a, b] (addCore f c a b.neg)

def fMul (f : Fmt) (c : FpCtl) (x y : Nat) : FpRes :=
  let a := f.dec (f.daz c.daz x)
  let b := f.dec (f.daz c.daz y)
  withNan f [a, b]
    (match mulExact a b with
    | none => (f.qnan, flagNV)
    | some z => roundFV f c z)

/-- A quotient or a root: a number whose low bit stands for everything below it. -/
def stickyNum (sg : Bool) (q : Nat) (rest : Bool) (e : Int) : FV := .num sg (2 * q + if rest then 1 else 0) (e - 1)

def fDiv (f : Fmt) (c : FpCtl) (x y : Nat) : FpRes :=
  let a := f.dec (f.daz c.daz x)
  let b := f.dec (f.daz c.daz y)
  withNan f [a, b]
    (match a, b with
    | .inf _, .inf _ => (f.qnan, flagNV)
    | .inf s, .num t _ _ => (f.signed (xor s t) f.infMag, 0)
    | .num s _ _, .inf t => (f.signed (xor s t) 0, 0)
    | .num s m e, .num t n g =>
      if n = 0 then if m = 0 then (f.qnan, flagNV) else (f.signed (xor s t) f.infMag, flagDZ)
      else if m = 0 then (f.signed (xor s t) 0, 0)
      else
        let k := 2 * f.fb + 6
        let z := m * 2 ^ k
        roundFV f c (stickyNum (xor s t) (z / n) (z % n != 0) (e - g - k))
    | _, _ => (f.qnan, 0))

/-- Largest whole number whose square is at most `n`, tried from bit `k` down. -/
def isqrtFrom (n : Nat) : Nat → Nat → Nat
  | 0, r => if (r + 1) * (r + 1) ≤ n then r + 1 else r
  | k + 1, r =>
    let t := r + 2 ^ (k + 1)
    isqrtFrom n k (if t * t ≤ n then t else r)

def isqrt (n : Nat) : Nat := isqrtFrom n (Nat.log2 n / 2 + 1) 0

def fSqrt (f : Fmt) (c : FpCtl) (x : Nat) : FpRes :=
  let a := f.dec (f.daz c.daz x)
  withNan f [a]
    (match a with
    | .inf s => if s then (f.qnan, flagNV) else (f.infMag, 0)
    | .num s m e =>
      if m = 0 then (f.signed s 0, 0)
      else if s then (f.qnan, flagNV)
      else
        let k := 2 * f.fb + 8 + (if (e - (2 * f.fb + 8 : Nat)) % 2 = 0 then 0 else 1)
        let z := m * 2 ^ k
        let r := isqrt z
        roundFV f c (stickyNum false r (r * r != z) ((e - k) / 2))
    | _ => (f.qnan, 0))

/-- Fused multiply-add with the signs of product and addend (R125). -/
def fFma (f : Fmt) (c : FpCtl) (negX negC : Bool) (x y z : Nat) : FpRes :=
  let a := f.dec (f.daz c.daz x)
  let b := f.dec (f.daz c.daz y)
  let d := f.dec (f.daz c.daz z)
  let bad := !a.isNan && !b.isNan && (mulExact a b).isNone
  match firstNan f [a, b, d] with
  | some n => (n, nvOf [a, b, d] ||| if bad then flagNV else 0)
  | none =>
    match mulExact a b with
    | none => (f.qnan, flagNV)
    | some p => addCore f c (if negX then p.neg else p) (if negC then d.neg else d)

/-- a × 2^n (R121, fn 15). Beyond ±8192 the power no longer changes the result. -/
def fScl (f : Fmt) (c : FpCtl) (x : Nat) (n : Int) : FpRes :=
  let a := f.dec (f.daz c.daz x)
  withNan f [a]
    (match a with
    | .num s m e => roundTo f c false s m (e + max (-8192) (min 8192 n))
    | v => roundFV f c v)

/-- A number rounded to a whole one. -/
def roundInt (rm : RMode) (sg : Bool) (m : Nat) (e : Int) : Nat × Bool :=
  if 0 ≤ e then (m * 2 ^ e.toNat, false) else roundShift rm sg m (-e).toNat

/-- `rint` (R121, fn 14). -/
def fRint (f : Fmt) (c : FpCtl) (rm : RMode) (x : Nat) : FpRes :=
  let a := f.dec (f.daz c.daz x)
  withNan f [a]
    (match a with
    | .num s m e =>
      if 0 ≤ e then (f.daz c.daz x, 0) else ((roundTo f plainRne false s (roundInt rm s m e).1 0).1, 0)
    | v => roundFV f c v)

/-- Order of two numbers: −1, 0 or 1; −0 equals +0. -/
def FV.cmp (a b : FV) : Int :=
  match a, b with
  | .inf s, .inf t => if s == t then 0 else if s then -1 else 1
  | .inf s, _ => if s then -1 else 1
  | _, .inf t => if t then 1 else -1
  | .num s m e, .num t n g =>
    let e0 := min e g
    (scaled s m e e0 - scaled t n g e0).sign
  | _, _ => 0

/-- `min` and `max` (fn 5 and 6), and with `num` the forms that pass a NaN over (fn 7 and 8) (R121). -/
def fMinMax (f : Fmt) (c : FpCtl) (mx num : Bool) (x y : Nat) : FpRes :=
  let x := f.daz c.daz x
  let y := f.daz c.daz y
  let a := f.dec x
  let b := f.dec y
  let nv := nvOf [a, b]
  let pick :=
    let o := match a.cmp b with
      | 0 => if f.sgn x == f.sgn y then 0 else if f.sgn x then -1 else 1
      | o => o
    if mx then (if o < 0 then y else x) else (if 0 < o then y else x)
  if num && a.isNan && !b.isNan then (y, nv)
  else if num && b.isNan && !a.isNan then (x, nv)
  else withNan f [a, b] (pick, 0)

/-- A comparison of R122. -/
def fCompare (f : Fmt) (c : FpCtl) (k : Nat) (x y : Nat) : Bool × BitVec 5 :=
  let a := f.dec (f.daz c.daz x)
  let b := f.dec (f.daz c.daz y)
  let un := a.isNan || b.isNan
  let o := a.cmp b
  let nv := nvOf [a, b]
  let sig := if un && 2 ≤ k && k ≤ 5 then flagNV else nv
  match k with
  | 0 => (!un && o == 0, sig)
  | 1 => (un || o != 0, sig)
  | 2 => (!un && o == -1, sig)
  | 3 => (!un && o != -1, sig)
  | 4 => (!un && o != 1, sig)
  | 5 => (!un && o == 1, sig)
  | 6 => (!un, sig)
  | _ => (un, sig)

/-- The class mask of R123. -/
def fClass (f : Fmt) (x : Nat) : Nat :=
  let sg := f.sgn x
  let mag := f.mag x
  match f.dec x with
  | .nan _ s => if s then 2 ^ 8 else 2 ^ 9
  | .inf _ => if sg then 1 else 2 ^ 7
  | .num _ _ _ =>
    if mag = 0 then (if sg then 2 ^ 3 else 2 ^ 4)
    else if mag < 2 ^ f.fb then (if sg then 2 ^ 2 else 2 ^ 5)
    else (if sg then 2 else 2 ^ 6)

def fAbs (f : Fmt) (x : Nat) : Nat := f.mag x
def fNeg (f : Fmt) (x : Nat) : Nat := f.signed (!f.sgn x) (f.mag x)
def fCsgn (f : Fmt) (x y : Nat) : Nat := f.signed (f.sgn y) (f.mag x)

/-! ### Conversions (R79 to R81, R126, R128, R130) -/

/-- A NaN of format `g` taken to format `f` (R79). -/
def convNan (f g : Fmt) (raw : Nat) : Nat :=
  let sg := g.sgn raw
  if !f.flushable || !g.flushable then f.signed sg f.qnan
  else
    let pay := raw % 2 ^ (g.fb - 1)
    let pay := if g.fb ≤ f.fb then pay * 2 ^ (f.fb - g.fb) else pay / 2 ^ (g.fb - f.fb)
    f.signed sg (f.qnan + pay)

/-- Float to float (R79, R126, R128); `sat` as R81. -/
def fConv (f g : Fmt) (c : FpCtl) (sat : Bool) (x : Nat) : FpRes :=
  match g.dec (g.daz c.daz x) with
  | .nan raw s => (convNan f g raw, if s then flagNV else 0)
  | .inf s =>
    if sat then (f.signed s f.maxMag, flagNX)
    else (f.signed s f.infMag, if f.hasInf then 0 else flagNV)
  | .num s m e => roundTo f (if g.fb ≤ f.fb ∧ f.emin - f.fb ≤ g.emin - g.fb then { c with ftz := false } else c) sat s m e

/-- Float to an integer of `n` bits (R80). -/
def fToInt (g : Fmt) (c : FpCtl) (n : Nat) (isS : Bool) (x : Nat) : FpRes :=
  let hi : Int := if isS then 2 ^ (n - 1) - 1 else 2 ^ n - 1
  let lo : Int := if isS then -(2 ^ (n - 1)) else 0
  match g.dec (g.daz c.daz x) with
  | .nan _ _ => (0, flagNV)
  | .inf s => (ofInt n (if s then lo else hi), flagNV)
  | .num s m e =>
    let (r, nx) := roundInt c.rm s m e
    let v : Int := if s then -(r : Int) else r
    if v < lo then (ofInt n lo, flagNV)
    else if hi < v then (ofInt n hi, flagNV)
    else (ofInt n v, if nx then flagNX else 0)

/-- An integer to a float (R126). -/
def fOfInt (f : Fmt) (c : FpCtl) (v : Int) : FpRes := roundTo f c false (decide (v < 0)) v.natAbs 0

/-- x / 2^(sc − 127) as a code of `n` bits (R81, R130). -/
def toCode (c : FpCtl) (n : Nat) (x sc : Nat) : FpRes :=
  let hi : Int := 2 ^ (n - 1) - 1
  let lo : Int := -(2 ^ (n - 1))
  if sc % 256 = 255 then (0, flagNV)
  else
    match f32.dec (f32.daz c.daz x) with
    | .nan _ _ => (0, flagNV)
    | .inf s => (ofInt n (if s then lo else hi), flagNX)
    | .num s m e =>
      let (r, nx) := roundInt c.rm s m (e - ((sc % 256 : Nat) - 127))
      let v : Int := if s then -(r : Int) else r
      if v < lo then (ofInt n lo, flagOF ||| flagNX)
      else if hi < v then (ofInt n hi, flagOF ||| flagNX)
      else (ofInt n v, if nx then flagNX else 0)

/-- A W4 code times a scale (R130). -/
def ofCode (c : FpCtl) (x sc : Nat) : FpRes :=
  if sc % 256 = 255 then (f32.qnan, flagNV)
  else
    let v := signedOf 4 (x % 16)
    roundTo f32 c false (decide (v < 0)) v.natAbs ((sc % 256 : Nat) - 127)

/-- Exponent of the largest finite value of a target: E4M3, E5M2, W4, W3 (R82). -/
def scaleTop (t : Nat) : Int :=
  match t with
  | 0 => 8
  | 1 => 15
  | 2 => 2
  | _ => 1

/-- floor(log2 |v|) of the largest magnitude among finite non-zero FP32 elements (R82). -/
def topExp (daz : Bool) (xs : List Nat) : Option Int :=
  xs.foldl (fun (o : Option Int) x =>
    match f32.dec (f32.daz daz x) with
    | .num _ m e =>
      if m = 0 then o
      else
        let k : Int := (Nat.log2 m : Int) + e
        some (match o with
          | none => k
          | some j => max j k)
    | _ => o) none

/-- The scale byte of R82. -/
def scaleByte (daz : Bool) (t : Nat) (xs : List Nat) : Nat :=
  match topExp daz xs with
  | none => 127
  | some k => (max 0 (min 254 (k - scaleTop t + 127))).toNat

/-! ### Trees and sums (R85) -/

/-- The tree of R85 over `2^n` slots; a slot that holds nothing is `none`. Flags of every node are joined. -/
def treeFold (op : Nat → Nat → FpRes) (slot : Nat → Option Nat) : Nat → Nat → Option Nat × BitVec 5
  | 0, i => (slot i, 0)
  | n + 1, i =>
    let (x, fx) := treeFold op slot n (2 * i)
    let (y, fy) := treeFold op slot n (2 * i + 1)
    match x, y with
    | some a, some b =>
      let (z, fz) := op a b
      (some z, fx ||| fy ||| fz)
    | some a, none => (some a, fx ||| fy)
    | none, o => (o, fx ||| fy)

end Sys2Proof.Machine
end

