-- ==== Sys2Proof/Machine/Mem.lean ====
section
/-! DEFINITION. Lane and scalar loads and stores, ordered accesses and atomics: majors `0x28` to `0x36` (R289 to R303). -/

namespace Sys2Proof.Machine

/-! ### Lane memory words -/

/-- Base and index of a lane memory word. -/
def memRegs (b x : BitVec 7) (y : BitVec 1) : List Reg := if y = 1#1 then [.s b.toNat, .v x.toNat 1] else [.s b.toNat]

/-- The effective address of lane `l` (R290). -/
def memEa (b x : BitVec 7) (y : BitVec 1) (o : Option (BitVec 32)) (size : Nat) (r : Regs) (l : Nat) : Nat :=
  let i : Int := if y = 1#1 then (r.rdV x.toNat l).toInt * size else 0
  let c : Int := match o with
    | some v => v.toInt
    | none => 0
  ofInt 64 ((r.rdS b.toNat).toNat + i + c)

def infLd (w size : Nat) (t b x : BitVec 7) (y : BitVec 1) (o : Option (BitVec 32)) : Info :=
  { pipe := .m, reads := memRegs b x y, writes := [.v t.toNat w], counter := .ld, consumes := memRegs b x y,
    ea := some (memEa b x y o size) }
def infSt (w size : Nat) (t b x : BitVec 7) (y : BitVec 1) (o : Option (BitVec 32)) : Info :=
  { pipe := .m, reads := .v t.toNat w :: memRegs b x y, counter := .st, consumes := memRegs b x y,
    ea := some (memEa b x y o size) }

/-- What a load of `w` registers writes in lane `l`. -/
def laneWrites (t w l val : Nat) (pois : Bool) : List LoadWrite :=
  (List.range w).map (fun i => .lane (t + i) l (BitVec.ofNat 32 (val / 2 ^ (32 * i))) pois)

/-- The lanes that access memory with the addresses they form. -/
def State.laneEas (s : State) (f : Nat → Nat) : List (Nat × Nat) := (lanesOf s.leadLanes).map (fun l => (l, f l))

/-- A lane load (R297): `ext` makes the registers' value of the bytes read. -/
def laneLoad (w size : Nat) (t : BitVec 7) (h : BitVec 2) (ea : Nat → Nat) (ext : Nat → Nat) (s : State) : State :=
  s.accesses (kLoad size) none h.toNat size false (s.laneEas ea) (fun s go =>
    let ws := go.flatMap (fun x =>
      let r := s.piecesRead x.2.2
      (s.withShadow x.1).flatMap (fun l => laneWrites t.toNat w l (ext r.1) r.2))
    (go.foldl (fun s x => s.noteParts x.1 x.2.2) s).addLoad ws)

/-- The pairs of a protected launch make one write: address and low word of the data (R411). -/
def State.pairMism (s : State) (f : Nat → Nat × Nat) : Option (Nat × DWord) :=
  if !s.src.prot then none
  else (List.range 16).findSome? (fun i =>
    let a := f (2 * i)
    let b := f (2 * i + 1)
    if s.iss.eff.getLsbD (2 * i) && s.iss.eff.getLsbD (2 * i + 1) && a != b then
      some (2 * i, BitVec.ofNat 64 (a.2 % 2 ^ 32 + b.2 % 2 ^ 32 * 2 ^ 32))
    else none)

/-- A word whose lane writes differ in a pair has no effect (R411). -/
def State.paired (s : State) (f : Nat → Nat × Nat) (k : State → State) : State :=
  match s.pairMism f with
  | some m => s.setIss (fun i => { i with mism := some m })
  | none => k s

/-- A lane store (R298). -/
def laneStore (w size : Nat) (t : BitVec 7) (h : BitVec 2) (ea : Nat → Nat) (s : State) : State :=
  let val (l : Nat) : Nat := s.src.rdW w t.toNat l % 256 ^ size
  s.paired (fun l => (ea l, val l)) (fun s =>
    s.accesses (kStore size) none h.toNat size false (s.laneEas ea) (fun s go =>
      s.storeWord (go.map (fun x =>
        (x.1, x.2.1, x.2.2, leBytes size (val x.1), s.src.poisW w t.toNat x.1)))))

/-- `ld.n8` (R290, R297). -/
def execLdN8 (t b x : BitVec 7) (y : BitVec 1) (o : Option (BitVec 32)) (h : BitVec 2) (s : State) : Out :=
  issued (infLd 1 1 t b x y o) s (laneLoad 1 1 t h (memEa b x y o 1 s.src) id)

/-- `ld.i8` (R290, R297). -/
def execLdI8 (t b x : BitVec 7) (y : BitVec 1) (o : Option (BitVec 32)) (h : BitVec 2) (s : State) : Out :=
  issued (infLd 1 1 t b x y o) s (laneLoad 1 1 t h (memEa b x y o 1 s.src) (fun m => ofInt 32 (signedOf 8 m)))

/-- `ld.n16` (R290, R297). -/
def execLdN16 (t b x : BitVec 7) (y : BitVec 1) (o : Option (BitVec 32)) (h : BitVec 2) (s : State) : Out :=
  issued (infLd 1 2 t b x y o) s (laneLoad 1 2 t h (memEa b x y o 2 s.src) id)

/-- `ld.i16` (R290, R297). -/
def execLdI16 (t b x : BitVec 7) (y : BitVec 1) (o : Option (BitVec 32)) (h : BitVec 2) (s : State) : Out :=
  issued (infLd 1 2 t b x y o) s (laneLoad 1 2 t h (memEa b x y o 2 s.src) (fun m => ofInt 32 (signedOf 16 m)))

/-- `ld.b32` (R290, R297). -/
def execLdB32 (t b x : BitVec 7) (y : BitVec 1) (o : Option (BitVec 32)) (h : BitVec 2) (s : State) : Out :=
  issued (infLd 1 4 t b x y o) s (laneLoad 1 4 t h (memEa b x y o 4 s.src) id)

/-- `ld.b64` (R290, R297). -/
def execLdB64 (t b x : BitVec 7) (y : BitVec 1) (o : Option (BitVec 32)) (h : BitVec 2) (s : State) : Out :=
  issued (infLd 2 8 t b x y o) s (laneLoad 2 8 t h (memEa b x y o 8 s.src) id)

/-- `ld.b128` (R290, R297). -/
def execLdB128 (t b x : BitVec 7) (y : BitVec 1) (o : Option (BitVec 32)) (h : BitVec 2) (s : State) : Out :=
  issued (infLd 4 16 t b x y o) s (laneLoad 4 16 t h (memEa b x y o 16 s.src) id)

/-- `st.b8` (R290, R298). -/
def execStB8 (t b x : BitVec 7) (y : BitVec 1) (o : Option (BitVec 32)) (h : BitVec 2) (s : State) : Out :=
  issued (infSt 1 1 t b x y o) s (laneStore 1 1 t h (memEa b x y o 1 s.src))

/-- `st.b16` (R290, R298). -/
def execStB16 (t b x : BitVec 7) (y : BitVec 1) (o : Option (BitVec 32)) (h : BitVec 2) (s : State) : Out :=
  issued (infSt 1 2 t b x y o) s (laneStore 1 2 t h (memEa b x y o 2 s.src))

/-- `st.b32` (R290, R298). -/
def execStB32 (t b x : BitVec 7) (y : BitVec 1) (o : Option (BitVec 32)) (h : BitVec 2) (s : State) : Out :=
  issued (infSt 1 4 t b x y o) s (laneStore 1 4 t h (memEa b x y o 4 s.src))

/-- `st.b64` (R290, R298). -/
def execStB64 (t b x : BitVec 7) (y : BitVec 1) (o : Option (BitVec 32)) (h : BitVec 2) (s : State) : Out :=
  issued (infSt 2 8 t b x y o) s (laneStore 2 8 t h (memEa b x y o 8 s.src))

/-- `st.b128` (R290, R298). -/
def execStB128 (t b x : BitVec 7) (y : BitVec 1) (o : Option (BitVec 32)) (h : BitVec 2) (s : State) : Out :=
  issued (infSt 4 16 t b x y o) s (laneStore 4 16 t h (memEa b x y o 16 s.src))

/-! ### Scalar memory words -/

/-- The effective address of a scalar memory word (R291). -/
def scalarEa (b : BitVec 7) (d : Disp) (r : Regs) : Nat := (r.rdS b.toNat + d.val).toNat

def infLdS (t b : BitVec 7) (d : Disp) : Info :=
  { pipe := .m, reads := [.s b.toNat], writes := [.s t.toNat], counter := .ld, consumes := [.s b.toNat],
    ea := some (fun r _ => scalarEa b d r) }
def infStS (t b : BitVec 7) (d : Disp) : Info :=
  { pipe := .m, reads := [.s t.toNat, .s b.toNat], counter := .st, consumes := [.s b.toNat],
    ea := some (fun r _ => scalarEa b d r) }

/-- Size and extension of the width code of a scalar load (R299). -/
def scalarLoadSize (w : BitVec 3) : Nat := 2 ^ (w.toNat / 2)
def scalarLoadExt (w : BitVec 3) (m : Nat) : Nat :=
  if w.toNat % 2 = 1 then ofInt 64 (signedOf (8 * scalarLoadSize w) m) else m

/-- `ld.W sT, [sB+#d]` (R291, R299). -/
def execLdScalar (t b : BitVec 7) (w : BitVec 3) (d : Disp) (s : State) : Out :=
  issued (infLdS t b d) s (fun s =>
    let n := scalarLoadSize w
    s.accesses (kLoad n) none 0 n true [(s.lead, scalarEa b d s.src)] (fun s go =>
      let ps := go.flatMap (fun x => x.2.2)
      let r := s.piecesRead ps
      (s.noteParts s.lead ps).addLoad [.scalar t.toNat (BitVec.ofNat 64 (scalarLoadExt w r.1)) r.2]))

/-- `st.W sT, [sB+#d]` (R291, R299). -/
def execStScalar (t b : BitVec 7) (w : BitVec 2) (d : Disp) (s : State) : Out :=
  issued (infStS t b d) s (fun s =>
    let n := 2 ^ w.toNat
    s.accesses (kStore n) none 0 n true [(s.lead, scalarEa b d s.src)] (fun s go =>
      s.storeWord (go.map (fun x =>
        (x.1, x.2.1, x.2.2, leBytes n (s.rs t).toNat, s.src.poisS t.toNat)))))

/-! ### Ordered accesses and atomics (R300 to R303) -/

/-- Registers of a value of 32 or 64 bits. -/
def atomWidth (w : BitVec 1) : Nat := 1 + w.toNat

/-- The address in a lane pair. -/
def pairEa (a : BitVec 7) (r : Regs) (l : Nat) : Nat := (r.rdV2 a.toNat l).toNat

def infAtom (d a : BitVec 7) (rd wr : Nat) (c : Cnt) : Info :=
  { pipe := .m, reads := if rd = 0 then [.v a.toNat 2] else [.v a.toNat 2, .v d.toNat rd],
    writes := if wr = 0 then [] else [.v d.toNat wr], counter := c, consumes := [.v a.toNat 2], ea := some (pairEa a) }

/-- An atomic's kind: value-returning atomics are refused outside the windows of a view (R439). -/
def kAtom (n : Nat) : Kind := ⟨.store, n, n, .atom, .refused⟩
def kLdo (n : Nat) : Kind := ⟨.load, n, n, .atom, .read⟩
def kSto (n : Nat) : Kind := ⟨.store, n, n, .atom, .held⟩

/-- What an ordered access of the group brings about at a place, once it has been made (R259 to R262, R267 to R273, R303):
what it reads it may acquire, a write carries the fences before it and may release, and what follows sees what it met. -/
def State.orderAt (s : State) (p : Piece) (j : Joins) (acq rel : Bool) (scope : Nat) : State :=
  let ws := p.loc.words p.n
  let s := if j = .write then s else s.orderRead s.gid (s.syncAt ws)
  let s := if acq then (s.acquireAt p.loc p.n scope).hbAcquire s.gid ws scope else s
  let s := if j = .read then s else s.orderWrite s.gid ws (j == .both)
  let s := if j = .write && s.g.isCompute then s.seeBytes s.gid p.loc p.n else s.seeHome s.gid p.loc p.n
  if rel then (s.releaseAt s.core s.g.die p.loc p.n (j == .both)).hbRelease s.gid ws scope true else s

/-- One lane's atomic: reads, and where `new` gives a value writes it, indivisibly (R302). Answers the old value. -/
def State.atomLane (s : State) (n ea : Nat) (ps : List Piece) (acq rel : Bool) (scope : Nat) (pois : Bool)
    (new : Nat → Option Nat) : State × Nat × Bool :=
  let r := s.piecesRead ps
  let marks := ps.flatMap (fun p => s.poisBytes p (pois || r.2))
  let (s, wrote) := match new r.1 with
    | none => (s, false)
    | some x =>
      (ps.foldl (fun s p => (s.pieceWrite p (sliceBytes (leBytes n x) ea p) false).1) s, true)
  let s := if wrote && (pois || r.2) then s.settlePois marks else s
  let s := ps.foldl (fun s p => s.orderAt p (if wrote then .both else .read) acq (rel && wrote) scope) s
  (s, r.1, r.2)

/-- A word of the atomics, lanes in ascending order (R258); the issuing core's level-1 copies go, written or not (R302). `rd`, `wr`: registers read and written at D. -/
def atomWord (d a : BitVec 7) (sc : BitVec 3) (o : BitVec 2) (w : BitVec 1) (rd : Nat)
    (new : Nat → Nat → Option Nat) (s : State) : State :=
  let n := 4 * atomWidth w
  let acq := o.getLsbD 0
  let rel := o.getLsbD 1
  let val (l : Nat) : Nat := s.src.rdW rd d.toNat l
  s.paired (fun l => (pairEa a s.src l, val l)) (fun s =>
    s.accesses (kAtom n) none 0 n false (s.laneEas (pairEa a s.src)) (fun s go =>
      if rel && go.any (fun x => x.2.2.any (fun p => s.releaseWaits p.loc sc.toNat)) then s.stall
      else
        let (s, ws) := go.foldl (fun (acc : State × List LoadWrite) x =>
          let (s, m, po) := acc.1.atomLane n x.2.1 x.2.2 acq rel sc.toNat (s.src.poisW rd d.toNat x.1) (new (val x.1))
          (x.2.2.foldl State.l1DropPiece s, acc.2 ++ (s.withShadow x.1).flatMap (fun l => laneWrites d.toNat (atomWidth w) l m po))) (s, [])
        s.addLoad ws))

/-- A function on 32 or 64 bits. -/
def wideOp (w : BitVec 1) (f32' : BitVec 32 → BitVec 32 → BitVec 32) (f64' : BitVec 64 → BitVec 64 → BitVec 64)
    (val m : Nat) : Option Nat :=
  if w = 1#1 then some (f64' (BitVec.ofNat 64 m) (BitVec.ofNat 64 val)).toNat
  else some (f32' (BitVec.ofNat 32 m) (BitVec.ofNat 32 val)).toNat

/-- `atom.add` (R301, R302). -/
def execAtomAdd (d a : BitVec 7) (x : BitVec 3) (o : BitVec 2) (w : BitVec 1) (s : State) : Out :=
  issued (infAtom d a (atomWidth w) (atomWidth w) .ld) s (atomWord d a x o w (atomWidth w)
    (wideOp w (fun m v => m + v) (fun m v => m + v)))

/-- `atom.min (signed)` (R301, R302). -/
def execAtomMinI (d a : BitVec 7) (x : BitVec 3) (o : BitVec 2) (w : BitVec 1) (s : State) : Out :=
  issued (infAtom d a (atomWidth w) (atomWidth w) .ld) s (atomWord d a x o w (atomWidth w)
    (wideOp w (fun m v => minS m v) (fun m v => minS m v)))

/-- `atom.max (signed)` (R301, R302). -/
def execAtomMaxI (d a : BitVec 7) (x : BitVec 3) (o : BitVec 2) (w : BitVec 1) (s : State) : Out :=
  issued (infAtom d a (atomWidth w) (atomWidth w) .ld) s (atomWord d a x o w (atomWidth w)
    (wideOp w (fun m v => maxS m v) (fun m v => maxS m v)))

/-- `atom.min (unsigned)` (R301, R302). -/
def execAtomMinN (d a : BitVec 7) (x : BitVec 3) (o : BitVec 2) (w : BitVec 1) (s : State) : Out :=
  issued (infAtom d a (atomWidth w) (atomWidth w) .ld) s (atomWord d a x o w (atomWidth w)
    (wideOp w (fun m v => minU m v) (fun m v => minU m v)))

/-- `atom.max (unsigned)` (R301, R302). -/
def execAtomMaxN (d a : BitVec 7) (x : BitVec 3) (o : BitVec 2) (w : BitVec 1) (s : State) : Out :=
  issued (infAtom d a (atomWidth w) (atomWidth w) .ld) s (atomWord d a x o w (atomWidth w)
    (wideOp w (fun m v => maxU m v) (fun m v => maxU m v)))

/-- `atom.and` (R301, R302). -/
def execAtomAnd (d a : BitVec 7) (x : BitVec 3) (o : BitVec 2) (w : BitVec 1) (s : State) : Out :=
  issued (infAtom d a (atomWidth w) (atomWidth w) .ld) s (atomWord d a x o w (atomWidth w)
    (wideOp w (fun m v => m &&& v) (fun m v => m &&& v)))

/-- `atom.or` (R301, R302). -/
def execAtomOr (d a : BitVec 7) (x : BitVec 3) (o : BitVec 2) (w : BitVec 1) (s : State) : Out :=
  issued (infAtom d a (atomWidth w) (atomWidth w) .ld) s (atomWord d a x o w (atomWidth w)
    (wideOp w (fun m v => m ||| v) (fun m v => m ||| v)))

/-- `atom.xor` (R301, R302). -/
def execAtomXor (d a : BitVec 7) (x : BitVec 3) (o : BitVec 2) (w : BitVec 1) (s : State) : Out :=
  issued (infAtom d a (atomWidth w) (atomWidth w) .ld) s (atomWord d a x o w (atomWidth w)
    (wideOp w (fun m v => m ^^^ v) (fun m v => m ^^^ v)))

/-- `atom.exch` (R301, R302). -/
def execAtomExch (d a : BitVec 7) (x : BitVec 3) (o : BitVec 2) (w : BitVec 1) (s : State) : Out :=
  issued (infAtom d a (atomWidth w) (atomWidth w) .ld) s (atomWord d a x o w (atomWidth w)
    (wideOp w (fun _ v => v) (fun _ v => v)))

/-- `atom.cas` (R301, R302): D holds the value compared and, above it, the value stored. -/
def execAtomCas (d a : BitVec 7) (x : BitVec 3) (o : BitVec 2) (w : BitVec 1) (s : State) : Out :=
  issued (infAtom d a (2 * atomWidth w) (atomWidth w) .ld) s (atomWord d a x o w (2 * atomWidth w)
    (fun v m => let n := 32 * atomWidth w
      if m = v % 2 ^ n then some (v / 2 ^ n) else none))

/-- `atom.add.f32`, `atom.add.f64` (R87, R302): nearest-even, subnormals kept, no flag. -/
def execAtomAddF (d a : BitVec 7) (x : BitVec 3) (o : BitVec 2) (w : BitVec 1) (s : State) : Out :=
  issued (infAtom d a (atomWidth w) (atomWidth w) .ld) s (atomWord d a x o w (atomWidth w)
    (fun v m => some (fAdd (if w = 1#1 then f64 else f32) plainRne m v).1))

/-- `ldo` (R302): served at its home. -/
def execLdo (d a : BitVec 7) (x : BitVec 3) (o : BitVec 2) (w : BitVec 1) (s : State) : Out :=
  issued (infAtom d a 0 (atomWidth w) .ld) s (fun s =>
    let n := 4 * atomWidth w
    s.accesses (kLdo n) none 0 n false (s.laneEas (pairEa a s.src)) (fun s go =>
      let (s, ws) := go.foldl (fun (acc : State × List LoadWrite) y =>
        let (s, m, po) := acc.1.atomLane n y.2.1 y.2.2 (o.getLsbD 0) false x.toNat false (fun _ => none)
        (s, acc.2 ++ (s.withShadow y.1).flatMap (fun l => laneWrites d.toNat (atomWidth w) l m po))) (s, [])
      s.addLoad ws))

/-- One lane's `sto`: held under a world's view, else written at its home (R302, R303, R442). -/
def State.stoLane (s : State) (n ea : Nat) (ps : List Piece) (val : Nat) (rel : Bool) (scope : Nat) (pois : Bool) :
    State × List Nat :=
  if ps.any (fun p => p.hold) then (s.holdOp (.sto ea n (BitVec.ofNat 64 val) (if rel then 2 else 0) scope) pois, [])
  else
    let marks := ps.flatMap (fun p => s.poisBytes p pois)
    let (s, ids) := ps.foldl (fun (acc : State × List Nat) p =>
      let (s, ids) := acc.1.pieceWrite p (sliceBytes (leBytes n val) ea p) false
      (s.plainWrite s.g.die p.loc p.n, acc.2 ++ ids)) (s, [])
    let s := if pois then s.settlePois marks else s
    (ps.foldl (fun s p => s.orderAt p .write false rel scope) s, ids)

/-- `sto` (R302). -/
def execSto (d a : BitVec 7) (x : BitVec 3) (o : BitVec 2) (w : BitVec 1) (s : State) : Out :=
  issued (infAtom d a (atomWidth w) 0 .st) s (fun s =>
    let n := 4 * atomWidth w
    let rel := o.getLsbD 1
    let val (l : Nat) : Nat := s.src.rdW (atomWidth w) d.toNat l
    s.paired (fun l => (pairEa a s.src l, val l)) (fun s =>
      s.accesses (kSto n) none 0 n false (s.laneEas (pairEa a s.src)) (fun s go =>
        if rel && go.any (fun y => y.2.2.any (fun p => !p.hold && s.releaseWaits p.loc x.toNat)) then s.stall
        else
          let undo := s.undoBytes (go.flatMap (fun y => y.2.2))
          let (s, ids) := go.foldl (fun (acc : State × List Nat) y =>
            let (s, ids) := acc.1.stoLane n y.2.1 y.2.2 (val y.1) rel x.toNat (s.src.poisW (atomWidth w) d.toNat y.1)
            (s, acc.2 ++ ids)) (s, [])
          s.countStore (.write ids) undo)))

end Sys2Proof.Machine
end

