-- ==== Sys2Proof/Machine/View.lean ====
section
/-! DEFINITION. Leaving a world and committing a view (R447 to R451, R454). -/

namespace Sys2Proof.Machine

/-- Runs `f` with group `k` as the executing group. -/
def State.asGroup (s : State) (k : Nat) (f : State → State) : State :=
  let me := s.gid
  (f (s.focusOn k)).focusOn me

/-- A flush point of a group: its buffered contributions travel towards their homes (R306, R308). -/
def State.flushFar (s : State) (k : Nat) : State :=
  let up (c : Contrib) : Contrib := { c with place := .inFlight }
  { s with contribs := modWhere (fun c => c.grp == k && c.place == .buffered) up s.contribs }

/-- Contributions of a group that have been neither staged nor folded. -/
def State.farLeft (s : State) (k : Nat) : Bool := s.contribs.any (fun c => c.grp == k && c.place != .staged)

/-- The world of a team whose tag a view is: fork handle and index. -/
def Team.worldOf (t : Team) (v : Nat) : Option (Nat × Nat) :=
  (List.range 8).findSome? (fun h => (t.fork h).bind (fun f => (indexOf (· == v) f.tags).map (fun i => (h, i))))

/-- The end of a `wleave` (R447): once nothing of the group is outstanding its view becomes the parent. -/
def State.leaveEnd (s : State) (k : Nat) : State :=
  match s.getG k with
  | none => s
  | some g =>
    match g.hold, s.team g.team with
    | .leave d _, some t =>
      if g.stcnt != 0 || g.cpcnt != 0 || s.farLeft k then s
      else
        let p := (s.tag g.asid g.view).parent
        s.modG k (fun g => { g with hold := .none, view := p, world := t.worldOf p, r := g.r.wrS d 0 false })
    | _, _ => s

/-! ### Commit (R449) -/

/-- Who commits: who waits for translation, the core and die of its writes, its agent. -/
structure Committer where
  who : ReqWho
  core : Option Nat
  die : Nat
  agent : Nat

/-- A place of view 0 for an access that the device makes; `none` where it waits (R240 to R252). -/
def State.homePlace (s : State) (w : ReqWho) (k : AccKind) (asid va n : Nat) : State × Option Loc :=
  match s.locate k false asid 0 va with
  | (s, .miss) => (s.addReq asid 0 va k 0 w .fresh, none)
  | (s, .wait r) => (s.addReq asid 0 va k 0 w r, none)
  | (s, .at l) =>
    match s.heldBlk none l n with
    | some b => (s.addReq asid 0 va k 0 w (.onBlock b), none)
    | none =>
      match l with
      | .peer _ _ _ =>
        match s.peerTry k asid 0 va with
        | (s, .done) => (s, some l)
        | (s, .wait r) => (s.addReq asid 0 va k 0 w r, none)
        | (s, .lost) => (s, some .gone)
      | _ => (s, some l)

/-- Runs of consecutive numbers in a rising list: first and length. -/
def runsOf : List Nat → List (Nat × Nat)
  | [] => []
  | x :: xs =>
    match runsOf xs with
    | (y, n) :: r => if y = x + 1 then (x, n + 1) :: r else (x, 1) :: (y, n) :: r
    | [] => [(x, 1)]

/-- The place `i` bytes on. -/
def Loc.plus (l : Loc) (i : Nat) : Loc :=
  match l with
  | .spad c o => .spad c (o + i)
  | .reg k b => .reg k (b + i)
  | .row c o => .row c (o + i)
  | .acc c b o => .acc c b (o + i)
  | .mgmt o => .mgmt (o + i)
  | .home a v x => .home a v (x + i)
  | .host p h => .host p (h + i)
  | .peer d x o => .peer d x (o + i)
  | .gone => .gone

/-- What a commit's write brings about besides its bytes: the marks of its block, the signature of its core, and the
acknowledgement it waits for, which it answers. -/
def State.commitMark (s : State) (c : Committer) (l : Loc) (n : Nat) (undo : List (Nat × Byte)) : State × Nat :=
  let s := match l with
    | .home a v x => s.touchHome a v x
    | _ => s
  let s := match c.core with
    | none => s
    | some k => (s.signLoc k l n).l1DropLoc k l n
  s.addStore none c.die (.write []) undo

/-- A plain write of a commit (R449): bytes `rs` from a place on, whose address is `va`. -/
def State.commitNote (s : State) (c : Committer) (l : Loc) (va : Nat) (rs : List (Nat × Nat)) (undo : List (Nat × Byte)) :
    State × Nat :=
  let a : Accessor := { agent := c.agent, core := c.core.getD 0, grp := ((s.getG c.agent).map Group.grp).getD 0,
                        engine := false, pc := 0, lanes := 0, gid := c.agent, clock := none }
  let s := rs.foldl (fun s r =>
    (s.plainWrite c.die (l.plus r.1) r.2).noteAccess a (l.plus r.1) (va + r.1) r.2 true) s
  s.commitMark c l 1 undo

/-- A place for an access that the device makes under view `p`, whose line it brings in; `none` where it waits. -/
def State.devPlace (s : State) (w : ReqWho) (k : AccKind) (asid p va n : Nat) : State × Option Loc :=
  if p = 0 then s.homePlace w k asid va n
  else
    match s.viewFill asid p va with
    | (s, some (.park a v x _ h st)) => (s.addReq a v x k h w st, none)
    | (s, some (.refuse _)) => (s, some .gone)
    | (s, none) =>
      match s.heldBlk none (.home asid p va) n with
      | some b => (s.addReq asid p va k 0 w (.onBlock b), none)
      | none => (s, some (.home asid p va))

/-- Where bytes that a group waits for stand now: under its view while the line is there, else as `locate` finds them. -/
def State.nowAt (s : State) (k : AccKind) (asid v va : Nat) : State × Found :=
  if v = 0 then s.locate k false asid 0 va
  else if (mapGet none s.l2 (lineKey asid v va)).isSome || mapGet 0 s.viewBlk (blkKey asid v va) != 0 then
    (s, .at (.home asid v va))
  else (s, .miss)

/-- Writes one block of view `v` whole into its parent, whose bytes the view then holds unwritten; `none` where it waits. -/
def State.commitBlock (s : State) (c : Committer) (asid v p va : Nat) : State × Option Nat :=
  match s.devPlace c.who .store asid p va 64 with
  | (s, none) => (s, none)
  | (s, some l) =>
    let src : Loc := .home asid v va
    let po := s.locPois src 64
    let undo := s.undoAt l 64
    let s := s.settleUndo src 64
    let s := s.wrBytesFrom l 0 (s.rdBytes src 64)
    let s := match l.pblk 0 with
      | none => s
      | some b => s.setPois b po
    let (s, id) := s.commitNote c l va [(0, 64)] undo
    ({ s with viewBlk := mapSet 0 s.viewBlk (blkKey asid v va) 1 }, some id)

/-- The blocks that a view has written, by address. -/
def State.written (s : State) (asid v : Nat) : List Nat :=
  (s.viewBlk.filter (fun e => inRange e.1 (blkKey asid v 0) (2 ^ 51) && e.2 == 2)).map (fun e => e.1 % 2 ^ 51 * 64)

/-- Step 1 of R449; `false` where it waits. -/
def State.commitBlocks (s : State) (c : Committer) (asid v p : Nat) : State × Bool × List Nat :=
  (s.written asid v).foldl (fun (acc : State × Bool × List Nat) va =>
    if acc.2.1 then
      match acc.1.commitBlock c asid v p va with
      | (s, none) => (s, false, acc.2.2)
      | (s, some id) => (s, true, acc.2.2 ++ [id])
    else acc) (s, true, [])

/-- An entry is held for view `p` (R442, R449). -/
def Team.hold (t : Team) (h : Held) : Team :=
  let last := ((List.range t.held.length).zip t.held).filter (fun x => x.2.view == h.view)
  match last.getLast?, h.op with
  | some (i, ⟨_, .bytes b d, po⟩), .bytes b' d' =>
    if b = b' then { t with held := modNth (fun _ => ⟨h.view, .bytes b (d'.foldl (fun m e => mapPut m e.1 e.2) d), po || h.pois⟩) t.held i }
    else { t with held := t.held ++ [h] }
  | _, _ => { t with held := t.held ++ [h] }

/-- Performs one held entry of a world for group `k` (R449 step 2); `none` where it waits. -/
def State.commitEntry (s : State) (c : Committer) (k tm asid p : Nat) (h : Held) : State × Option (List Nat) :=
  let away (s : State) (o : HeldOp) : State := s.setTeam tm (fun t => t.hold ⟨p, o, h.pois⟩)
  let soil (s : State) (l : Loc) (n : Nat) : State := if h.pois then s.poisonLoc l n else s
  let mine (va : Nat) : Bool := p == 0 || s.ownWindow asid p va
  match h.op with
  | .bytes b d =>
    let here := d.filter (fun e => mine (64 * b + e.1))
    let rest := d.filter (fun e => !mine (64 * b + e.1))
    match here.head? with
    | none => (away s (.bytes b rest), some [])
    | some e0 =>
      match s.devPlace c.who .store asid p (64 * b + e0.1) 1 with
      | (s, none) => (s, none)
      | (s, some l) =>
        let rs := runsOf (here.map (fun e => e.1 - e0.1))
        let undo := rs.flatMap (fun r => s.undoAt (l.plus r.1) r.2)
        let s := if rest.isEmpty then s else away s (.bytes b rest)
        let s := here.foldl (fun s e => s.wrByte l (e.1 - e0.1) e.2) s
        let s := match l.pblk 0 with
          | none => s
          | some q => if h.pois then s.setPois q true else if here.length = 64 then s.setPois q false else s
        let (s, id) := s.commitNote c l (64 * b + e0.1) rs undo
        (s, some [id])
  | .warm a x =>
    if !mine a then (away s h.op, some [])
    else if p = 0 && s.hostPage asid 0 a then (s, some [])
    else
      match s.devPlace c.who .weir asid p a 16 with
      | (s, none) => (s, none)
      | (s, some l) =>
        let w := s.rdWeir l
        let undo := s.undoAt l 16
        let s := s.wrWeir l { w with atgt := bitsOf x.toNat 0 16, btgt := bitsOf x.toNat 16 32, arr := 0, bytes := 0 }
        let (s, id) := (soil (s.plainWrite c.die l 16) l 16).commitMark c l 16 undo
        (s.seeHome c.agent l 16, some [id])
  | .sto a n x o sc =>
    if !mine a then (away s h.op, some [])
    else
      match s.devPlace c.who .store asid p a n with
      | (s, none) => (s, none)
      | (s, some l) =>
        let undo := s.undoAt l n
        let s := (s.wrLoc l n x.toNat).plainWrite c.die l n
        let (s, id) := (soil s l n).commitMark c l n undo
        (s.asGroup k (fun s => s.orderAt ⟨a, n, l, none, false⟩ .write false (o == 2) sc), some [id])

/-- Step 2 of R449: the held entries of `v` in held order; `false` where one waits. -/
def State.commitEntries (s : State) (c : Committer) (k tm asid v p : Nat) : State × Bool × Nat × List Nat :=
  let es := ((s.team tm).map (fun t => t.held.filter (fun h => h.view == v))).getD []
  es.foldl (fun (acc : State × Bool × Nat × List Nat) h =>
    if acc.2.1 then
      match acc.1.commitEntry c k tm asid p h with
      | (s, none) => (s, false, acc.2.2)
      | (s, some ids) =>
        let drop (t : Team) : Team := { t with held := dropFirst (fun x => x.view == v) t.held }
        (s.setTeam tm drop, true, acc.2.2.1 + 1, acc.2.2.2 ++ ids)
    else acc) (s, true, 0, [])

/-- Step 3 of R449: the level-1 blocks of the windows under the parent go. -/
def State.commitL1 (s : State) (asid v p : Nat) : State :=
  { s with l1 := s.l1.filter (fun b => !(inRange b.blk (blkKey asid p 0) (2 ^ 51)
      && (s.tag asid v).windows.any (fun w => inRange (b.blk % 2 ^ 51 * 64) w.1 w.2))) }

/-- Something that a group's commit waits for is outstanding. -/
def State.commitWaits (s : State) (k : Nat) : Bool :=
  s.reqs.any (fun r => match r.who with
    | .commit g => g == k
    | _ => false)

/-- The commit of group `k` goes on as far as it can (R449); its hold ends once every write is acknowledged. -/
def State.commitStep (s : State) (k : Nat) : State :=
  match s.getG k with
  | none => s
  | some g =>
    match g.hold with
    | .commit d h v p n acks =>
      let put (s : State) (x : Hold) : State := s.modG k (fun g => { g with hold := x })
      if v = 0 then
        if s.stores.any (fun x => acks.contains x.id) then s
        else s.modG k (fun g => { g with hold := .none, r := g.r.wrS d (BitVec.ofNat 64 (2 ^ 16 * n)) false })
      else if s.commitWaits k then s
      else
        let c : Committer := ⟨.commit k, some (coreOf k g), g.die, k⟩
        match s.commitBlocks c g.asid v p with
        | (s, false, ids) => put s (.commit d h v p n (acks ++ ids))
        | (s, true, ids) =>
          match s.commitEntries c k g.team g.asid v p with
          | (s, false, m, ids') => put s (.commit d h v p (n + m) (acks ++ ids ++ ids'))
          | (s, true, m, ids') =>
            put ((s.commitL1 g.asid v p).closeFork g.team g.asid h []) (.commit d h 0 p (n + m) (acks ++ ids ++ ids'))
    | _ => s

end Sys2Proof.Machine
end

