-- ==== Sys2Proof/Machine/Sync.lean ====
section
/-! DEFINITION. Far reductions and epoch words, cofferdams, weir words, fences and the team barrier: majors `0x37`,
`0x38` fn 0 to 7 and `tbar` (R177, R284 to R287, R304 to R317), with the events that end what they wait for. -/

namespace Sys2Proof.Machine

/-! ### Far reductions (R305 to R308) -/

def infRfar (w : Nat) (a b : BitVec 7) : Info :=
  { pipe := .m, reads := [.v a.toNat 2, .v b.toNat w], counter := .st, consumes := [.v a.toNat 2], ea := some (pairEa a) }

/-- Contributions in the buffer of a quarter. -/
def State.buffered (s : State) (core q : Nat) : List Contrib :=
  s.contribs.filter (fun c => c.place == .buffered && c.core == core && c.quarter == q)

/-- The key of a lane's next contribution (R305). -/
def State.farKey (s : State) (l : Nat) : Nat :=
  ((s.myTeam.map Team.lin).getD 0) % 2 ^ 32 * 2 ^ 32 + s.g.grp % 32 * 2 ^ 27 + l % 32 * 2 ^ 22 + mapGet 0 s.g.lseq l

/-- A far reduction (R307, R308): its lanes never park; a word whose contributions do not fit waits. -/
def farWord (fn w : Nat) (a b : BitVec 7) (s : State) : State :=
  let n := 4 * w
  let val (l : Nat) : Nat := s.src.rdW w b.toNat l
  let xs := s.laneEas (pairEa a s.src)
  let kd : Kind := ⟨.store, n, n, .far, .refused⟩
  s.paired (fun l => (pairEa a s.src l, val l)) (fun s =>
    match s.checkAccess kd (if s.g.epa.isNone then some 3 else none) n false xs with
    | some t => s.trap t
    | none =>
      if 64 < (s.buffered s.core s.g.quarter).length + xs.length then s.stall
      else
        let (s, id) := s.addStore (some s.gid) s.g.die (.far xs.length) []
        let s := s.setG (fun g => { g with stcnt := g.stcnt + 1 })
        let s := xs.foldl (fun s x =>
          let v := if s.g.view != 0 then s.viewOver s.g.asid x.2 8 s.g.view else 0
          let (s, k) := s.fresh
          let c : Contrib := { id := k, asid := s.g.asid, view := v, va := x.2, fn := fn, val := BitVec.ofNat 64 (val x.1),
                               pois := s.src.poisW w b.toNat x.1, key := s.farKey x.1, dom := none,
                               epa := s.g.epa.getD 0, grp := s.gid, core := s.core, quarter := s.g.quarter,
                               store := id, place := .buffered }
          let h := s.homeKey s.g.asid v x.2
          { s with contribs := s.contribs ++ [c] }.signBlk s.core (blkKey h.1 h.2.1 h.2.2)) s
        s.setG (fun g => { g with lseq := (lanesOf s.iss.eff).foldl (fun m l =>
          mapMod 0 m l (fun x => (x + 1) % 2 ^ 22)) g.lseq }))

/-- `rfar.add.i32` (R307). -/
def execRfarAddI32 (a b : BitVec 7) (s : State) : Out := issued (infRfar 1 a b) s (farWord 0 1 a b)
/-- `rfar.add.i64` (R307). -/
def execRfarAddI64 (a b : BitVec 7) (s : State) : Out := issued (infRfar 2 a b) s (farWord 1 2 a b)
/-- `rfar.min.i32` (R307). -/
def execRfarMinI32 (a b : BitVec 7) (s : State) : Out := issued (infRfar 1 a b) s (farWord 2 1 a b)
/-- `rfar.max.i32` (R307). -/
def execRfarMaxI32 (a b : BitVec 7) (s : State) : Out := issued (infRfar 1 a b) s (farWord 3 1 a b)
/-- `rfar.min.n32` (R307). -/
def execRfarMinN32 (a b : BitVec 7) (s : State) : Out := issued (infRfar 1 a b) s (farWord 4 1 a b)
/-- `rfar.max.n32` (R307). -/
def execRfarMaxN32 (a b : BitVec 7) (s : State) : Out := issued (infRfar 1 a b) s (farWord 5 1 a b)
/-- `rfar.and.b32` (R307). -/
def execRfarAndB32 (a b : BitVec 7) (s : State) : Out := issued (infRfar 1 a b) s (farWord 6 1 a b)
/-- `rfar.or.b32` (R307). -/
def execRfarOrB32 (a b : BitVec 7) (s : State) : Out := issued (infRfar 1 a b) s (farWord 7 1 a b)
/-- `rfar.xor.b32` (R307). -/
def execRfarXorB32 (a b : BitVec 7) (s : State) : Out := issued (infRfar 1 a b) s (farWord 8 1 a b)
/-- `rfar.add.f32` (R307). -/
def execRfarAddF32 (a b : BitVec 7) (s : State) : Out := issued (infRfar 1 a b) s (farWord 9 1 a b)
/-- `rfar.add.f64` (R307). -/
def execRfarAddF64 (a b : BitVec 7) (s : State) : Out := issued (infRfar 2 a b) s (farWord 10 2 a b)
/-- `rfar.min.f32` (R307). -/
def execRfarMinF32 (a b : BitVec 7) (s : State) : Out := issued (infRfar 1 a b) s (farWord 11 1 a b)
/-- `rfar.max.f32` (R307). -/
def execRfarMaxF32 (a b : BitVec 7) (s : State) : Out := issued (infRfar 1 a b) s (farWord 12 1 a b)

/-! ### Epoch words (R306) -/

/-- A word whose address stands in scalar A. -/
def infAddr (a : BitVec 7) (c : Cnt) : Info :=
  { pipe := .m, reads := [.s a.toNat], counter := c, consumes := [.s a.toNat], ea := some (fun r _ => (r.rdS a.toNat).toNat) }

/-- A word with address A and destination D. -/
def infAddrD (d a : BitVec 7) (c : Cnt) : Info := { infAddr a c with writes := [.s d.toNat] }

/-- The one access of a group-shared word at s[A]. -/
def State.sharedEa (s : State) (a : BitVec 7) : List (Nat × Nat) := [(s.lead, (s.rs a).toNat)]

/-- `rep.open` (R306). -/
def execRepOpen (a : BitVec 7) (s : State) : Out :=
  issued (infAddr a .none) s (fun s =>
    s.accesses ⟨.weir, 32, 32, .epoch, .refused⟩ (if s.g.epa.isSome then some 4 else none) 0 32 true (s.sharedEa a)
      (fun s _ => s.setG (fun g => { g with epa := some (s.rs a).toNat, lseq := [] })))

/-- `rep.flush` (R306). -/
def execRepFlush (s : State) : Out :=
  issued (inf0 .m) s (fun s => if s.g.epa.isNone then s else s.flushFar s.gid)

/-- Whether some word of the group is refused under its view whatever its address (R439). -/
def State.refuse5 (s : State) (ea : Nat) (k : State → State) : State :=
  if s.g.view = 0 then k s else s.trap (s.kindTrap s.lead ea 5 s.iss.eff true)

/-- The closing of the open epoch of the executing group: a flush point, then an arrival that STORE_ACK performs once
every contribution has been staged or folded; the epoch is open until then (R306). -/
def State.closeEpoch (s : State) : State :=
  match s.g.epa with
  | none => s
  | some e =>
    let v := if s.g.view != 0 then s.viewOver s.g.asid e 8 s.g.view else 0
    (s.flushFar s.gid).countStore (.close s.g.asid v e) []

/-- `rep.close` (R306). -/
def execRepClose (s : State) : Out :=
  issued { inf0 .m with counter := .st } s State.closeEpoch

/-! ### Cofferdams (R284 to R287, R311, R312) -/

def kBlock : Kind := ⟨.store, 1, 1, .block, .read⟩

/-- The key under which the executing group names a block. -/
def State.damReq (s : State) (ea : Nat) : Nat := blkKey s.g.asid s.g.view ea

/-- The place of the block of a cofferdam. -/
def damHome (b : Nat) : Loc := .home (b / 4 * 64 / 2 ^ 57 / 64) (b / 4 * 64 / 2 ^ 57 % 64) (b / 4 * 64 % 2 ^ 57)

/-- The cofferdams that stand, of a group or of a core. -/
def State.damsOf (s : State) (p : Dam → Bool) : List Dam := s.dams.filter (fun d => !d.breached && p d)

/-- Regions where a take is refused (R295, R439). -/
def State.damRefused (s : State) (ea : Nat) : Bool :=
  onChip ea || inTable ea || (s.g.view != 0 && !s.ownWindow s.g.asid s.g.view ea) || s.hostPage s.g.asid 0 ea

def State.putS (s : State) (d : BitVec 7) (x : Nat) : State := s.setR (fun r => r.wrS d.toNat (BitVec.ofNat 64 x) false)

/-- The grant of block `b` to a group (R284): the lease starts and the block leaves the core's level-1; what is left of an
earlier breach goes, and a poisoned block is breached at once (R286, R312). -/
def State.grantDam (s : State) (k b req lease : Nat) : State :=
  match s.getG k with
  | none => s
  | some g =>
    let c := coreOf k g
    let (s, id) := s.fresh
    let x : Dam := { id := id, blk := b, grp := k, core := c, ends := (s.coreSt c).cyc + lease, req := req, buf := [],
                     pois := false, breached := s.isPois b }
    let old (d : Dam) : Bool := d.breached && d.grp == k && d.blk == b
    ({ s with dams := s.dams.filter (fun d => !old d) ++ [x] }.l1DropBlk c req).l1DropLoc c
      (damHome b) 64

/-- The core holds all the cofferdams that it may (R287). -/
def State.damsFull (s : State) (core : Nat) : Bool := 16 ≤ (s.damsOf (fun x => x.core == core)).length

/-- `dam.take` (R287, R311): the lease is 8 b cycles. A second take on a full core is BUSY by R287 and LIMIT by R311: either
(log 30). -/
def execDamTake (d a b : BitVec 7) (s : State) : Out :=
  issued (infAddrD d a .none) s (fun s =>
    let ea := (s.rs a).toNat
    let mine := (s.damsOf (fun x => x.grp == s.gid)).length
    match s.checkAccess kBlock none 1 true (s.sharedEa a) with
    | some t => s.trap t
    | none =>
      if s.damRefused ea then s.putS d 3
      else if 2 ≤ mine then s.putS d 2
      else
        s.accesses kBlock none 0 1 true (s.sharedEa a) (fun s go =>
          let l : Option Loc := (go.flatMap (fun x => x.2.2)).head?.map (fun p => p.loc)
          match l.bind (fun l => l.pblk 0) with
          | none => s.putS d 3
          | some blk =>
            match l with
            | some (.home _ _ _) =>
              if mine = 1 then
                if s.blkTaken blk then s.putS d 1
                else if s.damsFull s.core then
                  let (s, x) := s.choose 2
                  s.putS d (1 + x)
                else (s.grantDam s.gid blk (s.damReq ea) (8 * b.toNat)).putS d 0
              else (s.setG (fun g => { g with hold := .dam d.toNat (alignDown ea 64) (8 * b.toNat) s.iss.chainPc })).due
                (.damGrant s.gid)
            | _ => s.putS d 3))

/-- DAM_GRANT (R284, R287): a take joins the queue of its block, or is granted at its head; it first waits while its core
holds 16. Where the block has lost its place the chain issues again. -/
def execDamGrant (g : Nat) (s : State) : Out :=
  match s.getG g with
  | none => .next s
  | some x =>
    match x.hold with
    | .dam d addr lease _ =>
      let v := if x.view != 0 then s.viewOver x.asid addr 8 x.view else 0
      if s.damsFull (coreOf g x) then .next s
      else
        match s.nowAt .store x.asid v addr with
        | (s, .at (.home a w h)) =>
          let b := homeBlk a w h
          let mine (r : Req) : Bool := r.who == .take g && r.state == .onBlock b
          if s.blkTaken b || !((s.reqs.find? (fun r => r.state == .onBlock b)).map mine).getD true then
            .next (if s.reqs.any mine then s else (s.leaveQueue g).addReq x.asid v addr .store 0 (.take g) (.onBlock b))
          else
            let other (r : Req) : Bool := r.who != .take g
            let s := { s with reqs := s.reqs.filter other }
            .next ((s.grantDam g b (blkKey x.asid x.view addr) lease).modG g (fun g =>
              { g with hold := .none, r := g.r.wrS d 0 false }))
        | (s, .at _) => .next ((s.leaveQueue g).modG g (fun g => { g with hold := .none, r := g.r.wrS d 3 false }))
        | (s, _) => .next ((s.leaveQueue g).modG g Group.abandon)
    | _ => .next s

/-- DAM_LEASE_EXPIRY (R286): a lease that has run out breaches its cofferdam. -/
def execDamLeaseExpiry (k : Nat) (s : State) : Out :=
  .next (s.breachDams (fun d => d.id == k && d.ends ≤ (s.coreSt d.core).cyc))

/-- The cofferdam of the executing group on the block that an address names: the one it holds, else one breached. -/
def State.findDam (s : State) (ea : Nat) : Option Dam :=
  let mine (d : Dam) : Bool := d.grp == s.gid && d.req == s.damReq ea
  (s.dams.find? (fun d => mine d && !d.breached)).or (s.dams.find? mine)

/-- `dam.chk` (R311). -/
def execDamChk (d a : BitVec 7) (s : State) : Out :=
  issued (infAddrD d a .none) s (fun s =>
    match s.checkAccess kBlock none 1 true (s.sharedEa a) with
    | some t => s.trap t
    | none =>
      match s.findDam (s.rs a).toNat with
      | none => s.putS d 5
      | some x =>
        if x.breached then s.putS d 4
        else s.putS d (min 512 (x.ends - (s.coreSt s.core).cyc) * 2 ^ 32))

/-- The commit of buffered stores as one write, which is part of no race (R281, R285, R403). -/
def State.commitDam (s : State) (d : Dam) : State :=
  let l := damHome d.blk
  if d.buf.isEmpty then s
  else
    let s := d.buf.foldl (fun s e => s.wrByte l e.1 e.2) s
    let s := (match l with
      | .home a v x => s.touchHome a v x
      | _ => s).signLoc s.core l 64
    let s := (runsOf (d.buf.map (·.1))).foldl (fun s r =>
      ((s.plainWrite s.g.die (l.plus r.1) r.2).noteOrder s.gid (l.plus r.1) r.2 .write).seeHome s.gid (l.plus r.1) r.2) s
    if d.pois then s.setPois d.blk true else if d.buf.length = 64 then s.setPois d.blk false else s

/-- `dam.end` (R311). -/
def execDamEnd (d a : BitVec 7) (s : State) : Out :=
  issued (infAddrD d a .none) s (fun s =>
    match s.checkAccess kBlock none 1 true (s.sharedEa a) with
    | some t => s.trap t
    | none =>
      match s.findDam (s.rs a).toNat with
      | none => s.putS d 5
      | some x =>
        let s := { s with dams := s.dams.filter (fun y => y.id != x.id) }
        if x.breached then s.putS d 4 else (((s.commitDam x).l1DropLoc s.core (damHome x.blk) 64).releaseBlk x.blk).putS d 0)

/-! ### Weir words (R313 to R316) -/

def kWeir : Kind := ⟨.weir, 16, 16, .weir, .refused⟩
def kWarm : Kind := ⟨.weir, 16, 16, .weir, .held⟩
def kWeirRead : Kind := ⟨.load, 16, 16, .weir, .read⟩

/-- The poison-consumed trap of a poisoned weir that scalar `a` names (R404). -/
def State.weirPoison (s : State) (a ea : Nat) : State :=
  s.trap { s.trapOf 13 s.iss.pc.toNat s.iss.word.toNat (256 + a) s.iss.eff.toNat with
           lane := lowestLane s.iss.eff, addr := ea }

/-- The group has changed a weir: its core's level-1 copies go and the block is signed (R258, R271). -/
def State.wroteWeir (s : State) (p : Piece) : State := (s.l1DropPiece p).signLoc s.core p.loc 16

/-- `warm` (R316). -/
def execWarm (a b : BitVec 7) (s : State) : Out :=
  issued { infAddr a .st with reads := [.s a.toNat, .s b.toNat] } s (fun s =>
    s.accesses kWarm none 0 16 true (s.sharedEa a) (fun s go =>
      let x := s.rs b
      let undo := s.undoBytes (go.flatMap (fun y => y.2.2))
      let s := (go.flatMap (fun y => y.2.2)).foldl (fun s p =>
        if p.hold then s.holdOp (.warm p.va x) (s.src.poisS b.toNat)
        else
          let w := s.rdWeir p.loc
          let s := (s.wrWeir p.loc { w with atgt := bitsOf x.toNat 0 16, btgt := bitsOf x.toNat 16 32, arr := 0, bytes := 0 }).wroteWeir p
          let s := (s.plainWrite s.g.die p.loc 16).orderAt p .write false false 0
          if s.src.poisS b.toNat then s.poisonLoc p.loc 16 else s) s
      s.countStore (.write []) undo))

/-- The value of a weir's phase, and whether the weir is poisoned. -/
def State.weirAt (s : State) (ps : List Piece) : Option (Piece × Weir × Bool) :=
  ps.head?.map (fun p => (p, s.rdWeir p.loc, s.locPois p.loc 16))

/-- A wait or a probe reads the weir that scalar `a` names at `ea`: a poisoned weir traps before a watchpoint halts the
lanes (R401, R404). -/
def State.readWeir (s : State) (kd : Kind) (a ea : Nat) (f : State → Piece → Weir → State) : State :=
  let xs := [(s.lead, ea)]
  let seen (x : Except Stop (List Piece)) : Bool := match x with
    | .ok ps => ps.any (fun p => s.locPois p.loc 16)
    | .error _ => false
  if (s.checkAccess kd none 16 true xs).isNone && seen (s.resolve kd 0 ea 16).2 then s.weirPoison a ea
  else
    s.accesses kd none 0 16 true xs (fun s go =>
      match s.weirAt (go.flatMap (fun y => y.2.2)) with
      | none => s
      | some (p, w, po) => if po then s.weirPoison a ea else f s p w)

/-- `warr` (R316): `n + 1` arrivals. An update that waits for a close gives the phase once it is made (R309). -/
def execWarr (d a : BitVec 7) (x : BitVec 3) (n : BitVec 4) (s : State) : Out :=
  issued (infAddrD d a .ld) s (fun s =>
    s.accesses kWeir none 0 16 true (s.sharedEa a) (fun s go =>
      match s.weirAt (go.flatMap (fun y => y.2.2)) with
      | none => s
      | some (p, w, po) =>
        if s.releaseWaits p.loc x.toNat then s.stall
        else
          let ld : List LoadWrite := [.scalar d.toNat (BitVec.ofNat 64 w.phase) po]
          let done (s : State) : State := (s.wroteWeir p).orderAt p .both false true x.toNat
          if s.weirClosing p.loc then
            let (s, k) := s.fresh
            (done (s.weirUpdate p.loc (n.toNat + 1) 0 false (some k))).addLoadLate ld (some k)
          else (done (s.weirUpdate p.loc (n.toNat + 1) 0 false none)).addLoad ld))

/-- `wwait` (R316). -/
def execWwait (x : BitVec 3) (a b : BitVec 7) (s : State) : Out :=
  issued { infAddr a .none with reads := [.s a.toNat, .s b.toNat] } s (fun s =>
    s.readWeir kWeirRead a.toNat (s.rs a).toNat (fun s p w =>
      let ph := (s.rs b).extractLsb' 0 32
      if passed w.phase ph.toNat then s.orderAt p .read true false x.toNat
      else s.setG (fun g => { g with hold := .wwait (s.rs a).toNat ph x.toNat s.iss.chainPc })))

/-- `wprobe` (R316). -/
def execWprobe (d a : BitVec 7) (x : BitVec 3) (s : State) : Out :=
  issued (infAddrD d a .ld) s (fun s =>
    s.readWeir kWeirRead a.toNat (s.rs a).toNat (fun s p w =>
      (s.orderAt p .read true false x.toNat).addLoad
        [.scalar d.toNat (BitVec.ofNat 64 (w.phase * 2 ^ 32 + w.bytes)) false]))

/-! ### The team barrier (R177) -/

def infTbar (a : BitVec 7) : Info :=
  { pipe := .s, base := false, reads := [.s a.toNat], consumes := [.s a.toNat],
    ea := some (fun r _ => localBase + (r.rdS a.toNat).toNat) }

/-- `tbar` (R177); an offset of 1 MiB or more lies outside the scratchpad window, wherever the sum points (DESIGN CHOICE,
log 49). -/
def execTbar (a : BitVec 7) (s : State) : Out :=
  issued (infTbar a) s (fun s =>
    let off := (s.rs a).toNat
    let ea := localBase + off
    if 0x100000 ≤ off then s.trap (s.trapOf 8 s.iss.pc.toNat (ea % 2 ^ 64) 1 0)
    else
      s.readWeir ⟨.weir, 16, 16, .weir, .read⟩ a.toNat ea (fun s p w =>
        if s.releaseWaits p.loc 1 then s.stall
        else
          let s := ((s.weirUpdate p.loc 1 0 false none).wroteWeir p).orderAt p .both false true 1
          if passed (s.rdWeir p.loc).phase w.phase then s.orderAt p .read true false 1
          else s.setG (fun g => { g with hold := .tbar off (BitVec.ofNat 32 w.phase) })))

/-- The team of a group is off its core, or on its way from or to it (R418, R427). -/
def State.away (s : State) (k : Nat) : Bool :=
  match (s.getG k).bind (fun g => if g.isCompute then s.team g.team else none) with
  | some t => t.busy == 2 || (match t.place with
    | .saved _ _ => true
    | _ => false)
  | none => false

/-- The hold of a wait on the weir at `l` ends with its acquire once the phase has passed (R315). -/
def State.weirWaitAt (s : State) (g va : Nat) (l : Loc) (ph sc : Nat) : State :=
  if (s.heldBlk (some g) l 16).isSome || !passed (s.rdWeir l).phase ph then s
  else s.asGroup g (fun s => (s.setG (fun g => { g with hold := .none })).orderAt ⟨va, 16, l, none, false⟩ .read true false sc)

/-- WEIR_WAIT_END (R177, R316): the end of the hold of a `wwait` or `tbar`. The chain of a `wwait` issues again where its
weir is poisoned, which takes the trap, or where the weir has lost its place. -/
def execWeirWaitEnd (g : Nat) (s : State) : Out :=
  match s.getG g with
  | none => .next s
  | some x =>
    match x.hold with
    | .tbar off ph =>
      match if s.away g then none else (s.team x.team).map (fun t => t.spad off) with
      | none => .next s
      | some l => .next (s.weirWaitAt g (localBase + off) l ph.toNat 1)
    | .wwait addr ph sc _ =>
      if onChip addr then
        match s.onChipLoc { lane := true, prv := x.r.prv, team := if x.isCompute then some x.team else none,
                            core := coreOf g x } addr 16 with
        | .ok l => .next (if s.locPois l 16 then s.modG g Group.abandon else s.weirWaitAt g addr l ph.toNat sc)
        | .error _ => .next (s.modG g Group.abandon)
      else
        match s.nowAt .load x.asid (if x.view != 0 then s.viewOver x.asid addr 8 x.view else 0) addr with
        | (s, .at l) => .next (if s.locPois l 16 then s.modG g Group.abandon else s.weirWaitAt g addr l ph.toNat sc)
        | (s, _) => .next (s.modG g Group.abandon)
    | .leave _ _ => .next (s.leaveEnd g)
    | .commit _ _ _ _ _ _ => .next (s.commitStep g)
    | _ => .next s

/-! ### Fences (R266, R274, R317) -/

/-- An acquire fence merges every known watermark (R274). -/
def State.mergeKnown (s : State) : State :=
  if s.g.isCompute then s.setCore s.core (fun c => { c with kclk := clkMerge c.kclk (s.die s.g.die).known }) else s

/-- `fence.acq` (R274). -/
def execFenceAcq (x : BitVec 3) (s : State) : Out :=
  issued (inf0 .m) s (fun s => ((s.l1DropAll s.core).mergeKnown).hbAcqFence s.gid x.toNat)

/-- Whether `M_d` covers an epoch. -/
def State.marked (s : State) (d e : Nat) : Bool :=
  let m := s.watermark d
  m == e || passed m e

/-- `fence.rel` (R274): the group is held until `M_d` covers the old epoch. -/
def execFenceRel (x : BitVec 3) (s : State) : Out :=
  issued (inf0 .m) s (fun s =>
    if !s.g.isCompute then
      if s.g.stcnt != 0 then s.stall else s.hbRelFence s.gid x.toNat
    else if 2 ^ 29 ≤ ((s.die s.g.die).epoch + 2 ^ 32 - s.watermark s.g.die) % 2 ^ 32 then s.stall
    else
      let d := s.g.die
      let e := (s.die d).epoch
      let s := (s.bumpEpoch d).hbRelFence s.gid x.toNat
      if s.marked d e then s else s.setG (fun g => { g with hold := .fenceRel d e }))

/-- What a full fence does as a release fence and an acquire fence at its issue (R266): the group's earlier accesses have
been issued, and it issues nothing until the fence ends. -/
def State.fullFence (s : State) (sc : Nat) : State :=
  let s := s.mergeKnown.hbRelFence s.gid sc
  let s := if s.g.isCompute then s.bumpEpoch s.g.die else s
  s.hbAcqFence s.gid sc

/-- A full fence has done what it waits for (R266, R274): every access of the group has been performed, and `M_d` covers
the old epoch. -/
def State.fenceOver (s : State) (g : Group) (d e : Nat) : Bool :=
  g.ldcnt == 0 && g.stcnt == 0 && (!g.isCompute || s.marked d e)

/-- The end of a full fence: level-1 is emptied, and what the dies have published meanwhile is known. -/
def State.fenceEnd (s : State) : State := (s.l1DropAll s.core).mergeKnown

/-- `fence.full` (R266): the accesses of the group before it are performed first. -/
def execFenceFull (x : BitVec 3) (s : State) : Out :=
  issued (inf0 .m) s (fun s =>
    if s.g.isCompute && 2 ^ 29 ≤ ((s.die s.g.die).epoch + 2 ^ 32 - s.watermark s.g.die) % 2 ^ 32 then s.stall
    else
      let e := (s.die s.g.die).epoch
      let s := s.fullFence x.toNat
      if s.fenceOver s.g s.g.die e then s.fenceEnd else s.setG (fun g => { g with hold := .fenceFull g.die e }))

/-- Holds that what has completed brings to an end (R266, R270, R271, R274). -/
def State.holdDone (s : State) (k : Nat) (g : Group) : State :=
  match g.hold with
  | .fenceRel d e => if s.marked d e then s.modG k (fun g => { g with hold := .none }) else s
  | .fenceFull d e =>
    if s.fenceOver g d e && !s.away k then
      s.asGroup k (fun s => (s.setG (fun g => { g with hold := .none })).fenceEnd)
    else s
  | .acquire c sig since =>
    if s.allCovered g.die c && (s.die g.die).sweep.isNone && !s.away k then
      let s := if g.isCompute then s.setDie g.die (fun d =>
        { d with waitTicks := min (2 ^ 32 - 1) (d.waitTicks + (s.tick - since)) }) else s
      s.asGroup k (fun s => (s.setG (fun g => { g with hold := .none })).mergeClock s.core s.g.die c sig)
    else s
  | .leave _ _ => s.leaveEnd k
  | .commit _ _ _ _ _ _ => s.commitStep k
  | _ => s

def State.settleHolds (s : State) : State := s.groups.foldl (fun s e => s.holdDone e.1 e.2) s

end Sys2Proof.Machine
end

