-- ==== Sys2Proof/Machine/Cache.lean ====
section
/-! DEFINITION. Cache control and pins, and the events of level-2, of pins and of table invalidations: major `0x38` fn 8
and 9 (R202, R219 to R221, R243, R248, R318, R319, R440). -/

namespace Sys2Proof.Machine

/-- The checks of a word whose address names a block, line or region; operations 2 to 4 of `cctl` and `pin` are refused
under a view (R439). -/
def State.named38 (s : State) (a : BitVec 7) (refuse : Bool) (f : State → Nat → State) : State :=
  match s.checkAccess { kBlock with k := .load } (if refuse && s.g.view != 0 then some 5 else none) 1 true (s.sharedEa a) with
  | some t => s.trap t
  | none => f s (s.rs a).toNat

/-- `cctl.l1b` (R318). -/
def execCctlL1b (a : BitVec 7) (s : State) : Out :=
  issued (infAddr a .none) s (fun s => s.named38 a false (fun s ea =>
    s.l1DropBlk s.core (blkKey s.g.asid (s.viewOver s.g.asid ea 8 s.g.view) ea)))

/-- `cctl.l1all` (R318). -/
def execCctlL1all (s : State) : Out := issued (inf0 .m) s (fun s => s.l1Drop s.core (fun _ => true))

/-- The status of a word as a load writes it. -/
def State.status (s : State) (d : BitVec 7) (x : Nat) : State := s.addLoad [.scalar d.toNat (BitVec.ofNat 64 x) false]

/-- `cctl.wbl` (R318): the line is clean, its bytes in the frame. -/
def execCctlWbl (d a : BitVec 7) (s : State) : Out :=
  issued (infAddrD d a .ld) s (fun s => s.named38 a true (fun s ea =>
    let k := s.homeKey s.g.asid 0 ea
    let lk := lineKey k.1 k.2.1 k.2.2
    match if onChip ea then none else mapGet none s.l2 lk with
    | some l =>
      if l.dirty then ({ s with l2 := mapSet none s.l2 lk (some { l with dirty := false }) }).status d 0 else s.status d 1
    | none => s.status d 1))

/-- The key that operations 3 and 4 act on: s[D] names it where PRV is at least 1 (R318). -/
def State.cctlKey (s : State) (d : BitVec 7) : Nat × Nat :=
  let x := (s.rs d).toNat
  if 1 ≤ s.g.r.prv then (bitsOf x 0 10, bitsOf x 16 6) else (s.g.asid, s.g.view)

/-- Acts on the region's frame; a frame in STATE 2 or 3, or with a write-back under way, is awaited first (R318). -/
def State.onFrame (s : State) (d : BitVec 7) (key : Nat × Nat) (ea : Nat) (f : State → Nat → Nat → State) : State :=
  if onChip ea then s.status d 1
  else
    let k := s.homeKey key.1 key.2 ea
    let st := s.stackOf k.1 k.2.2
    match s.findFrame st k.1 k.2.1 k.2.2 with
    | none => s.status d 1
    | some fr =>
      let fk := frameKey st fr
      if (s.frame fk).state != 1 || s.spills.any (fun x => x.fk == fk) then s.stall else f s st fr

/-- A frame whose data no backing takes: those of the table region and of a view (R228, R440). -/
def Frame.unbacked (e : Frame) : Bool := e.table || e.view != 0

/-- The write-back of a frame begins; its status comes at its end (R247, R318, R383). -/
def State.writeBack (s : State) (d : BitVec 7) (st f : Nat) (free : Bool) : State :=
  let fk := frameKey st f
  let e := s.frame fk
  let (s, id) := s.fresh
  let s := if free then s.setFrame fk (fun e => { e with state := 3 }) else s
  let stamp := s.stampFor (s.gridOfWho (.lanes s.gid 0)) e.asid (e.vpn * 2 ^ 16)
  (s.spillStart (Spill.new id fk free true false false stamp) false).addLoadLate [.scalar d.toNat 0 false] (some id)

/-- `cctl.wbf` (R318). -/
def execCctlWbf (d a : BitVec 7) (s : State) : Out :=
  issued (infAddrD d a .ld) s (fun s => s.named38 a true (fun s ea =>
    s.onFrame d (s.cctlKey d) ea (fun s st f =>
      let e := s.frame (frameKey st f)
      if e.unbacked then s.status d (if e.dirty = 0 then 0 else 3) else s.writeBack d st f false)))

/-- The level-1 blocks of a region, in every core, and its frame go (R318). -/
def State.releaseFrame (s : State) (st f : Nat) : State :=
  let e := s.frame (frameKey st f)
  let lo := blkKey e.asid e.view (e.vpn * 2 ^ 16)
  { s with l1 := s.l1.filter (fun b => !inRange b.home lo 1024) }.freeFrame st f

/-- `cctl.rel` (R318): a TABLE frame goes without write-back. -/
def execCctlRel (d a : BitVec 7) (s : State) : Out :=
  issued { infAddrD d a .ld with need := .prv 1 } s (fun s => s.named38 a true (fun s ea =>
    s.onFrame d (s.cctlKey d) ea (fun s st f =>
      let e := s.frame (frameKey st f)
      if !e.unbacked then s.writeBack d st f true
      else if s.pinned e.asid e.vpn then s.status d 2
      else if e.dirty != 0 && !e.table then s.status d 3
      else (s.releaseFrame st f).status d 0)))

/-! ### Pins (R219 to R221, R319) -/

/-- The PIN window of the executing group's grid that holds an address: grid and index. -/
def State.pinWindow (s : State) (ea : Nat) : Option (Nat × Nat × Window) :=
  match s.myTeam, s.myGrid with
  | some t, some g =>
    (((List.range g.windows.length).zip g.windows).find? (fun w => w.2.kind == 1 && w.2.has ea)).map
      (fun w => (t.grid, w.1, w.2))
  | _, _ => none

def State.setWindow (s : State) (g i : Nat) (f : Window → Window) : State :=
  s.setGrid g (fun x => { x with windows := modNth f x.windows i })

/-- A pin lapses (R221). -/
def State.lapsePin (s : State) (g i : Nat) : State :=
  { s with pins := s.pins.filter (fun p => p.by_ != PinBy.window g i) }.setWindow g i (fun w => { w with lapsed := true })

/-- `pin.reload` (R319). -/
def execPinReload (d a : BitVec 7) (s : State) : Out :=
  issued (infAddrD d a .ld) s (fun s => s.named38 a true (fun s ea =>
    match s.pinWindow ea with
    | none => s.status d 1
    | some (g, i, w) =>
      if w.lapsed then s.status d 2 else (s.setWindow g i (fun w => { w with fade := w.fade0 })).status d 0))

/-- `pin.end` (R319). -/
def execPinEnd (d a : BitVec 7) (s : State) : Out :=
  issued (infAddrD d a .ld) s (fun s => s.named38 a true (fun s ea =>
    match s.pinWindow ea with
    | none => s.status d 1
    | some (g, i, _) => (s.lapsePin g i).status d 0))

/-- The range of `pin.set` and `pin.clr` (R319). -/
def State.pinRange (s : State) (a : BitVec 7) : Pin :=
  let x := (s.rs a).toNat
  ⟨s.g.asid, x / 2 ^ 16, x % 2 ^ 16 + 1, .pinSet⟩

/-- `pin.set` (R319). -/
def execPinSet (d a : BitVec 7) (s : State) : Out :=
  issued { infAddrD d a .ld with need := .prv 1 } s (fun s => s.named38 a true (fun s _ =>
    match s.addPin (s.pinRange a) with
    | (s, true) => s.status d 0
    | (s, false) => s.status d 3))

/-- `pin.clr` (R319). -/
def execPinClr (d a : BitVec 7) (s : State) : Out :=
  issued { infAddrD d a .ld with need := .prv 1 } s (fun s => s.named38 a true (fun s _ =>
    let p := s.pinRange a
    if s.pins.contains p then ({ s with pins := dropFirst (fun q => q == p) s.pins }).status d 0 else s.status d 1))

/-- FADE_TICK (R221): at a tick that is a multiple of 2^17 every counter that is not 0 of a grid whose first team has been
placed falls by 1; at 0 its pin lapses. -/
def execFadeTick (s : State) : Out :=
  .next (s.grids.foldl (fun s e =>
    match e.2 with
    | none => s
    | some g => if !g.started || g.done then s else ((List.range g.windows.length).zip g.windows).foldl (fun s w =>
        if w.2.kind == 1 && !w.2.lapsed && w.2.fade != 0 then
          let s := s.setWindow e.1 w.1 (fun w => { w with fade := w.fade - 1 })
          if w.2.fade = 1 then s.lapsePin e.1 w.1 else s
        else s) s) s)

/-! ### Level-2 and the tables -/

/-- A sub-page of a view is read into its view frame through the search of R440: blocks that the view holds stay. It waits
for view 0's page where that is not in place; `true` once it is there. -/
def State.viewSub (s : State) (fk asid view va : Nat) : State × Bool :=
  let p := alignDown va 4096
  let blks := (List.range 64).map (fun i => p + 64 * i)
  let above (b : Nat) : Nat := s.viewHolder asid b 8 (s.tag asid view).parent
  let take (s : State) (b : Nat) (src : Nat × Nat × Nat) : State :=
    { s with mem := mapCopy s.mem (memKey asid view b) s.mem (memKey src.1 src.2.1 src.2.2) 64,
             viewBlk := mapSet 0 s.viewBlk (blkKey asid view b) 1 }.setPois (homeBlk asid view b) (s.isPois (homeBlk src.1 src.2.1 src.2.2))
  let want := blks.filter (fun b => mapGet 0 s.viewBlk (blkKey asid view b) == 0)
  let (s, base) : State × Option (Nat × Nat × Nat) :=
    if want.any (fun b => above b == 0) then
      match s.homePlace (.evict asid view (va / 256)) .load asid p 1 with
      | (s, some (.home a x h)) => (s, some (a, x, h))
      | (s, _) => (s, none)
    else (s, some (asid, 0, p))
  match base with
  | none => (s, false)
  | some (a, x, h) =>
    let s := want.foldl (fun s b => take s b (if above b == 0 then (a, x, h + (b - p)) else (asid, above b, b))) s
    let w := s.viewAllows .store asid va
    let r := s.viewAllows .fetch asid va
    let bit := BitVec.ofNat 16 (2 ^ subOf va)
    (s.setFrame fk (fun e => { e with w := w && (e.sub == 0 || e.w), x := r && (e.sub == 0 || e.x), sub := e.sub ||| bit,
                                      dirty := e.dirty ||| bit }), true)

/-- A frame of a stack for a view's region, empty yet; `none` where a victim's write-back comes first, or where none can be
had: then NO_FRAME is posted (R252, R440). -/
def State.viewFrame (s : State) (st asid view va : Nat) : State × Option Nat :=
  let rg := va / 2 ^ 16
  let take (s : State) (f : Nat) : State × Option Nat :=
    (s.linkFrame st f { Frame.forKey asid view rg false with state := 1 }, some f)
  match s.findFrame st asid view va with
  | some f => (s, some f)
  | none =>
    if s.items.any (fun i => i.cause == 6 && i.asid == asid && i.view == view && i.va / 2 ^ 16 == rg) then (s, none)
    else
      match s.victim st false with
      | (s, none) => ((s.postItem st 6 15 1 asid view va 0 (frameField st 0)).1, none)
      | (s, some f) =>
        let e := s.frame (frameKey st f)
        if e.state = 0 then take s f
        else if e.dirty = 0 then take (s.freeFrame st f) f
        else (s.spillBegin st f false (s.stampFor none asid va), none)

/-- A dirty line of a view goes to the view frame of its region, which is taken at its first use (R440). -/
def State.viewEvict (s : State) (asid view va : Nat) : State :=
  let st := s.stackOf asid va
  match s.viewFrame st asid view va with
  | (s, none) => s
  | (s, some f) =>
    match s.viewSub (frameKey st f) asid view va with
    | (s, false) => s
    | (s, true) => s.evictLine (lineKey asid view va)

/-- L2_LINE_EVICT (R202, R242, R244, R272, R440): a line leaves level-2. One that a walk holds stays; a dirty line of a view
whose sub-page has no frame yet takes one. -/
def execL2LineEvict (a w ln : Nat) (s : State) : Out :=
  let lk := lineKey a w (256 * ln)
  .next (
    if (mapGet none s.l2 lk).isNone then s
    else if s.evictable lk then s.evictLine lk
    else if w = 0 then s
    else s.viewEvict a w (256 * ln))

/-- One stack acts on an invalidation (R243 step 3). -/
def State.stackInval (s : State) (i : Inval) (st : Nat) : State :=
  let has (ls : List (Nat × Nat)) : Bool := ls.any (fun l => l.1 == i.line)
  let mine (a : Nat) : Bool := i.asids.contains a
  { s with
    walk := s.walk.filter (fun w => !(w.stack == st && has w.lines)),
    tu := s.tu.filter (fun t => !(t.stack == st && has t.lines)),
    frames := s.frames.map (fun e =>
      (e.1, if e.1 / 2 ^ 20 == st && mine e.2.asid && !e.2.table then { e.2 with w := false, x := false } else e.2)),
    l2 := s.l2.map (fun e =>
      (e.1, if mine (lineAsid e.1) && !inTable (lineVa e.1) && s.stackOf (lineAsid e.1) (lineVa e.1) == st
        then e.2.map (fun l => { l with w := false, x := false }) else e.2)),
    l1 := s.l1.filter (fun b => !(b.fetch && mine (b.blk / 2 ^ 57))) }

/-- TABLE_INVALIDATION (R243): stack `st` acts on invalidation `k`; when every stack has acted, the stores that waited
for it may complete. -/
def execTableInvalidation (k st : Nat) (s : State) : Out :=
  match s.invals.find? (fun i => i.id == k) with
  | none => .next s
  | some i =>
    if !i.toStacks.getLsbD st then .next s
    else
      let s := s.stackInval i st
      let left := i.toStacks &&& ~~~(laneBit st)
      if left = 0 then
        let up (x : PendStore) : PendStore := { x with kind := match x.kind with
          | .write ids => .write (ids.filter (· != k))
          | y => y }
        .next { s with invals := s.invals.filter (fun x => x.id != k), stores := s.stores.map up }
      else
        let up (x : Inval) : Inval := { x with toStacks := left }
        .next { s with invals := modWhere (fun x => x.id == k) up s.invals }

end Sys2Proof.Machine
end

