-- ==== Sys2Proof/Machine/Complete.lean ====
section
/-! DEFINITION. The events that complete what words have started: loads, stores, joins, rotation, far reductions and
epochs, watermarks and signatures (R27, R145, R176, R267, R271, R308, R309, R399, R462). -/

namespace Sys2Proof.Machine

/-! ### Loads and stores -/

/-- Writes of a load at its completion (R27). -/
def Regs.loadPut (r : Regs) : LoadWrite → Regs
  | .lane n l v p => r.wrV n l v p
  | .scalar n v p => r.wrS n v p

/-- LOAD_COMPLETE (R27): load `k` of group `g`, once its value is known. -/
def execLoadComplete (g k : Nat) (s : State) : Out :=
  match (s.getG g).bind (fun x => x.loads[k]?) with
  | none => .next s
  | some ld =>
    if ld.late.isSome then .next s
    else .next (s.modG g (fun x =>
      { x with ldcnt := x.ldcnt - 1, loads := x.loads.eraseIdx k, r := ld.writes.foldl Regs.loadPut x.r })).settleHolds

/-- The counter of a group falls and what waited for it goes on. The store has taken effect, and older ones that it has
overwritten can no longer be told. -/
def State.storeDone (s : State) (x : PendStore) : State :=
  let under (y : PendStore) : PendStore :=
    if y.id < x.id then { y with undo := y.undo.filter (fun e => !x.undo.any (fun z => z.1 == e.1)) } else y
  let other (y : PendStore) : Bool := y.id != x.id
  let s := { s with stores := (s.stores.filter other).map under }
  match x.grp with
  | none => s.settleHolds
  | some k => (s.modG k (fun g => { g with stcnt := g.stcnt - 1 })).settleHolds

/-- The closing arrival of group `g` at the weir of its epoch, which it then leaves (R306). -/
def State.closeArrive (s : State) (g e : Nat) (l : Loc) : State :=
  s.asGroup g (fun s =>
    let p : Piece := ⟨e, 16, l, none, false⟩
    (((s.weirUpdate l 1 0 true none).wroteWeir p).orderAt p .both false true 4).setG (fun g =>
      if g.epa = some e then { g with epa := none } else g))

/-- STORE_ACK (R27, R243, R306): a store is acknowledged once nothing that it waits for is left. -/
def execStoreAck (k : Nat) (s : State) : Out :=
  match s.stores.find? (fun x => x.id == k) with
  | none => .next s
  | some x =>
    match x.kind with
    | .write ids => .next (if ids.isEmpty then s.storeDone x else s)
    | .far left => .next (if left = 0 then s.storeDone x else s)
    | .close a v e =>
      match x.grp.bind (fun g => (s.getG g).map (fun _ => g)) with
      | none => .next (s.storeDone x)
      | some g =>
        if s.farLeft g || s.waitsFor (.close k) then .next s
        else
          match s.devPlace (.close k) .weir a v e 16 with
          | (s, none) => .next s
          | (s, some l) => .next ((s.closeArrive g e l).storeDone x)

/-! ### Joins and rotation -/

/-- JOIN_RELEASE (R176): every JOINWAIT lane whose condition holds becomes LIVE past its join's chain. -/
def execJoinRelease (g : Nat) (s : State) : Out :=
  match s.getG g with
  | none => .next s
  | some x =>
    let m := x.joinDue
    let past (l : Nat) : Past := (mapGet none x.joinNext l).getD ⟨x.pc l, 0, false⟩
    let out := maskOf (fun l => m.getLsbD l && (past l).ends)
    let s := s.modG g (fun x => x.eachLane m (fun x l =>
      let x := (x.setLane l .live).setPc l (past l).pc
      let x := if l % 2 = 0 ∧ x.lane (l + 1) = .shadow then x.setPc (l + 1) (x.pc l) else x
      { x with joinNext := mapSet none x.joinNext l none }))
    let s := if out = 0 then s else s.asGroup g (fun s => s.badPcEnd out (past (lowestLane out)).pc)
    .next (s.settleHalts g)

/-- A rotation quantum begins (R145): the candidate that has waited longest, with those at its `pcv` and block state. -/
def Group.beginQuantum (g : Group) : Group :=
  let live := g.lanesIn .live
  let live := if g.save.isSome then live &&& g.hlanes else live
  let cand := lanesOf (live &&& ~~~g.lastSet)
  let g := { g with btc := 0 }
  match leastBy (fun l => mapGet 0 g.lastIssue l) cand with
  | none => g
  | some l => { g with quantum := 64, qmask := maskOf (fun k =>
      cand.contains k && g.pc k == g.pc l && g.blkOf k == g.blkOf l) }

/-- ROTATION_QUANTUM (R145). -/
def execRotationQuantum (g : Nat) (s : State) : Out :=
  .next (s.modG g (fun x => if 64 ≤ x.btc && x.quantum == 0 then x.beginQuantum else x))

/-! ### Watermarks and signatures -/

/-- WATERMARK_PUBLISH (R267): every die knows the watermark. -/
def execWatermarkPublish (d : Nat) (s : State) : Out :=
  let m := s.watermark d
  let s := s.setDie d (fun x => { x with mark := m })
  .next ((List.range 32).foldl (fun s e => s.setDie e (fun x => { x with known := mapSet 0 x.known d m })) s).settleHolds

/-- Bits set of a signature. -/
def sigCount (x : Nat) : Nat := ((List.range 2048).filter (fun i => x.testBit i)).length

/-- A sweep of a die begins (R271): E_d increases. A die far ahead of its watermark begins none (R463). -/
def State.sweepBegin (s : State) (d : Nat) : State :=
  let e := (s.die d).epoch
  let full (c : Nat) : Bool := 1024 ≤ sigCount (s.coreSt c).sig
  if !((List.range 32).map (fun i => 32 * d + i)).any full || 2 ^ 29 ≤ (e + 2 ^ 32 - s.watermark d) % 2 ^ 32 then s
  else (s.bumpEpoch d).setDie d (fun x => { x with sweep := some e })

/-- The end of a sweep (R271): every level-1 of the die is emptied and every signature cleared. -/
def State.sweepEnd (s : State) (d : Nat) : State :=
  let s := s.setDie d (fun x => { x with sweep := none, sweeps := min 65535 (x.sweeps + 1) })
  ((List.range 32).map (fun i => 32 * d + i)).foldl
    (fun s c => (s.l1Drop c (fun _ => true)).setCore c (fun x => { x with sig := 0 })) s

/-- SIGNATURE_SWEEP (R271): a sweep begins once some signature of the die has 1024 bits set, and ends once M_d covers the
epoch that it ended; acquires on the die wait meanwhile. -/
def execSignatureSweep (d : Nat) (s : State) : Out :=
  match (s.die d).sweep with
  | none => .next (s.sweepBegin d)
  | some e => .next (if s.marked d e then (s.sweepEnd d).settleHolds else s)

/-- DIE_CLK_CLEAR (R462). -/
def execDieClkClear (d : Nat) (s : State) : Out :=
  .next (s.setDie d (fun x => { x with sweeps := 0, fullDrops := 0, waitTicks := 0 }))

/-! ### Far reductions -/

/-- The fold of R307: function, current value, contribution. -/
def farFold (fn acc c : Nat) : Nat :=
  let a := BitVec.ofNat 32 acc
  let b := BitVec.ofNat 32 c
  let mm (mx : Bool) : Nat :=
    if (f32.dec acc).isNan || (f32.dec c).isNan then f32.qnan else (fMinMax f32 plainRne mx false acc c).1
  match fn with
  | 0 => (a + b).toNat
  | 1 => (acc + c) % 2 ^ 64
  | 2 => (minS a b).toNat
  | 3 => (maxS a b).toNat
  | 4 => (minU a b).toNat
  | 5 => (maxU a b).toNat
  | 6 => (a &&& b).toNat
  | 7 => (a ||| b).toNat
  | 8 => (a ^^^ b).toNat
  | 9 => (fAdd f32 plainRne acc c).1
  | 10 => (fAdd f64 plainRne acc c).1
  | 11 => mm false
  | _ => mm true

def farBytes (fn : Nat) : Nat := if fn = 1 ∨ fn = 10 then 8 else 4

/-- The agent of the slices' folds, for happens-before. -/
def foldAgent : Nat := 2 ^ 63

/-- Changes RSW of an epoch where it stands (R304, R309). -/
def State.setRsw (s : State) (asid view epa : Nat) (f : Nat → Nat) : State :=
  match s.nowAt .store asid view (epa + 16) with
  | (s, .at (.home a v e)) =>
    ((s.wrLoc (.home a v e) 4 (f (s.rdLoc (.home a v e) 4))).touchHome a v e).seeHome foldAgent (.home a v e) 4
  | (s, _) => s

/-- Whether the RSW of a contribution's epoch stands in its place; where it does not, the contribution waits for it. -/
def State.rswReady (s : State) (c : Contrib) : State × Bool :=
  match s.devPlace (.far c.id) .store c.asid c.view (c.epa + 16) 4 with
  | (s, none) => (s, false)
  | (s, some _) => (s, true)

/-- RSW with POISON set, and with REPRO_LOST set and OVF raised. -/
def rswPoison (x : Nat) : Nat := if bitsOf x 1 1 = 1 then x else x + 2
def rswLost (x : Nat) : Nat :=
  let x := if x % 2 = 1 then x else x + 1
  if bitsOf x 16 16 = 65535 then x else x + 65536

/-- One fold: an indivisible write at its home (R309, R310). -/
def State.foldOne (s : State) (c : Contrib) (l : Loc) : State :=
  let n := farBytes c.fn
  let pois := c.pois || s.locPois l n
  let s := s.wrLoc l n (farFold c.fn (s.rdLoc l n) (c.val.toNat % 256 ^ n))
  let s := match l with
    | .home a v h => ((s.touchHome a v h).signLoc c.core l n).seeHome foldAgent l n
    | _ => s
  if pois then (s.poisonLoc l n).setRsw c.asid c.view c.epa rswPoison else s

/-- A contribution that has been staged: only its word's count falls. -/
def State.farStaged (s : State) (c : Contrib) : State :=
  let s := s.farGone c
  { s with contribs := s.contribs ++ [{ c with place := .staged }] }

/-- A reduction fault (R399): held for the group, or recorded with POISON set in the RSW. -/
def State.farFault (s : State) (c : Contrib) (cause detail : Nat) : State :=
  let s := s.farGone c
  match s.getG c.grp with
  | some g =>
    if g.r.aen && !g.finished then
      s.modG c.grp (fun g => { g with faults := g.faults ++
        [⟨BitVec.ofNat 64 c.va, cause, detail, BitVec.ofNat 64 c.key, c.asid, c.view, c.epa⟩] })
    else
      (s.writeRec g.tile { s.recOf c.grp 6 3 with addr := c.va, code := cause, detail := detail, aux := c.key }).setRsw
        c.asid c.view c.epa rswPoison
  | none =>
    let r : ErrRec := { kind := 6, sev := 3, addr := c.va, code := cause, detail := detail, aux := c.key, key := s.keyField c.asid c.view }
    (s.writeRec (tileOfStack (s.stackOf c.asid c.va)) r).setRsw c.asid c.view c.epa rswPoison

/-- A contribution waits at its home (R308). -/
def State.farWait (s : State) (c : Contrib) : State :=
  { s with contribs := modWhere (fun x => x.id == c.id) (fun x => { x with place := .waiting }) s.contribs }

/-- Two contributions to one location of an epoch with one key (R308). -/
def State.farTie (s : State) (x y : Contrib) : Bool :=
  x.key == y.key && s.homeKey x.asid x.view x.va == s.homeKey y.asid y.view y.va
    && s.homeKey x.asid x.view x.epa == s.homeKey y.asid y.view y.epa

/-- A contribution that has reached its location's home is staged, or folded at once (R308). -/
def State.farAt (s : State) (c : Contrib) (l : Loc) : State :=
  let sl := s.contribSlice c
  let there := s.contribs.filter (fun x => x.place == .staged && s.contribSlice x == sl)
  if 4096 ≤ there.length || there.any (s.farTie c) then
    match s.rswReady c with
    | (s, false) => s.farWait c
    | (s, true) => ((s.foldOne c l).setRsw c.asid c.view c.epa rswLost).farGone c
  else s.farStaged c

/-- The peer device of an address, if a leaf of the pool's peer type backs it. -/
def State.peerOf (s : State) (asid va : Nat) : Option Nat :=
  let w := s.walkRaw asid va
  let w := if w.kind == .aliasTo then s.walkRaw 0 (aliasVa w va) else w
  if w.kind == .leaf && s.isPeerLeaf w.entry then some (s.lease (leafLease w.entry)).target else none

/-- RFAR_STAGE (R308): contribution `k` arrives at its home. One to peer memory travels on to the peer that holds its
epoch, which folds it. -/
def execRfarStage (k : Nat) (s : State) : Out :=
  match s.contribs.find? (fun c => c.id == k && c.place == .inFlight) with
  | none => .next s
  | some c =>
    if s.waitsFor (.far k) then .next (s.farWait c)
    else if c.view != 0 then
      match s.devPlace (.far k) .store c.asid c.view c.va (farBytes c.fn) with
      | (s, none) => .next (s.farWait c)
      | (s, some .gone) => .next (s.farFault c 10 0)
      | (s, some l) => .next (s.farAt c l)
    else
      match s.peerOf c.asid c.va with
      | some p =>
        if s.peerOf c.asid c.epa = some p then .next (s.farGone c) else .next (s.farFault c 10 11)
      | none =>
        match s.devPlace (.far k) .store c.asid 0 c.va (farBytes c.fn) with
        | (s, some (.host _ _)) => .next (s.farFault c 10 0)
        | (s, some l) => .next (s.farAt c l)
        | (s, none) =>
          if s.hostPage c.asid 0 c.va then
            let other (r : Req) : Bool := r.who != .far k
            .next ({ s with reqs := s.reqs.filter other }.farFault c 10 0)
          else .next (s.farWait c)

/-- RFAR_DRAIN (R308): the buffer of a quarter travels. -/
def execRfarDrain (c q : Nat) (s : State) : Out :=
  let up (x : Contrib) : Contrib := { x with place := .inFlight }
  .next { s with contribs := modWhere (fun x => x.place == .buffered && x.core == c && x.quarter == q) up s.contribs }

/-- Contributions that slice `sl` may fold next for an epoch: for each location the one of the lowest key (R309). -/
def State.foldHeads (s : State) (x : Closing) (sl : Nat) : List Contrib :=
  let mine := sortBy (fun c => c.key) (s.contribs.filter (fun c =>
    c.place == .staged && s.contribSlice c == sl && s.ofEpoch c x.asid x.view x.epa))
  let first (c : Contrib) : Bool :=
    ((mine.find? (fun y => s.homeKey y.asid y.view y.va == s.homeKey c.asid c.view c.va)).map (·.id)) == some c.id
  mine.filter first

/-- The fold of one staged contribution, once its location stands in its place and nothing holds it (R310). -/
def State.foldStaged (s : State) (c : Contrib) : State :=
  if s.waitsFor (.far c.id) then s
  else
    match s.devPlace (.far c.id) .store c.asid c.view c.va (farBytes c.fn) with
    | (s, none) => s
    | (s, some l) =>
      let (s, ok) := if c.pois || s.locPois l (farBytes c.fn) then s.rswReady c else (s, true)
      if !ok then s
      else
        let other (z : Contrib) : Bool := z.id != c.id
        { s.foldOne c l with contribs := s.contribs.filter other }

/-- SLICE_FOLD (R309, R310): slice `sl` makes one fold of those it staged for the close numbered `e`; with none left it
acknowledges. -/
def execSliceFold (e sl : Nat) (s : State) : Out :=
  match s.closings[e]? with
  | none => .next s
  | some x =>
    if !x.slices.contains sl then .next s
    else
      match s.foldHeads x sl with
      | [] =>
        let up (y : Closing) : Closing := { y with slices := y.slices.filter (· != sl) }
        .next { s with closings := modNth up s.closings e }
      | c :: cs =>
        let (s, i) := s.choose (cs.length + 1)
        .next (s.foldStaged ((c :: cs).getD i c))

/-- The release write of an epoch's advance (R269, R309): at DEVICE scope, its clock covers every fold, and an acquirer
empties its level-1. -/
def State.foldRelease (s : State) (l : Loc) : State :=
  let ws := l.words 16
  let v := (ws.filterMap (fun w => mapGet none s.rel w)).foldl (fun v r => clkMerge v r.clock) []
  let s := match l with
    | .home a _ x => s.putRecords (s.sliceOf a x) ws ⟨v, [], none⟩
    | _ => s
  (s.seeHome foldAgent l 16).hbRelease foldAgent ws 4 true

/-- EPOCH_CLOSE (R309): every slice has acknowledged: the phase advances as a release write at DEVICE scope, the counts
clear, and the updates that waited are applied. -/
def execEpochClose (e : Nat) (s : State) : Out :=
  match s.closings[e]? with
  | none => .next s
  | some x =>
    let who : ReqWho := .round x.asid x.view x.epa
    if !x.slices.isEmpty || s.waitsFor who then .next s
    else
      match s.devPlace who .weir x.asid x.view x.epa 16 with
      | (s, none) => .next s
      | (s, some _) =>
        let l : Loc := .home x.asid x.view x.epa
        let s := { s with closings := s.closings.eraseIdx e, closeArr := mapSet 0 s.closeArr l.weirKey 0 }
        let s := (s.wrWeir l (s.rdWeir l).advance).foldRelease l
        .next (x.waits.foldl (fun s w => s.weirUpdate l w.1 w.2.1 w.2.2.1 w.2.2.2) s)

end Sys2Proof.Machine
end

