-- ==== Sys2Proof/Machine/Float.lean ====
section
/-! DEFINITION. Floating-point arithmetic, compares, classification and fused multiply-add: majors `0x1C` to `0x1F`
(R116 to R125). -/

namespace Sys2Proof.Machine

/-- A lane value of `w` registers. -/
def State.rw (s : State) (w : Nat) (n : BitVec 7) (l : Nat) : Nat := s.src.rdW w n.toNat l

/-- The rounding controls of the word. -/
def State.fc (s : State) : FpCtl := s.src.fctl

/-- v[D] := f(v[A], v[B]) at `w` registers each. -/
def fp3 (w : Nat) (d a b : BitVec 7) (f : Nat → Nat → FpRes) (s : State) : State :=
  fpLanes (infV3 .v w w w d a b) w d (fun l => f (s.rw w a l) (s.rw w b l)) s
/-- v[D] := f(v[A]). -/
def fp2 (w : Nat) (d a : BitVec 7) (f : Nat → FpRes) (s : State) : State :=
  fpLanes (infV2 .v w w d a) w d (fun l => f (s.rw w a l)) s
/-- v[D] := f(v[A], v[B], v[D]). -/
def fp4 (w : Nat) (d a b : BitVec 7) (f : Nat → Nat → Nat → FpRes) (s : State) : State :=
  fpLanes (infV4 .v w w w d a b) w d (fun l => f (s.rw w a l) (s.rw w b l) (s.rw w d l)) s

/-- A 16-bit function on both elements of a packed word (R116). -/
def packed2 (f : Nat → Nat → FpRes) (x y : Nat) : FpRes :=
  let lo := f (x % 65536) (y % 65536)
  let hi := f (x / 65536) (y / 65536)
  (lo.1 + 65536 * hi.1, lo.2 ||| hi.2)
def packed3 (f : Nat → Nat → Nat → FpRes) (x y z : Nat) : FpRes :=
  let lo := f (x % 65536) (y % 65536) (z % 65536)
  let hi := f (x / 65536) (y / 65536) (z / 65536)
  (lo.1 + 65536 * hi.1, lo.2 ||| hi.2)

/-- The rounding mode of a code of R120. -/
def codeMode (rm : RMode) (m : BitVec 3) : RMode :=
  match m.toNat with
  | 1 => .rne
  | 2 => .rtz
  | 3 => .rdn
  | 4 => .rup
  | _ => rm

/-- `add.f32` (R117, R121). -/
def execAddF32 (d a b : BitVec 7) (s : State) : Out :=
  issued (infV3 .v 1 1 1 d a b) s (fp3 1 d a b (fAdd f32 s.fc))

/-- `sub.f32` (R117, R121). -/
def execSubF32 (d a b : BitVec 7) (s : State) : Out :=
  issued (infV3 .v 1 1 1 d a b) s (fp3 1 d a b (fSub f32 s.fc))

/-- `mul.f32` (R117, R121). -/
def execMulF32 (d a b : BitVec 7) (s : State) : Out :=
  issued (infV3 .v 1 1 1 d a b) s (fp3 1 d a b (fMul f32 s.fc))

/-- `div.f32` (R117, R121). -/
def execDivF32 (d a b : BitVec 7) (s : State) : Out :=
  issued (infV3 .v 1 1 1 d a b) s (fp3 1 d a b (fDiv f32 s.fc))

/-- `sqrt.f32` (R121). -/
def execSqrtF32 (d a : BitVec 7) (s : State) : Out :=
  issued (infV2 .v 1 1 d a) s (fp2 1 d a (fSqrt f32 s.fc))

/-- `min.f32` (R121). -/
def execMinF32 (d a b : BitVec 7) (s : State) : Out :=
  issued (infV3 .v 1 1 1 d a b) s (fp3 1 d a b (fMinMax f32 s.fc false false))

/-- `max.f32` (R121). -/
def execMaxF32 (d a b : BitVec 7) (s : State) : Out :=
  issued (infV3 .v 1 1 1 d a b) s (fp3 1 d a b (fMinMax f32 s.fc true false))

/-- `minn.f32` (R121). -/
def execMinnF32 (d a b : BitVec 7) (s : State) : Out :=
  issued (infV3 .v 1 1 1 d a b) s (fp3 1 d a b (fMinMax f32 s.fc false true))

/-- `maxn.f32` (R121). -/
def execMaxnF32 (d a b : BitVec 7) (s : State) : Out :=
  issued (infV3 .v 1 1 1 d a b) s (fp3 1 d a b (fMinMax f32 s.fc true true))

/-- `abs.f32` (R121). -/
def execAbsF32 (d a : BitVec 7) (s : State) : Out :=
  issued (infV2 .v 1 1 d a) s (fp2 1 d a (fun x => (fAbs f32 x, 0)))

/-- `neg.f32` (R121). -/
def execNegF32 (d a : BitVec 7) (s : State) : Out :=
  issued (infV2 .v 1 1 d a) s (fp2 1 d a (fun x => (fNeg f32 x, 0)))

/-- `csgn.f32` (R121). -/
def execCsgnF32 (d a b : BitVec 7) (s : State) : Out :=
  issued (infV3 .v 1 1 1 d a b) s (fp3 1 d a b (fun x y => (fCsgn f32 x y, 0)))

/-- `class.f32` (R123). -/
def execClassF32 (d a : BitVec 7) (s : State) : Out :=
  issued (infV2 .v 1 1 d a) s (lane1 (infV2 .v 1 1 d a) d (fun l => BitVec.ofNat 32 (fClass f32 (s.rw 1 a l))))

/-- `cc.f32` (R122). -/
def execCompareF32 (k : BitVec 4) (p : BitVec 3) (a b : BitVec 7) (s : State) : Out :=
  issued (infVP 1 p a b) s (fpPred (infVP 1 p a b) p (fun l => fCompare f32 s.fc k.toNat (s.rw 1 a l) (s.rw 1 b l)))

/-- `rint.f32` (R120, R121). -/
def execRintF32 (d a : BitVec 7) (m : BitVec 3) (s : State) : Out :=
  issued (infV2 .v 1 1 d a) s (fp2 1 d a (fRint f32 s.fc (codeMode s.src.rm m)))

/-- `scl.f32` (R121). -/
def execSclF32 (d a b : BitVec 7) (s : State) : Out :=
  issued (infV3 .v 1 1 1 d a b) s (fpLanes (infV3 .v 1 1 1 d a b) 1 d (fun l => fScl f32 s.fc (s.rw 1 a l) (s.rv b l).toInt))

/-- `add.f64` (R117, R121). -/
def execAddF64 (d a b : BitVec 7) (s : State) : Out :=
  issued (infV3 .v 2 2 2 d a b) s (fp3 2 d a b (fAdd f64 s.fc))

/-- `sub.f64` (R117, R121). -/
def execSubF64 (d a b : BitVec 7) (s : State) : Out :=
  issued (infV3 .v 2 2 2 d a b) s (fp3 2 d a b (fSub f64 s.fc))

/-- `mul.f64` (R117, R121). -/
def execMulF64 (d a b : BitVec 7) (s : State) : Out :=
  issued (infV3 .v 2 2 2 d a b) s (fp3 2 d a b (fMul f64 s.fc))

/-- `div.f64` (R117, R121). -/
def execDivF64 (d a b : BitVec 7) (s : State) : Out :=
  issued (infV3 .v 2 2 2 d a b) s (fp3 2 d a b (fDiv f64 s.fc))

/-- `sqrt.f64` (R121). -/
def execSqrtF64 (d a : BitVec 7) (s : State) : Out :=
  issued (infV2 .v 2 2 d a) s (fp2 2 d a (fSqrt f64 s.fc))

/-- `min.f64` (R121). -/
def execMinF64 (d a b : BitVec 7) (s : State) : Out :=
  issued (infV3 .v 2 2 2 d a b) s (fp3 2 d a b (fMinMax f64 s.fc false false))

/-- `max.f64` (R121). -/
def execMaxF64 (d a b : BitVec 7) (s : State) : Out :=
  issued (infV3 .v 2 2 2 d a b) s (fp3 2 d a b (fMinMax f64 s.fc true false))

/-- `minn.f64` (R121). -/
def execMinnF64 (d a b : BitVec 7) (s : State) : Out :=
  issued (infV3 .v 2 2 2 d a b) s (fp3 2 d a b (fMinMax f64 s.fc false true))

/-- `maxn.f64` (R121). -/
def execMaxnF64 (d a b : BitVec 7) (s : State) : Out :=
  issued (infV3 .v 2 2 2 d a b) s (fp3 2 d a b (fMinMax f64 s.fc true true))

/-- `abs.f64` (R121). -/
def execAbsF64 (d a : BitVec 7) (s : State) : Out :=
  issued (infV2 .v 2 2 d a) s (fp2 2 d a (fun x => (fAbs f64 x, 0)))

/-- `neg.f64` (R121). -/
def execNegF64 (d a : BitVec 7) (s : State) : Out :=
  issued (infV2 .v 2 2 d a) s (fp2 2 d a (fun x => (fNeg f64 x, 0)))

/-- `csgn.f64` (R121). -/
def execCsgnF64 (d a b : BitVec 7) (s : State) : Out :=
  issued (infV3 .v 2 2 2 d a b) s (fp3 2 d a b (fun x y => (fCsgn f64 x y, 0)))

/-- `class.f64` (R123). -/
def execClassF64 (d a : BitVec 7) (s : State) : Out :=
  issued (infV2 .v 1 2 d a) s (lane1 (infV2 .v 1 2 d a) d (fun l => BitVec.ofNat 32 (fClass f64 (s.rw 2 a l))))

/-- `cc.f64` (R122). -/
def execCompareF64 (k : BitVec 4) (p : BitVec 3) (a b : BitVec 7) (s : State) : Out :=
  issued (infVP 2 p a b) s (fpPred (infVP 2 p a b) p (fun l => fCompare f64 s.fc k.toNat (s.rw 2 a l) (s.rw 2 b l)))

/-- `rint.f64` (R120, R121). -/
def execRintF64 (d a : BitVec 7) (m : BitVec 3) (s : State) : Out :=
  issued (infV2 .v 2 2 d a) s (fp2 2 d a (fRint f64 s.fc (codeMode s.src.rm m)))

/-- `scl.f64` (R121). -/
def execSclF64 (d a b : BitVec 7) (s : State) : Out :=
  issued (infV3 .v 2 2 1 d a b) s (fpLanes (infV3 .v 2 2 1 d a b) 2 d (fun l => fScl f64 s.fc (s.rw 2 a l) (s.rv b l).toInt))

/-- `add.f16` (R124). -/
def execAddF16 (d a b : BitVec 7) (s : State) : Out :=
  issued (infV3 .v 1 1 1 d a b) s (fp3 1 d a b (fAdd f16 s.fc))

/-- `sub.f16` (R124). -/
def execSubF16 (d a b : BitVec 7) (s : State) : Out :=
  issued (infV3 .v 1 1 1 d a b) s (fp3 1 d a b (fSub f16 s.fc))

/-- `mul.f16` (R124). -/
def execMulF16 (d a b : BitVec 7) (s : State) : Out :=
  issued (infV3 .v 1 1 1 d a b) s (fp3 1 d a b (fMul f16 s.fc))

/-- `min.f16` (R124). -/
def execMinF16 (d a b : BitVec 7) (s : State) : Out :=
  issued (infV3 .v 1 1 1 d a b) s (fp3 1 d a b (fMinMax f16 s.fc false false))

/-- `max.f16` (R124). -/
def execMaxF16 (d a b : BitVec 7) (s : State) : Out :=
  issued (infV3 .v 1 1 1 d a b) s (fp3 1 d a b (fMinMax f16 s.fc true false))

/-- `add2.f16` (R124). -/
def execAdd2F16 (d a b : BitVec 7) (s : State) : Out :=
  issued (infV3 .v 1 1 1 d a b) s (fp3 1 d a b (packed2 (fAdd f16 s.fc)))

/-- `sub2.f16` (R124). -/
def execSub2F16 (d a b : BitVec 7) (s : State) : Out :=
  issued (infV3 .v 1 1 1 d a b) s (fp3 1 d a b (packed2 (fSub f16 s.fc)))

/-- `mul2.f16` (R124). -/
def execMul2F16 (d a b : BitVec 7) (s : State) : Out :=
  issued (infV3 .v 1 1 1 d a b) s (fp3 1 d a b (packed2 (fMul f16 s.fc)))

/-- `add.bf16` (R124). -/
def execAddBf16 (d a b : BitVec 7) (s : State) : Out :=
  issued (infV3 .v 1 1 1 d a b) s (fp3 1 d a b (fAdd bf16 s.fc))

/-- `sub.bf16` (R124). -/
def execSubBf16 (d a b : BitVec 7) (s : State) : Out :=
  issued (infV3 .v 1 1 1 d a b) s (fp3 1 d a b (fSub bf16 s.fc))

/-- `mul.bf16` (R124). -/
def execMulBf16 (d a b : BitVec 7) (s : State) : Out :=
  issued (infV3 .v 1 1 1 d a b) s (fp3 1 d a b (fMul bf16 s.fc))

/-- `min.bf16` (R124). -/
def execMinBf16 (d a b : BitVec 7) (s : State) : Out :=
  issued (infV3 .v 1 1 1 d a b) s (fp3 1 d a b (fMinMax bf16 s.fc false false))

/-- `max.bf16` (R124). -/
def execMaxBf16 (d a b : BitVec 7) (s : State) : Out :=
  issued (infV3 .v 1 1 1 d a b) s (fp3 1 d a b (fMinMax bf16 s.fc true false))

/-- `add2.bf16` (R124). -/
def execAdd2Bf16 (d a b : BitVec 7) (s : State) : Out :=
  issued (infV3 .v 1 1 1 d a b) s (fp3 1 d a b (packed2 (fAdd bf16 s.fc)))

/-- `sub2.bf16` (R124). -/
def execSub2Bf16 (d a b : BitVec 7) (s : State) : Out :=
  issued (infV3 .v 1 1 1 d a b) s (fp3 1 d a b (packed2 (fSub bf16 s.fc)))

/-- `mul2.bf16` (R124). -/
def execMul2Bf16 (d a b : BitVec 7) (s : State) : Out :=
  issued (infV3 .v 1 1 1 d a b) s (fp3 1 d a b (packed2 (fMul bf16 s.fc)))

/-- `fma.f32` (R125). -/
def execFmaF32 (d a b : BitVec 7) (s : State) : Out :=
  issued (infV4 .v 1 1 1 d a b) s (fp4 1 d a b (fFma f32 s.fc false false))

/-- `fms.f32` (R125). -/
def execFmsF32 (d a b : BitVec 7) (s : State) : Out :=
  issued (infV4 .v 1 1 1 d a b) s (fp4 1 d a b (fFma f32 s.fc false true))

/-- `fnma.f32` (R125). -/
def execFnmaF32 (d a b : BitVec 7) (s : State) : Out :=
  issued (infV4 .v 1 1 1 d a b) s (fp4 1 d a b (fFma f32 s.fc true false))

/-- `fnms.f32` (R125). -/
def execFnmsF32 (d a b : BitVec 7) (s : State) : Out :=
  issued (infV4 .v 1 1 1 d a b) s (fp4 1 d a b (fFma f32 s.fc true true))

/-- `fma.f64` (R125). -/
def execFmaF64 (d a b : BitVec 7) (s : State) : Out :=
  issued (infV4 .v 2 2 2 d a b) s (fp4 2 d a b (fFma f64 s.fc false false))

/-- `fms.f64` (R125). -/
def execFmsF64 (d a b : BitVec 7) (s : State) : Out :=
  issued (infV4 .v 2 2 2 d a b) s (fp4 2 d a b (fFma f64 s.fc false true))

/-- `fnma.f64` (R125). -/
def execFnmaF64 (d a b : BitVec 7) (s : State) : Out :=
  issued (infV4 .v 2 2 2 d a b) s (fp4 2 d a b (fFma f64 s.fc true false))

/-- `fnms.f64` (R125). -/
def execFnmsF64 (d a b : BitVec 7) (s : State) : Out :=
  issued (infV4 .v 2 2 2 d a b) s (fp4 2 d a b (fFma f64 s.fc true true))

/-- `fma.f16` (R125). -/
def execFmaF16 (d a b : BitVec 7) (s : State) : Out :=
  issued (infV4 .v 1 1 1 d a b) s (fp4 1 d a b (fFma f16 s.fc false false))

/-- `fnma.f16` (R125). -/
def execFnmaF16 (d a b : BitVec 7) (s : State) : Out :=
  issued (infV4 .v 1 1 1 d a b) s (fp4 1 d a b (fFma f16 s.fc true false))

/-- `fma2.f16` (R125). -/
def execFma2F16 (d a b : BitVec 7) (s : State) : Out :=
  issued (infV4 .v 1 1 1 d a b) s (fp4 1 d a b (packed3 (fFma f16 s.fc false false)))

/-- `fnma2.f16` (R125). -/
def execFnma2F16 (d a b : BitVec 7) (s : State) : Out :=
  issued (infV4 .v 1 1 1 d a b) s (fp4 1 d a b (packed3 (fFma f16 s.fc true false)))

/-- `fma.bf16` (R125). -/
def execFmaBf16 (d a b : BitVec 7) (s : State) : Out :=
  issued (infV4 .v 1 1 1 d a b) s (fp4 1 d a b (fFma bf16 s.fc false false))

/-- `fnma.bf16` (R125). -/
def execFnmaBf16 (d a b : BitVec 7) (s : State) : Out :=
  issued (infV4 .v 1 1 1 d a b) s (fp4 1 d a b (fFma bf16 s.fc true false))

/-- `fma2.bf16` (R125). -/
def execFma2Bf16 (d a b : BitVec 7) (s : State) : Out :=
  issued (infV4 .v 1 1 1 d a b) s (fp4 1 d a b (packed3 (fFma bf16 s.fc false false)))

/-- `fnma2.bf16` (R125). -/
def execFnma2Bf16 (d a b : BitVec 7) (s : State) : Out :=
  issued (infV4 .v 1 1 1 d a b) s (fp4 1 d a b (packed3 (fFma bf16 s.fc true false)))

end Sys2Proof.Machine
end

