-- ==== Sys2Proof/Machine/Convert.lean ====
section
/-! DEFINITION. Conversions and carry-less multiplication: majors `0x20`, `0x21` and `0x23` (R126 to R131). -/

namespace Sys2Proof.Machine

/-- The floating-point format of a code of R126. -/
def cvtFmt (c : BitVec 3) : Fmt :=
  match c.toNat with
  | 0 => f64
  | 1 => f32
  | 2 => f16
  | _ => bf16

/-- Width in bits and signedness of an integer code (R126): 4 `i32`, 5 `n32`, 6 `i64`, 7 `n64`. -/
def cvtInt (c : BitVec 3) : Nat × Bool := (if c.toNat < 6 then 32 else 64, c.toNat % 2 == 0)

/-- Registers of a code of R126. -/
def cvtRegs (c : BitVec 3) : Nat := if c.toNat = 0 ∨ 6 ≤ c.toNat then 2 else 1

/-- The integer that a code reads. -/
def cvtIntVal (c : BitVec 3) (x : Nat) : Int :=
  let (n, sg) := cvtInt c
  if sg then signedOf n x else ((x % 2 ^ n : Nat) : Int)

/-- Saturation to the range of an integer code. -/
def cvtSat (c : BitVec 3) (v : Int) : Int :=
  let (n, sg) := cvtInt c
  let hi : Int := if sg then 2 ^ (n - 1) - 1 else 2 ^ n - 1
  let lo : Int := if sg then -(2 ^ (n - 1)) else 0
  max lo (min hi v)

/-- The conversion of R126 from code `s` to code `t`. -/
def cvtVal (c : FpCtl) (sat : Bool) (src t : BitVec 3) (x : Nat) : FpRes :=
  if src.toNat < 4 then
    if t.toNat < 4 then fConv (cvtFmt t) (cvtFmt src) c false x
    else fToInt (cvtFmt src) c (cvtInt t).1 (cvtInt t).2 x
  else if t.toNat < 4 then fOfInt (cvtFmt t) c (cvtIntVal src x)
  else
    let v := cvtIntVal src x
    (ofInt (cvtInt t).1 (if sat then cvtSat t v else v), 0)

/-- Two narrow values into one half of D, the other half kept (R128). -/
def narrow2 (hi : Bool) (f : Nat → FpRes) (x y z : Nat) : FpRes :=
  let a := f x
  let b := f y
  let v := a.1 + 256 * b.1
  (if hi then v * 65536 + z % 65536 else z / 65536 * 65536 + v, a.2 ||| b.2)

/-- Carry-less product (R131). -/
def clmulNat (a : Nat) : Nat → Nat → Nat
  | 0, _ => 0
  | n + 1, b => (if b.testBit n then a * 2 ^ n else 0) ^^^ clmulNat a n b

/-- Bits `lo` to `lo + n - 1` of the product of two `w`-bit values, in each lane. -/
def clOut (wd wa w lo n : Nat) (d a b : BitVec 7) (s : State) : State :=
  s.eachEff (fun r l => r.wrW wd d.toNat l (bitsOf (clmulNat (s.rw wa a l) w (s.rw wa b l)) lo n)
    ((infV3 .t wd wa wa d a b).pois s.src l))

/-- Feature 1 (R492) gates the W3 conversions. -/
def infW3 (i : Info) : Info := { i with feat := some 1 }

/-- The lanes with effect that a lane works with: in a protected launch those of its own parity (R410). -/
def State.peers (s : State) (l : Nat) : List Nat :=
  (lanesOf s.iss.eff).filter (fun i => !s.src.prot || i % 2 == l % 2)

/-- `cvt` (R126). -/
def execCvt (d a : BitVec 7) (x : BitVec 1) (m t u : BitVec 3) (s : State) : Out :=
  issued (infV2 .t (cvtRegs u) (cvtRegs t) d a) s (fpLanes (infV2 .t (cvtRegs u) (cvtRegs t) d a) (cvtRegs u) d (fun l => cvtVal { s.fc with rm := codeMode s.src.rm m } (x == 1#1) t u (s.rw (cvtRegs t) a l)))

/-- `cvt.e4m3.f32` (R128). -/
def execCvtE4m3F32 (d a b : BitVec 7) (s : State) : Out :=
  issued (infV4 .t 1 1 1 d a b) s (fpLanes (infV4 .t 1 1 1 d a b) 1 d (fun l => narrow2 false (fConv e4m3 f32 s.fc false) (s.rw 1 a l) (s.rw 1 b l) (s.rw 1 d l)))

/-- `cvthi.e4m3.f32` (R128). -/
def execCvthiE4m3F32 (d a b : BitVec 7) (s : State) : Out :=
  issued (infV4 .t 1 1 1 d a b) s (fpLanes (infV4 .t 1 1 1 d a b) 1 d (fun l => narrow2 true (fConv e4m3 f32 s.fc false) (s.rw 1 a l) (s.rw 1 b l) (s.rw 1 d l)))

/-- `cvt.e5m2.f32` (R128). -/
def execCvtE5m2F32 (d a b : BitVec 7) (s : State) : Out :=
  issued (infV4 .t 1 1 1 d a b) s (fpLanes (infV4 .t 1 1 1 d a b) 1 d (fun l => narrow2 false (fConv e5m2 f32 s.fc false) (s.rw 1 a l) (s.rw 1 b l) (s.rw 1 d l)))

/-- `cvthi.e5m2.f32` (R128). -/
def execCvthiE5m2F32 (d a b : BitVec 7) (s : State) : Out :=
  issued (infV4 .t 1 1 1 d a b) s (fpLanes (infV4 .t 1 1 1 d a b) 1 d (fun l => narrow2 true (fConv e5m2 f32 s.fc false) (s.rw 1 a l) (s.rw 1 b l) (s.rw 1 d l)))

/-- `cvt.e4m3.f32.sat` (R128). -/
def execCvtE4m3F32Sat (d a b : BitVec 7) (s : State) : Out :=
  issued (infV4 .t 1 1 1 d a b) s (fpLanes (infV4 .t 1 1 1 d a b) 1 d (fun l => narrow2 false (fConv e4m3 f32 s.fc true) (s.rw 1 a l) (s.rw 1 b l) (s.rw 1 d l)))

/-- `cvthi.e4m3.f32.sat` (R128). -/
def execCvthiE4m3F32Sat (d a b : BitVec 7) (s : State) : Out :=
  issued (infV4 .t 1 1 1 d a b) s (fpLanes (infV4 .t 1 1 1 d a b) 1 d (fun l => narrow2 true (fConv e4m3 f32 s.fc true) (s.rw 1 a l) (s.rw 1 b l) (s.rw 1 d l)))

/-- `cvt.e5m2.f32.sat` (R128). -/
def execCvtE5m2F32Sat (d a b : BitVec 7) (s : State) : Out :=
  issued (infV4 .t 1 1 1 d a b) s (fpLanes (infV4 .t 1 1 1 d a b) 1 d (fun l => narrow2 false (fConv e5m2 f32 s.fc true) (s.rw 1 a l) (s.rw 1 b l) (s.rw 1 d l)))

/-- `cvthi.e5m2.f32.sat` (R128). -/
def execCvthiE5m2F32Sat (d a b : BitVec 7) (s : State) : Out :=
  issued (infV4 .t 1 1 1 d a b) s (fpLanes (infV4 .t 1 1 1 d a b) 1 d (fun l => narrow2 true (fConv e5m2 f32 s.fc true) (s.rw 1 a l) (s.rw 1 b l) (s.rw 1 d l)))

/-- `cvt.f32.e4m3` (R128). -/
def execCvtF32E4m3 (d a : BitVec 7) (k : BitVec 2) (s : State) : Out :=
  issued (infV2 .t 1 1 d a) s (fpLanes (infV2 .t 1 1 d a) 1 d (fun l => fConv f32 e4m3 s.fc false (bitsOf (s.rw 1 a l) (8 * k.toNat) 8)))

/-- `cvt.f32.e5m2` (R128). -/
def execCvtF32E5m2 (d a : BitVec 7) (k : BitVec 2) (s : State) : Out :=
  issued (infV2 .t 1 1 d a) s (fpLanes (infV2 .t 1 1 d a) 1 d (fun l => fConv f32 e5m2 s.fc false (bitsOf (s.rw 1 a l) (8 * k.toNat) 8)))

/-- `cvt2.bf16.e4m3` (R128). -/
def execCvt2Bf16E4m3 (d a : BitVec 7) (h : BitVec 1) (s : State) : Out :=
  issued (infV2 .t 1 1 d a) s (fpLanes (infV2 .t 1 1 d a) 1 d (fun l => let v := bitsOf (s.rw 1 a l) (16 * h.toNat) 16; packed2 (fun x _ => fConv bf16 e4m3 s.fc false x) (v % 256 + 65536 * (v / 256)) 0))

/-- `cvt2.bf16.e5m2` (R128). -/
def execCvt2Bf16E5m2 (d a : BitVec 7) (h : BitVec 1) (s : State) : Out :=
  issued (infV2 .t 1 1 d a) s (fpLanes (infV2 .t 1 1 d a) 1 d (fun l => let v := bitsOf (s.rw 1 a l) (16 * h.toNat) 16; packed2 (fun x _ => fConv bf16 e5m2 s.fc false x) (v % 256 + 65536 * (v / 256)) 0))

/-- `qsc` (R82, R129). -/
def execQsc (d a : BitVec 7) (t : BitVec 2) (s : State) : Out :=
  issued (if t = 3#2 then infW3 (infV2 .t 1 1 d a) else infV2 .t 1 1 d a) s (State.eachEff (f := fun r l => r.wrV d.toNat l (BitVec.ofNat 32 (scaleByte s.src.daz t.toNat ((s.peers l).map (s.rw 1 a)))) ((s.peers l).any (fun i => (s.src.poisV a.toNat).getLsbD i))))

/-- `cvt.w4.f32` (R130). -/
def execCvtW4F32 (d a b : BitVec 7) (s : State) : Out :=
  issued (infV3 .t 1 1 1 d a b) s (fpLanes (infV3 .t 1 1 1 d a b) 1 d (fun l => toCode s.fc 4 (s.rw 1 a l) (s.rw 1 b l)))

/-- `cvt.w3.f32` (R130). -/
def execCvtW3F32 (d a b : BitVec 7) (s : State) : Out :=
  issued (infW3 (infV3 .t 1 1 1 d a b)) s (fpLanes (infV3 .t 1 1 1 d a b) 1 d (fun l => toCode s.fc 3 (s.rw 1 a l) (s.rw 1 b l)))

/-- `cvt.f32.w4` (R130). -/
def execCvtF32W4 (d a b : BitVec 7) (s : State) : Out :=
  issued (infV3 .t 1 1 1 d a b) s (fpLanes (infV3 .t 1 1 1 d a b) 1 d (fun l => ofCode s.fc (s.rw 1 a l) (s.rw 1 b l)))

/-- `clmul.b32` (R131). -/
def execClmulB32 (d a b : BitVec 7) (s : State) : Out :=
  issued (infV3 .t 1 1 1 d a b) s (clOut 1 1 32 0 32 d a b)

/-- `clmulh.b32` (R131). -/
def execClmulhB32 (d a b : BitVec 7) (s : State) : Out :=
  issued (infV3 .t 1 1 1 d a b) s (clOut 1 1 32 32 32 d a b)

/-- `clmulw.b32` (R131). -/
def execClmulwB32 (d a b : BitVec 7) (s : State) : Out :=
  issued (infV3 .t 2 1 1 d a b) s (clOut 2 1 32 0 64 d a b)

/-- `clmul.b64` (R131). -/
def execClmulB64 (d a b : BitVec 7) (s : State) : Out :=
  issued (infV3 .t 2 2 2 d a b) s (clOut 2 2 64 0 64 d a b)

/-- `clmulh.b64` (R131). -/
def execClmulhB64 (d a b : BitVec 7) (s : State) : Out :=
  issued (infV3 .t 2 2 2 d a b) s (clOut 2 2 64 64 64 d a b)

/-- `clmulw.b64` (R131). -/
def execClmulwB64 (d a b : BitVec 7) (s : State) : Out :=
  issued (infV3 .t 4 2 2 d a b) s (clOut 4 2 64 0 128 d a b)

/-- `clmulr.b32` (R131). -/
def execClmulrB32 (d a b : BitVec 7) (s : State) : Out :=
  issued (infV3 .t 1 1 1 d a b) s (clOut 1 1 32 31 32 d a b)

/-- `clmulr.b64` (R131). -/
def execClmulrB64 (d a b : BitVec 7) (s : State) : Out :=
  issued (infV3 .t 2 2 2 d a b) s (clOut 2 2 64 63 64 d a b)

end Sys2Proof.Machine
end

