-- ==== Sys2Proof/Machine/Copy.lean ====
section
/-! DEFINITION. The tensor copy engine: layout records, the words of major `0x39`, and the events of the engine (R275 to
R277, R325 to R350). -/

namespace Sys2Proof.Machine

/-! ### Layout records (R328 to R331) -/

structure Layout where
  ty : Nat
  elem : Nat
  flags : Nat
  nrows : Nat
  base : Nat
  rowoff : Nat
  pitch : Nat
  boxR : Nat
  boxC : Nat
  pad : Nat
  trav : Nat
  inner : Nat
  swz : Nat
  tr : Nat
  tc : Nat
  ntr : Nat
  ntc : Nat
  deriving DecidableEq, Repr

def Layout.ofNat (r : Nat) : Layout :=
  let two := recField r 0 1 == 2
  { ty := recField r 0 1, elem := recField r 1 1, flags := recField r 2 2, nrows := recField r 4 4,
    base := recField r 8 8, rowoff := recField r 0x10 8, pitch := recField r 0x18 4,
    boxR := recField r (if two then 0x18 else 0x1C) 2, boxC := recField r (if two then 0x1A else 0x1E) 2,
    pad := recField r 0x20 8, trav := recField r 2 1, inner := recField r 3 1, swz := recField r 4 1,
    tr := recField r 0x10 2, tc := recField r 0x12 2, ntr := recField r 0x14 2, ntc := recField r 0x16 2 }

/-- Element size in bytes. -/
def Layout.esz (l : Layout) : Nat := 2 ^ l.elem
def Layout.fixed (l : Layout) : Bool := l.ty == 1 && l.flags % 2 == 1
/-- Bytes of a box (R337). -/
def Layout.boxBytes (l : Layout) : Nat := l.boxR * l.boxC * l.esz

/-- Bit `2k` of the result is bit `k` of `c`, bit `2k + 1` is bit `k` of `r` (R330). -/
def morton (r c : Nat) : Nat :=
  (List.range 16).foldl (fun t k => t + bitsOf c k 1 * 2 ^ (2 * k) + bitsOf r k 1 * 2 ^ (2 * k + 1)) 0

/-- Number of a tile of a type 2 layout. -/
def Layout.tile (l : Layout) (r c : Nat) : Nat :=
  match l.trav with
  | 0 => r * l.ntc + c
  | 1 => c * l.ntr + r
  | _ => morton r c

/-- Tiles that the layout spans in memory. -/
def Layout.tiles (l : Layout) : Nat := if l.trav = 2 then morton (l.ntr - 1) (l.ntc - 1) + 1 else l.ntr * l.ntc

/-- Address after the layout: of FIXED and type 2 layouts, else of its row-offset array. -/
def Layout.ends (l : Layout) : Nat :=
  if l.ty = 2 then l.base + l.tiles * l.tr * l.tc * l.esz
  else if l.fixed then l.base + l.nrows * l.pitch * l.esz
  else max l.base (l.rowoff + 8 * (l.nrows + 1))

def isPow2 (n : Nat) : Bool := n == 2 ^ Nat.log2 n

/-- A malformed record (R331). -/
def recordBad (r : Nat) : Bool :=
  let l := Layout.ofNat r
  l.ty == 0 || 2 < l.ty || 4 < l.elem || recField r 0x28 24 != 0 || l.boxR == 0 || 256 < l.boxR || 4096 < l.boxC * l.esz
    || 2 ^ 57 < l.base || 2 ^ 57 < l.ends
    || (if l.ty = 2 then
          recField r 5 3 != 0 || recField r 0x1C 4 != 0 || l.base % 256 != 0 || 2 < l.trav || 1 < l.inner || 2 < l.swz
            || l.tr == 0 || l.tc == 0 || l.ntr == 0 || l.ntc == 0 || 256 < l.tr || 4096 < l.tc
            || (l.trav == 2 && !(isPow2 l.ntr && isPow2 l.ntc)) || (l.swz != 0 && l.tr * l.tc * l.esz % 256 != 0)
        else
          1 < l.flags || l.base % l.esz != 0
            || (if l.fixed then l.pitch == 0 || l.rowoff != 0 else l.pitch != 0 || l.rowoff % 8 != 0))

/-- Two records that one command may name (R330, R331). -/
def pairBad (maint : Bool) (a b : Nat) : Bool :=
  let x := Layout.ofNat a
  let y := Layout.ofNat b
  recordBad a || recordBad b || x.elem != y.elem || x.boxR != y.boxR || x.boxC != y.boxC
    || (!maint && (x.ty == 2 || y.ty == 2))

/-- Address of element (r, c), where the layout holds it; `row` is the start and length of a ragged row. -/
def Layout.addr (l : Layout) (row : Option (Nat × Nat)) (r c : Nat) : Option Nat :=
  if l.ty = 2 then
    if r < l.tr * l.ntr ∧ c < l.tc * l.ntc then
      let t := l.tile (r / l.tr) (c / l.tc)
      let ir := r % l.tr
      let ic := c % l.tc
      let o := (if l.inner = 0 then ir * l.tc + ic else ic * l.tr + ir) * l.esz % 2 ^ 32
      let x := match l.swz with
        | 1 => t % 16 * 16
        | 2 => ir % 16 * 16
        | _ => 0
      some (l.base + t * l.tr * l.tc * l.esz + (o ^^^ x))
    else none
  else if l.nrows ≤ r then none
  else
    match if l.fixed then some (r * l.pitch, l.pitch) else row with
    | none => none
    | some (st, n) => if c < n then some (l.base + l.esz * (st + c)) else none

/-! ### Commands and boxes -/

def CopyCmd.box (q : CopyCmd) (i : Nat) : Option CopyBox := q.boxes[i]?

/-- The layouts of a box. -/
def CopyCmd.pair (q : CopyCmd) (x : CopyBox) : CopyPair :=
  (q.pairs[if q.stage.isSome then x.lane else 0]?).getD ⟨0, 0, none, none⟩

def CopyCtx.cmd (c : CopyCtx) (id : Nat) : Option CopyCmd := c.cmds.find? (fun q => q.id == id)
def CopyCtx.modCmd (c : CopyCtx) (id : Nat) (f : CopyCmd → CopyCmd) : CopyCtx :=
  { c with cmds := modWhere (fun q => q.id == id) f c.cmds }

def State.modCtx (s : State) (core x : Nat) (f : CopyCtx → CopyCtx) : State := s.setCtx core x ((s.ctx core x).map f)
def State.modCmd (s : State) (core x id : Nat) (f : CopyCmd → CopyCmd) : State := s.modCtx core x (fun c => c.modCmd id f)
def State.modBox (s : State) (core x b : Nat) (f : CopyBox → CopyBox) : State := s.modCtx core x (fun c => c.modBox b f)

/-- The contexts of a core with their numbers. -/
def State.ctxsOf (s : State) (core : Nat) : List (Nat × CopyCtx) :=
  (List.range 16).filterMap (fun x => (s.ctx core x).map (fun c => (x, c)))

def State.freeCtx (s : State) (core : Nat) : List Nat := (List.range 16).filter (fun x => (s.ctx core x).isNone)

/-- An engine acting for a group (R255, R327). -/
structure Eng where
  core : Nat
  ctx : Nat
  grp : Nat
  team : Nat
  cmd : Nat
  asid : Nat
  view : Nat
  clock : Map Nat
  deriving DecidableEq, Repr

def engOf (core x : Nat) (c : CopyCtx) (q : CopyCmd) : Eng := ⟨core, x, c.grp, c.team, q.id, q.asid, q.view, q.clock⟩

/-- Why an engine does not act now. -/
inductive EngStop where
  | wait (asid view va : Nat) (k : AccKind) (hint : Nat) (st : ReqState)
  | fault (cause detail : Nat)
  deriving DecidableEq, Repr

/-- The engine is no lane; compute groups have PRV 0. -/
def Eng.actor (e : Eng) : Actor := { lane := false, prv := 0, team := some e.team, core := e.core }

/-- The on-chip place of bytes named by a copy (R212, R213, R346). -/
def State.engChip (s : State) (e : Eng) (va n : Nat) : Except EngStop Loc :=
  if va < mgmtBase then .error (.fault 5 0)
  else
    match s.onChipLoc e.actor va n with
    | .error r => .error (.fault 4 r)
    | .ok (.reg k b) =>
      match s.getG k with
      | none => .error (.fault 4 7)
      | some g =>
        if g.finished || ((s.team e.team).map Team.nGroups).getD 0 ≤ g.grp || g.regsN ≤ (b + n - 1) / 128 then
          .error (.fault 4 7)
        else .ok (.reg k b)
    | .ok l => .ok l

/-- Where an engine's destination byte lies, before any fill: the block that it owns is one of its home (R275), which a
write through a copy-on-write alias will first have made private (R250). -/
def State.engOwns (s : State) (e : Eng) (va : Nat) : Option Loc :=
  if 2 ^ 57 ≤ va || inTable va then none
  else if onChip va then
    match s.engChip e va 1 with
    | .ok l => some l
    | .error _ => none
  else if e.view != 0 then (if s.ownWindow e.asid e.view va then some (.home e.asid e.view va) else none)
  else
    let w := s.walkRaw e.asid va
    let k := if w.kind == .aliasTo && entCow w.entry then (e.asid, 0, va) else s.homeKey e.asid 0 va
    if w.kind == .leaf && entKind w.entry == 3 then
      some (.host (bitsOf (entLoc w.entry) 52 4) (4096 * (locOff w.entry + leafPage w va) + va % 4096))
    else some (.home k.1 k.2.1 k.2.2)

/-- The first block of a place that another command's ownership or a cofferdam holds back (R284, R338). -/
def State.engHeld (s : State) (e : Eng) (l : Loc) (n : Nat) : Option Nat :=
  if s.owns.isEmpty && s.dams.isEmpty then none
  else (l.blocks n).find? (fun b =>
    s.owns.any (fun o => o.blk == b && o.cmd != e.cmd && (o.held || (o.core == e.core && o.cmd < e.cmd)))
      || s.dams.any (fun d => !d.breached && d.blk == b))

/-- Bytes within one 64-byte block, as an engine's access finds them. -/
def State.engPart (s : State) (e : Eng) (k : AccKind) (bypass : Bool) (va n : Nat) : State × Except EngStop Loc :=
  let h := if bypass then 2 else 0
  let wait (s : State) (v : Nat) (r : ReqState) : State × Except EngStop Loc := (s, .error (.wait e.asid v va k h r))
  let held (s : State) (l : Loc) : State × Except EngStop Loc :=
    match s.engHeld e l n with
    | some b => wait s e.view (.onBlock b)
    | none => (s, .ok l)
  let find (s : State) : State × Except EngStop Loc :=
    match s.locate k bypass e.asid 0 va with
    | (s, .miss) => wait s 0 .fresh
    | (s, .wait r) => wait s 0 r
    | (s, .at l) =>
      let s := s.countNow ((s.team e.team).map Team.grid) e.asid va
      match l with
      | .peer d x o =>
        match s.peerTry k e.asid 0 va with
        | (s, .done) => (s, .ok (.peer d x o))
        | (s, .wait r) => wait s 0 r
        | (s, .lost) => (s, .ok .gone)
      | l => held s l
  if 2 ^ 57 < va + n then (s, .error (.fault 7 0))
  else if inTable va then (s, .error (.fault 5 0))
  else if onChip va then
    match s.engChip e va n with
    | .error x => (s, .error x)
    | .ok l => held s l
  else if e.view = 0 then find s
  else
    let own := s.ownWindow e.asid e.view va
    let v := s.viewOver e.asid va 8 e.view
    if k.isWrite && !own then (s, .error (.fault 5 0))
    else if v = 0 then find s
    else if k.isWrite && !s.viewAllows k e.asid va then wait s v .fresh
    else
      match s.viewFill e.asid v va with
      | (s, some (.park a w x _ h' st)) => (s, .error (.wait a w x k h' st))
      | (s, some (.refuse _)) => (s, .error (.fault 5 0))
      | (s, none) => held s (.home e.asid v va)

/-- The parts of an engine's access by 64-byte blocks. -/
def State.engParts (s : State) (e : Eng) (k : AccKind) (bypass : Bool) (va n : Nat) : State × Except EngStop (List Piece) :=
  (blockParts va n).foldl (fun (acc : State × Except EngStop (List Piece)) p =>
    match acc with
    | (s, .error x) => (s, .error x)
    | (s, .ok ps) =>
      match s.engPart e k bypass p.1 p.2 with
      | (s, .error x) => (s, .error x)
      | (s, .ok l) => (s, .ok (ps ++ [⟨p.1, p.2, l, none, false⟩]))) (s, .ok [])

/-- Byte `i` of a place as the command reads it: blocks that it owns as they stood before it (R338). -/
def State.engByte (s : State) (q : CopyCmd) (l : Loc) (i : Nat) : Byte :=
  match (l.ownKey i).bind (fun b => q.before.find? (fun x => x.1 == b)) with
  | none => s.rdByte l i
  | some (_, data, _) =>
    let o := match l with
      | .reg _ b => (b + i) % 128
      | .spad _ x => (x + i) % 64
      | .acc _ _ x => (x + i) % 64
      | .home _ _ x => (x + i) % 64
      | .host _ x => (x + i) % 64
      | _ => 0
    BitVec.ofNat 8 (recField data o 1)

def State.engPois (s : State) (q : CopyCmd) (p : Piece) : Bool :=
  match (p.loc.ownKey 0).bind (fun b => q.before.find? (fun x => x.1 == b)) with
  | none => s.locPois p.loc p.n
  | some (_, _, po) => po

/-- An engine's read: bytes with the poison of each. -/
def State.engRead (s : State) (q : CopyCmd) (ps : List Piece) : List (Byte × Bool) :=
  ps.flatMap (fun p =>
    let po := s.engPois q p
    (List.range p.n).map (fun i => (s.engByte q p.loc i, po)))

/-- The accessor of an engine. -/
def Eng.accessor (e : Eng) (s : State) : Accessor :=
  { agent := copyAgent e.core e.ctx, core := e.core, grp := ((s.getG e.grp).map Group.grp).getD 0, engine := true,
    pc := 0, lanes := 0, gid := e.grp, clock := some e.clock }

/-! ### Faults and completion (R336, R346 to R350) -/

/-- Some lane of the group can take a copy fault (R348). -/
def Group.takesFaults (g : Group) : Bool :=
  g.r.aen && !g.finished
    && (List.range 32).any (fun l => g.laneAt l == .live || g.laneAt l == .parked || g.laneAt l == .joinWait)

/-- `TRAP_INFO0` of a copy fault (R348). -/
def CopyFault.info0 (f : CopyFault) (x lane : Nat) (plan : Bool) : Nat :=
  let bit (b : Bool) (n : Nat) : Nat := if b then 2 ^ n else 0
  f.handle % 65536 + lane % 32 * 2 ^ 16 + f.side * 2 ^ 21 + bit f.resolve 22 + bit plan 23 + x % 16 * 2 ^ 24 + bit f.weir 28

/-- The context of a command that is complete (R325, R326, R344). -/
def State.cmdDone (s : State) (core x id : Nat) : State :=
  match s.ctx core x with
  | none => s
  | some c =>
    match c.cmd id with
    | none => s
    | some q =>
      if q.boxes.any (fun b => b.state != .done) then s
      else
        let s := s.hbDone c.grp (copyAgent core x) (clkMax q.clock (s.race.clock (copyAgent core x)))
        let c := { c with cmds := c.cmds.filter (fun y => y.id != id) }
        let keep := match c.plan with
          | some p => !p.released
          | none => false
        (s.setCtx core x (if keep || !c.cmds.isEmpty then some c else none)).modG c.grp
          (fun g => { g with cpcnt := g.cpcnt - 1 })

/-- Blocks of a box that it has not written are released (R275, R349). -/
def State.disown (s : State) (p : Own → Bool) : State :=
  let gone := s.owns.filter p
  let s := { s with owns := s.owns.filter (fun o => !p o) }
  (gone.filter (·.held)).foldl (fun s o => s.releaseBlk o.blk) s

/-- The status of a box is written and the blocks that it has not written are released (R336, R349). -/
def State.boxStatus (s : State) (core x : Nat) (q : CopyCmd) (i : Nat) (b : CopyBox) : State :=
  let st : Word := BitVec.ofNat 32 ((if b.padded then 1 else 0) + (if b.clipped then 2 else 0) + 4 * b.outcome)
  let s := s.disown (fun o => o.cmd == q.id && o.box == 64 * q.id + i)
  let grp := ((s.ctx core x).map CopyCtx.grp).getD 0
  let s := match q.vd with
    | none => s
    | some d => s.modG grp (fun g =>
        if g.finished then g
        else
          let ls := if g.r.prot && b.lane % 2 == 0 then [b.lane, b.lane + 1] else [b.lane]
          { g with r := ls.foldl (fun r l => r.wrV d l st false) g.r })
  s.modBox core x (64 * q.id + i) (fun y => { y with told := true })

/-- A box is complete (R326). -/
def State.boxDone (s : State) (core x : Nat) (q : CopyCmd) (i : Nat) : State :=
  (s.modBox core x (64 * q.id + i) (fun y => { y with state := .done, weirDone := true })).cmdDone core x q.id

/-- Host memory backs an address (R295). -/
def State.hostBacked (s : State) (asid va : Nat) : Bool :=
  let w := s.walkRaw asid va
  let w := if w.kind == .aliasTo then s.walkRaw 0 (aliasVa w va) else w
  w.kind == .leaf && entKind w.entry == 3

/-- The weir of a command lies where R295 and R439 permit weir words (R335). -/
def State.weirOk (s : State) (e : Eng) (w : Nat) : Bool :=
  w % 16 == 0 && w + 16 ≤ 2 ^ 57 && !inTable w &&
    (if onChip w then (match s.engChip e w 16 with
        | .ok (.spad _ _) => true
        | _ => false)
     else (e.view == 0 || s.ownWindow e.asid e.view w) && !s.hostBacked e.asid w)

def CopyCmd.scope (q : CopyCmd) : Nat := bitsOf q.ctl.toNat 0 3
def CopyCmd.arr (q : CopyCmd) : Bool := q.ctl.getLsbD 3
def CopyCmd.hint (q : CopyCmd) : Nat := bitsOf q.ctl.toNat 4 2

/-- The control word and weir break R335. -/
def State.controlBad (s : State) (e : Eng) (q : CopyCmd) : Bool :=
  5 < q.scope || q.hint == 3 || 64 ≤ q.ctl.toNat || (q.weirAddr != 0 && !s.weirOk e q.weirAddr)

/-- Bytes that a box counts on the weir (R337, R349). -/
def CopyCmd.count (q : CopyCmd) (b : CopyBox) : Nat :=
  let p := q.pair b
  match p.srcRec, p.dstRec with
  | some r, d => if recordBad r then (d.map (fun r => if recordBad r then 0 else (Layout.ofNat r).boxBytes)).getD 0
                 else (Layout.ofNat r).boxBytes
  | none, some r => if recordBad r then 0 else (Layout.ofNat r).boxBytes
  | none, none => 0

/-- The weir update of box `i` (R314, R335, R337): `none` once it has been made. Its release waits for the engine's and
the group's stores where it carries no clock (R273), and for the end of a close (R309). -/
def State.boxWeir (s : State) (e : Eng) (q : CopyCmd) (i : Nat) : State × Option (Option EngStop) :=
  match q.box i with
  | none => (s, none)
  | some b =>
    if q.weirAddr = 0 || b.weirDone then (s, none)
    else
      let slow := onChip q.weirAddr || q.scope == 5
      let busy := s.stores.any (fun x => (x.grp.isNone && x.die == e.core / 32) || x.grp == some e.grp)
      if slow && busy then (s, some none)
      else if !onChip q.weirAddr && s.hostBacked e.asid q.weirAddr then (s, some (some (.fault 2 0)))
      else
        match s.engPart e .engineStore false q.weirAddr 16 with
        | (s, .error x) => (s, some (some x))
        | (s, .ok l) =>
          if s.weirClosing l then (s, some none)
          else
            let last := (((List.range q.boxes.length).zip q.boxes).filter (fun y => y.1 != i)).all (fun y => y.2.state == .done)
            let a := copyAgent e.core e.ctx
            let s := s.weirUpdate l (if q.arr && last then 1 else 0) (q.count b) false none
            let s := (s.l1DropLoc e.core l 16).signLoc e.core l 16
            let s := (s.releaseAt e.core (e.core / 32) l 16 true).seeHome a l 16
            ((s.hbTake a e.clock).hbRelease a (l.words 16) q.scope true, none)

/-- A box waits (R347): `at_` is the address of what it accesses. -/
def State.engWait (s : State) (core x b what at_ : Nat) (st : EngStop) : State :=
  match st with
  | .wait a v va k h r =>
    let wait (y : CopyBox) : CopyBox := { y with state := .waiting }
    (s.modBox core x b wait).addReq a v va k h (.copy core x b what at_) r
  | .fault _ _ => s

/-- The record of a copy fault that no group takes (R350). -/
def State.faultRec (s : State) (core x grp lane : Nat) (plan : Bool) (f : CopyFault) : State :=
  let r := s.recOf grp 5 3
  let t := ((s.getG grp).map Group.tile).getD (core / 128)
  s.writeRec t { r with unit := 7, res := core, addr := f.addr, lanes := 2 ^ lane, who := r.who + 2 ^ 15, code := f.cause, detail := f.detail, aux := f.info0 x lane plan }

/-- A box whose fault is skipped writes nothing more (R349, R350): it completes once what it has stored is acknowledged,
with its weir update but for a CONTROL fault or one of the update itself. -/
def State.boxSkip (s : State) (core x id i outcome : Nat) (weir : Bool) : State :=
  let up (b : CopyBox) : CopyBox :=
    { b with state := .running, outcome := outcome, patch := none, told := false, weirDone := b.weirDone || !weir }
  (s.disown (fun o => o.cmd == id && o.box == 64 * id + i)).modBox core x (64 * id + i) up

/-- Skips a fault (R349, R350). -/
def State.skipFault (s : State) (core x id i outcome : Nat) (f : CopyFault) : State :=
  match (s.ctx core x).bind (fun c => (c.cmd id).map (fun q => (c, q))) with
  | none => s
  | some (c, q) =>
    if f.resolve then
      let ok := f.cause != 2 && !s.controlBad (engOf core x c q) q
      let up (q : CopyCmd) : CopyCmd := { q with resolved := true, fault := none }
      (List.range q.boxes.length).foldl (fun s i => s.boxSkip core x id i outcome ok) (s.modCmd core x id up)
    else s.boxSkip core x id i outcome (!f.weir)

/-- A copy fault arises (R346): it waits for delivery, or is skipped at once with a record (R350). -/
def State.copyFault (s : State) (core x id i : Nat) (f : CopyFault) : State :=
  match (s.ctx core x).bind (fun c => (c.cmd id).map (fun q => (c, q))) with
  | none => s
  | some (c, q) =>
    let lane := ((q.box i).map CopyBox.lane).getD 0
    let takes := ((s.getG c.grp).map Group.takesFaults).getD false
    if takes then
      let mark (q : CopyCmd) : CopyCmd := { q with fault := some f }
      let stop (b : CopyBox) : CopyBox := { b with state := .faulted f }
      if f.resolve then s.modCmd core x id mark else s.modBox core x (64 * id + i) stop
    else (s.faultRec core x c.grp lane q.stage.isSome f).skipFault core x id i 2 f

/-! ### Row offsets (R329) -/

/-- A double of a row-offset array: read once for the command. `none` where it is unreadable or poisoned; a wait comes with
the double's address. -/
def State.rowDouble (s : State) (e : Eng) (q : CopyCmd) (va : Nat) : State × CopyCmd × Except (Nat × EngStop) (Option Nat) :=
  match q.rows.find? (fun r => r.1 == va) with
  | some r => (s, q, .ok r.2)
  | none =>
    let keep (v : Option Nat) : CopyCmd := { q with rows := q.rows ++ [(va, v)] }
    match s.engParts e .engineLoad false va 8 with
    | (s, .error (.fault _ _)) => (s, keep none, .ok none)
    | (s, .error x) => (s, q, .error (va, x))
    | (s, .ok ps) =>
      let bs := s.engRead q ps
      let v := if bs.any (·.2) then none else some (leNat (bs.map (·.1)))
      (s, keep v, .ok v)

/-- Start and length of a ragged row: `none` where it is outside or no row is read; `some none` is a ROWOFF fault. -/
def State.rowInfo (s : State) (e : Eng) (q : CopyCmd) (l : Layout) (r : Nat) :
    State × CopyCmd × Except (Nat × EngStop) (Option (Option (Nat × Nat))) :=
  if l.ty = 2 || l.fixed || l.nrows ≤ r then (s, q, .ok none)
  else
    match s.rowDouble e q (l.rowoff + 8 * r) with
    | (s, q, .error x) => (s, q, .error x)
    | (s, q, .ok none) => (s, q, .ok (some none))
    | (s, q, .ok (some a)) =>
      match s.rowDouble e q (l.rowoff + 8 * r + 8) with
      | (s, q, .error x) => (s, q, .error x)
      | (s, q, .ok none) => (s, q, .ok (some none))
      | (s, q, .ok (some b)) => (s, q, .ok (some (if b < a then none else some (a, b - a))))

/-! ### Resolution (R275, R327, R335) -/

/-- Destination blocks of a box with the number of their bytes; `none` in a row is a ROWOFF fault. -/
def State.boxBlocks (s : State) (e : Eng) (q : CopyCmd) (l : Layout) (b : CopyBox) :
    State × CopyCmd × Except (Nat × EngStop) (Except Nat (Map Nat)) :=
  (List.range l.boxR).foldl (fun (acc : State × CopyCmd × Except (Nat × EngStop) (Except Nat (Map Nat))) i =>
    match acc with
    | (s, q, .ok (.ok m)) =>
      match s.rowInfo e q l (b.dr + i) with
      | (s, q, .error x) => (s, q, .error x)
      | (s, q, .ok (some none)) => (s, q, .ok (.error i))
      | (s, q, .ok row) =>
        let m := (List.range l.boxC).foldl (fun m j =>
          if i * l.boxC + j < b.pos then m
          else match (l.addr row.join (b.dr + i) (b.dc + j)).bind (s.engOwns e) with
          | none => m
          | some p => match p.ownKey 0 with
            | none => m
            | some k => mapMod 0 m k (· + l.esz)) m
        (s, q, .ok (.ok m))
    | r => r) (s, q, .ok (.ok []))

/-- A record of a command (R327): read, unreadable, or to be waited for. -/
def State.readRecord (s : State) (e : Eng) (q : CopyCmd) (h : Nat) : State × Except EngStop (Option Nat) :=
  if q.ltabCount ≤ h || q.ltabBase % 64 != 0 then (s, .ok none)
  else
    match s.engParts e .engineLoad false (q.ltabBase + 64 * h) 64 with
    | (s, .error (.fault _ _)) => (s, .ok none)
    | (s, .error x) => (s, .error x)
    | (s, .ok ps) =>
      let bs := s.engRead q ps
      if bs.any (·.2) then
        let r := s.recOf e.grp 3 3
        (s.writeRec (e.core / 128) { r with unit := 7, res := e.core, addr := q.ltabBase + 64 * h, who := r.who + 2 ^ 15, code := 13 }, .ok none)
      else (s, .ok (some (leNat (bs.map (·.1)))))

/-- The fault of a resolution (R346, R348). -/
def resolveFault (cause side handle : Nat) : CopyFault :=
  { cause := cause, detail := 0, side := side, resolve := true, weir := false, handle := handle, addr := 0, row := 0,
    col := 0, delivered := false }

/-- Steps of a command's resolution before ownership: `true` once its records and control stand. -/
def State.resolveRecs (s : State) (e : Eng) (x : Nat) (q : CopyCmd) : State × Bool :=
  if q.resolved || q.stage.isSome then (s, true)
  else
    let p := (q.pairs.head?).getD ⟨0, 0, none, none⟩
    let wait (s : State) (h : Nat) (st : EngStop) : State :=
      s.engWait e.core x (64 * q.id + 63) 5 (q.ltabBase + 64 * h) st
    let keep (s : State) (a b : Option Nat) : State := s.modCmd e.core x q.id (fun q => { q with pairs := [⟨p.src, p.dst, a, b⟩] })
    match match p.srcRec with
        | some r => (s, Except.ok (some r))
        | none => s.readRecord e q p.src with
    | (s, .error st) => (wait s p.src st, false)
    | (s, .ok a) =>
      match s.readRecord e q p.dst with
      | (s, .error st) => (wait (keep s a none) p.dst st, false)
      | (s, .ok b) =>
        let s := keep s a b
        let bad (r : Option Nat) : Bool := match r with
          | none => true
          | some r => recordBad r || (!q.maint && (Layout.ofNat r).ty == 2)
        let lay := match a, b with
          | some a, some b => pairBad q.maint a b
          | _, _ => true
        if lay then
          let side := if bad b && !bad a then 1 else 0
          (s.copyFault e.core x q.id 0 (resolveFault 1 side (if side = 1 then p.dst else p.src)), false)
        else if s.controlBad e q then (s.copyFault e.core x q.id 0 (resolveFault 2 0 p.src), false)
        else (s, true)

/-- The fault of a box at its element `pos` (R348). -/
def CopyCmd.faultAt (q : CopyCmd) (b : CopyBox) (cause detail side addr : Nat) (weir : Bool) : CopyFault :=
  let p := q.pair b
  let w := ((p.srcRec.map Layout.ofNat).map Layout.boxC).getD 1
  let i := b.pos / max w 1
  let j := b.pos % max w 1
  { cause := cause, detail := detail, side := side, resolve := false, weir := weir,
    handle := if side = 1 then p.dst else p.src, addr := addr,
    row := if weir then 0 else (if side = 1 then b.dr else b.sr) + i,
    col := if weir then 0 else (if side = 1 then b.dc else b.sc) + j, delivered := false }

/-- Requests ownership of the destination blocks of box `i` (R275); `false` where it must wait. -/
def State.requestBox (s : State) (e : Eng) (x : Nat) (q : CopyCmd) (i : Nat) : State × Bool :=
  match q.box i with
  | none => (s, true)
  | some b =>
    match (q.pair b).dstRec with
    | none => (s, true)
    | some r =>
      if b.state != .fresh then (s, true)
      else
        let l := Layout.ofNat r
        match s.boxBlocks e q l b with
        | (s, q, .error (a, st)) =>
          let up (y : CopyCmd) : CopyCmd := { y with rows := q.rows }
          ((s.modCmd e.core x q.id up).engWait e.core x (64 * q.id + 63) 3 a st, false)
        | (s, q, .ok (.error k)) =>
          let up (y : CopyCmd) : CopyCmd := { y with rows := q.rows }
          let f := q.faultAt { b with pos := k * l.boxC } 6 0 1 (l.rowoff + 8 * (b.dr + k)) false
          ((s.modCmd e.core x q.id up).copyFault e.core x q.id i f, true)
        | (s, q, .ok (.ok m)) =>
          let up (y : CopyCmd) : CopyCmd := { y with rows := q.rows }
          let go (y : CopyBox) : CopyBox := { y with state := .running }
          let s := (s.modCmd e.core x q.id up).modBox e.core x (64 * q.id + i) go
          (m.foldl (fun s k =>
            let (s, id) := s.fresh
            { s with owns := s.owns ++ [⟨id, k.1, e.core, q.id, 64 * q.id + i, e.grp, false, k.2⟩] }) s, true)

/-- A command yet to be resolved, or with a box whose ownership is yet to be requested. -/
def CopyCmd.pending (q : CopyCmd) : Bool := q.fault.isNone && (!q.resolved || q.boxes.any (fun b => b.state == .fresh))

/-- COPY_RESOLVE (R335): the oldest pending command of context `x`, in the core's issue order (R275). -/
def execCopyResolve (c x : Nat) (s : State) : Out :=
  match s.ctx c x with
  | none => .next s
  | some cx =>
    match cx.cmds.find? CopyCmd.pending with
    | none => .next s
    | some q =>
      let earlier := (s.ctxsOf c).any (fun y => y.2.cmds.any (fun z => z.pending && z.id < q.id))
      let waits := s.reqs.any (fun r => match r.who with
        | .copy c' x' b _ _ => c' == c && x' == x && b == 64 * q.id + 63
        | _ => false)
      if earlier || waits then .next s
      else
        let e := engOf c x cx q
        match s.resolveRecs e x q with
        | (s, false) => .next s
        | (s, true) =>
          let q := ((s.ctx c x).bind (fun y => y.cmd q.id)).getD q
          let (s, ok) := (List.range q.boxes.length).foldl (fun (acc : State × Bool) i =>
            if acc.2 then
              let q := ((acc.1.ctx c x).bind (fun y => y.cmd q.id)).getD q
              acc.1.requestBox e x q i
            else acc) (s, true)
          let done (y : CopyCmd) : CopyCmd := { y with resolved := true }
          .next (if ok then s.modCmd c x q.id done else s)

/-! ### Ownership (R275, R338) -/

/-- The bytes and poison of the block that holds a place. -/
def State.blockOf (s : State) (l : Loc) : Nat × Bool :=
  match l with
  | .reg k b => (s.rdLoc (.reg k (alignDown b 128)) 128, s.locPois (.reg k (alignDown b 128)) 128)
  | .spad c o => (s.rdLoc (.spad c (alignDown o 64)) 64, s.locPois l 1)
  | .acc c b o => (s.rdLoc (.acc c b (alignDown o 64)) 64, s.locPois l 1)
  | .home a v x => (s.rdLoc (.home a v (alignDown x 64)) 64, s.locPois l 1)
  | .host p h => (s.rdLoc (.host p (alignDown h 64)) 64, s.locPois l 1)
  | _ => (0, false)

/-- The place of a block by its key. -/
def locOfBlk (b : Nat) : Loc :=
  if 4 * 2 ^ 90 ≤ b then .reg ((b / 4 - 2 ^ 90) / 128) ((b / 4 - 2 ^ 90) % 128 * 128)
  else
    let k := b / 4 * 64
    match b % 4 with
    | 0 => .home (k / 2 ^ 57 / 64) (k / 2 ^ 57 % 64) (k % 2 ^ 57)
    | 1 => .spad (k / 2 ^ 20) (k % 2 ^ 20)
    | 2 => .acc (k / 2 ^ 19) (k / 2 ^ 18 % 2) (k % 2 ^ 18)
    | _ => .host (k / 2 ^ 64) (k % 2 ^ 64)

/-- An earlier matrix command of the core names a tile (R374). -/
def State.muNames (s : State) (core q t id : Nat) : Bool :=
  (s.muq core q).any (fun m => m.id < id && (match m.op with
    | .mma x _ _ _ _ _ => x == t
    | .mld x _ => x == t
    | .mst x _ _ _ => x == t
    | .mqst x _ _ _ => x == t))

/-- A place lies in a tile that an earlier matrix command names. -/
def State.tileBusy (s : State) (id : Nat) (l : Loc) : Bool :=
  match l with
  | .acc c _ o => s.muNames c (o / 0x10000) (o % 0x10000 / 0x1000) id
  | _ => false

/-- OWNERSHIP_REQUEST (R275): request `k` arrives at the home; it takes hold once no earlier request and no cofferdam
stands on its block, and no earlier matrix command on its tile (R374). The issuing core's level-1 copies are dropped. -/
def execOwnershipRequest (k : Nat) (s : State) : Out :=
  match s.owns.find? (fun o => o.id == k) with
  | none => .next s
  | some o =>
    let earlier := s.owns.any (fun y => y.blk == o.blk && y.id < o.id)
    let l := locOfBlk o.blk
    if o.held || earlier || s.dams.any (fun d => !d.breached && d.blk == o.blk) || s.tileBusy o.cmd l then .next s
    else
      let s := { s with owns := modWhere (fun y => y.id == k) (fun y => { y with held := true }) s.owns }
      let s := s.l1DropLoc o.core l 64
      let d := s.blockOf l
      let save (q : CopyCmd) : CopyCmd :=
        if q.id == o.cmd && !q.before.any (fun y => y.1 == o.blk) then { q with before := q.before ++ [(o.blk, d.1, d.2)] } else q
      let up (c : CopyCtx) : CopyCtx := { c with cmds := c.cmds.map save }
      .next { s with ctxs := s.ctxs.map (fun e => (e.1, if e.1 / 16 == o.core then e.2.map up else e.2)) }

/-! ### Pieces (R335) -/

/-- Destination bytes written: the block is released once the box has written all of its bytes there. -/
def State.wroteOwn (s : State) (box : Nat) (p : Piece) : State :=
  let s := (List.range p.n).foldl (fun s i =>
    match p.loc.ownKey i with
    | none => s
    | some b => { s with owns := modWhere (fun o => o.box == box && o.blk == b) (fun o => { o with left := o.left - 1 }) s.owns }) s
  s.disown (fun o => o.box == box && o.left == 0)

/-- One part of an engine's write (R256, R271, R277). -/
def State.engWrite (s : State) (e : Eng) (p : Piece) (bs : List Byte) : State :=
  let s := ((s.wrBytesFrom p.loc 0 bs).plainWrite (e.core / 32) p.loc p.n).noteAccess (e.accessor s) p.loc p.va p.n true
  match p.loc with
  | .home a v h => ((s.touchHome a v h).signLoc e.core p.loc p.n).l1DropLoc e.core p.loc p.n
  | _ => s

/-- A store of an engine becomes outstanding where it has left the chip; `undo` holds what its bytes replaced. -/
def State.engStore (s : State) (e : Eng) (ps : List Piece) (undo : List (Nat × Byte)) : State × List Nat :=
  if ps.any (fun p => match p.loc with
      | .home _ _ _ | .host _ _ | .peer _ _ _ => true
      | _ => false) then
    let (s, id) := s.addStore none (e.core / 32) (.write []) undo
    (s, [id])
  else (s, [])

/-- Writes poison with the bytes of a piece (R403): whole units at once. -/
def State.engMarks (ps : List Piece) (pois : List Bool) : List (Nat × Nat × Bool) :=
  let mark (p : Piece) (base i : Nat) : Option (Nat × Nat × Bool) :=
    (p.loc.pblk i).map (fun b => (b, (p.va + i) % 64, pois.getD (p.va + i - base) false))
  ps.flatMap (fun p => (List.range p.n).filterMap (mark p ((ps.head?.map Piece.va).getD 0)))

/-- Registers that poisoned bytes reach. -/
def State.engPoison (s : State) (ps : List Piece) (pois : List Bool) : State :=
  let base := (ps.head?.map Piece.va).getD 0
  ps.foldl (fun s p => match p.loc with
    | .reg k b => (List.range p.n).foldl (fun s i =>
        if pois.getD (p.va + i - base) false then s.poisonLoc (.reg k (b + i)) 1 else s) s
    | _ => s) s

/-- Elements from `j` on that one piece takes: all outside alike, or contiguous within 256 bytes of both sides. -/
def pieceLen (esz : Nat) (src dst : Nat → Option Nat) (j n : Nat) : Nat :=
  let ok (f : Nat → Option Nat) (k : Nat) : Bool :=
    match f j, f (j + k) with
    | none, none => true
    | some a, some b => b == a + k * esz && a / 256 == (b + esz - 1) / 256
    | _, _ => false
  ((List.range (n - j)).takeWhile (fun k => ok src k && ok dst k)).length

/-- One piece of a box at its element `pos` (R335): reads, writes and moves on, or waits, or faults. -/
def State.doPiece (s : State) (e : Eng) (x : Nat) (q : CopyCmd) (i : Nat) (b : CopyBox) (ls ld : Layout) : State :=
  let core := e.core
  let h := 64 * q.id + i
  let r := b.pos / ls.boxC
  let j := b.pos % ls.boxC
  let keep (s : State) (q : CopyCmd) : State := s.modCmd core x q.id (fun y => { y with rows := q.rows })
  let stop (s : State) (q : CopyCmd) (what addr : Nat) (st : EngStop) : State :=
    match st with
    | .wait _ _ _ _ _ _ => (keep s q).engWait core x h what addr st
    | .fault c d => (keep s q).copyFault core x q.id i (q.faultAt b c d (what % 2) addr false)
  match s.rowInfo e q ls (b.sr + r) with
  | (s, q, .error (a, st)) => stop s q 2 a st
  | (s, q, .ok (some none)) => stop s q 0 (ls.rowoff + 8 * (b.sr + r)) (.fault 6 0)
  | (s, q, .ok rs) =>
    match s.rowInfo e q ld (b.dr + r) with
    | (s, q, .error (a, st)) => stop s q 3 a st
    | (s, q, .ok (some none)) => stop s q 1 (ld.rowoff + 8 * (b.dr + r)) (.fault 6 0)
    | (s, q, .ok rd) =>
      let src (k : Nat) : Option Nat := ls.addr rs.join (b.sr + r) (b.sc + k)
      let dst (k : Nat) : Option Nat := ld.addr rd.join (b.dr + r) (b.dc + k)
      let m := max 1 (pieceLen ls.esz src dst j ls.boxC)
      let n := m * ls.esz
      let srcAt := match b.patch with
        | some a => (src j).map (fun _ => a.toNat)
        | none => src j
      let (s, got) : State × Except EngStop (List (Byte × Bool) × List Piece) :=
        match srcAt with
        | none => (s, .ok ((List.range m).flatMap (fun _ => (leBytes ls.esz ls.pad).map (fun y => (y, false))), []))
        | some a =>
          match s.engParts e .engineLoad (q.hint == 2) a n with
          | (s, .error st) => (s, .error st)
          | (s, .ok ps) => (s, .ok (s.engRead q ps, ps))
      match got with
      | .error st => stop s q 0 (srcAt.getD 0) st
      | .ok (bs, rp) =>
        let (s, put) : State × Except EngStop (List Piece) := match dst j with
          | none => (s, .ok [])
          | some a => s.engParts e .engineStore false a n
        match put with
        | .error st => stop s q 1 ((dst j).getD 0) st
        | .ok wp =>
          if (rp ++ wp).any (fun p => s.tileBusy q.id p.loc) then s
          else
            let s := rp.foldl (fun s p => s.noteAccess (e.accessor s) p.loc p.va p.n false) s
            let base := (wp.head?.map Piece.va).getD 0
            let undo := wp.flatMap (fun p => s.undoAt p.loc p.n)
            let s := wp.foldl (fun s p => s.engWrite e p (sliceBytes (bs.map (·.1)) base p)) s
            let s := (s.settlePois (State.engMarks wp (bs.map (·.2)))).engPoison wp (bs.map (·.2))
            let (s, ids) := s.engStore e wp undo
            let s := wp.foldl (fun s p => s.wroteOwn h p) s
            let up (y : CopyBox) : CopyBox := { y with
              pos := y.pos + m, padded := y.padded || (src j).isNone, clipped := y.clipped || (dst j).isNone,
              patch := none, sts := y.sts ++ ids }
            (keep s q).modBox core x h up

/-- A box that writes nothing more (R326, R335, R337): once its stores are acknowledged its status is written, then its
weir update is made, then it is complete. -/
def State.boxFinish (s : State) (e : Eng) (x : Nat) (q : CopyCmd) (b : Nat) (y : CopyBox) : State :=
  if s.stores.any (fun z => y.sts.contains z.id) then s
  else
    let s := if y.told then s else s.boxStatus e.core x q (b % 64) y
    match s.boxWeir e q (b % 64) with
    | (s, none) => s.boxDone e.core x q (b % 64)
    | (s, some none) => s
    | (s, some (some (.fault k d))) => s.copyFault e.core x q.id (b % 64) (q.faultAt y k d 0 q.weirAddr true)
    | (s, some (some st)) => s.engWait e.core x b 4 q.weirAddr st

/-- COPY_PIECE (R335): a piece of box `b` (`64 command + box`), or its completion, or the end of a fault that no lane of its
group can take any more (R350). -/
def execCopyPiece (c x b : Nat) (s : State) : Out :=
  match (s.ctx c x).bind (fun cx => (cx.cmd (b / 64)).bind (fun q => (q.box (b % 64)).map (fun y => (cx, q, y)))) with
  | none => .next s
  | some (cx, q, y) =>
    let e := engOf c x cx q
    let takes := ((s.getG cx.grp).map Group.takesFaults).getD false
    match q.fault, y.state with
    | some f, _ =>
      if takes then .next s else .next ((s.faultRec c x cx.grp y.lane q.stage.isSome f).skipFault c x q.id (b % 64) 2 f)
    | none, .faulted f =>
      if takes then .next s else .next ((s.faultRec c x cx.grp y.lane q.stage.isSome f).skipFault c x q.id (b % 64) 2 f)
    | none, .running =>
      match (q.pair y).srcRec.map Layout.ofNat, (q.pair y).dstRec.map Layout.ofNat with
      | some ls, some ld =>
        if s.owns.any (fun o => o.box == b && !o.held) then .next s
        else if y.outcome = 0 && y.pos < ls.boxR * ls.boxC then .next (s.doPiece e x q (b % 64) y ls ld)
        else .next (s.boxFinish e x q b y)
      | _, _ => .next (s.boxFinish e x q b y)
    | _, _ => .next s

/-- The pager core could not settle what a box or a command waited for (R346 to R348): `at_` is the address of what it
accesses. -/
def State.copyRefused (s : State) (c x b what at_ cause : Nat) : State :=
  match (s.ctx c x).bind (fun cx => cx.cmd (b / 64)) with
  | none => s
  | some q =>
    let row (y : CopyCmd) : CopyCmd := { y with rows := y.rows ++ [(at_, none)] }
    match what with
    | 5 =>
      let h := (q.pairs.head?).getD ⟨0, 0, none, none⟩
      let side := if at_ = q.ltabBase + 64 * h.src ∧ h.srcRec.isNone then 0 else 1
      s.copyFault c x q.id 0 (resolveFault 1 side (if side = 1 then h.dst else h.src))
    | 2 | 3 => (s.modCmd c x q.id row).wakeBox c x b
    | _ =>
      match q.box (b % 64) with
      | none => s
      | some y => s.copyFault c x q.id (b % 64) (q.faultAt y 3 cause (if what = 1 then 1 else 0) at_ (what == 4))

/-! ### The words -/

def infCpt (rs ws : List Reg) (c : Cnt) (uni : List Reg) : Info :=
  { pipe := .m, reads := rs, writes := ws, base := false, role := 1, counter := c, uniform := uni, consumes := rs }

def infCptCopy (d a b : BitVec 7) : Info :=
  infCpt [.v a.toNat 4, .v b.toNat 4] [.v d.toNat 1] .cp
    [.v b.toNat 1, .v (b.toNat + 1) 1, .v (b.toNat + 2) 1, .v (b.toNat + 3) 1]

/-- The group's grid was accepted from a maintenance queue, or descends from such a one (R330). -/
def State.maint (s : State) : Bool := (s.myGrid.map Grid.maint).getD false

/-- An element of the layout may lie at an address from `lo` to below `hi`. -/
def Layout.mayReach (l : Layout) (lo hi : Nat) : Bool := l.base < hi && ((l.ty != 2 && !l.fixed) || lo < l.ends)

/-- A destination record may reach its group's register window (R340); one that is not read yet may. -/
def recReaches (r : Option Nat) : Bool :=
  match r with
  | none => true
  | some r => (Layout.ofNat r).mayReach (localBase + 0x200000) (localBase + 0x280000)

/-- The bytes of a record of the group's table, where they stand in the device now. -/
def State.recHere (s : State) (h : Nat) : Option Nat :=
  let va := s.g.ltabBase.toNat + 64 * h
  if onChip va then
    match s.onChipLoc { s.actor with lane := false } va 64 with
    | .ok l => if (s.heldBlk none l 64).isSome then none else some (s.rdLoc l 64)
    | .error _ => none
  else
    let k := s.homeKey s.g.asid (s.viewHolder s.g.asid va 8 s.g.view) va
    let l := Loc.home k.1 k.2.1 k.2.2
    if s.hostPage s.g.asid 0 va || (k.2.1 == 0 && (s.subFrame k.1 k.2.1 k.2.2).isNone) || (s.heldBlk none l 64).isSome then none
    else some (s.rdLoc l 64)

/-- A fresh box. -/
def CopyBox.start (lane sr sc dr dc : Nat) : CopyBox :=
  { lane := lane, sr := sr, sc := sc, dr := dr, dc := dc, pos := 0, state := .fresh, padded := false, clipped := false,
    outcome := 0, patch := none, told := false, weirDone := false, sts := [] }

/-- A command of the executing group with what it captures. -/
def State.newCmd (s : State) (id : Nat) (vd : Option Nat) (ctl : Word) (weir : Nat) (stage : Option Nat)
    (pairs : List CopyPair) (early : Bool) (boxes : List CopyBox) : CopyCmd :=
  { id := id, vd := vd, ctl := ctl, weirAddr := weir, stage := stage, asid := s.g.asid, view := s.g.view,
    ltabBase := s.g.ltabBase.toNat, ltabCount := s.g.ltabCount, maint := s.maint, early := early, pairs := pairs,
    resolved := false, fault := none, boxes := boxes, rows := [], before := [], clock := s.race.clock s.gid }

/-- `cpt.copy` (R334, R335). -/
def execCptCopy (d a b : BitVec 7) (s : State) : Out :=
  issued (infCptCopy d a b) s (fun s =>
    let u := s.lead
    let op (i l : Nat) : Nat := (s.src.rdV (a.toNat + i) l).toNat
    s.paired (fun l => (s.src.rdW 4 a.toNat l, 0)) (fun s =>
      match s.freeCtx s.core with
      | [] => s.stall
      | x :: _ =>
        let (s, id) := s.fresh
        let hs := s.src.rdV b.toNat u
        let pr : CopyPair := ⟨(hs.extractLsb' 0 16).toNat, (hs.extractLsb' 16 16).toNat, none, none⟩
        let q := s.newCmd id (some d.toNat) (s.src.rdV (b.toNat + 1) u) (s.src.rdV2 (b.toNat + 2) u).toNat none [pr]
          (recReaches (s.recHere pr.dst)) ((lanesOf s.leadLanes).map (fun l => CopyBox.start l (op 0 l) (op 1 l) (op 2 l) (op 3 l)))
        let s := (s.setCtx s.core x (some ⟨s.gid, s.g.team, none, [q]⟩)).hbFresh (copyAgent s.core x)
        (s.setG (fun g => { g with cpcnt := g.cpcnt + 1 })).hbTick s.gid))

/-- `cpt.ltab` (R333). -/
def execCptLtab (a b : BitVec 7) (s : State) : Out :=
  issued (infCpt [.s a.toNat, .s b.toNat] [] .none []) s (fun s =>
    s.setG (fun g => { g with ltabBase := s.rs a, ltabCount := min (s.rs b).toNat 65536 }))

/-- A read made as a load of the group (R342, R416); what stops it has been done to the state already. -/
def State.groupRead (s : State) (va n : Nat) : State × Option (Nat × Bool) :=
  let kd : Kind := { kLoad n with out := 1, inn := 1 }
  match s.checkAccess kd none n true [(s.lead, va)] with
  | some t => (s.trap t, none)
  | none =>
    match s.watched false n [(s.lead, va)] with
    | some (_, slot) => (s.watchHalt s.iss.eff slot, none)
    | none =>
      match s.resolve kd 0 va n with
      | (s, .error (.refuse r)) => (s.trap (s.kindTrap s.lead va r 1 true), none)
      | (s, .error e) => (s.parkOn s.iss.eff e, none)
      | (s, .ok ps) => (s.noteParts s.lead ps, some (s.piecesRead ps))

/-- Header and steps of a plan that break their tables (R341). -/
def headerBad (h scratch : Nat) : Bool :=
  let n := recField h 0 1
  let k := recField h 1 1
  n == 0 || 32 < n || k == 0 || 32 < k || 1 < recField h 2 1 || recField h 3 1 != 0 || recField h 0xC 20 != 0
    || recField h 4 4 % 16 != 0 || scratch < recField h 4 4 + 16 * k

/-- Reads in turn, stopping where one stops. -/
def State.groupReads (s : State) (xs : List (Nat × Nat)) : State × Option (List (Nat × Bool)) :=
  xs.foldl (fun (acc : State × Option (List (Nat × Bool))) x =>
    match acc with
    | (s, none) => (s, none)
    | (s, some vs) =>
      match s.groupRead x.1 x.2 with
      | (s, none) => (s, none)
      | (s, some v) => (s, some (vs ++ [v]))) (s, some [])

def bindCode (k : Nat) : DWord := BitVec.ofNat 64 (2 ^ 63 + k)

/-- `cpt.bind` (R342). -/
def execCptBind (d a : BitVec 7) (s : State) : Out :=
  issued (infCpt [.s a.toNat] [.s d.toNat] .none []) s (fun s =>
    let put (s : State) (x : DWord) : State := s.setR (fun r => r.wrS d.toNat x false)
    let va := (s.rs a).toNat
    match (List.range 4).find? (fun p => (mapGet none s.g.plans p).isNone), s.freeCtx s.core with
    | some num, x :: rest =>
      if rest.length < 4 then put s (bindCode 1)
      else
        match s.groupRead va 32 with
        | (s, none) => s
        | (s, some (h, hp)) =>
          if hp || va % 32 != 0 || headerBad h ((s.myTeam.map Team.scratch).getD 0) then put s (bindCode 2)
          else
            let n := recField h 0 1
            match s.groupReads ((List.range n).map (fun k => (va + 32 + 32 * k, 32))) with
            | (s, none) => s
            | (s, some st) =>
              if st.any (fun y => y.2 || recField y.1 0x1E 2 != 0) then put s (bindCode 2)
              else
                let hs := st.flatMap (fun y => [recField y.1 0 2, recField y.1 2 2])
                if s.g.ltabBase.toNat % 64 != 0 || hs.any (fun k => s.g.ltabCount ≤ k) then put s (bindCode 3)
                else
                  match s.groupReads (hs.map (fun k => (s.g.ltabBase.toNat + 64 * k, 64))) with
                  | (s, none) => s
                  | (s, some rs) =>
                    let recAt (i : Nat) : Nat × Bool := rs.getD i (0, true)
                    let bad := (List.range n).any (fun k => (recAt (2 * k)).2 || (recAt (2 * k + 1)).2
                      || pairBad s.maint (recAt (2 * k)).1 (recAt (2 * k + 1)).1)
                    if bad then put s (bindCode 3)
                    else
                      let steps := (List.range n).map (fun k => ((st.getD k (0, false)).1, (recAt (2 * k)).1, (recAt (2 * k + 1)).1))
                      let s := (s.setCtx s.core x (some ⟨s.gid, s.g.team, some ⟨h, steps, 0, false⟩, []⟩)).hbFresh (copyAgent s.core x)
                      put (s.setG (fun g => { g with plans := mapSet none g.plans num (some x) })) (BitVec.ofNat 64 num)
    | _, _ => put s (bindCode 1))

/-- The plan that a scalar names (R343). -/
def State.planOf (s : State) (a : BitVec 7) : Option (Nat × CopyCtx × Plan) :=
  match mapGet none s.g.plans ((s.rs a).toNat % 4) with
  | none => none
  | some x => (s.ctx s.core x).bind (fun c => c.plan.map (fun p => (x, c, p)))

/-- `cpt.adv` (R343). -/
def execCptAdv (d a : BitVec 7) (s : State) : Out :=
  issued (infCpt [.s a.toNat] [.s d.toNat] .cp []) s (fun s =>
    let put (s : State) (x : DWord) : State := s.setR (fun r => r.wrS d.toNat x false)
    match s.planOf a with
    | none => put s (bindCode 1)
    | some (x, c, p) =>
      let n := recField p.header 8 4
      let st := p.stage
      if n != 0 && st == n then put s (bindCode 2)
      else
        let slots := recField p.header 1 1
        let (s, id) := s.fresh
        let ctl : Word := if recField p.header 2 1 % 2 = 1 then 9 else 1
        let box (k : Nat) (r : Nat) : CopyBox :=
          CopyBox.start k ((recField r 4 4 + st * recField r 0x14 4) % 2 ^ 32) ((recField r 8 4 + st * recField r 0x18 4) % 2 ^ 32)
            ((recField r 0xC 4 + st % slots * recField r 0x1C 2) % 2 ^ 32) (recField r 0x10 4)
        let pairs := p.steps.map (fun y => CopyPair.mk (recField y.1 0 2) (recField y.1 2 2) (some y.2.1) (some y.2.2))
        let q := s.newCmd id none ctl (localBase + recField p.header 4 4 + 16 * (st % slots)) (some st) pairs
          (pairs.any (fun y => recReaches y.dstRec)) (((List.range p.steps.length).zip p.steps).map (fun y => box y.1 y.2.1))
        let s := s.setCtx s.core x (some { c with plan := some { p with stage := st + 1 }, cmds := c.cmds ++ [q] })
        put ((s.setG (fun g => { g with cpcnt := g.cpcnt + 1 })).hbTick s.gid) (BitVec.ofNat 64 st))

/-- Releases a plan; its context frees once its stages have completed (R344). -/
def State.planRelease (s : State) (k core num : Nat) : State :=
  match (s.getG k).bind (fun g => mapGet none g.plans num) with
  | none => s
  | some x =>
    let s := s.modG k (fun g => { g with plans := mapSet none g.plans num none })
    match s.ctx core x with
    | none => s
    | some c =>
      if c.cmds.isEmpty then s.setCtx core x none
      else s.setCtx core x (some { c with plan := c.plan.map (fun p => { p with released := true }) })

/-- `cpt.rel` (R344). -/
def execCptRel (d a : BitVec 7) (s : State) : Out :=
  issued (infCpt [.s a.toNat] [.s d.toNat] .none []) s (fun s =>
    let put (s : State) (x : DWord) : State := s.setR (fun r => r.wrS d.toNat x false)
    match s.planOf a with
    | none => put s 1
    | some _ => put (s.planRelease s.gid s.core ((s.rs a).toNat % 4)) 0)

/-- The faults of a context: command, box index, lane, fault. -/
def CopyCtx.faults (c : CopyCtx) : List (CopyCmd × Nat × Nat × CopyFault) :=
  c.cmds.flatMap (fun q =>
    match q.fault with
    | some f => [(q, 0, ((q.box 0).map CopyBox.lane).getD 0, f)]
    | none => (((List.range q.boxes.length).zip q.boxes).filterMap (fun b => match b.2.state with
        | .faulted f => some (q, b.1, b.2.lane, f)
        | _ => none)))

/-- Marks a fault as delivered (R349). -/
def State.markFault (s : State) (core x id i : Nat) (f : CopyFault) : State :=
  let f := { f with delivered := true }
  let mark (q : CopyCmd) : CopyCmd := { q with fault := some f }
  let stop (b : CopyBox) : CopyBox := { b with state := .faulted f }
  if f.resolve then s.modCmd core x id mark else s.modBox core x (64 * id + i) stop

/-- The copy fault of group `k` that stands to be delivered (R347): one delivered already, else the first in order of
context, then of lane or step. -/
def State.copyPending (s : State) (core k : Nat) : Option (Nat × CopyCmd × Nat × Nat × CopyFault) :=
  let all := (s.ctxsOf core).flatMap (fun y => if y.2.grp == k then y.2.faults.map (fun f => (y.1, f)) else [])
  match all.find? (fun y => y.2.2.2.2.delivered) with
  | some y => some y
  | none => leastBy (fun y => 64 * y.1 + y.2.2.2.1) all

/-- `cpt.res` (R349). -/
def execCptRes (d a : BitVec 7) (x : BitVec 2) (s : State) : Out :=
  issued (infCpt [.s a.toNat, .s d.toNat] [.s d.toNat] .none []) s (fun s =>
    let put (s : State) (x : Nat) : State := s.setR (fun r => r.wrS d.toNat (BitVec.ofNat 64 x) false)
    let cx := (s.rs a).toNat % 16
    match s.copyPending s.core s.gid with
    | none => put s 1
    | some (y, q, i, _, f) =>
      if y != cx || !f.delivered then put s 1
      else
        match x.toNat with
        | 1 => put (s.skipFault s.core cx q.id i 1 f) 0
        | 2 =>
          if f.side = 0 && !f.resolve && !f.weir && (f.cause == 3 || f.cause == 4 || f.cause == 5 || f.cause == 7) then
            let up (b : CopyBox) : CopyBox := { b with state := .running, patch := some (s.rs d) }
            put (s.modBox s.core cx (64 * q.id + i) up) 0
          else put s 2
        | _ =>
          let again (y : CopyCmd) : CopyCmd := { y with fault := none, rows := y.rows.filter (fun r => r.2.isSome && f.cause != 6) }
          let up (b : CopyBox) : CopyBox := { b with state := if f.cause = 6 ∧ f.side = 1 ∧ b.pos = 0 then .fresh else .running }
          let s := s.modCmd s.core cx q.id again
          put (if f.resolve then s else s.modBox s.core cx (64 * q.id + i) up) 0)

end Sys2Proof.Machine
end

