-- ==== Sys2Proof/Machine/Flash.lean ====
section
/-! DEFINITION. The flash queue engines: `fqe.pf`, `fqe.sync`, `fqe.sub`, the completion of NVMe commands and the
swap-out of a team that waits on flash (R377 to R386). -/

namespace Sys2Proof.Machine

/-- The agent number of a flash queue engine in the race detector. -/
def fqeAgent (q : Nat) : Nat := 2 ^ 63 + 1 + q

/-! ### The end of a command -/

/-- The blocks of a command whose bytes move: its LBA, and the address and key slot of its data. -/
def Nvme.blocks (c : Nvme) : List (Nat × Nat × Nat) :=
  ((List.range c.parts.length).zip c.parts).map (fun j => (c.lba + c.count - c.parts.length + j.1, j.2.1, j.2.2))

/-- Blocks of a write-back: written where the Write ended DONE; where one that the drive has did not, they may have been
written (log 10). -/
def State.flashWrites (s : State) (c : Nvme) (asid view : Nat) (done : Bool) : State :=
  let (s, some') := if done then (s, 1) else if c.sent then s.choose 2 else (s, 0)
  if some' = 1 then c.blocks.foldl (fun s b => s.flashOut c.drive c.ns b.1 b.2.2 asid view b.2.1) s else s

/-- Commands and sub-pages that leave a fill. -/
def State.fillLess (s : State) (fk id : Nat) (m : BitVec 16) : State :=
  let up (f : Fill) : Fill := { f with cmds := f.cmds.filter (· != id), subs := f.subs &&& ~~~m }
  { s with fills := modWhere (fun f => f.fk == fk) up s.fills }

/-- A fill's Read lands, or its sub-pages stay absent with a BACKING item on which their requests wait (R380, R381). A
prefetch posts no item on its own account, and requests that post none are dropped (R254, R385). -/
def State.fillRead (s : State) (c : Nvme) (fk status outcome : Nat) : State :=
  let e := s.frame fk
  if outcome = 1 then
    (c.blocks.foldl (fun s b => s.flashIn c.drive c.ns b.1 b.2.2 e.asid e.view b.2.1) s).fillLess fk c.id 0
  else
    let hit (r : Req) : Bool :=
      let k := s.homeKey r.asid r.view r.va
      r.state == .onFrame fk && c.parts.any (fun b => b.1 == alignDown k.2.2 4096)
    let loud (r : Req) : Bool := hit r && !r.who.quiet
    let pf := s.fills.any (fun f => f.fk == fk && f.pf)
    let s' := (s.reqs.filter (fun r => hit r && r.who.quiet)).foldl State.quietFault s
    let s' := s'.fillLess fk c.id (c.parts.foldl (fun (m : BitVec 16) b => m ||| BitVec.ofNat 16 (2 ^ subOf b.1)) 0)
    let post (acc va : Nat) : State × Nat :=
      s'.postItem (fk / 2 ^ 20) 10 15 acc e.asid e.view va 0 (backingField (fk / 2 ^ 20) (fk % 2 ^ 20) status outcome 0)
    match s.reqs.find? loud with
    | some r =>
      let (s', k) := post r.kind.code r.va
      let wait (r : Req) : Req := { r with state := .onItem k }
      { s' with reqs := modWhere loud wait s'.reqs }
    | none => if pf || s.reqs.any hit then s' else (post 0 ((c.parts.head?.map (·.1)).getD 0)).1

/-- A part of a write-back has ended (R380, R383). -/
def State.spillWrote (s : State) (c : Nvme) (k status outcome : Nat) : State :=
  match s.spills.find? (fun x => x.id == k) with
  | none => s
  | some sp =>
    let e := s.frame sp.fk
    let up (x : Spill) : Spill := { x with cmds := x.cmds.filter (· != c.id),
                                           failed := if outcome = 1 then x.failed else some (status, outcome) }
    let s := s.flashWrites c e.asid e.view (outcome == 1)
    { s with spills := modWhere (fun x => x.id == k) up s.spills }

/-! ### `fqe.sync` (R385) -/

/-- `fqe.sync` goes on: the Flushes once its write-backs have ended, and s[D] once these have. -/
def State.syncNext (s : State) (k : Nat) : State :=
  match (s.getG k).map Group.hold with
  | some (.sync d [] [] failed) =>
    s.modG k (fun g => { g with hold := .none, r := g.r.wrS d (if failed then 4 else 0) false })
  | some (.sync d [] drives failed) =>
    let (s, ids) := drives.foldl (fun (acc : State × List Nat) x =>
      let (s, id) := acc.1.submit false 0 x 0 0 0 [] (.sync k)
      (s, acc.2 ++ [id])) (s, [])
    s.modG k (fun g => { g with hold := .sync d ids [] failed })
  | _ => s

/-- A write-back or a Flush for which group `k` waits has ended. -/
def State.syncEnd (s : State) (k id : Nat) (bad : Bool) : State :=
  let up (g : Group) : Group := match g.hold with
    | .sync d cmds drives failed => { g with hold := .sync d (cmds.filter (· != id)) drives (failed || bad) }
    | _ => g
  (s.modG k up).syncNext k

/-- The groups that wait for a write-back in `fqe.sync`. -/
def State.syncers (s : State) (id : Nat) : List Nat :=
  (s.groups.filter (fun e => match e.2.hold with
    | .sync _ cmds _ _ => cmds.contains id
    | _ => false)).map (·.1)

/-! ### The data and the completion of a `fqe.sub` (R386) -/

/-- One block between its buffer and the drive, as it stands; `none` where it waits. The device's store to the buffer is
one to the table region (R242, R243). -/
def State.subBlock (s : State) (c : Nvme) (lba va : Nat) : State × Option Unit :=
  let fk := flashKey c.drive c.ns (4096 * lba)
  match s.homePlace (.sub c.id) (if c.op = 1 then .load else .store) 0 va 4096 with
  | (s, none) => (s, none)
  | (s, some (.home a v h)) =>
    if c.op = 1 then ({ s with flash := mapCopy s.flash fk s.mem (memKey a v h) 4096 }, some ())
    else
      let (s, _) := s.tableWrite h (mapGetBytes s.flash fk 4096)
      let s := (List.range 64).foldl (fun s i => s.setPois (homeBlk a v h + 4 * i) false) s
      (((s.markDirty a v h).plainWrite 40 (.home a v h) 4096).seeHome (fqeAgent c.fqe) (.home a v h) 4096, some ())
  | (s, some _) => (s, some ())

/-- The data of a command, block by block; `false` where it waits. What a deallocated block reads as is open: free
bytes. -/
def State.subData (s : State) (c : Nvme) : State × Bool :=
  if c.op = 9 then
    ((List.range c.count).foldl (fun s j =>
      let (s, bs) := s.freeBytes 4096
      { s with flash := mapSetBytes s.flash (flashKey c.drive c.ns (4096 * (c.lba + j))) bs }) s, true)
  else c.blocks.foldl (fun (acc : State × Bool) b =>
    if acc.2 then
      match acc.1.subBlock c b.1 b.2.1 with
      | (s, none) => (s, false)
      | (s, some ()) =>
        let less (x : Nvme) : Nvme := { x with parts := x.parts.drop 1 }
        ({ s with nvme := modWhere (fun x => x.id == c.id) less s.nvme }, true)
    else acc) (s, true)

/-- The place of a record's STATUS; `none` where it waits. -/
def State.subPlace (s : State) (c : Nvme) (recAddr : Nat) : State × Option Loc :=
  if onChip recAddr then
    match s.onChipLoc ⟨true, 1, none, 0⟩ (recAddr + 0x20) 4 with
    | .ok l => (s, some l)
    | .error _ => (s, some .gone)
  else s.homePlace (.sub c.id) .store 0 (recAddr + 0x20) 4

/-- STATUS of a record, a plain write of the engine. -/
def State.subStatus (s : State) (c : Nvme) (l : Loc) (x : Nat) : State :=
  let s := (s.wrLoc l 4 x).plainWrite 40 l 4
  match l with
  | .home a v h => (s.touchHome a v h).seeHome (fqeAgent c.fqe) l 4
  | _ => s

/-- The arrival on the weir, a release write at DEVICE scope; its clock needs no epoch of a die, since no level-1 holds
what the engine wrote. -/
def State.subWeir (s : State) (c : Nvme) (l : Loc) : State :=
  match l with
  | .home _ _ _ =>
    let a := fqeAgent c.fqe
    (((s.weirUpdate l 1 0 false none).releaseAt 4096 40 l 16 true).seeHome a l 16).hbRelease a (l.words 16) 4 true
  | _ => s

/-- A `fqe.sub` whose command has ended goes on as far as it can: its data, STATUS once the invalidations that the data
brought about are over, the weir, and then s[D]'s request is gone. -/
def State.subStep (s : State) (c : Nvme) (recAddr weir buf status outcome : Nat) : State :=
  let gone (s : State) : State := { s with nvme := s.nvme.filter (fun x => x.id != c.id) }.nvmeSend
  match s.subData c with
  | (s, false) => s
  | (s, true) =>
    if s.invals.any (fun i => lineAsid i.line == 0 && inRange (lineVa i.line) buf (4096 * c.count)) then s
    else
      match s.subPlace c recAddr with
      | (s, none) => s
      | (s, some l) =>
        match if weir = 0 then (s, some .gone) else s.homePlace (.sub c.id) .weir 0 weir 16 with
        | (s, none) => s
        | (s, some w) => gone ((s.subStatus c l (status + outcome * 2 ^ 16)).subWeir c w)

/-- Command `c` of a `fqe.sub` has ended at its drive: a Write that did not end DONE may have written (log 10). -/
def State.subEnd (s : State) (c : Nvme) (recAddr weir buf status outcome : Nat) : State :=
  let (s, go) := if outcome = 1 then (s, 1) else if c.op = 1 then s.choose 2 else (s, 0)
  let up (x : Nvme) : Nvme := { x with ended := some (status, outcome), op := if go = 1 then x.op else 0,
                                       parts := if go = 1 then x.parts else [] }
  let s := { s with nvme := modWhere (fun x => x.id == c.id) up s.nvme }
  s.subStep (up c) recAddr weir buf status outcome

/-! ### Completion and timeout (R379, R380) -/

/-- The end of command `c` at its drive with an outcome (R380): 1 DONE, 2 DRIVE_ERROR, 3 TIMEOUT, 4 NOT_BOUND. -/
def State.nvmeEnd (s : State) (c : Nvme) (status outcome : Nat) : State :=
  let went (t : Team) : Team := { t with waits := t.waits.filter (· != c.id) }
  let s := if c.op = 2 ∧ outcome = 1 then
      { s with readTimes := mapMod [] s.readTimes c.drive (fun ts => ((s.tick - c.time) :: ts).take 64) }
    else s
  match c.what with
  | .sub a w buf => s.subEnd c a w buf status outcome
  | what =>
    let s := { s with nvme := s.nvme.filter (fun x => x.id != c.id),
                      teams := s.teams.map (fun (e : Nat × Option Team) => (e.1, e.2.map went)) }
    (match what with
      | .fill fk => s.fillRead c fk status outcome
      | .spill k => s.spillWrote c k status outcome
      | .sync k => s.syncEnd k c.id (outcome != 1)
      | .sub _ _ _ => s).nvmeSend

/-- NVME_COMPLETION (R380): the drive completes command `k` with a status field; DNR is its bit 14 (PRESUMED, NVMe). A
`fqe.sub` that has ended goes on. -/
def execNvmeCompletion (k : Nat) (st : BitVec 16) (s : State) : Out :=
  match s.nvme.find? (fun c => c.id == k) with
  | none => .next s
  | some c =>
    let x := st.toNat % 2 ^ 15
    match c.ended, c.what with
    | some (y, o), .sub a w buf => .next (if s.waitsFor (.sub k) then s else s.subStep c a w buf y o)
    | some _, _ => .next s
    | none, _ =>
      if !s.driveOk c.drive then .next (s.nvmeEnd c 0 4)
      else if !c.sent then .next s.nvmeSend
      else if x = 0 then .next (s.nvmeEnd c 0 1)
      else if x < 2 ^ 14 ∧ c.tries < 3 then
        let up (y : Nvme) : Nvme := { y with tries := y.tries + 1 }
        .next { s with nvme := modWhere (fun y => y.id == k) up s.nvme }
      else .next (s.nvmeEnd c x 2)

/-- NVME_TIMEOUT (R380, R495): a command has not completed within its drive's timeout from its submission. -/
def execNvmeTimeout (k : Nat) (s : State) : Out :=
  match s.nvme.find? (fun c => c.id == k) with
  | none => .next s
  | some c =>
    let late := c.time + 2 ^ ((s.bind c.drive).extractLsb' 5 5).toNat ≤ s.tick
    .next (if c.sent && c.ended.isNone && late then s.nvmeEnd c 0 3 else s)

/-! ### Swapping a team out (R382) -/

/-- The flash Reads on which a parked lane of a group waits. -/
def State.readsOf (s : State) (k : Nat) : List Nvme :=
  let parked := maskOf (fun l => ((s.getG k).map (fun x => x.laneAt l)).getD .exited == .parked)
  let pages := s.reqs.filterMap (fun r => match r.who, r.state with
    | .lanes g m, .onFrame fk =>
      if g = k ∧ m &&& parked != 0#32 then some (fk, alignDown (s.homeKey r.asid r.view r.va).2.2 4096) else none
    | _, _ => none)
  s.nvme.filter (fun c => c.op == 2 && (match c.what with
    | .fill fk => pages.any (fun p => p.1 == fk && c.parts.any (fun b => b.1 == p.2))
    | _ => false))

/-- The group keeps its team on no core. -/
def Group.waitsAlone (g : Group) : Bool :=
  g.finished
    || (match g.hold with
        | .tbar _ _ | .wwait _ _ _ _ => true
        | _ => false)
    || (!(List.range 32).any (fun l => g.laneAt l == .live) && (List.range 32).any (fun l => g.laneAt l == .parked))

/-- SWAP_THRESH of the polder of an ASID (R487). -/
def State.swapThreshold (s : State) (asid : Nat) : Nat :=
  match s.polderOf asid with
  | none => 6250
  | some p => ((s.polder p).tune.extractLsb' 16 16).toNat

/-- Teams of the gang of a team. -/
def State.gangOf (s : State) (t : Nat) : List Nat :=
  match s.team t with
  | none => []
  | some x =>
    let n := ((s.grid x.grid).map Grid.gangSize).getD 1
    (s.teamsOf x.grid).filter (fun u => match s.team u with
      | some y => y.lin / n == x.lin / n
      | none => false)

/-- The flash Reads on which the parked lanes of a team wait. -/
def State.teamReads (s : State) (t : Nat) : List Nat :=
  (((s.teamGroups t).flatMap (fun e => s.readsOf e.1)).map Nvme.id).dedup

/-- FLASH_SWAP_OUT (R382): team `t` leaves its core with its gang, none of which is placeable while Reads on which its
parked lanes wait are outstanding. -/
def execFlashSwapOut (t : Nat) (s : State) : Out :=
  match s.team t with
  | none => .next s
  | some x =>
    match x.place with
    | .resident _ =>
      let gs := s.teamGroups t
      let rs := gs.flatMap (fun e => s.readsOf e.1)
      let asid := (gs.head?.map (fun e => e.2.asid)).getD 0
      if gs.all (fun e => e.2.waitsAlone) && rs.any (fun c => c.sent && s.swapThreshold asid ≤ c.expected) then
        .next (((s.gangOf t).foldl (fun s u => s.setTeam u (fun x => { x with waits := s.teamReads u })) s).due (.teamSave t))
      else .next s
    | _ => .next s

/-! ### The words -/

def infFqe (d a : BitVec 7) (c : Cnt) : Info := { infAddrD d a c with feat := some 5 }

/-- The range of `fqe.pf` and `fqe.sync`: first region and count (R385). -/
def State.fqeRange (s : State) (a : BitVec 7) : Nat × Nat := ((s.rs a).toNat / 2 ^ 16, (s.rs a).toNat % 2 ^ 16 + 1)

/-- `fqe.pf` (R385). -/
def execFqePf (d a : BitVec 7) (s : State) : Out :=
  issued (infFqe d a .none) s (fun s =>
    match s.checkAccess (kLoad 1) none 1 true (s.sharedEa a) with
    | some t => s.trap t
    | none =>
      let (r0, n) := s.fqeRange a
      let want := ((List.range n).map (fun i => r0 + i)).filter (fun r =>
        r < 2 ^ 41 && !onChip (r * 2 ^ 16) && (s.findFrame (s.stackOf s.g.asid (r * 2 ^ 16)) s.g.asid s.g.view (r * 2 ^ 16)).isNone)
      let gr := s.myTeam.map Team.grid
      let ask (s : State) (r : Nat) : State :=
        let d := s.stampFor gr s.g.asid (r * 2 ^ 16)
        { s with pfStamps := s.pfStamps ++ [(regionKey s.g.asid s.g.view r, d)] }.due (.prefetch s.g.asid s.g.view r)
      (want.foldl ask s).putS d want.length)

/-- The write-back of every dirty sub-page of KIND 2 of a frame begins; the frame stays resident. Answers its number. -/
def State.syncFrame (s : State) (fk : Nat) : State × List Nat :=
  let e := s.frame fk
  let (s, id) := s.fresh
  let stamp := s.stampFor (s.gridOfWho (.lanes s.gid 0)) e.asid (e.vpn * 2 ^ 16)
  let s := s.spillStart (Spill.new id fk false false false true stamp) true
  if s.spills.any (fun x => x.id == id && x.subs == 0) then ({ s with spills := s.spills.filter (fun x => x.id != id) }, [])
  else (s, [id])

/-- `fqe.sync` (R385): it waits for the group's stores and for frames of the range that are filling or leaving. -/
def execFqeSync (d a : BitVec 7) (s : State) : Out :=
  issued (infFqe d a .none) s (fun s => s.refuse5 (s.rs a).toNat (fun s =>
    match s.checkAccess { kStore 1 with out := 1, inn := 1 } none 1 true (s.sharedEa a) with
    | some t => s.trap t
    | none =>
      let (r0, n) := s.fqeRange a
      let mine (e : Frame) : Bool := e.asid == s.g.asid && e.view == 0 && !e.table && 1 ≤ e.state && e.state ≤ 3
        && r0 ≤ e.vpn && e.vpn < r0 + n
      let fks := (s.frames.filter (fun e => mine e.2)).map (·.1)
      if s.g.stcnt != 0 || fks.any (fun f => (s.frame f).state != 1 || s.spills.any (fun x => x.fk == f)) then s.stall
      else
        let (s, ids) := fks.foldl (fun (acc : State × List Nat) f =>
          let (s, i) := acc.1.syncFrame f
          (s, acc.2 ++ i)) (s, [])
        if ids.isEmpty then s.putS d 1
        else
          let of (c : Nvme) : Bool := match c.what with
            | .spill k => ids.contains k
            | _ => false
          s.setG (fun g => { g with hold := .sync d.toNat ids ((s.nvme.filter of).map Nvme.drive).dedup false })))

/-- A request record that breaks its table (R386). -/
def subBad (r : Nat) : Bool :=
  let op := recField r 0 1
  let n := recField r 4 4
  let lba := recField r 8 8
  let buf := recField r 0x10 8
  bitsOf (recField r 0 4) 17 15 != 0 || recField r 0x24 28 != 0 || recField r 0x18 8 % 16 != 0
    || (match op with
        | 0 => n != 0 || lba != 0 || buf != 0
        | 1 | 2 => n == 0 || 16 < n || buf % 4096 != 0 || !inTable buf || !inTable (buf + 4096 * n - 1)
        | 9 => n == 0 || 2 ^ 22 < n || buf != 0
        | _ => true)

/-- `fqe.sub` (R386). -/
def execFqeSub (d a : BitVec 7) (s : State) : Out :=
  issued { infFqe d a .ld with need := .prv 1 } s (fun s => s.refuse5 (s.rs a).toNat (fun s =>
    let va := (s.rs a).toNat
    let kd : Kind := { kLoad 64 with out := 64, inn := 64 }
    match s.checkAccess kd none 64 true [(s.lead, va)] with
    | some t => s.trap t
    | none =>
      match s.resolve kd 0 va 64 with
      | (s, .error (.refuse r)) => s.trap (s.kindTrap s.lead va r 1 true)
      | (s, .error e) => s.parkOn s.iss.eff e
      | (s, .ok ps) =>
        let s := s.noteParts s.lead ps
        let (r, pois) := s.piecesRead ps
        if pois || subBad r then s.addLoad [.scalar d.toNat (bindCode 1) false]
        else
          let dr := bitsOf (recField r 0 4) 8 5
          let n := recField r 4 4
          let op := recField r 0 1
          let parts := if op = 1 ∨ op = 2 then (List.range n).map (fun j => (recField r 0x10 8 + 4096 * j, 0)) else []
          let (s, id) := s.submit true op dr (bitsOf (recField r 0 4) 13 4) (recField r 8 8) n parts (.sub va (recField r 0x18 8) (recField r 0x10 8))
          let pr := ((s.nvme.find? (fun c => c.id == id)).map Nvme.pair).getD 0
          (s.hbEdge s.gid (fqeAgent (dr % 16))).addLoad [.scalar d.toNat (BitVec.ofNat 64 (dr % 16 * 64 + pr)) false]))

end Sys2Proof.Machine
end

