-- ==== Sys2Proof/Machine/Worlds.lean ====
section
/-! DEFINITION. The world instructions: fn 4 to 9 of major `0x3B`, and the freeing of a view tag (R432 to R452). -/

namespace Sys2Proof.Machine

def infWorld (rs : List Reg) (d : BitVec 7) : Info :=
  { pipe := .m, reads := rs, writes := [.s d.toNat], base := false, feat := some 2, consumes := rs }

/-- The WORLD windows of the group's launch, by WIDX (R435). -/
def State.worldWindows (s : State) : List (Nat × Nat × Nat) :=
  ((s.myGrid.map Grid.windows).getD []).filterMap (fun w => if w.kind = 3 then some (w.widx, w.base, w.bytes) else none)

def State.myFork (s : State) (h : Nat) : Option Fork := s.myTeam.bind (fun t => t.fork h)

/-- Depth of a view (R433). -/
def State.depthOf (s : State) (asid v : Nat) : Nat := if v = 0 then 0 else (s.tag asid v).depth

def State.freeTags (s : State) (asid : Nat) : List Nat :=
  ((List.range 63).map (· + 1)).filter (fun v => (s.tag asid v).state == .free)

/-- Status of a `wfork` that opens nothing (R446). -/
def State.forkRefusal (s : State) (x : Nat) : Option Nat :=
  let n := bitsOf x 0 3 + 1
  let mask := bitsOf x 4 4
  let pm := match s.g.world with
    | some (h, _) => ((s.myFork h).map Fork.mask).getD 0
    | none => 15
  if bitsOf x 3 1 != 0 || 2 ^ 8 ≤ x || mask == 0 || mask &&& pm != mask
      || (List.range 4).any (fun i => mask.testBit i && !s.worldWindows.any (fun w => w.1 == i)) then some 1
  else if s.depthOf s.g.asid s.g.view = 4 then some 4
  else if (List.range 8).all (fun h => (s.myFork h).isSome) then some 3
  else if (s.freeTags s.g.asid).length < n then some 2
  else none

/-- `wfork` (R446). -/
def execWfork (d a : BitVec 7) (s : State) : Out :=
  issued (infWorld [.s a.toNat] d) s (fun s =>
    let x := (s.rs a).toNat
    match s.forkRefusal x with
    | some c => s.putS d c
    | none =>
      let n := bitsOf x 0 3 + 1
      let mask := bitsOf x 4 4
      let tags := (s.freeTags s.g.asid).take n
      let h := ((List.range 8).find? (fun h => (s.myFork h).isNone)).getD 0
      let dep := s.depthOf s.g.asid s.g.view + 1
      let wins := (s.worldWindows.filter (fun w => mask.testBit w.1)).map (fun w => w.2)
      let s := tags.foldl (fun s v => s.setTag s.g.asid v (fun _ => ⟨.live, s.g.view, wins, dep, false⟩)) s
      let f : Fork := ⟨s.g.view, tags, mask, dep, 0⟩
      (s.setTeam s.g.team (fun t => { t with forks := mapSet none t.forks h (some f) })).putS d (h * 2 ^ 8 + dep * 2 ^ 12))

/-- A fork and world that an operand names: the status that refuses it, or the fork (R447, R448). -/
def State.nameWorld (s : State) (x : Nat) (all : Bool) : Except Nat (Nat × Fork) :=
  let h := bitsOf x 4 3
  let i := bitsOf x 0 4
  if 2 ^ 7 ≤ x then .error 1
  else
    match s.myFork h with
    | none => .error 6
    | some f =>
      if f.tags.length ≤ i && !(all && i == 15) then .error 1
      else if s.g.view != f.parent then .error 5
      else .ok (h, f)

/-- `wenter` (R447). -/
def execWenter (d a : BitVec 7) (s : State) : Out :=
  issued (infWorld [.s a.toNat] d) s (fun s =>
    let x := (s.rs a).toNat
    match s.nameWorld x false with
    | .error c => s.putS d c
    | .ok (h, f) =>
      let i := bitsOf x 0 4
      (s.setG (fun g => { g with view := f.tags.getD i 0, world := some (h, i) })).putS d 0)

/-- `wleave` (R447). -/
def execWleave (d : BitVec 7) (s : State) : Out :=
  issued (infWorld [] d) s (fun s =>
    if s.g.world.isNone then s.putS d 8
    else ((s.flushFar s.gid).setG (fun g => { g with hold := .leave d.toNat s.iss.chainPc })).leaveEnd s.gid)

/-- A fork cannot close yet (R448). -/
def State.occupied (s : State) (h : Nat) (f : Fork) : Bool :=
  (s.teamGroups s.g.team).any (fun e => !e.2.finished && (e.2.world.map (·.1)) == some h)
    || (List.range 8).any (fun i => ((s.myFork i).map (fun y => f.tags.contains y.parent)).getD false)
    || s.ctxs.any (fun e => match e.2 with
        | some c => c.team == s.g.team && c.cmds.any (fun q => f.tags.contains q.view)
        | none => false)

/-- `wchoose` (R448, R449). -/
def execWchoose (d a : BitVec 7) (s : State) : Out :=
  issued (infWorld [.s a.toNat] d) s (fun s =>
    let x := (s.rs a).toNat
    match s.nameWorld x true with
    | .error c => s.putS d c
    | .ok (h, f) =>
      let i := bitsOf x 0 4
      if s.occupied h f then s.putS d 9
      else if i = 15 then (s.closeFork s.g.team s.g.asid h []).putS d 0
      else if f.spoiled.getLsbD i then (s.closeFork s.g.team s.g.asid h []).putS d 7
      else (s.setG (fun g => { g with hold := .commit d.toNat h (f.tags.getD i 0) f.parent 0 [] })).commitStep s.gid)

/-- `wstat` (R447). -/
def execWstat (d a : BitVec 7) (s : State) : Out :=
  issued (infWorld [.s a.toNat] d) s (fun s =>
    let x := (s.rs a).toNat
    if 2 ^ 7 ≤ x then s.putS d 1
    else
      match s.myFork (bitsOf x 4 3) with
      | none => s.putS d 6
      | some f =>
        let h := bitsOf x 4 3
        let occ := (List.range f.tags.length).foldl (fun m i =>
          if (s.teamGroups s.g.team).any (fun e => !e.2.finished && e.2.world == some (h, i)) then m + 2 ^ i else m) 0
        let held := ((s.myTeam.map (fun t => t.held.length)).getD 0) % 256
        s.putS d (2 ^ 8 * (2 ^ f.tags.length - 1) + 2 ^ 16 * (f.spoiled.toNat % 256) + 2 ^ 24 * occ + 2 ^ 32 * held + 2 ^ 40 * f.depth))

/-- `wwho` (R447). -/
def execWwho (d : BitVec 7) (s : State) : Out :=
  issued (infWorld [] d) s (fun s =>
    let w := match s.g.world with
      | some (h, i) => 2 ^ 6 + h * 2 ^ 7 + i * 2 ^ 10
      | none => 0
    s.putS d (s.g.view + w + s.depthOf s.g.asid s.g.view * 2 ^ 13 + if s.g.r.replay then 2 ^ 16 else 0))

/-- VIEW_TAG_FREE (R432): nothing of the tag remains, in a copy or far reduction under way included. -/
def execViewTagFree (a w : Nat) (s : State) : Out :=
  let busy := s.contribs.any (fun c => c.asid == a && c.view == w)
    || s.ctxs.any (fun e => match e.2 with
        | some c => c.cmds.any (fun q => q.asid == a && q.view == w)
        | none => false)
  if (s.tag a w).state != .draining || busy then .next s
  else .next ((s.discardView a w).setTag a w (fun _ => ViewTag.reset))

end Sys2Proof.Machine
end

