-- ==== Sys2Proof/Machine/Grids.lean ====
section
/-! DEFINITION. Launch records and grids: validation, acceptance, `launch`, the end of groups and teams, completion
records (R143, R151, R154, R159 to R163, R180 to R188, R216, R217, R220, R278, R435, R449, R453, R454, R486, R492). -/

namespace Sys2Proof.Machine

/-! ### Validation of a record (R187) -/

def recRole (r i : Nat) : Nat := recField r (0x40 + 8 * i) 8
def recRing (r i : Nat) : Nat := recField r (0x60 + 16 * i) 16

/-- A ring descriptor: offset, slots, arrival target, byte target (R185). -/
def ringFields (d : Nat) : Nat × Nat × Nat × Nat := (recField d 0 4, recField d 4 1, recField d 6 2, recField d 8 4)

/-- The rings of a record that are present. -/
def recRings (r : Nat) : List (Nat × Nat × Nat × Nat) :=
  ((List.range 4).map (fun i => ringFields (recRing r i))).filter (fun d => d.2.1 != 0)

/-- Something marked zero is not (reason 2). An invalid role descriptor and an absent ring are all zero (R185). -/
def zeroBad (r : Nat) : Bool :=
  recField r 0 4 % 32 != 0 || bitsOf (recField r 0x3C 4) 9 12 != 0
    || (BitVec.ofNat 32 (recField r 0x2C 4) &&& 0xFF3CE0E0#32) != 0#32
    || (List.range 4).any (fun i =>
        let d := recRole r i
        if roleValid d then bitsOf d 34 5 != 0 || bitsOf d 56 8 != 0 else d != 0)
    || (List.range 4).any (fun i =>
        let d := recRing r i
        if recField d 4 1 != 0 then recField d 5 1 != 0 || recField d 12 4 != 0 else d != 0)

/-- The roles break R134 or R151 (reason 5). -/
def rolesBad (r : Nat) : Bool :=
  let ds := (List.range 4).map (recRole r)
  let ok := ds.filter roleValid
  let sum := (ok.map roleGroups).foldl (· + ·) 0
  !(roleValid (recRole r 0)) || (List.range 3).any (fun i => roleValid (recRole r (i + 1)) && !roleValid (recRole r i))
    || ok.any (fun d => roleRegs d % 8 != 0 || roleRegs d < 16 || 128 < roleRegs d || roleGroups d == 0 || 32 < roleGroups d)
    || ((ok.map roleKindOf).dedup).length != ok.length || 32 < sum

/-- Whether some two of the ranges (start, length) meet. -/
def rangesMeet : List (Nat × Nat) → Bool
  | [] => false
  | x :: xs => xs.any (fun y => x.1 < y.1 + y.2 && y.1 < x.1 + x.2) || rangesMeet xs

/-- The rings break R154 (reason 6). -/
def ringsBad (r : Nat) : Bool :=
  let ds := recRings r
  let size := recField r 0x3C 4 % 512 * 4096
  ds.any (fun d => d.1 % 16 != 0 || 32 < d.2.1 || size < d.1 + 16 * d.2.1) || rangesMeet (ds.map (fun d => (d.1, 16 * d.2.1)))

/-- The first of reasons 1 to 13 that a record gives (R187). -/
def recordReason (r : Nat) : Option Nat :=
  let ctrl := recField r 0 4
  let dim (i : Nat) : Nat := let x := recField r (4 + 4 * i) 4; if x = 0 then 2 ^ 32 else x
  let aux := recField r 0x3C 4
  let base := recField r 0x10 8
  let cap := bitsOf aux 21 11
  if bitsOf ctrl 28 4 != 1 then some 1
  else if zeroBad r then some 2
  else if 47 < bitsOf ctrl 22 6 then some 3
  else if 2 ^ 32 < dim 0 * dim 1 * dim 2 then some 4
  else if rolesBad r then some 5
  else if ringsBad r then some 6
  else if dim 0 * dim 1 * dim 2 % 2 ^ bitsOf ctrl 20 2 != 0 then some 7
  else if 256 < aux % 512 then some 8
  else if base % 4096 != 0 || 2 ^ 57 ≤ base then some 9
  else if recField r 0x20 8 % 16 != 0 || recField r 0x28 4 % 16 != 0 then some 10
  else if bitsOf ctrl 11 1 == 1 && (bitsOf ctrl 5 1 == 0 || cap == 0 || 1024 < cap) then some 11
  else if bitsOf ctrl 18 2 == 3 || 56 < bitsOf ctrl 12 6 then some 12
  else if recField r 0xA0 8 % 32 != 0 || recField r 0x30 8 % 16 != 0 || recField r 0xB8 8 % 8 != 0 then some 13
  else none

/-! ### Window tables (R216, R217, R435) -/

/-- An entry of a window table. -/
def windowOf (e : Nat) : Window :=
  let c := recField e 0x10 4
  { base := recField e 0 8, bytes := recField e 8 8, kind := c % 16, cls := bitsOf c 4 2, deadline := bitsOf c 16 16,
    fade0 := bitsOf c 8 8, widx := recField e 0x14 1 % 4, fade := 0, lapsed := false }

/-- An entry breaks its layout (R216, R217, R435). -/
def windowBad (e : Nat) : Bool :=
  let w := windowOf e
  let c := recField e 0x10 4
  let rest := recField e 0x14 12
  w.kind == 0 || 5 ≤ w.kind || bitsOf c 6 2 != 0 || (if w.kind == 3 then 4 ≤ rest else rest != 0)
    || (3 ≤ w.kind && (w.fade0 != 0 || w.deadline != 0)) || w.base % 2 ^ 16 != 0 || 2 ^ 57 ≤ w.base
    || w.bytes == 0 || w.bytes % 2 ^ 16 != 0 || onChipBase < w.base + w.bytes

/-- The entries together break R217 or R435. -/
def windowsBad (replay : Bool) (ws : List Window) : Bool :=
  let kind (k : Nat) : List Window := ws.filter (fun w => w.kind == k)
  let rep := kind 4
  (List.range 5).any (fun k => rangesMeet ((kind k).map (fun w => (w.base, w.bytes))))
    || 4 < (kind 3).length || 4 < rep.length || (((kind 3).map Window.widx).dedup).length != (kind 3).length
    || (!rep.isEmpty) != replay
    || (replay && (kind 3).any (fun w => !rep.any (fun r => r.base ≤ w.base && w.base + w.bytes ≤ r.base + r.bytes)))

/-- PIN_QUOTA of a polder (R487). -/
def Polder.pinQuota (p : Polder) : Nat := (p.tune.extractLsb' 32 19).toNat

/-- PIN entries exceed the quota of the polder or of a stack (R220). -/
def State.quotaBad (s : State) (p : Nat) (new : List Pin) : Bool :=
  let mine := s.grids.flatMap (fun e => match e.2 with
    | some g => if g.polder == p && !g.done then g.windowPins e.1 else []
    | none => [])
  let lim := min (s.polder p).pinQuota 393216
  let total (st : Nat) (ps : List Pin) : Nat := (ps.map (s.pinLoad st)).foldl (· + ·) 0
  !new.isEmpty && (32 * lim < (new.map Pin.count).foldl (· + ·) 0
    || (List.range 32).any (fun st => lim < total st (mine ++ new) || 393216 < total st (s.pins ++ s.pinsDue ++ new)))

/-- `n` doubles from an address, read by the command processor for a grid: `none` where the read waits, `some none` where
one cannot be read or is poisoned. -/
def State.readDoubles (s : State) (gr asid va : Nat) : Nat → State × Option (Option Nat)
  | 0 => (s, some (some 0))
  | n + 1 =>
    match s.homePlace (.table gr) .load asid va 8 with
    | (s, none) => (s, none)
    | (s, some l) =>
      if l == .gone || s.locPois l 8 then (s, some none)
      else
        match s.readDoubles gr asid (va + 8) n with
        | (s, some (some y)) => (s, some (some (s.rdLoc l 8 + 2 ^ 64 * y)))
        | r => r

/-- The window table of a record (R216): `none` where its read waits, `some none` gives reason 15. -/
def State.readWindows (s : State) (gr asid p r : Nat) : State × Option (Option (List Window)) :=
  let va := recField r 0xB8 8
  let replay := bitsOf (recField r 0 4) 8 1 == 1
  if va = 0 then (s, some (if replay then none else some []))
  else if tableBase < va + 8 then (s, some none)
  else
    match s.readDoubles gr asid va 1 with
    | (s, none) => (s, none)
    | (s, some none) => (s, some none)
    | (s, some (some h)) =>
      let n := h % 2 ^ 32
      if 2 ^ 32 ≤ h || n = 0 || 16 < n || tableBase < va + 8 + 32 * n then (s, some none)
      else
        match s.readDoubles gr asid (va + 8) (4 * n) with
        | (s, none) => (s, none)
        | (s, some none) => (s, some none)
        | (s, some (some x)) =>
          let es := (List.range n).map (fun i => recField x (32 * i) 32)
          let ws := es.map windowOf
          let pins := ws.filterMap (fun w =>
            if w.kind = 1 then some (Pin.mk asid (w.base / 2 ^ 16) (w.bytes / 2 ^ 16) .pinSet) else none)
          (s, some (if es.any windowBad || windowsBad replay ws || s.quotaBad p pins then none else some ws))

/-! ### Forming a grid -/

def Grid.field (g : Grid) (off n : Nat) : Nat := recField g.record off n
def Grid.completion (g : Grid) : Nat := g.field 0xA0 8

/-- A grid before its record is checked. START stays 0 where no team is ever placed (DESIGN CHOICE, log 50). -/
def Grid.new (r : Nat) (queue : Option (Nat × Nat × Nat)) (parent : Option (Nat × Nat)) (asid p level depth : Nat)
    (maint : Bool) : Grid :=
  { record := r, queue := queue, parent := parent, asid := asid, polder := p, level := level, depth := depth,
    maint := maint, accepted := 0, windows := [], tableDue := false, next := 0, back := [], retiredTeams := [],
    early := bitsOf (recField r 0 4) 11 1 == 1, depPassed := false, view := 0, replays := 0, lossReplays := 0, replayed := false,
    wantReplay := false, lastErr := none, status := 0, reason := 0, start := 0, lastDie := none, done := false }

/-- The attempt of a replayable grid takes a free tag, if one is free (R453). -/
def State.takeTag (s : State) (gr : Nat) : State :=
  match s.grid gr with
  | none => s
  | some g =>
    if !g.isReplay || g.view != 0 then s
    else
      match s.freeTags g.asid with
      | [] => s
      | v :: _ =>
        let wins := (g.windows.filter (fun w => w.kind == 4)).map (fun w => (w.base, w.bytes))
        (s.setTag g.asid v (fun _ => ⟨.live, 0, wins, 1, true⟩)).setGrid gr (fun g => { g with view := v })

/-- A grid is malformed: it is decided at once (R187). -/
def State.malformed (s : State) (gr c : Nat) : State :=
  (s.setGrid gr (fun g => { g with status := 2, reason := c, tableDue := false })).due (.teamRetire 0)

/-- The windows of an accepted grid are known: it stands, unless a feature that it asks for is absent (R492). -/
def State.tableDone (s : State) (gr : Nat) (ws : List Window) : State :=
  match s.grid gr with
  | none => s
  | some g =>
    if (g.isReplay && !s.feat 3) || (bitsOf (recField g.record 0 4) 9 1 == 1 && !s.feat 4) then s.malformed gr 16
    else (s.setGrid gr (fun g => { g with windows := ws, tableDue := false })).takeTag gr

/-- The window table of an accepted grid is read, once (R216); one that breaks R217 makes the record malformed. -/
def State.tableStep (s : State) (gr : Nat) : State :=
  match s.grid gr with
  | none => s
  | some g =>
    if !g.tableDue || g.status != 0 || s.waitsFor (.table gr) then s
    else
      match s.readWindows gr g.asid g.polder g.record with
      | (s, none) => s
      | (s, some none) => s.malformed gr 15
      | (s, some (some ws)) => s.tableDone gr ws

/-- Checks a record that has been read and forms its grid (R151, R187, R216, R492); `unread` gives reason 14. Answers its
number. -/
def State.formGrid (s : State) (g : Grid) (unread : Bool) : State × Nat :=
  let (s, id) := s.fresh
  let s := { s with grids := mapSet none s.grids id (some { g with accepted := id, tableDue := true }) }
  match if unread then some 14 else recordReason g.record with
  | some c => (s.malformed id c, id)
  | none => (s.tableStep id, id)

/-! ### Acceptance (R181, R187) -/

/-- The accesses of the command processor for a grid, made by no core. -/
def cpCommitter (w : ReqWho) (agent : Nat) : Committer := ⟨w, none, 40, agent⟩

/-- The 256 bytes of a record, 64 at a time: bytes and a poison mark of each part; `none` where one waits. -/
def State.readRecord64 (s : State) (c : Committer) (asid va : Nat) : Nat → State × Option (List (Nat × Bool))
  | 0 => (s, some [])
  | n + 1 =>
    match s.readRecord64 c asid va n with
    | (s, none) => (s, none)
    | (s, some xs) =>
      match s.homePlace c.who .load asid (va + 64 * n) 64 with
      | (s, none) => (s, none)
      | (s, some l) => (s, some (xs ++ [(s.rdLoc l 64, s.locPois l 64)]))

/-- A record of four parts; a poisoned part is not read. -/
def joinParts (xs : List (Nat × Bool)) : Nat :=
  xs.foldr (fun x a => (if x.2 then 0 else x.1) + 2 ^ 512 * a) 0

/-- The next entry of a queue becomes a grid (R181, R189). -/
def State.acceptEntry (s : State) (p q r : Nat) (unread : Bool) : State :=
  let qu := (s.polder p).queue q
  let c := qu.ctl.toNat
  let g := Grid.new r (some (p, q, qu.acc.toNat)) none (bitsOf c 12 10) p (min (bitsOf (recField r 0 4) 22 6) (bitsOf c 6 6)) 0
    (qu.ctl.getLsbD 22)
  let s := s.setPolder p (fun x => x.setQueue q (fun y => { y with acc := y.acc + 1 }))
  (s.formGrid g unread).1

def State.recordWaits (s : State) (k : Nat) : Bool := s.reqs.any (fun r => r.who == .record k)

/-- RECORD_ACCEPT (R181): the command processor reads the next entry of queue `q` of polder `p`. -/
def execRecordAccept (p q : Nat) (s : State) : Out :=
  let qu := (s.polder p).queue q
  let c := qu.ctl.toNat
  let k := 16 * p + q
  if !qu.ctl.getLsbD 0 || qu.acc == qu.prod || s.recordWaits k then .next s
  else
    let va := qu.base.toNat + 256 * (qu.acc.toNat % 2 ^ bitsOf c 1 5)
    if tableBase < va + 256 then .next (s.acceptEntry p q 0 true)
    else
      match s.readRecord64 (cpCommitter (.record k) (gridAgent 0)) (bitsOf c 12 10) va 4 with
      | (s, none) => .next s
      | (s, some xs) => .next (s.acceptEntry p q (joinParts xs) (xs.any (fun x => x.2)))

/-- The pager answered the read of a queue's entry with DELIVER or FAIL: reason 14 (R187, R393). -/
def State.recordRefused (s : State) (k : Nat) : State := s.acceptEntry (k / 16) (k % 16) 0 true

/-! ### `launch` (R180) -/

def infLaunch (d a : BitVec 7) : Info :=
  { pipe := .s, base := false, reads := [.v a.toNat 2], writes := [.v d.toNat 1], consumes := [.v a.toNat 2] }

def kLaunch : Kind := ⟨.load, 1, 1, .plain, .read⟩

/-- A status of `launch` for a lane and its partner. -/
def State.launchStatus (s : State) (d : BitVec 7) (l x : Nat) : State :=
  let s0 := s
  s.setR (fun r => (s0.withShadow l).foldl (fun r k => r.wrV d.toNat k (BitVec.ofNat 32 x) false) r)

/-- Child slots of the executing group's team in use. -/
def State.childSlots (s : State) : List Nat :=
  ((s.myTeam.map Team.children).getD []).filterMap (fun e => e.2.map (fun _ => e.1))

/-- One lane launches a child (R160, R161): the record is copied, and the child takes the lowest free slot. -/
def State.launchLane (s : State) (d : BitVec 7) (l a : Nat) : State :=
  match s.myGrid with
  | none => s
  | some g =>
    if a % 256 != 0 then s.launchStatus d l 4
    else if g.depth = 10 then s.launchStatus d l 1
    else if 64 ≤ s.childSlots.length then s.launchStatus d l 2
    else
      match s.resolve kLaunch 0 a 256 with
      | (s, .error e) => s.parkOn (laneBit l) e
      | (s, .ok ps) =>
        let s := s.noteParts l ps
        let (r, pois) := s.piecesRead ps
        let k := ((List.range 64).find? (fun k => !s.childSlots.contains k)).getD 0
        let c := Grid.new r none (some (s.g.team, k)) s.g.asid g.polder g.level (g.depth + 1) g.maint
        let (s, id) := s.formGrid c pois
        let s := s.setTeam s.g.team (fun t => { t with children := mapSet none t.children k (some id) })
        (s.hbEdge s.gid (gridAgent id)).launchStatus d l (256 * k)

/-- `launch` (R180). It is refused under every view but 0 (R439). -/
def execLaunch (d a : BitVec 7) (s : State) : Out :=
  issued (infLaunch d a) s (fun s =>
    let ea (l : Nat) : Nat := (s.src.rdV2 a.toNat l).toNat
    let xs := (lanesOf s.leadLanes).map (fun l => (l, ea l))
    s.paired (fun l => (ea l, 0)) (fun s =>
      if s.g.grp != 0 then xs.foldl (fun s x => s.launchStatus d x.1 3) s
      else
        match s.checkAccess kLaunch (if s.g.view = 0 then none else some 5) 256 false xs with
        | some t => s.trap t
        | none =>
          match s.watched false 256 xs with
          | some (m, slot) =>
            (xs.filter (fun x => !m.getLsbD x.1)).foldl (fun s x => s.launchLane d x.1 x.2) (s.watchHalt m slot)
          | none => xs.foldl (fun s x => s.launchLane d x.1 x.2) s))

/-! ### Groups and teams end (R143, R162, R163, R214, R286, R306, R452) -/

/-- Every lane is EXITED and nothing that R143 waits for is outstanding. -/
def Group.over_ (g : Group) : Bool :=
  (List.range 32).all (fun l => g.laneAt l == .exited) && g.stcnt == 0 && g.cpcnt == 0 && g.mxcnt == 0

/-- A reduction fault that no handler of its group will take is recorded (R399). -/
def State.recordRFault (s : State) (k : Nat) (f : RFault) : State :=
  match s.getG k with
  | none => s
  | some g =>
    (s.writeRec g.tile { s.recOf k 6 3 with addr := f.addr.toNat, code := f.cause, detail := f.detail, aux := f.key.toNat }).setRsw
      f.asid f.view f.epa rswPoison

/-- The last group of a team has finished: its core, registers and scratchpad are released (R162, R452). -/
def State.teamOver (s : State) (t : Nat) : State :=
  match s.team t with
  | none => s
  | some x =>
    let asid := ((s.grid x.grid).map Grid.asid).getD 0
    let s := s.closeForks t asid
    let s := (List.range x.nGroups).foldl (fun s i => s.dropG (gidOf t i)) s
    (s.setTeam t (fun x => { x with place := .finished })).due (.teamRetire t)

/-- The closing arrival of a group's epoch is on its way (R306). -/
def State.closePending (s : State) (k : Nat) : Bool :=
  s.stores.any (fun x => x.grp == some k && (match x.kind with
    | .close _ _ _ => true
    | _ => false))

/-- GROUP_FINISH (R143). A group that finishes with an epoch open first makes its `rep.close` (R306). -/
def execGroupFinish (k : Nat) (s : State) : Out :=
  match s.getG k with
  | none => .next s
  | some g =>
    match s.team g.team with
    | none => .next s
    | some t =>
      if !g.isCompute || g.finished || !g.over_ || !t.running then .next s
      else if s.closePending k then .next s
      else if g.epa.isSome then .next (s.asGroup k State.closeEpoch)
      else
        let s := g.faults.foldl (fun s f => s.recordRFault k f) s
        let s := s.breachDams (fun d => d.grp == k)
        let s := (List.range 4).foldl (fun s i => s.planRelease k g.home i) s
        let s := ((s.hbEdge k (gridAgent t.grid)).giveRows k).modG k (fun g =>
          { g with finished := true, lsv := [], save := none, loads := [], ldcnt := 0, hold := .none, faults := [] })
        let all := (List.range t.nGroups).all (fun i => ((s.getG (gidOf g.team i)).map Group.finished).getD true)
        .next (if all then s.teamOver g.team else s)

/-- The groups of a failed team have nothing outstanding: they leave their core (R278, R395). -/
def State.failedDrains (s : State) (t : Nat) : State :=
  match s.team t with
  | none => s
  | some x =>
    let gs := s.teamGroups t
    if x.place != .failed || gs.isEmpty || gs.any (fun e => e.2.stcnt != 0 || e.2.cpcnt != 0 || e.2.mxcnt != 0) then s
    else
      let s := gs.foldl (fun s e => (List.range 4).foldl (fun s i => s.planRelease e.1 e.2.home i) s) s
      gs.foldl (fun s e => ((s.hbEdge e.1 (gridAgent x.grid)).giveRows e.1).dropG e.1) s

/-! ### Completion (R188, R449, R454, R486) -/

/-- Lowest and highest TEAM_LIN not retired, for a completion FAILED or LINK_LOST (R188). A replayable launch that does
not complete gives every team (R455). -/
def Grid.notRetired (g : Grid) : Nat × Nat :=
  let n := g.teamCount
  if g.isReplay then (0, n - 1)
  else
    let gone (k : Nat) : Bool := g.retiredTeams.contains k
    let lo := (List.range (g.retiredTeams.length + 1)).find? (fun k => !gone k)
    let hi := if g.next < n then some (n - 1) else ((List.range (g.retiredTeams.length + 1)).map (fun k => n - 1 - k)).find? (fun k => !gone k)
    (lo.getD 0, hi.getD 0)

/-- STATUS of a completion record (R188). -/
def Grid.statusWord (g : Grid) : Nat := g.status + 2 ^ 8 * g.reason + if g.replayed then 2 ^ 16 else 0

/-- The 32 bytes of the completion record. -/
def Grid.completionBytes (g : Grid) (now : Nat) : Nat :=
  let r := if g.status = 3 ∨ g.status = 4 then g.notRetired else (0, 0)
  g.statusWord + 2 ^ 32 * g.tag + 2 ^ 64 * r.1 + 2 ^ 96 * r.2 + 2 ^ 128 * (g.start % 2 ^ 64) + 2 ^ 192 * (now % 2 ^ 64)

/-- The oldest entry of a queue whose grid has not retired (R181). -/
def State.advanceCons (s : State) (p q : Nat) : State :=
  let qu := (s.polder p).queue q
  let live := s.grids.filterMap (fun e => match e.2 with
    | some g => (match g.queue with
      | some (p', q', i) => if p' = p ∧ q' = q ∧ !g.done then some i else none
      | none => none)
    | none => none)
  let c := (leastBy (fun i => (i + 2 ^ 32 - qu.cons.toNat) % 2 ^ 32) live).getD qu.acc.toNat
  s.setPolder p (fun x => x.setQueue q (fun y => { y with cons := BitVec.ofNat 32 c }))

/-- A grid retires (R162, R220, R278, R486): its quota, its tag, its slot and its queue entry are released, and what it did
happens before the completion of its parent's grid. -/
def State.retireGrid (s : State) (gr : Nat) : State :=
  match s.grid gr with
  | none => s
  | some g =>
    let s := s.setGrid gr (fun g => { g with done := true })
    let s := { s with pins := s.pins.filter (fun p => match p.by_ with
      | .window k _ => k != gr
      | _ => true) }
    let s := if g.view = 0 then s else s.discardView g.asid g.view
    let s := match g.status with
      | 2 => s.signal (32 * g.polder + 1)
      | 3 | 4 => s.signal (32 * g.polder + 2)
      | _ => s
    let s := match g.parent with
      | some (t, k) =>
        let s := match s.team t with
          | some x => s.hbEdge (gridAgent gr) (gridAgent x.grid)
          | none => s
        (s.setTeam t (fun x => { x with children := mapSet none x.children k none })).due (.teamRetire t)
      | none => s
    match g.queue with
    | some (p, q, _) => s.advanceCons p q
    | none => s

/-- The completion record cannot be written: the loss is recorded and signalled, and the grid retires (R188). -/
def State.completionLost (s : State) (gr : Nat) : State :=
  match s.grid gr with
  | none => s
  | some g =>
    let va := g.completion
    let s := s.writeRec (tileOfStack (s.stackOf g.asid (va % 2 ^ 57)))
      { kind := 12, sev := 3, key := s.keyField g.asid 0, addr := va, tag := g.tag, aux := g.statusWord }
    (s.signal (32 * g.polder + 1)).retireGrid gr

def State.completionWaits (s : State) (gr : Nat) : Bool := s.reqs.any (fun r => r.who == .completion gr)

/-- Places of the bytes of a write, cut where a page may end; `none` where one waits. -/
def State.commitPlaces (s : State) (c : Committer) (asid va n : Nat) : State × Option (List (Loc × Nat)) :=
  match s.homePlace c.who .store asid va n with
  | (s, none) => (s, none)
  | (s, some l) =>
    let k := min n (64 - va % 64)
    if k = n then (s, some [(l, n)])
    else
      match s.homePlace c.who .store asid (va + k) (n - k) with
      | (s, none) => (s, none)
      | (s, some r) => (s, some [(l, k), (r, n - k)])

/-- Writes a completion record's bytes at their places. -/
def State.putRecord (s : State) (asid va : Nat) : List (Loc × Nat) → Nat → State
  | [], _ => s
  | (l, n) :: ls, x =>
    let s := (s.plainWrite 40 l n).wrLoc l n (x % 2 ^ (8 * n))
    let s := match l with
      | .home a v x => s.touchHome a v x
      | _ => s
    State.putRecord s asid (va + n) ls (x / 2 ^ (8 * n))

/-- Writes the completion record of a decided grid, STATUS as a release at SYSTEM scope (R188, R278). Every write of the grid
is acknowledged by then: its record has no clock to cover, and a signature that names every block. -/
def State.writeCompletion (s : State) (gr : Nat) : State :=
  match s.grid gr with
  | none => s
  | some g =>
    let va := g.completion
    if va = 0 then s.retireGrid gr
    else if tableBase < va + 32 then s.completionLost gr
    else
      match s.commitPlaces (cpCommitter (.completion gr) (gridAgent gr)) g.asid va 32 with
      | (s, none) => s
      | (s, some ls) =>
        let s := s.putRecord g.asid va ls (g.completionBytes s.tick)
        let s := match ls.head?.map (·.1) with
          | some (.home a v x) =>
            let ws := (Loc.home a v x).words 4
            (s.putRecords (s.sliceOf a x) ws ⟨[], [4096], none⟩).hbRelease (gridAgent gr) ws 5 false
          | _ => s
        s.retireGrid gr

/-- The commit of a replayable launch's view into view 0 (R454); its writes are acknowledged before STATUS. -/
def State.commitGrid (s : State) (gr : Nat) : State :=
  match s.grid gr with
  | none => s
  | some g =>
    match s.commitBlocks (cpCommitter (.completion gr) (gridAgent gr)) g.asid g.view 0 with
    | (s, ok, ids) =>
      let s := { s with stores := s.stores.filter (fun x => !ids.contains x.id) }
      if ok then ((s.commitL1 g.asid g.view 0).setGrid gr (fun g => { g with status := 1 })).writeCompletion gr else s

/-- Every child of the teams of a grid has retired. -/
def State.childless (s : State) (gr : Nat) : Bool :=
  (s.teamsOf gr).all (fun t => ((s.team t).map (fun x => x.children.isEmpty)).getD true)

/-- One grid goes on towards its retirement as far as it can (R162, R187, R395, R454, R455). -/
def State.gridStep (s : State) (gr : Nat) : State :=
  match s.grid gr with
  | none => s
  | some g =>
    if g.done || s.completionWaits gr then s
    else if g.tableDue && g.status = 0 then s.tableStep gr
    else if g.status != 0 then
      let ts := s.teamsOf gr
      let s := ts.foldl (fun s t => match (s.team t).map Team.place with
        | some (.saved _ _) => s.failOne t g.status
        | some .failed => s.failedDrains t
        | _ => s.freePad t) s
      if (s.teamsOf gr).any (fun t => match s.team t with
          | some x => x.running || x.place == .finished && !x.children.isEmpty || !(s.teamGroups t).isEmpty
          | none => false) || !s.childless gr then s
      else s.writeCompletion gr
    else if g.wantReplay then s.due (.replayRestart gr)
    else if g.next < g.teamCount || g.retiredTeams.length < g.teamCount then s
    else if g.view = 0 then (s.setGrid gr (fun g => { g with status := 1 })).writeCompletion gr
    else s.commitGrid gr

/-- The pager answered the read of a grid's window table with DELIVER or FAIL: the table is unreadable (R217). -/
def State.tableRefused (s : State) (gr : Nat) : State :=
  if ((s.grid gr).map (fun g => g.tableDue && g.status == 0)).getD false then s.malformed gr 15 else s

/-- The pager answered an access of the command path for a grid with DELIVER or FAIL: a completion record is lost (R188),
a commit fails the grid (R449, R454). -/
def State.completionRefused (s : State) (gr : Nat) : State :=
  match s.grid gr with
  | none => s
  | some g =>
    if g.done then s
    else if g.status != 0 then s.completionLost gr
    else if g.view != 0 && g.teamCount ≤ g.retiredTeams.length then (s.decideGrid gr 3 0).due (.teamRetire 0)
    else s

/-- TEAM_RETIRE (R162): team `t` retires once every child that it launched has; every grid then goes on. -/
def execTeamRetire (t : Nat) (s : State) : Out :=
  let s : State := match s.team t with
    | some x =>
      if x.place == TeamPlace.finished && x.children.isEmpty then
        (s.setTeam t (fun x => { x with place := .retired })).setGrid x.grid (fun g =>
          { g with retiredTeams := g.retiredTeams ++ [x.lin] })
      else s
    | none => s
  .next (s.grids.foldl (fun s e => s.gridStep e.1) s)

end Sys2Proof.Machine
end

