-- ==== Sys2Proof/Machine/Sched.lean ====
section
/-! DEFINITION. The scheduler: room, order, victims, placement, dependences and thermal moves (R147 to R150, R154, R156,
R189 to R196, R199, R214, R219, R221, R353, R365, R394, R410, R426). -/

namespace Sys2Proof.Machine

/-! ### Room (R148, R196, R214, R426) -/

/-- What teams take of a core: scratchpad bytes, lane-register bytes, groups of each quarter, MTX teams, groups, copy
contexts. -/
structure Room where
  spad : Nat
  regs : Nat
  q : List Nat
  mtx : Nat
  n : Nat
  ctxs : Nat
  deriving DecidableEq, Repr

/-- What one team of a grid needs. -/
def Grid.need (g : Grid) (ctxs : Nat) : Room :=
  let n := g.groupCount
  { spad := g.scratchUnits * 4096, regs := ((g.roles.map (fun e => roleRegs e.2 * roleGroups e.2)).foldl (· + ·) 0) * 128,
    q := (List.range 4).map (fun i => (n + 3 - i) / 4), mtx := if g.hasMtx then 1 else 0, n := n, ctxs := ctxs }

def State.gridOf (s : State) (t : Team) : Option Grid := s.grid t.grid

/-- Some team of the gang still runs: its scratchpads are kept, a failed team's too (R214). -/
def State.gangRuns (s : State) (t : Nat) : Bool := (s.gangOf t).any (fun u => ((s.team u).map Team.running).getD false)

/-- A team takes room of core `c`: with its groups, or its scratchpad alone once it has finished. -/
def State.holdsCore (s : State) (c t : Nat) (x : Team) : Bool × Bool :=
  match x.place with
  | .resident k => (k == c, k == c)
  | .failed => let on := x.core == c && !(s.teamGroups t).isEmpty; (on, on || x.core == c && s.gangRuns t)
  | .finished | .retired => (false, x.core == c && s.gangRuns t)
  | .saved _ _ => (false, false)

/-- The teams that take room of a core: with groups, and with scratchpad; `out` are taken as gone. -/
def State.coreTeams (s : State) (c : Nat) (out : List Nat) : List (Nat × Team × Bool) :=
  s.teams.filterMap (fun e => match e.2 with
    | some x => if (s.holdsCore c e.1 x).2 && !out.contains e.1 then some (e.1, x, (s.holdsCore c e.1 x).1) else none
    | none => none)

/-- The room that a core's teams take. -/
def State.roomUsed (s : State) (c : Nat) (out : List Nat) : Room :=
  let ts := s.coreTeams c out
  let gs := (ts.filter (fun e => e.2.2)).flatMap (fun e => (s.teamGroups e.1).filter (fun g => !g.2.finished))
  { spad := (ts.map (fun e => 4096 * e.2.1.pieces.length)).foldl (· + ·) 0, regs := (gs.map (fun g => 128 * g.2.regsN)).foldl (· + ·) 0,
    q := (List.range 4).map (fun i => (gs.filter (fun g => g.2.quarter == i)).length),
    mtx := (ts.filter (fun e => e.2.2 && ((s.gridOf e.2.1).map Grid.hasMtx).getD false)).length, n := gs.length,
    ctxs := (s.ctxsOf c).length - ((s.ctxsOf c).filter (fun x => out.contains x.2.team)).length }

/-- How many teams of a need a core could take at once, at most `2^40`. -/
def Room.cap (u need : Room) : Nat :=
  let part (lim have_ want : Nat) : Nat := if want = 0 then 2 ^ 40 else (lim - have_) / want
  let xs := [part 1048576 u.spad need.spad, part 786432 u.regs need.regs, part 1 u.mtx need.mtx, part 16 u.ctxs need.ctxs]
    ++ (u.q.zip need.q).map (fun p => part 32 p.1 p.2)
  xs.foldl min (2 ^ 40)

/-- A core may take teams of a need at all (R409, R464). -/
def State.coreOpen (s : State) (c : Nat) (need : Room) : Bool :=
  !(s.coreSt c).retired && !(s.die (c / 32)).lost && (need.mtx == 0 || (s.coreSt c).muRetired == 0)

/-- What one team of a gang that is to move or to resume needs: the groups not finished, which alone hold registers and
slots (R143, R196), the copy contexts (R426), and the scratchpad, of a finished team that alone (R214). -/
def State.teamNeed (s : State) (g : Grid) (t : Nat) (x : Team) : Room :=
  let gs := if x.running then (s.teamGroups t).filter (fun e => !e.2.finished) else []
  { spad := x.scratch, regs := (gs.map (fun e => 128 * e.2.regsN)).foldl (· + ·) 0,
    q := (List.range 4).map (fun i => (gs.filter (fun e => e.2.quarter == i)).length),
    mtx := if g.hasMtx && x.running then 1 else 0, n := gs.length,
    ctxs := x.imgs.length + ((s.ctxsOf x.core).filter (fun c => c.2.team == t)).length }

def State.capOf (s : State) (c : Nat) (need : Room) (out : List Nat) : Nat :=
  if s.coreOpen c need then (s.roomUsed c out).cap need else 0

/-! ### The order of placement (R182, R189, R191) -/

/-- The producer of an early consumer (R192). -/
def State.producer (s : State) (gr : Nat) (g : Grid) : Option (Nat × Grid) :=
  leastBy (fun e => e.2.accepted) (s.grids.filterMap (fun e => match e.2 with
    | some x => if e.1 != gr && x.polder == g.polder && !x.done && x.tag == g.field 0xB4 4 then some (e.1, x) else none
    | none => none))

/-- The early state (R192, R194). -/
def State.earlyState (s : State) (gr : Nat) (g : Grid) : Bool := g.early && !g.depPassed && (s.producer gr g).isSome

/-- The grid of the previous entry of its queue has not retired (R182). -/
def State.prevRuns (s : State) (g : Grid) : Bool :=
  match g.queue with
  | none => false
  | some (p, q, i) => s.grids.any (fun e => match e.2 with
    | some x => x.queue == some (p, q, (i + 2 ^ 32 - 1) % 2 ^ 32) && !x.done
    | none => false)

/-- Teams of a grid may be placed. -/
def State.placeable (s : State) (g : Grid) : Bool :=
  !g.done && g.status == 0 && !g.tableDue && !g.wantReplay && !(g.afterPrev && s.prevRuns g)
    && (!g.hasDep || g.isEarly || g.depPassed) && (!g.isReplay || g.view != 0)

/-- Placeable grids in the order of R189. -/
def State.ranked (s : State) : List (Nat × Grid) :=
  sortBy (fun e => (63 - e.2.level) * 2 ^ 81 + (if e.2.parent.isSome then 0 else 2 ^ 80) + e.2.accepted)
    (s.grids.filterMap (fun e => match e.2 with
      | some g => if s.placeable g then some (e.1, g) else none
      | none => none))

/-- What a grid wants placed next: the teams of a saved gang, ahead of later teams, or its next gang (R190). -/
inductive Want where
  | resume (ts : List Nat)
  | next
  deriving DecidableEq, Repr

/-- A team is saved, or it has finished and its scratchpad is saved with its gang, and it waits for no Read (R382). -/
def Team.readyBack (x : Team) : Bool :=
  x.waits.isEmpty && (match x.place with
    | .saved _ _ => true
    | _ => x.padSlot.isSome)

/-- The saved gangs of a grid that wait for no Read, in the order of their teams (R189, R382). -/
def State.savedGangs (s : State) (gr : Nat) : List (List Nat) :=
  let ready (t : Nat) : Bool := ((s.team t).map Team.readyBack).getD false
  let lin (t : Nat) : Nat := ((s.team t).map Team.lin).getD 0
  let ts := sortBy lin ((s.teamsOf gr).filter ready)
  ((ts.map s.gangOf).eraseDups).filter (fun g => g.all ready)

def State.want (s : State) (gr : Nat) (g : Grid) : Option Want :=
  match s.savedGangs gr with
  | ts :: _ => some (.resume ts)
  | [] => if g.next < g.teamCount then some .next else none

/-! ### Where a gang goes (R156, R192, R195) -/

/-- The preferred die (R195); `none` for the lowest die with room. In compact mode the previous team's die is that of the
gang newly placed last: a resumption or a thermal move does not change it (DESIGN CHOICE, log 50). -/
def State.preferred (s : State) (g : Grid) (lin : Nat) : Option Nat :=
  match bitsOf g.ctrl 18 2 with
  | 1 => g.lastDie
  | 2 => some (s.stackOf g.asid ((g.field 0xA8 8 + lin * 2 ^ bitsOf g.ctrl 12 6) % 2 ^ 57))
  | _ => some (lin / g.gangSize % 32)

/-- The dies in the order in which they are tried. -/
def dieOrder : Option Nat → List Nat
  | none => List.range 32
  | some d =>
    let rest := (List.range 31).map (fun i => (d + 1 + i) % 32)
    d :: (rest.filter (fun e => e / 4 == d / 4) ++ rest.filter (fun e => e / 4 != d / 4))

/-- What an early consumer must leave (R192): the producer's need, `min(U, F)`, and the cores its teams hold. -/
structure EarlyLimit where
  need : Room
  keep : Nat
  free : Nat
  cores : List Nat
  cap : Nat

def State.earlyLimit (s : State) (gr : Nat) (g : Grid) (out : List Nat) : Option EarlyLimit :=
  if !s.earlyState gr g then none
  else
    match s.producer gr g with
    | none => none
    | some (pr, p) =>
      let need := p.need 0
      let free := ((List.range 1024).map (fun c => s.capOf c need out)).foldl (· + ·) 0
      let away := ((s.teamsOf pr).filter (fun t => match (s.team t).map Team.place with
        | some (.saved _ _) => true
        | _ => false)).length
      let u := if p.status = 0 then p.teamCount - p.next + away else 0
      let mine := ((s.teamsOf gr).filterMap (fun t => match (s.team t).map Team.place with
        | some (.resident c) => some c
        | _ => none)).dedup
      some ⟨need, min u free, free, mine, g.shareCap⟩

/-- The limits of an early consumer allow teams of these needs on these cores. -/
def State.earlyFits (s : State) (e : Option EarlyLimit) (needs : List Room) (out cs : List Nat) : Bool :=
  match e with
  | none => true
  | some e =>
    let lost := (cs.zip needs).map (fun p =>
      let u := s.roomUsed p.1 out
      let v : Room := { u with spad := u.spad + p.2.spad, regs := u.regs + p.2.regs,
                               q := (u.q.zip p.2.q).map (fun p => p.1 + p.2), mtx := u.mtx + p.2.mtx, ctxs := u.ctxs + p.2.ctxs }
      s.capOf p.1 e.need out - (if s.coreOpen p.1 e.need then v.cap e.need else 0))
    (((e.cores ++ cs).dedup).length ≤ e.cap) && e.keep + lost.foldl (· + ·) 0 ≤ e.free

/-- Distinct cores for needs in order, each the first that fits and leaves room for the rest. -/
def assignCores (fits : Room → Nat → Bool) : List Room → List Nat → Option (List Nat)
  | [], _ => some []
  | r :: rs, cs =>
    if cs.length ≤ rs.length then none
    else cs.findSome? (fun c => if fits r c then (assignCores fits rs (cs.erase c)).map (c :: ·) else none)

/-- Distinct cores of one die with room for the teams of a gang: fewest resident groups first, lowest number on a tie. Of an
early gang the cores with fewest groups are taken, and the die is passed over where they break R192's limits (DESIGN
CHOICE, log 50). -/
def State.coresOn (s : State) (d : Nat) (needs : List Room) (e : Option EarlyLimit) (out : List Nat) : Option (List Nat) :=
  let us := (List.range 32).map (fun i => (32 * d + i, s.roomUsed (32 * d + i) out))
  let used (c : Nat) : Option Room := (us.find? (fun u => u.1 == c)).map (·.2)
  let fits (r : Room) (c : Nat) : Bool :=
    s.coreOpen c r && ((used c).map (fun u => decide (1 ≤ u.cap r))).getD false && s.earlyFits e [r] out [c]
  let cs := (sortBy (fun (u : Nat × Room) => u.2.n * 1024 + u.1) us).map (·.1)
  match assignCores fits needs (cs.filter (fun c => needs.any (fun r => fits r c))) with
  | some cs => if s.earlyFits e needs out cs then some cs else none
  | none => none

/-- The needs of the teams that a grid wants placed, their first TEAM_LIN, and the die of a thermal move. -/
def State.wantNeed (s : State) (g : Grid) : Want → List Room × Nat × Option Nat
  | .next => (List.replicate g.gangSize (g.need 0), g.next, none)
  | .resume ts =>
    let xs := ts.filterMap (fun t => (s.team t).map (fun x => (t, x)))
    (xs.map (fun x => s.teamNeed g x.1 x.2), ((xs.map (fun x => x.2.lin)).foldl min (2 ^ 33)), xs.head?.bind (fun x => x.2.dest))

/-- Cores for the gang that a grid wants placed, with the teams `out` gone. No team goes to make room on the die of a
thermal move (R199). -/
def State.pick (s : State) (gr : Nat) (g : Grid) (w : Want) (out : List Nat) : Option (List Nat) :=
  let (needs, lin, dest) := s.wantNeed g w
  let e := s.earlyLimit gr g out
  let dies := (dieOrder (dest.or (s.preferred g lin))).filter (fun d => out.isEmpty || dest != some d)
  dies.findSome? (fun d => s.coresOn d needs e out)

/-! ### Victims (R190, R193, R417) -/

/-- A matrix command of the core stalls on a block that a box with a pending fault owns (R347, R417). -/
def State.muBlocked (s : State) (c : Nat) : Bool :=
  (List.range 4).any (fun q => !(s.muq c q).isEmpty) && s.owns.any (fun o => o.held && o.core == c
    && (s.ctxsOf c).any (fun x => x.2.cmds.any (fun y => y.id == o.cmd && (y.fault.isSome || y.boxes.any (fun b => match b.state with
      | .faulted _ => true
      | _ => false)))))

/-- A free slot of a tile's save area (R420). -/
def Tile.freeSlots (t : Tile) : List Nat :=
  (List.range (ctxSlots t.ctxBase)).filter (fun k => mapGet 0 t.slots k == 0)

/-- A gang is available to be taken (R417): its running teams are resident, and the scratchpad of each that has finished
moves with them (R157, R214). The resident teams of a launch that has failed run to their end (R395). -/
def State.available (s : State) (ts : List Nat) : Bool :=
  let on (c : Nat) : Bool :=
    let tl := s.tile (c / 128)
    tl.ctxReady && ts.length ≤ tl.freeSlots.length && !s.muBlocked c
  let free (x : Team) : Bool := x.busy == 0 && ((s.gridOf x).map (fun g => g.status == 0 && !g.wantReplay)).getD false
  ts.any (fun t => ((s.team t).map Team.running).getD false) && ts.all (fun t => match s.team t with
    | some x => free x && (match x.place with
      | .resident c => on c
      | .finished | .retired => x.padSlot.isNone
      | _ => false)
    | none => false)

def State.levelOf (s : State) (t : Nat) : Nat := (((s.team t).bind s.gridOf).map Grid.level).getD 0
def State.placedAt (s : State) (t : Nat) : Nat := ((s.team t).map Team.placedAt).getD 0

/-- Every group of a team is finished or held by a weir wait (R193). -/
def State.allWait (s : State) (t : Nat) : Bool :=
  (s.teamGroups t).all (fun e => e.2.finished || (match e.2.hold with
    | .tbar _ _ | .wwait _ _ _ _ => true
    | _ => false))

/-- The gangs that a grid may take as victims, in their order (R190, R193). A gang of a consumer goes first as soon as one
of its teams is waiting, with the teams that do not wait (DESIGN CHOICE, log 50). -/
def State.victims (s : State) (gr : Nat) (g : Grid) : List (List Nat) :=
  let live := s.teams.filterMap (fun e => match e.2 with
    | some x => (match x.place with
      | .resident _ => some (e.1, x)
      | _ => none)
    | none => none)
  let waiting := live.filter (fun e => match s.grid e.2.grid with
    | some c => s.earlyState e.2.grid c && ((s.producer e.2.grid c).map (·.1)) == some gr && s.allWait e.1
    | none => false)
  let lower := if s.earlyState gr g then [] else live.filter (fun e => s.levelOf e.1 < g.level)
  let late (e : Nat × Team) : Nat := 2 ^ 64 - min (2 ^ 64) e.2.placeNo
  let order := sortBy late waiting ++ sortBy (fun e => s.levelOf e.1 * 2 ^ 65 + late e) lower
  ((order.map (fun e => s.gangOf e.1)).eraseDups).filter s.available

/-- Teams that are being saved. -/
def State.leaving (s : State) : List Nat :=
  s.teams.filterMap (fun e => match e.2 with
    | some x => if x.busy = 1 then some e.1 else none
    | none => none)

/-- The fewest victims in order that make room. -/
def State.victimsFor (s : State) (gr : Nat) (g : Grid) (w : Want) : List (List Nat) → List Nat → Bool
  | [], _ => false
  | v :: vs, out => (s.pick gr g w (out ++ v)).isSome || s.victimsFor gr g w vs (out ++ v)

/-- What the scheduler does next: place the next gang of a grid, resume a gang, or save a team for a grid. -/
inductive Plan_ where
  | place (gr : Nat) (cores : List Nat)
  | resume (gr : Nat) (ts cores : List Nat)
  | save (gr t : Nat)
  deriving DecidableEq, Repr

/-- One grid's turn (R189, R190, R193): `none` lets the next grid have its turn; `some none` waits for teams that are
leaving. -/
def State.turn (s : State) (gr : Nat) (g : Grid) : Option (Option Plan_) :=
  match s.want gr g with
  | none => none
  | some w =>
    match s.pick gr g w [] with
    | some cs => some (some (match w with
      | .next => .place gr cs
      | .resume ts => .resume gr ts cs))
    | none =>
      if !s.leaving.isEmpty && (s.pick gr g w s.leaving).isSome then some none
      else
        match s.victims gr g with
        | [] => none
        | v :: vs => if s.victimsFor gr g w (v :: vs) s.leaving then some ((v.head?).map (Plan_.save gr)) else none

def State.schedule (s : State) : Option Plan_ := (s.ranked.findSome? (fun e => s.turn e.1 e.2)).join

/-! ### Making a team resident -/

/-- 4 KiB pieces of a core's scratchpad that no team holds; which of them a team takes is not architectural (R196). -/
def State.freePieces (s : State) (c : Nat) : List Nat :=
  let used := (s.coreTeams c []).flatMap (fun e => e.2.1.pieces)
  (List.range 256).filter (fun p => !used.contains p)

def State.takePieces (s : State) (c n : Nat) : State × List Nat :=
  let free := s.freePieces c
  let (s, k) := s.choose (max 1 free.length)
  (s, (free.drop k ++ free.take k).take n)

/-- Rows of the register file held by groups of a core: group, first row, rows (R210). -/
def State.rowsHeld (s : State) (c : Nat) : List (Nat × Nat × Nat) :=
  (s.groups.filter (fun e => e.2.isCompute && e.2.home == c && !e.2.finished && e.2.rowBase < 6144)).map
    (fun e => (e.1, e.2.rowBase, e.2.regsN))

/-- Rows for a group: the lowest gap that is wide enough; where free rows lie scattered, held rows move down first. -/
def State.takeRows (s : State) (c n : Nat) : State × Nat :=
  let held := s.rowsHeld c
  let fits (b : Nat) : Bool := b + n ≤ 6144 && held.all (fun h => b + n ≤ h.2.1 || h.2.1 + h.2.2 ≤ b)
  match leastBy id ((0 :: held.map (fun h => h.2.1 + h.2.2)).filter fits) with
  | some b => (s.dropRows c b n, b)
  | none =>
    let (s, b) := (sortBy (fun h => h.2.1) held).foldl (fun (acc : State × Nat) h =>
      ((acc.1.dropRows c acc.2 h.2.2).modG h.1 (fun g => { g with rowBase := acc.2 }), acc.2 + h.2.2)) (s, 0)
    (s.dropRows c b n, b)

/-- The lowest issue slot of a quarter of a core that is free (R148). -/
def State.freeSlot (s : State) (c q : Nat) : Nat :=
  let used := (s.groups.filter (fun e => e.2.isCompute && e.2.home == c && e.2.quarter == q && !e.2.finished && e.2.rowBase < 6144)).map
    (fun e => e.2.slot)
  ((List.range 32).find? (fun i => !used.contains i)).getD 0

/-- An MTX team's matrix state at its placement: tiles and codebook +0, ACT and CBGEN 0 (R353, R365). -/
def State.freshMatrix (s : State) (c : Nat) : State :=
  let b := (s.coreSt c).bank
  { s with acc := mapDrop s.acc (accKey c b 0) 65536, codebook := mapDrop s.codebook (256 * c) 256,
           pois := s.pois.filter (fun e => !(e.1 % 4 == 2 && accBlk c b 0 ≤ e.1 && e.1 < accBlk c b 0 + 16384)),
           cbq := mapSet [] s.cbq c [] }.setCore c (fun x => { x with act := 0, cbgen := 0, cbPois := 0 })

/-- The weirs of a team's stage rings as declared (R154). -/
def State.setRings (s : State) (t : Team) (r : Nat) : State :=
  (recRings r).foldl (fun s d => (List.range d.2.1).foldl (fun s i =>
    let l := t.spad (d.1 + 16 * i)
    (s.wrLoc l 16 (Weir.toNat ⟨d.2.2.1, 0, d.2.2.2, 0, 0⟩)).plainWrite 32 l 16) s) s

/-- The registers of a group at its start (R150, R186). -/
def Grid.startRegs (g : Grid) (lin grp : Nat) : Regs :=
  let r := g.record
  let bit (src dst : Nat) : Nat := bitsOf g.ctrl src 1 * 2 ^ dst
  let m := bit 9 13 + bit 8 12 + bit 7 14 + bit 6 6
  let sp := recField r 0x20 8 + (lin * g.groupCount + grp + 1) * recField r 0x28 4
  let z := Regs.zero (BitVec.ofNat 32 m) (BitVec.ofNat 64 (recField r 0x10 8))
  let z := { z with fpctl := BitVec.ofNat 32 (recField r 0x2C 4) &&& 0xFFFFFFE0#32 }
  let z := (z.wrS 0 (BitVec.ofNat 64 (recField r 0x18 8)) false).wrS 2 (BitVec.ofNat 64 sp) false
  (List.range 8).foldl (fun z i => z.wrS (4 + i) (BitVec.ofNat 64 (recField r (0xC0 + 8 * i) 8)) false) z

/-- The role of group `k` of a team: index, descriptor, number within the role (R148). -/
def roleOf : List (Nat × Nat) → Nat → Option (Nat × Nat × Nat)
  | [], _ => none
  | (i, d) :: rs, k => if k < roleGroups d then some (i, d, k) else roleOf rs (k - roleGroups d)

/-- Group `k` of team `t` as it starts (R133, R150, R410, R453). -/
def Grid.startGroup (g : Grid) (t lin core k row slot : Nat) (role : Nat × Nat × Nat) : Group :=
  let (i, d, n) := role
  let b := Group.atReset .compute core 0 0
  let prot := bitsOf g.ctrl 9 1 == 1
  { b with team := t, grp := k, role := i, roleKind := roleKindOf d, roleGroup := n, regsN := roleRegs d, slot := slot,
           asid := g.asid, r := g.startRegs lin k, rowBase := row, view := g.view, hold := .handlerWord,
           pcv := (List.range 32).foldl (fun m l => mapSet 0 m l (BitVec.ofNat 32 (roleEntry d))) [],
           lsv := (List.range 32).map (fun l => (l, if prot && l % 2 == 1 then .shadow else .live)) }

/-- The handler word of a group is read, or asked for (R394). -/
def State.readHandler (s : State) (k : Nat) : State :=
  match s.handlerRead k with
  | (s, .ok w) => s.setHandler k w
  | (s, .error st) =>
    match s.getG k with
    | none => s
    | some g =>
      let va := (g.r.codeBase.toNat + 2 ^ 64 - 8) % 2 ^ 64
      let ky := tableKey g.asid (s.viewHolder g.asid va 8 g.view) va
      (s.modG k (fun g => { g with hold := .handlerWord })).addReq ky.1 ky.2 va .load 0 (.handler k) st

/-- The first team of a grid is placed: START, and the PIN windows take hold with their fade counters loaded (R188, R221). A
replay keeps START and the pins that stand. -/
def State.gridStarts (s : State) (gr : Nat) : State :=
  match s.grid gr with
  | none => s
  | some g =>
    if g.next != 0 then s
    else
      let new := s.newPins gr g
      let load (w : Window) : Window := if g.replays = 0 then { w with fade := w.fade0, lapsed := false } else w
      { s with pins := s.pins ++ new }.setGrid gr (fun g =>
        { g with start := if g.replays = 0 then s.tick else g.start, windows := g.windows.map load })

/-- Team `lin` of a grid is placed on a core (R147, R150). -/
def State.placeTeam (s : State) (gr : Nat) (g : Grid) (lin core : Nat) : State :=
  let (s, t) := s.fresh
  let (s, ps) := s.takePieces core g.scratchUnits
  let n := g.groupCount
  let tm : Team := { grid := gr, lin := lin, place := .resident core, nGroups := n, core := core,
                     scratch := 4096 * g.scratchUnits, pieces := ps, fold := [], mbox := 0, watch := [], forks := [],
                     held := [], children := [], mxstat := [], placedAt := s.tick, placeNo := t, padSlot := none, waits := [], imgs := [], dest := none, cbPois := 0,
                     busy := 0 }
  let s := { s with teams := mapSet none s.teams t (some tm) }.setRings tm g.record
  let s := if g.hasMtx then s.freshMatrix core else s
  let s := s.l1Drop core (fun _ => true)
  let s := (List.range n).foldl (fun s k =>
    match roleOf g.roles k with
    | none => s
    | some r =>
      let (s, row) := s.takeRows core (roleRegs r.2.1)
      (s.putG (gidOf t k) (g.startGroup t lin core k row (s.freeSlot core (k % 4)) r)).hbEdge (gridAgent gr) (gidOf t k)) s
  (List.range n).foldl (fun s k => s.readHandler (gidOf t k)) s

/-- The next gang of a grid is placed on its cores, all at once (R156). -/
def State.placeGang (s : State) (gr : Nat) (cores : List Nat) : State :=
  match s.grid gr with
  | none => s
  | some g =>
    let s := s.gridStarts gr
    let s := (((List.range cores.length).zip cores)).foldl (fun s c => s.placeTeam gr g (g.next + c.1) c.2) s
    s.setGrid gr (fun g => { g with next := g.next + cores.length, lastDie := (cores.head?).map (· / 32) })

/-- TEAM_PLACE (R189): the turn of grid `gr`: its next gang is placed, or a victim is taken for it. -/
def execTeamPlace (gr : Nat) (s : State) : Out :=
  let s := s.takeTag gr
  match s.schedule with
  | some (.place k cs) => .next (if k = gr then s.placeGang gr cs else s)
  | some (.save k t) => .next (if k = gr then s.due (.teamSave t) else s)
  | _ => .next s

/-! ### Dependences (R191, R194, R404) -/

/-- DEP_WEIR_OBSERVE (R191): the scheduler reads the dependence weir of a grid. -/
def execDepWeirObserve (gr : Nat) (s : State) : Out :=
  match s.grid gr with
  | none => .next s
  | some g =>
    let va := g.field 0x30 8
    if !g.hasDep || g.depPassed || g.done || g.status != 0 || s.completionWaits gr || tableBase < va + 16 then .next s
    else
      match s.homePlace (.completion gr) .load g.asid va 16 with
      | (s, none) => .next s
      | (s, some l) =>
        if s.locPois l 16 then
          if g.next != 0 then .next s
          else
            let s := s.writeRec (tileOfStack (s.stackOf g.asid va))
              { kind := 3, sev := 3, key := s.keyField g.asid 0, addr := va, tag := g.tag, code := 13 }
            .next ((s.decideGrid gr 3 0).due (.teamRetire 0))
        else if passed (s.rdWeir l).phase (g.field 0x38 4) then
          let s := s.setGrid gr (fun g => { g with depPassed := true })
          .next (s.hbAcquire (gridAgent gr) (l.words 16) 5)
        else .next s

/-! ### Thermal moves (R199) -/

/-- A temperature in 1/8 degree as a signed number. -/
def tempOf (x : Nat) : Int := signedOf 16 x

def State.dieTemp (s : State) (d : Nat) : Int := tempOf ((s.tile (d / 4)).sensor (d % 4))
def State.thermAt (s : State) (d i : Nat) : Int := tempOf (bitsOf (s.tile (d / 4)).therm.toNat (16 * i) 16)

/-- The coolest other die with room for a resident gang, be it hotter than die `d` (DESIGN CHOICE, log 50). -/
def State.coolDie (s : State) (d : Nat) (ts : List Nat) : Option Nat :=
  match ts.head?.bind s.team with
  | none => none
  | some x =>
    match s.grid x.grid with
    | none => none
    | some g =>
      let needs := (s.wantNeed g (.resume ts)).1
      let ok := (List.range 32).filter (fun e => e != d && (s.coresOn e needs none []).isSome)
      leastBy (fun e => (s.dieTemp e + 32768).toNat) ok

/-- THERMAL_MIGRATION (R199): die `d` has passed MIGRATE, which a temperature equal to it has (DESIGN CHOICE, log 50); the gang
of the lowest level that has been resident for 250,000 ticks leaves for the coolest die with room. -/
def execThermalMigration (d : Nat) (s : State) : Out :=
  if s.dieTemp d < s.thermAt d 0 then .next s
  else
    let here := s.teams.filterMap (fun e => match e.2 with
      | some x => (match x.place with
        | .resident c => if c / 32 = d then some e.1 else none
        | _ => none)
      | none => none)
    let old (ts : List Nat) : Bool := ts.all (fun t => s.placedAt t + 250000 ≤ s.tick)
    let gangs := ((sortBy s.levelOf here).map s.gangOf).eraseDups
    match gangs.find? (fun ts => old ts && s.available ts && (s.coolDie d ts).isSome) with
    | none => .next s
    | some ts =>
      let e := s.coolDie d ts
      .next ((ts.foldl (fun s t => s.setTeam t (fun x => { x with dest := e })) s).due (.teamSave (ts.headD 0)))

/-! ### Replay (R408, R455) -/

/-- One team of an attempt stops as a failed team does (R455). -/
def State.stopTeam (s : State) (t : Nat) : State :=
  let gs := s.descendants 11 [t]
  let st (s : State) (t : Nat) : State := s.failOne t 3
  let s := gs.foldl (fun s k => (s.teamsOf k).foldl st (s.decideGrid k 3 0)) s
  match s.team t with
  | none => s
  | some x =>
    let was := ((s.grid x.grid).map (fun g => (g.status, g.reason))).getD (0, 0)
    (st s t).setGrid x.grid (fun g => { g with status := was.1, reason := was.2 })

/-- A grid as it starts again from record `r` (R455). -/
def Grid.again (g : Grid) (r : Nat) (ceil : Option Nat) : Grid :=
  let level := match ceil with
    | some c => min (bitsOf (recField r 0 4) 22 6) c
    | none => g.level
  let n := Grid.new r g.queue g.parent g.asid g.polder level g.depth g.maint
  { n with accepted := g.accepted, replays := g.replays + 1, lossReplays := g.lossReplays, replayed := true, lastErr := g.lastErr, start := g.start }

/-- The record read for a replay is checked and runs (R187, R455). Its window table is the one that the device read when it
accepted the record, unless the record now names another (R216). -/
def State.runAgain (s : State) (gr : Nat) (g : Grid) (r : Nat) (ceil : Option Nat) (unread : Bool) : State :=
  let n := g.again r ceil
  match if unread then some 14 else recordReason r with
  | some c => (s.setGrid gr (fun _ => n)).malformed gr c
  | none =>
    if recField r 0xB8 8 = g.field 0xB8 8 ∧ n.isReplay = g.isReplay then
      (s.setGrid gr (fun _ => n)).tableDone gr g.windows
    else
      let keep (p : Pin) : Bool := match p.by_ with
        | .window k _ => k != gr
        | _ => true
      ({ s with pins := s.pins.filter keep }.setGrid gr (fun _ => { n with tableDue := true })).tableStep gr

def State.replayWaits (s : State) (gr : Nat) : Bool := s.reqs.any (fun r => r.who == .replay gr)

/-- The ceiling of a queue (R189). -/
def State.queueCeiling (s : State) (p q : Nat) : Nat := bitsOf ((s.polder p).queue q).ctl.toNat 6 6

/-- The pager answered the read of a replay's entry with DELIVER or FAIL: the record is not readable (R187, R393). -/
def State.replayRefused (s : State) (gr : Nat) : State :=
  match s.grid gr with
  | none => s
  | some g =>
    if !g.wantReplay || g.done || g.status != 0 then s
    else s.runAgain gr g 0 (g.queue.map (fun e => s.queueCeiling e.1 e.2.1)) true

/-- REPLAY_RESTART (R455): the attempt stops, its view is discarded, and the queue's entry is read again. A child's entry
is the record that its launch copied. -/
def execReplayRestart (gr : Nat) (s : State) : Out :=
  match s.grid gr with
  | none => .next s
  | some g =>
    if !g.wantReplay || g.done || g.status != 0 || s.completionWaits gr || s.replayWaits gr then .next s
    else
      let s := (s.teamsOf gr).foldl (fun s t => if ((s.team t).map Team.running).getD false then s.stopTeam t else s) s
      let s := (s.teamsOf gr).foldl (fun s t => (s.failedDrains t).freePad t) s
      if (s.teamsOf gr).any (fun t => !(s.teamGroups t).isEmpty) || !s.childless gr then .next s
      else
        let s := { s with teams := s.teams.filter (fun e => (e.2.map Team.grid) != some gr) }
        let s := if g.view = 0 then s else (s.discardView g.asid g.view).setGrid gr (fun x => { x with view := 0 })
        match g.queue with
        | none => .next (s.runAgain gr g g.record none false)
        | some (p, q, i) =>
          let qu := (s.polder p).queue q
          let va := qu.base.toNat + 256 * (i % 2 ^ bitsOf qu.ctl.toNat 1 5)
          let ceil := s.queueCeiling p q
          if tableBase < va + 256 then .next (s.runAgain gr g 0 (some ceil) true)
          else
            match s.readRecord64 (cpCommitter (.replay gr) (gridAgent gr)) g.asid va 4 with
            | (s, none) => .next s
            | (s, some xs) => .next (s.runAgain gr g (joinParts xs) (some ceil) (xs.any (fun x => x.2)))

end Sys2Proof.Machine
end

