-- ==== Sys2Proof/Machine/Preempt.lean ====
section
/-! DEFINITION. Saving and resuming teams, save areas, bank switches and gang map changes (R157, R164, R417 to R431). -/

namespace Sys2Proof.Machine

/-! ### Slots (R421, R422) -/

/-- Address of slot `k` of a tile's area. -/
def Tile.slotVa (t : Tile) (k : Nat) : Nat := ctxAreaBase t.ctxBase + 2 ^ 21 * k

def partLayout (elem trav swz tr tc ntr ntc base : Nat) : Layout :=
  { ty := 2, elem := elem, flags := 0, nrows := 0, base := base, rowoff := 0, pitch := 0, boxR := 1, boxC := 1, pad := 0,
    trav := trav, inner := 0, swz := swz, tr := tr, tc := tc, ntr := ntr, ntc := ntc }

def spadPart (slot units : Nat) : Layout := partLayout 4 0 1 16 16 units 1 (slot + 0x40000)
def regPart (slot : Nat) : Layout := partLayout 2 1 0 128 32 1 32 (slot + 0x140000)
def accPart (slot : Nat) : Layout := partLayout 2 0 2 32 32 4 16 (slot + 0x1C0000)

/-- Place of an element of a part. -/
def Layout.at_ (l : Layout) (r c : Nat) : Loc := .home 0 0 ((l.addr none r c).getD 0)

def State.moveBytes (s : State) (dst src : Loc) (n : Nat) : State := s.wrBytesFrom dst 0 (s.rdBytes src n)

/-- Elements of the scratchpad part: row, column, offset in the allotment. -/
def spadElems (units : Nat) : List (Nat × Nat × Nat) :=
  (List.range (256 * units)).map (fun e => (e / 16, e % 16, 16 * e))

/-- Elements of the accumulator part: row, column, offset in the accumulator file (R353). -/
def accElems : List (Nat × Nat × Nat) :=
  (List.range 65536).map (fun e =>
    let q := e / 16384
    let t := e % 16384 / 1024
    let m := e % 1024 / 32
    let n := e % 32
    (32 * q + m, 32 * t + n, 4 * e))

/-- The scratchpad of a team goes to its slot, its poison block for block (R422). -/
def State.saveSpad (s : State) (x : Team) (slot : Nat) : State :=
  let l := spadPart slot (x.scratch / 4096)
  let s := (spadElems (x.scratch / 4096)).foldl (fun s e => s.moveBytes (l.at_ e.1 e.2.1) (x.spad e.2.2) 16) s
  (List.range (x.scratch / 64)).foldl (fun s i =>
    s.setPois (homeBlk 0 0 (slot + 0x40000 + 64 * i)) (s.locPois (x.spad (64 * i)) 1)) s

def State.loadSpad (s : State) (x : Team) (slot : Nat) : State :=
  let l := spadPart slot (x.scratch / 4096)
  let s := (spadElems (x.scratch / 4096)).foldl (fun s e => s.moveBytes (x.spad e.2.2) (l.at_ e.1 e.2.1) 16) s
  (List.range (x.scratch / 64)).foldl (fun s i =>
    match (x.spad (64 * i)).pblk 0 with
    | none => s
    | some b => s.setPois b (s.isPois (homeBlk 0 0 (slot + 0x40000 + 64 * i)))) s

/-- The lane registers of group `k` of a team; those above its allotment are saved as 0. -/
def State.saveRegs (s : State) (g : Group) (slot : Nat) : State :=
  let l := regPart slot
  (List.range 4096).foldl (fun s i =>
    let r := i / 32
    s.wrLoc (l.at_ r (32 * g.grp + i % 32)) 4 (if r < g.regsN then (g.r.rdV r (i % 32)).toNat else 0)) s

def State.loadRegs (s : State) (k : Nat) (g : Group) (slot : Nat) : State :=
  let l := regPart slot
  let v := (List.range (32 * g.regsN)).foldl (fun m i =>
    mapSet 0 m i (BitVec.ofNat 32 (s.rdLoc (l.at_ (i / 32) (32 * g.grp + i % 32)) 4))) []
  s.modG k (fun g => { g with r := { g.r with v := v } })

/-- The tiles of the shadow bank drain into a slot (R419, R422). -/
def State.saveAcc (s : State) (core bank slot : Nat) : State :=
  let l := accPart slot
  let s := accElems.foldl (fun s e => s.moveBytes (l.at_ e.1 e.2.1) (.acc core bank e.2.2) 4) s
  (List.range 4096).foldl (fun s i =>
    s.setPois (homeBlk 0 0 (slot + 0x1C0000 + 64 * i)) (s.isPois (accBlk core bank (64 * i)))) s

def State.loadAcc (s : State) (core bank slot : Nat) : State :=
  let l := accPart slot
  let s := accElems.foldl (fun s e => s.moveBytes (.acc core bank e.2.2) (l.at_ e.1 e.2.1) 4) s
  (List.range 4096).foldl (fun s i =>
    s.setPois (accBlk core bank (64 * i)) (s.isPois (homeBlk 0 0 (slot + 0x1C0000 + 64 * i)))) s

/-! ### Records (R423, R424) -/

/-- Writes the fields (offset, bytes, value) of a record. -/
def State.putFields (s : State) (base : Nat) (fs : List (Nat × Nat × Nat)) : State :=
  fs.foldl (fun s f => if f.2.2 = 0 then s else s.stb 0 0 (base + f.1) f.2.1 f.2.2) s

def bit (b : Bool) (n : Nat) : Nat := if b then 2 ^ n else 0

/-- A clock as 32 words (R423). -/
def clockNat (m : Map Nat) : Nat := (List.range 32).foldl (fun a j => a + mapGet 0 m j % 2 ^ 32 * 2 ^ (32 * j)) 0

def natClock (x : Nat) : Map Nat := (List.range 32).foldl (fun m j => mapSet 0 m j (bitsOf x (32 * j) 32)) []

/-- LSV codes (R21) and block state of a lane as saved (R424). -/
def blkNat (b : Blk) : Nat := b.pat.toNat + b.left % 16 * 2 ^ 8 + bit b.mask 12

def lanesNat (w : Nat) (f : Nat → Nat) : Nat := (List.range 32).foldl (fun a l => a + f l * 2 ^ (w * l)) 0

/-- The fields of a group record (R424, R434). -/
def Group.fields (g : Group) (cyc : Nat) : List (Nat × Nat × Nat) :=
  let r := g.r
  let lanes (pcv : Map Word) (lsv : Map LaneState) (blk : Map Blk) (o p q : Nat) : List (Nat × Nat × Nat) :=
    [(o, 128, lanesNat 32 (fun l => (mapGet 0 pcv l).toNat)), (p, 32, lanesNat 8 (fun l => (mapGet .exited lsv l).code)),
     (q, 64, lanesNat 16 (fun l => blkNat (mapGet Blk.none blk l)))]
  let tb := match g.hold with
    | .tbar o ph => (1, o, ph.toNat)
    | _ => (0, 0, 0)
  let misc := g.btc % 64 + bit g.foldE 6 + bit g.handler.isSome 7 + bit g.stepArmed 8 + tb.1 * 2 ^ 9 + g.quantum % 128 * 2 ^ 10
  let world := match g.world with
    | some (h, i) => g.view + 2 ^ 6 + h * 2 ^ 7 + i * 2 ^ 10
    | none => g.view
  [(0, 1024, (List.range 128).foldl (fun a n => a + (r.rdS n).toNat * 2 ^ (64 * n)) 0),
   (0x400, 64, (List.range 8).foldl (fun a n => a + (r.rdK n).toNat * 2 ^ (64 * n)) 0),
   (0x440, 4, r.mstat.toNat), (0x444, 4, r.fpctl.toNat), (0x448, 4, g.opcnt.toNat), (0x44C, 4, misc),
   (0x450, 8, r.codeBase.toNat), (0x458, 4, (g.handler.getD 0).toNat), (0x45C, 4, g.qmask.toNat), (0x460, 8, cyc),
   (0x468, 8, g.epa.getD 0), (0x470, 8, g.ltabBase.toNat), (0x478, 4, g.ltabCount), (0x47C, 4, tb.2.2), (0x480, 8, tb.2.1),
   (0x488, 4, r.trapCause.toNat), (0x48C, 4, g.hlanes.toNat), (0x490, 8, r.info0.toNat), (0x498, 8, r.info1.toNat),
   (0x4A0, 8, r.info2.toNat), (0x4A8, 8, r.info3.toNat),
   (0x4B0, 28, (List.range 7).foldl (fun a n => a + (r.rdP n).toNat * 2 ^ (32 * n)) 0),
   (0x4CC, 4, g.rowBase % 2 ^ 13), (0x4D0, 4, g.haltPend.toNat)]
  ++ lanes g.pcv g.lsv g.blk 0x500 0x580 0x5A0
  ++ (match g.save with
      | some sv => lanes sv.pcv sv.lsv sv.blk 0x600 0x680 0x6A0
      | none => [])
  ++ [(0x700, 128, lanesNat 32 (fun l => mapGet 0 g.lastIssue l % 2 ^ 32)), (0x780, 128, lanesNat 32 (fun l => mapGet 0 g.lseq l)),
      (0x800, 512, (List.range 128).foldl (fun a n => a + (r.poisV n).toNat * 2 ^ (32 * n)) 0),
      (0xA00, 16, (List.range 128).foldl (fun a n => a + bit (r.poisS n) n) 0),
      (0xA10, 28, (List.range 7).foldl (fun a n => a + (r.poisP n).toNat * 2 ^ (32 * n)) 0),
      (0xA2C, 1, (List.range 8).foldl (fun a n => a + bit (r.poisK n) n) 0), (0xA30, 4, world)]

/-- Held reduction faults of a team, group by group. -/
def State.teamFaults (s : State) (t : Nat) : List (Nat × RFault) :=
  (s.teamGroups t).flatMap (fun e => e.2.faults.map (fun f => (e.2.grp, f)))

/-- The fields of a team record (R423), but STATE and CHECK. -/
def State.teamFields (s : State) (t : Nat) (x : Team) (core epoch : Nat) (clock : Map Nat) : List (Nat × Nat × Nat) :=
  let g := s.grid x.grid
  let mtx := (g.map Grid.hasMtx).getD false && x.running
  let cs := s.coreSt core
  let ctxs := ((s.ctxsOf core).filter (fun c => c.2.team == t)).length
  let mx := (List.range 4).foldl (fun m q => m ||| mapGet 0 x.mxstat q) 0#3
  let mxstat := if mtx then cs.cbgen % 65536 + cs.act % 2 * 2 ^ 16 + mx.toNat * 2 ^ 24 else 0
  let cb := (List.range 256).foldl (fun a e => a + (mapGet 0 s.codebook (256 * core + e)).toNat * 2 ^ (16 * e)) 0
  let slot (i : Nat) : Nat := match mapGet none x.fold i with
    | some f => f.val.toNat + (f.op % 16 + bit f.tag 4 + 32) * 2 ^ 64
    | none => 0
  let rf := (s.teamFaults t).take 32
  let fault (f : Nat × RFault) : Nat := f.1 + f.2.addr.toNat * 2 ^ 64 + (f.2.cause + f.2.detail * 2 ^ 8) * 2 ^ 128 + f.2.key.toNat * 2 ^ 192
  [(4, 4, x.lin), (8, 8, x.grid),
   (0x10, 4, x.nGroups % 64 + x.scratch / 4096 * 2 ^ 6 + bit mtx 15 + ctxs * 2 ^ 16 + x.lin % ((g.map Grid.gangSize).getD 1) * 2 ^ 21),
   (0x14, 4, core / 32 + core * 2 ^ 5), (0x18, 4, epoch), (0x20, 128, clockNat clock), (0xA0, 256, cs.sig), (0x1A0, 8, x.mbox.toNat),
   (0x1A8, 32, (List.range 4).foldl (fun a i => a + (mapGet 0 x.watch i).toNat * 2 ^ (64 * i)) 0), (0x1C8, 4, mxstat),
   (0x1CC, 4, rf.length), (0x1D0, 512, if mtx then cb else 0)]
  ++ (List.range 32).map (fun i => (0x400 + 16 * i, 16, slot i))
  ++ ((List.range rf.length).zip rf).map (fun f => (0x600 + 32 * f.1, 32, fault f.2))

/-- CHECK of a slot: the CRC-32 of its bytes `0x20` to `0x3FFFF` (R423). -/
def State.slotCheck (s : State) (slot : Nat) : Nat := crc32 (mapGetBytes s.mem (memKey 0 0 (slot + 0x20)) 0x3FFE0)

def State.setSlotState (s : State) (slot x : Nat) : State := s.stb 0 0 slot 4 (x + 256)

/-! ### Saving (R418) -/

/-- Steps 1 and 2: every group stops between two issues, its cofferdams are breached, and it makes a flush point. -/
def State.saveStart (s : State) (t : Nat) : State :=
  let gs := (s.teamGroups t).map (·.1)
  let s := gs.foldl (fun s k => ((s.modG k Group.abandon).leaveQueue k).flushFar k) s
  (s.breachDams (fun d => gs.contains d.grp)).setTeam t (fun x => { x with busy := 1 })

/-- Steps 3 and 4: loads and matrix commands have completed, and an earlier bank switch has drained (R419). -/
def State.saveReady (s : State) (t : Nat) : Bool :=
  match s.team t with
  | none => true
  | some x =>
    (s.teamGroups t).all (fun e => e.2.ldcnt == 0 && e.2.mxcnt == 0)
      && !(((s.gridOf x).map Grid.hasMtx).getD false && x.running && (s.coreSt x.core).draining)

/-- A context pauses at a piece boundary and gives up the blocks it has not written (step 5). -/
def CopyCtx.pause (c : CopyCtx) (owns : List Own) : CopyCtx :=
  let box (b : CopyBox) : CopyBox := match b.state with
    | .waiting | .running => { b with state := .fresh }
    | _ => b
  let kept (q : CopyCmd) : List (Nat × Nat × Bool) := q.before.filter (fun y => !owns.any (fun o => o.cmd == q.id && o.blk == y.1))
  let cmd (q : CopyCmd) : CopyCmd := { q with boxes := q.boxes.map box, before := kept q }
  { c with cmds := c.cmds.map cmd }

/-- The agent that stands for a team while it is away, in the race detector. -/
def awayAgent (t : Nat) : Nat := 2 ^ 59 + t

/-- The copy contexts of a team leave the core, in the order of their numbers. -/
def State.pauseCtxs (s : State) (t core : Nat) : State :=
  let mine := (s.ctxsOf core).filter (fun c => c.2.team == t)
  let ids := mine.flatMap (fun c => c.2.cmds.map CopyCmd.id)
  let imgs := mine.map (fun c => c.2.pause (s.owns.filter (fun o => o.core == core)))
  let s := s.disown (fun o => o.core == core && ids.contains o.cmd)
  let s := { s with reqs := s.reqs.filter (fun r => match r.who with
    | .copy k x _ _ _ => !(k == core && mine.any (fun c => c.1 == x))
    | _ => true) }
  let s := mine.foldl (fun s c => (s.hbEdge (copyAgent core c.1) (awayAgent t)).setCtx core c.1 none) s
  let num (o : Option Nat) : Option Nat := o.bind (fun x => indexOf (fun (c : Nat × CopyCtx) => c.1 == x) mine)
  let s := (s.teamGroups t).foldl (fun s e => s.modG e.1 (fun g => { g with plans := g.plans.map (fun p => (p.1, num p.2)) })) s
  s.setTeam t (fun x => { x with imgs := imgs })

/-- A group's record and registers go to the slot (step 8); its lanes' requests are dropped, for they issue again. -/
def State.saveGroup (s : State) (slot k : Nat) : State :=
  match s.getG k with
  | none => s
  | some g =>
    let cyc := (s.coreSt g.home).cyc + g.cycOff
    let s := (s.putFields (slot + 0x20000 + 0x1000 * g.grp) (g.fields cyc)).saveRegs g slot
    let s := { s with reqs := s.reqs.filter (fun r => match r.who with
      | .lanes j _ => j != k
      | _ => true) }
    ((s.giveRows k).hbEdge k (awayAgent g.team)).modG k (fun g => { g with cycOff := cyc, rowBase := 6144, pkt := none })

/-- Steps 5 to 8 of R418: the team's context is written to slot `k` of its tile, and its core is free. Of a team that has
finished, whose scratchpad its gang keeps, the record and the scratchpad are (R157, R214). -/
def State.saveTeam (s : State) (t : Nat) : State :=
  match s.team t with
  | none => s
  | some x =>
    let core := x.core
    let tile := core / 128
    match (s.tile tile).freeSlots with
    | [] => s
    | k :: _ =>
      let slot := (s.tile tile).slotVa k
      let epoch := (s.die (core / 32)).epoch
      let clock := s.dieClock (core / 32)
      let s := (s.teamFaults t).drop 32 |>.foldl (fun s f => s.recordRFault (gidOf t f.1) f.2) s
      let s := { s with mem := mapDrop s.mem (memKey 0 0 slot) 0x40000,
                        pois := s.pois.filter (fun e => !(e.1 % 4 == 0 && inRange e.1 (homeBlk 0 0 slot) (2 ^ 14))) }
      let s := s.putFields slot (s.teamFields t x core epoch clock)
      let s := (s.pauseCtxs t core).bumpEpoch (core / 32)
      let mtx := ((s.gridOf x).map Grid.hasMtx).getD false && x.running
      let b := (s.coreSt core).bank
      let pb := (s.coreSt core).cbPois
      let s := if mtx then (s.setCore core (fun c => { c with bank := 1 - b, draining := true })).saveAcc core b slot else s
      let s := (s.saveSpad x slot)
      let s := ((s.teamGroups t).map (·.1)).foldl (fun s j => s.saveGroup slot j) s
      let s := (s.stb 0 0 (slot + 0x1C) 4 (s.slotCheck slot)).setSlotState slot 1
      let s := s.setTile tile (fun y => { y with slots := mapSet 0 y.slots k t })
      s.setTeam t (fun y =>
        let z : Team := { y with pieces := [], busy := 0, cbPois := if mtx then pb else 0 }
        if y.running then { z with place := .saved tile k } else { z with padSlot := some (tile, k) })

/-- TEAM_SAVE (R417, R418): the gang of team `t` stops, and is saved once nothing of it is outstanding that R418 waits
for. -/
def execTeamSave (t : Nat) (s : State) : Out :=
  match s.team t with
  | none => .next s
  | some x =>
    let ts := s.gangOf t
    if x.busy = 0 then .next (if s.available ts then ts.foldl State.saveStart s else s)
    else if x.busy != 1 then .next s
    else if ((s.gridOf x).map (fun g => g.status != 0 || g.wantReplay)).getD false then
      .next (ts.foldl (fun s u => s.setTeam u (fun y => { y with busy := 0 })) s)
    else .next (if ts.all s.saveReady then ts.foldl State.saveTeam s else s)

/-- SHADOW_BANK_DRAIN_DONE (R419). -/
def execShadowBankDrainDone (c : Nat) (s : State) : Out :=
  .next (s.setCore c (fun x => { x with draining := false }))

/-! ### Resuming (R426 to R430) -/

/-- The slot of a saved team. -/
def State.slotOf (s : State) (t : Nat) : Option (Nat × Nat × Nat) :=
  (s.team t).bind (fun x => match x.place with
    | .saved tl k => some (tl, k, (s.tile tl).slotVa k)
    | _ => x.padSlot.map (fun p => (p.1, p.2, (s.tile p.1).slotVa p.2)))

/-- A context that cannot be restored (R430). -/
def State.slotBad (s : State) (t : Nat) : Bool :=
  match s.slotOf t with
  | none => true
  | some (_, _, slot) => s.ld 0 0 slot 4 % 256 != 1 || s.ld 0 0 (slot + 0x1C) 4 != s.slotCheck slot

/-- A poisoned context is never resumed: the launch is replayed, or the team fails (R408, R430). Its resource is taken to
be the core that saved it. -/
def State.poisonContext (s : State) (t : Nat) : State :=
  match s.team t, s.slotOf t with
  | some x, some (tl, k, slot) =>
    let rp := s.replayFlags (gidOf t 0) 13 x.core
    let s := s.setSlotState slot 2
    let s := s.writeRec (x.core / 128) { s.recOf (gidOf t 0) 9 3 with res := x.core, flags := (rp.map (·.2)).getD 0 }
    match rp with
    | some (gr, _) => s.callReplay gr 13 x.core
    | none => (s.failTeam t).setTile tl (fun y => { y with slots := mapSet 0 y.slots k 0 })
  | _, _ => s

/-- A group stands on its new core, its lane registers as the slot holds them (R428, R429). -/
def State.placeGroup (s : State) (core slot k : Nat) : State :=
  match s.getG k with
  | none => s
  | some g =>
    let (s, row) := s.takeRows core g.regsN
    let off := g.cycOff - (s.coreSt core).cyc
    let sl := s.freeSlot core g.quarter
    (s.modG k (fun g => { g with home := core, slot := sl, rowBase := row, cycOff := off, lastCyc := 0, owed := [] })).loadRegs k g slot

/-- Step 1 of R427: the parts are read into core `core`. -/
def State.restoreTeam (s : State) (t core : Nat) : State :=
  match s.team t, s.slotOf t with
  | some x, some (tl, k, slot) =>
    let s := s.setSlotState slot 3
    let (s, ps) := s.takePieces core (x.scratch / 4096)
    let y : Team := { x with core := core, pieces := ps }
    let home : TeamPlace := if x.running then .resident core else x.place
    let s := s.setTeam t (fun z =>
      { z with core := core, pieces := ps, place := home, padSlot := none, busy := 2, dest := some (2 ^ 16 * tl + k) })
    let s := s.loadSpad y slot
    let s :=
      if ((s.gridOf x).map Grid.hasMtx).getD false && x.running then
        let m := s.ld 0 0 (slot + 0x1C8) 4
        let s := s.loadAcc core (s.coreSt core).bank slot
        let cb := (List.range 256).foldl (fun c e => mapSet 0 c (256 * core + e) (BitVec.ofNat 16 (s.ld 0 0 (slot + 0x1D0 + 2 * e) 2))) s.codebook
        { s with codebook := cb, cbq := mapSet [] s.cbq core [] }.setCore core (fun c =>
          { c with cbgen := m % 65536, act := bitsOf m 16 1, cbPois := x.cbPois })
      else s
    ((s.teamGroups t).map (·.1)).foldl (fun s j => s.placeGroup core slot j) s
  | _, _ => s

/-- A box with a pending fault owns its destination blocks again (R275, R427). -/
def State.reownFaulted (s : State) (core x : Nat) (c : CopyCtx) (q : CopyCmd) (i : Nat) : State :=
  match q.box i with
  | some b =>
    match b.state with
    | .faulted f =>
      let free (y : CopyBox) : CopyBox := { y with state := .fresh }
      let s := s.modBox core x (64 * q.id + i) free
      let e := engOf core x c q
      let q' : CopyCmd := { q with boxes := modNth free q.boxes i }
      ((s.requestBox e x q' i).1).modBox core x (64 * q.id + i) (fun y => { y with state := .faulted f })
    | _ => s
  | none => s

/-- Step 3 of R427: the copy contexts restart on free contexts of the core. -/
def State.resumeCtxs (s : State) (t core : Nat) : State :=
  match s.team t with
  | none => s
  | some x =>
    let slots := s.freeCtx core
    let pairs := slots.zip x.imgs
    let s := pairs.foldl (fun s p => ((s.setCtx core p.1 (some p.2)).hbFresh (copyAgent core p.1)).hbEdge (awayAgent t) (copyAgent core p.1)) s
    let num (o : Option Nat) : Option Nat := o.bind (fun i => slots[i]?)
    let s := (s.teamGroups t).foldl (fun s e => s.modG e.1 (fun g => { g with plans := g.plans.map (fun p => (p.1, num p.2)) })) s
    let s := pairs.foldl (fun s p => p.2.cmds.foldl (fun s q =>
      (List.range q.boxes.length).foldl (fun s i => s.reownFaulted core p.1 p.2 q i) s) s) s
    s.setTeam t (fun x => { x with imgs := [] })

/-- A group of a resumed team at its first issue (R428). -/
def State.wakeGroup (s : State) (k : Nat) : State :=
  let up (g : Group) : Group := (List.range 32).foldl (fun g l => if g.laneAt l = .parked then g.putLane l .live else g) g
  (((s.modG k up).modG k (fun g => { g with stcnt := 0 })).settleHalts k).hbEdge (awayAgent (((s.getG k).map Group.team).getD 0)) k

/-- The slot that a restoring team still holds: tile and number. -/
def Team.restoring (x : Team) : Nat × Nat := (x.dest.getD 0 / 2 ^ 16, x.dest.getD 0 % 2 ^ 16)

/-- The saved clock is covered on the new die (step 2 of R427). -/
def State.resumeReady (s : State) (t : Nat) : Bool :=
  match s.team t with
  | none => true
  | some x => s.allCovered (x.core / 32) (natClock (s.ld 0 0 ((s.tile x.restoring.1).slotVa x.restoring.2 + 0x20) 128))

/-- Steps 2 to 4 of R427: the acquire is made, the copies restart, the slot is freed and issue begins. -/
def State.resumeTeam (s : State) (t : Nat) : State :=
  match s.team t with
  | none => s
  | some x =>
    let (tl, k) := x.restoring
    let slot := (s.tile tl).slotVa k
    let s := s.mergeClock x.core (x.core / 32) (natClock (s.ld 0 0 (slot + 0x20) 128)) (some (s.ld 0 0 (slot + 0xA0) 256))
    let s := (s.resumeCtxs t x.core).stb 0 0 slot 4 256
    let s := s.setTile tl (fun y => { y with slots := mapSet 0 y.slots k 0 })
    let s := ((s.teamGroups t).map (·.1)).foldl State.wakeGroup s
    let (s, n) := s.fresh
    s.setTeam t (fun x => { x with busy := 0, dest := none, placedAt := s.tick, placeNo := n })

/-- TEAM_RESUME (R427): the gang of team `t` is read back on the cores that the scheduler gives it, and issues once its
acquire has been made. -/
def execTeamResume (t : Nat) (s : State) : Out :=
  match s.team t with
  | none => .next s
  | some x =>
    if x.busy = 2 then
      let ts := (s.gangOf t).filter (fun u => ((s.team u).map (fun y => y.busy == 2)).getD false)
      .next (if ts.all s.resumeReady then ts.foldl State.resumeTeam s else s)
    else
      match s.schedule with
      | some (.resume _ ts cores) =>
        if !ts.contains t then .next s
        else
          match ts.find? s.slotBad with
          | some u => .next (s.poisonContext u)
          | none => .next ((ts.zip cores).foldl (fun s p => s.restoreTeam p.1 p.2) s)
      | _ => .next s

/-! ### Save areas and gangs (R157, R420, R431) -/

/-- CTX_BASE_WRITE (R420). -/
def execCtxBaseWrite (t : Nat) (v : BitVec 64) (s : State) : Out := .next (s.ctxBaseWrite t v)

/-- A region of an area is resident, and its leaves are KIND 0 with W = 1. -/
def State.regionReady (s : State) (rg : Nat) : Bool :=
  let va := rg * 2 ^ 16
  match s.findFrame (s.stackOf 0 va) 0 0 va with
  | none => false
  | some f =>
    let e := s.frame (frameKey (s.stackOf 0 va) f)
    e.state == 1 && e.sub == 0xFFFF#16 && (List.range 16).all (fun i =>
      let w := s.walkRaw 0 (va + 4096 * i)
      w.kind == .leaf && entKind w.entry == 0 && leafW w.entry)

/-- CTX_AREA_READY (R420): every region of the area is resident and pinned. -/
def execCtxAreaReady (t : Nat) (s : State) : Out :=
  let tl := s.tile t
  let first := ctxAreaBase tl.ctxBase / 2 ^ 16
  let n := 32 * ctxSlots tl.ctxBase
  let pinned := s.pins.any (fun p => p.by_ == PinBy.ctxArea t && p.first == first && p.count == n)
  if pinned && n != 0 && (List.range n).all (fun i => s.regionReady (first + i)) then
    .next (s.setTile t (fun x => { x with ctxReady := true }))
  else .next s

/-- GANG_MAP_CHANGE (R157, R431): gang `gg` of grid `gr` is saved whole, and resumes under a new map. -/
def execGangMapChange (gr gg : Nat) (s : State) : Out :=
  match s.grid gr with
  | none => .next s
  | some g =>
    let ts := (s.teamsOf gr).filter (fun t => ((s.team t).map (fun x => x.lin / g.gangSize == gg)).getD false)
    if g.gangSize = 1 || ts.isEmpty || !s.available ts then .next s else .next (ts.foldl State.saveStart s)

end Sys2Proof.Machine
end

