-- ==== Sys2Proof/Machine/Translate.lean ====
section
/-! DEFINITION. The events of translation: a request that level-2 missed, the landing of fills, copy-on-write breaks,
prefetches, the end of write-backs, and the pager core's replies (R222, R223, R240 to R254, R347, R393, R449). -/

namespace Sys2Proof.Machine

/-! ### What the fill unit makes of a miss (R240, R241, R245) -/

/-- The request waits for the reply to an item that it makes the fill unit post (R252); one that posts none is dropped
(R254, R405). -/
def State.onItem (s : State) (q : Req) (st cause level asid view va entry frame : Nat) : State :=
  if q.who.quiet then s.quietFault q
  else
    let (s, id) := s.postItem st cause level q.kind.code asid view va entry frame
    s.setReq q.id (.onItem id)

/-- A fault at an entry that a walk met. -/
def State.entryFault (s : State) (q : Req) (st cause asid view va : Nat) (w : WalkOut) : State :=
  s.onItem q st cause w.level asid view va w.addr (frameField st 0)

/-- WRITE_PROT or EXEC_PROT. -/
def AccKind.protCause (k : AccKind) : Nat := if k.isFetch then 3 else 2

/-- The frame cache of a stack takes a translation. -/
def State.install (s : State) (t : TuEntry) : State :=
  let same (x : TuEntry) : Bool := x.stack == t.stack && x.asid == t.asid && x.view == t.view && x.page == t.page
  { s with tu := s.tu.filter (fun x => !same x) ++ [t] }

/-- A request is served: its bypass access has been counted (R253). -/
def State.served (s : State) (q : Req) : State :=
  let k := s.homeKey q.asid q.view q.va
  let s := if q.hint = 2 ∧ q.view = 0 then
      match s.subFrame k.1 k.2.1 k.2.2 with
      | some fk => s.setFrame fk (fun e => { e with counted := true })
      | none => s
    else s
  s.wakeReq q

/-- The request has caused the fill of the frame for which it now waits (R253). -/
def State.causes (s : State) (q : Req) (fk : Nat) : State :=
  let up (r : Req) : Req := { r with caused := true, state := .onFrame fk }
  { s with reqs := modWhere (fun r => r.id == q.id) up s.reqs }

/-- A table page that has no frame takes one (R228, R246), and the request is served afresh. -/
def State.tableReq (s : State) (q : Req) (va : Nat) : State :=
  let st := s.stackOf 0 va
  match s.victim st false with
  | (s, none) => s.onItem q st 6 15 0 0 va 0 (frameField st 0)
  | (s, some f) =>
    if (s.frame (frameKey st f)).state = 0 then (s.giveTable st f va).setReq q.id .fresh
    else (s.spillBegin st f false q.stamp).setReq q.id (.onFrame (frameKey st f))

/-- The fill of a page of KIND 0 to 2 for request `q` (R245, R246). After four walks that failed their comparison the fifth
holds its lines (R244). -/
def State.fillFor (s : State) (q : Req) (st asid va : Nat) (w : WalkOut) : State :=
  let rg := va / 2 ^ 16
  let go (s : State) (f : Nat) (m : BitVec 16) : State :=
    (s.fillBegin st f asid 0 rg m q.stamp (4 ≤ q.fails) q.who.quiet).causes q (frameKey st f)
  match s.findFrame st asid 0 va with
  | some f =>
    if (s.frame (frameKey st f)).state ≠ 1 then s.setReq q.id (.onFrame (frameKey st f))
    else if (s.frame (frameKey st f)).sub.getLsbD (subOf va) then s.wakeReq q
    else go s f (BitVec.ofNat 16 (2 ^ subOf va))
  | none =>
    match s.victim st false with
    | (s, none) => s.onItem q st 6 15 asid 0 va w.addr (frameField st 0)
    | (s, some f) =>
      if (s.frame (frameKey st f)).state = 0 then go (s.linkFrame st f (Frame.forKey asid 0 rg false)) f 0xFFFF
      else (s.spillBegin st f false q.stamp).setReq q.id (.onFrame (frameKey st f))

/-- A request whose walk ended at leaf `w` of `(asid, va)`, for an access of kind `k`; `al` is what its own stack caches of
the alias that it came through (R241, R473, R477). -/
def State.leafReq (s : State) (q : Req) (k : AccKind) (st asid va : Nat) (w : WalkOut) (al : Option TuEntry) : State :=
  let page := leafPage w va
  let cache (s : State) (h : TuHit) : State :=
    let s := s.install ⟨st, asid, 0, va / 4096, h, w.lines⟩
    match al with
    | some t => s.install t
    | none => s
  let refused (s : State) (o : Nat) : State :=
    s.onItem q st 10 w.level asid 0 va w.addr (backingField st 0 0 o 0)
  if !k.allowed (leafW w.entry) (entX w.entry) then s.entryFault q st k.protCause asid 0 va w
  else if entKind w.entry = 3 then
    let p := bitsOf (entLoc w.entry) 52 4
    let hpa := 4096 * (locOff w.entry + page)
    if !s.portUp p then refused s 9
    else
      match (cache s (.host p hpa (leafW w.entry) (entX w.entry))).locateHost k p (hpa + va % 4096) with
      | (s, .wait x) => s.setReq q.id x
      | (s, _) => s.wakeReq q
  else if s.isPeerLeaf w.entry then
    match s.leaseRefusal (leafLease w.entry) (locOff w.entry + page) (entShrd w.entry) true with
    | some o => refused s o
    | none => (cache s (.peer (leafLease w.entry) (4096 * (locOff w.entry + page)) (leafW w.entry) (entX w.entry))).wakeReq q
  else
    match s.fetchRefusal asid w.entry page with
    | some 0 => s.setReq q.id (.onLease (leafLease w.entry))
    | some o => refused s o
    | none => s.fillFor q st asid va w

/-- A walk that ended at no leaf: the fault of its entry, or the frame that a table page needs. -/
def State.walkFault (s : State) (q : Req) (st asid view va : Nat) (w : WalkOut) : State :=
  match w.kind with
  | .blocked => s.tableReq q w.addr
  | .notMapped => s.entryFault q st 1 asid view va w
  | _ => s.entryFault q st 4 asid view va w

/-- A request begins to break the share of its run (R250). -/
def State.breaksRun (s : State) (q : Req) : State :=
  let up (r : Req) : Req := { r with breaks := true, state := .onCow }
  { s with reqs := modWhere (fun r => r.id == q.id) up s.reqs }.due (.cowBreak q.id)

/-- A request whose walk ended at an alias (R241 step 3, R250). -/
def State.aliasReq (s : State) (q : Req) (st : Nat) (w : WalkOut) : State :=
  if q.kind.isWrite && entCow w.entry && entW w.entry then s.breaksRun q
  else if !q.kind.allowed (entW w.entry) (entX w.entry) then s.entryFault q st q.kind.protCause q.asid 0 q.va w
  else
    let ta := aliasVa w q.va
    let th := s.stackOf 0 ta
    let al : TuEntry :=
      ⟨st, q.asid, 0, q.va / 4096, .aliasLeaf (alignDown ta 4096) (entW w.entry && !entCow w.entry) (entX w.entry), w.lines⟩
    match s.locateKey q.kind (q.hint == 2) 0 0 ta with
    | (s, .at _) => (s.install al).served q
    | (s, .wait x) => s.setReq q.id x
    | (s, .miss) =>
      let (s, t) := s.walkTo (some th) 0 ta
      if t.kind == .leaf then s.leafReq q q.kind th 0 ta t (some al) else s.walkFault q th 0 0 ta t

/-- A write or a fetch under a view that the mapping of view 0 does not allow (R439). -/
def State.viewReq (s : State) (q : Req) : State :=
  if s.viewAllows q.kind q.asid q.va then s.wakeReq q
  else
    let st := s.stackOf q.asid q.va
    let (s, w) := s.walkTo (some st) q.asid q.va
    match w.kind with
    | .leaf => s.entryFault q st q.kind.protCause q.asid q.view q.va w
    | .aliasTo =>
      if !q.kind.allowed (entW w.entry) (entX w.entry) then s.entryFault q st q.kind.protCause q.asid q.view q.va w
      else
        let ta := aliasVa w q.va
        let th := s.stackOf 0 ta
        let (s, t) := s.walkTo (some th) 0 ta
        if t.kind == .leaf then s.entryFault q th q.kind.protCause 0 0 ta t else s.walkFault q th 0 0 ta t
    | _ => s.walkFault q st q.asid q.view q.va w

/-- A request is served from step 1 of R240. A page of the table region has no leaf: a fetch of one that has a frame is
EXEC_PROT with LEVEL 15 and ENTRY 0 (DESIGN CHOICE, log 51). A prefetch whose victim has gone asks again (R254). -/
def State.serveReq (s : State) (q : Req) : State :=
  if q.who == .prefetch then
    let rg := q.va / 2 ^ 16
    let s := s.dropReq q
    { s with pfStamps := s.pfStamps ++ [(regionKey q.asid q.view rg, q.stamp)] }.due (.prefetch q.asid q.view rg)
  else if q.view ≠ 0 then s.viewReq q
  else
    match s.locate q.kind (q.hint == 2) q.asid 0 q.va with
    | (s, .at _) => s.served q
    | (s, .wait x) => s.setReq q.id x
    | (s, .miss) =>
      let st := s.stackOf q.asid q.va
      if inTable q.va then
        if (s.findFrame st 0 0 q.va).isSome then s.onItem q st q.kind.protCause 15 0 0 q.va 0 (frameField st 0)
        else s.tableReq q q.va
      else
        let (s, w) := s.walkTo (some st) q.asid q.va
        match w.kind with
        | .aliasTo => s.aliasReq q st w
        | .leaf => s.leafReq q q.kind st q.asid q.va w none
        | _ => s.walkFault q st q.asid 0 q.va w

/-- The cofferdams whose block holds an uncorrectable error are breached where it is found (R312). -/
def State.findErrors (s : State) : State :=
  if s.dams.isEmpty || s.pois.isEmpty then s else s.breachDams (fun d => s.isPois d.blk)

/-- A request that is no longer there has been served (R223). -/
def State.countGone (s : State) (q : Req) : State := if s.reqs.any (fun r => r.id == q.id) then s else s.countServed q.stamp

/-- L2_MISS (R240, R241): request `r` is served by the TU of its home slice and the fill unit. -/
def execL2Miss (r : Nat) (s : State) : Out :=
  match s.reqs.find? (fun x => x.id == r && x.state == .fresh) with
  | none => .next s
  | some q => .next ((s.serveReq q).countGone q).settleHolds

/-- FILL_DATA_LAND (R245, R312): every Read of the fill of frame `f` of stack `st` has ended. -/
def execFillDataLand (st f : Nat) (s : State) : Out :=
  match s.fills.find? (fun x => x.fk == frameKey st f && x.cmds.isEmpty) with
  | none => .next s
  | some fl => .next (s.fillLand fl).findErrors.settleHolds

/-- SPILLWAY_WRITE_BACK_DONE (R247, R312, R385): every Write of write-back `k` has ended; `ok` says that its pool writes did
too. -/
def execSpillwayWriteBackDone (k : Nat) (ok : Bool) (s : State) : Out :=
  match s.spills.find? (fun x => x.id == k && x.cmds.isEmpty) with
  | none => .next s
  | some sp =>
    let s := s.spillEnd sp ok
    .next ((s.syncers k).foldl (fun s g => s.syncEnd g k (sp.failed.isSome || !ok)) s).findErrors.settleHolds

/-! ### Copy-on-write (R249 to R251) -/

/-- Subtracts 1 from the RC of a target leaf, a write that invalidates nothing. The fill unit that breaks the share of
the page at `va` posts RC_ZERO (R250, R251; log 46). -/
def State.dropShare (s : State) (q : Req) (va : Nat) (t : WalkOut) : State :=
  let st := s.stackOf q.asid q.va
  let post (s : State) (level : Nat) : State :=
    (s.postItem st 8 level q.kind.code q.asid q.view va t.addr (frameField st 0)).1
  let rc := entRc (s.ld 0 0 t.addr 16)
  if rc = 0 then post s 15
  else
    let s := (s.stb 0 0 (t.addr + 12) 4 (rc - 1)).markDirty 0 0 (t.addr + 12)
    if rc = 1 then post s t.level else s

/-- Where a block of a break's target is read; `none` where the request must wait first. -/
def State.cowSource (s : State) (q : Req) (ta : Nat) : State × Option (Loc × WalkOut) :=
  let th := s.stackOf 0 ta
  let (s, t) := s.walkTo (some th) 0 ta
  match t.kind with
  | .leaf =>
    let off := 4096 * (locOff t.entry + leafPage t ta)
    if entKind t.entry = 3 then
      let p := bitsOf (entLoc t.entry) 52 4
      if s.portUp p then (s, some (.host p off, t))
      else (s.onItem q th 10 t.level 0 0 ta t.addr (backingField th 0 0 9 0), none)
    else if s.isPeerLeaf t.entry then
      let l := s.lease (leafLease t.entry)
      match s.leaseRefusal (leafLease t.entry) (off / 4096) (entShrd t.entry) true with
      | some o => (s.onItem q th 10 t.level 0 0 ta t.addr (backingField th 0 0 o 0), none)
      | none => (s, some (.peer l.target l.xwin (l.base + off), t))
    else
      match s.locateFrame .load false 0 0 ta with
      | (s, .at l) => (s, some (l, t))
      | (s, .wait x) => (s.setReq q.id x, none)
      | (s, .miss) => (s.leafReq q .load th 0 ta t none, none)
  | _ => (s.walkFault q th 0 0 ta t, none)

/-- The target pages of a run of `n` pages from `ta`. -/
def State.cowSources (s : State) (q : Req) (ta : Nat) : Nat → State × Option (List (Loc × WalkOut))
  | 0 => (s, some [])
  | n + 1 =>
    match State.cowSources s q ta n with
    | (s, none) => (s, none)
    | (s, some ls) =>
      match s.cowSource q (ta + 4096 * n) with
      | (s, none) => (s, none)
      | (s, some l) => (s, some (ls ++ [l]))

/-- The private leaf that replaces an alias entry (R250 step 4). -/
def privateLeaf (al tgt : Nat) : Nat :=
  2 + 4 + bitsOf al 3 1 * 8 + entCont al * 16 + 0x400 + bitsOf tgt 12 1 * 0x1000 + entKey tgt * 2 ^ 16

/-- The frame of a break (R250 step 2): the key's own, or one of the stack's reserve. -/
inductive CowFrame where
  | own (f : Nat)
  | reserve (f : Nat)
  | busy (f : Nat)
  | none

def State.cowFrame (s : State) (st asid va : Nat) : CowFrame :=
  match s.findFrame st asid 0 va with
  | some f => if (s.frame (frameKey st f)).state = 1 then .own f else .busy f
  | none =>
    match s.frames.find? (fun e => e.1 / 2 ^ 20 == st && e.2.state == 5) with
    | some e => .reserve (e.1 % 2 ^ 20)
    | none => .none

/-- Steps 3 to 5 of R250 into frame `f`: the run of `n` pages from `first`, whose pages stand at `ls`. Every access that
waits for the break is then served afresh. -/
def State.cowCopy (s : State) (q : Req) (st f first n : Nat) (w : WalkOut) (fresh : Bool) (ls : List (Loc × WalkOut)) :
    State :=
  let xs := (List.range n).zip ls
  let s := xs.foldl (fun s x =>
    let dst : Loc := .home q.asid 0 (first + 4096 * x.1)
    let s := s.wrBytesFrom dst 0 (s.rdBytes x.2.1 4096)
    (List.range 64).foldl (fun s j =>
      s.setPois (homeBlk q.asid 0 (first + 4096 * x.1 + 64 * j)) (match x.2.1.pblk (64 * j) with
        | some b => s.isPois b
        | none => false)) s) s
  let ents := xs.map (fun x => leBytes 16 (privateLeaf w.entry x.2.2.entry))
  let (s, _) := s.tableWrite (alignDown w.addr (16 * n)) ents.flatten
  let s := xs.foldl (fun s x => s.dropShare q (first + 4096 * x.1) x.2.2) s
  let subs := xs.foldl (fun (m : BitVec 16) x => m ||| BitVec.ofNat 16 (2 ^ subOf (first + 4096 * x.1))) 0
  let s := if fresh then s.linkFrame st f { Frame.forKey q.asid 0 (first / 2 ^ 16) false with state := 1, w := true, x := entX w.entry }
    else s
  let s := s.setFrame (frameKey st f) (fun e =>
    { e with sub := e.sub ||| subs, dirty := e.dirty ||| subs, x := e.x && entX w.entry })
  let mine (t : TuEntry) : Bool := t.asid == q.asid && t.view == 0 && inRange (4096 * t.page) first (4096 * n)
  let s := { s with tu := s.tu.filter (fun t => !mine t) }
  s.wakeReq q

/-- COW_BREAK (R244, R250): the share of the run that request `r` writes is broken, once no walk holds the alias line. Where
the entry is no such alias any more, the request is served afresh. -/
def execCowBreak (r : Nat) (s : State) : Out :=
  match s.reqs.find? (fun x => x.id == r && x.state == .onCow && x.breaks) with
  | none => .next s
  | some q =>
    let st := s.stackOf q.asid q.va
    let (s, w) := s.walkTo (some st) q.asid q.va
    if w.kind == .blocked then .next (s.tableReq q w.addr).settleHolds
    else if !(w.kind == .aliasTo && entCow w.entry && entW w.entry) then .next (s.wakeReq q).settleHolds
    else if (s.heldBy (lineKey 0 0 w.addr)).isSome then .next s
    else
      let n := s.runOf w
      let first := alignDown q.va (4096 * n)
      match s.cowFrame st q.asid q.va with
      | .busy f => .next (s.setReq q.id (.onFrame (frameKey st f)))
      | .none => .next (s.onItem q st 5 w.level q.asid 0 q.va w.addr (frameField st 0))
      | c =>
        match s.cowSources q (aliasVa w q.va - (q.va - first)) n with
        | (s, none) => .next s.settleHolds
        | (s, some ls) =>
          match c with
          | .own f => .next (s.cowCopy q st f first n w false ls).settleHolds
          | .reserve f => .next (s.cowCopy q st f first n w true ls).settleHolds
          | _ => .next s

/-! ### Prefetch (R254) -/

/-- PREFETCH (R254): region `rg` of a key, dropped without trace where a rule says so. It carries the class and the deadline
of what it was asked for by, and waits for the write-back of a dirty victim. -/
def execPrefetch (a w rg : Nat) (s : State) : Out :=
  let va := rg * 2 ^ 16
  let st := s.stackOf a va
  let d := ((s.pfStamps.find? (fun e => e.1 == regionKey a w rg)).map (·.2)).getD (s.stampFor none a va)
  let s := { s with pfStamps := dropFirst (fun e => e.1 == regionKey a w rg) s.pfStamps }
  if w != 0 || tableBase < va + 2 ^ 16 || (s.findFrame st a 0 va).isSome then .next s
  else
    let outs := (List.range 16).map (fun i => (va + 4096 * i, s.walkRaw a (va + 4096 * i)))
    let stands (x : Nat × WalkOut) : Bool :=
      match x.2.kind with
      | .leaf => !entNpf x.2.entry && (entKind x.2.entry == 3 || s.isPeerLeaf x.2.entry || s.fetchable x.2 a x.1)
      | .aliasTo => true
      | _ => false
    if !outs.all stands || !outs.any (fun x => s.fetchable x.2 a x.1) then .next s
    else
      match s.victim st true with
      | (s, none) => .next s
      | (s, some f) =>
        if (s.frame (frameKey st f)).state = 0 then
          .next ((s.linkFrame st f (Frame.forKey a 0 rg false)).fillBegin st f a 0 rg 0xFFFF d false true)
        else .next ((s.spillBegin st f false d).newReq a 0 va .load 0 .prefetch (.onFrame (frameKey st f)) d)

/-! ### The pager core's replies (R392, R393) -/

/-- The outcome that an item of cause BACKING carries (R473). -/
def Item.outcome (i : Item) : Nat := if i.cause = 10 then bitsOf i.frame 48 8 else 0

/-- The page-access trap (R252, R473). -/
def pageTrap (it : Item) (q : Req) (lane : Nat) : TrapReq :=
  mkTrap 9 lane 0 (BitVec.ofNat 64 q.va) (BitVec.ofNat 64 (it.cause + 256 * it.outcome))
    (BitVec.ofNat 64 (q.asid + q.view * 2 ^ 16))

/-- FAIL for group `k`: an error record, and its team fails or its lane halts (R395). -/
def State.pagerFail (s : State) (k : Nat) (m : Word) (pc : Word) (it : Item) (q : Req) : State :=
  s.asGroup k (fun s =>
    let s := s.setIss (fun i => { i with pc := pc, set := m })
    let t := pageTrap it q (lowestLane m)
    let s := s.writeRec s.g.tile (s.trapRec t 4 (if s.g.isCompute then 3 else 4) t.i1.toNat)
    if s.g.isCompute then s.failTeam s.g.team else s.haltBase)

/-- The lanes of a request that still stand parked on it, of the lowest `pcv` among them: the lanes that made the
access, and that `pcv`. -/
def Group.parkedOf (g : Group) (m : Word) : Word × Word :=
  let ls := (lanesOf m).filter (fun l => g.laneAt l == .parked)
  let low := ls.foldl (fun (p : Word) l => if (g.pcAt l).toNat < p.toNat then g.pcAt l else p) 0xFFFFFFFF#32
  (maskOf (fun l => ls.contains l && g.pcAt l == low), low)

/-- Whether a group may take a page-access trap of lanes `m` now: its team is on a core, and no handler of it runs but
one whose own lanes made the access. -/
def State.trappable (s : State) (g : Group) (m : Word) : Bool :=
  (!g.isCompute || (match s.team g.team with
    | none => false
    | some t => t.busy == 0 && (match t.place with
      | .resident _ => true
      | _ => false)))
    && (!g.r.tm || m &&& g.hlanes != 0#32)

/-- DELIVER for lanes of group `k` (R252, R393, R396): the handler lanes are the lanes that made the access; parked no
longer, they stand saved as LIVE. Lanes of another `pcv`, and lanes that a running handler has suspended, are answered
later. -/
def State.deliverLanes (s : State) (it : Item) (q : Req) (k : Nat) (m : Word) : State :=
  match s.getG k with
  | none => s.dropReq q
  | some g =>
    if !s.trappable g m then s
    else
      let own := if g.r.tm then m &&& g.hlanes else m
      let (h, pc) := g.parkedOf own
      let rest := m &&& ~~~h &&& maskOf (fun l => g.laneAt l == .parked)
      let s := if rest = 0 then s.dropReq q
        else { s with reqs := modWhere (fun r => r.id == q.id) (fun r => { r with who := .lanes k rest }) s.reqs }
      if h = 0 then s
      else
        s.asGroup k (fun s =>
          let l := lowestLane h
          let s := s.setIss (fun i => { i with pc := pc, set := h, skip := mapGet none s.g.parkEnd l })
          let s := s.setG (fun g => g.eachLane h (fun g l => g.putLane l .live))
          s.takeTrap (pageTrap it q l) false h)

/-- A commit that the pager could not settle stops: every world of the fork is discarded and the team fails (R449). -/
def State.commitFail (s : State) (k : Nat) (it : Item) (q : Req) : State :=
  match s.getG k with
  | none => s
  | some g =>
    match g.hold with
    | .commit _ h _ _ _ _ =>
      let s := (s.closeFork g.team g.asid h []).modG k (fun g => { g with hold := .none })
      s.pagerFail k g.lastSet (g.pc (lowestLane g.lastSet)) it q
    | _ => s

/-- What FAIL brings about for an engine's access. -/
def State.engineFail (s : State) (k : Nat) (it : Item) (q : Req) : State :=
  if (s.getG k).isSome then s.pagerFail k 0 0 it q else s

/-- A contribution that had been staged counts as not staged again: its fold has met a fault. -/
def State.unstage (s : State) (c : Contrib) : State :=
  let up (x : PendStore) : PendStore := { x with kind := match x.kind with
    | .far n => .far (n + 1)
    | y => y }
  if c.place = .staged then { s with stores := modWhere (fun x => x.id == c.store) up s.stores } else s

/-- The closing arrival of a `rep.close` cannot be made: the epoch of its group ends without it, and at FAIL its team
fails (R306, R393; DESIGN CHOICE, log 58). -/
def State.closeRefused (s : State) (k act : Nat) (it : Item) (q : Req) : State :=
  match s.stores.find? (fun x => x.id == k) with
  | none => s
  | some x =>
    let s := match x.grp with
      | some g => s.modG g (fun g => { g with epa := none })
      | none => s
    let s := s.storeDone x
    if act = 2 then s else (x.grp.map (fun g => s.engineFail g it q)).getD s

/-- The weir of a closing round cannot be reached: the round ends without an advance, and the updates that waited are lost;
the phase that a `warr` among them answers is free (DESIGN CHOICE, log 58). -/
def State.roundRefused (s : State) (asid view epa : Nat) : State :=
  let mine (c : Closing) : Bool := c.asid == asid && c.view == view && c.epa == epa
  let ks := (s.closings.filter mine).flatMap (fun c => c.waits.filterMap (fun w => w.2.2.2))
  let s := { s with closings := s.closings.filter (fun c => !mine c) }
  ks.foldl (fun s k =>
    let (s, x) := s.choose (2 ^ 32)
    s.lateDone k (BitVec.ofNat 64 x)) s

/-- Acts on a reply for one request (R393); `act` is 1 RETRY, 2 DELIVER, else FAIL. -/
def State.answer (s : State) (it : Item) (act : Nat) (q : Req) : State :=
  if act = 1 then s.setReq q.id .fresh
  else
    let gone := s.dropReq q
    match q.who with
    | .lanes k m =>
      if act = 2 then s.deliverLanes it q k m
      else
        match s.getG k with
        | none => gone
        | some g => gone.pagerFail k m (g.parkedOf m).2 it q
    | .handler k => gone.setHandler k none
    | .copy c x b what at_ =>
      if act = 2 then gone.copyRefused c x b what at_ it.cause
      else
        match s.ctx c x with
        | none => gone
        | some cx => gone.engineFail cx.grp it q
    | .far j =>
      match s.contribs.find? (fun c => c.id == j) with
      | none => gone
      | some c =>
        let gone := gone.unstage c
        if act = 2 then gone.farFault c it.cause it.outcome else (gone.farGone c).engineFail c.grp it q
    | .commit k => gone.commitFail k it q
    | .completion gr => gone.completionRefused gr
    | .replay gr => gone.replayRefused gr
    | .table gr => gone.tableRefused gr
    | .record k => gone.recordRefused k
    | .close k => gone.closeRefused k act it q
    | .sub k => { gone with nvme := gone.nvme.filter (fun c => c.id != k) }.nvmeSend
    | .round a v e => gone.roundRefused a v e
    | .area _ | .take _ | .peer _ _ | .evict _ _ _ | .errRec _ | .ring _ | .prefetch => gone

/-- Acts on a reply for every request that waits on the item; the item is done with once none waits. -/
def State.answerAll (s : State) (it : Item) (act : Nat) : State :=
  let s := (s.reqs.filter (fun r => r.state == .onItem it.id)).foldl (fun s q => s.answer it act q) s
  let left := s.reqs.any (fun r => r.state == .onItem it.id)
  (if left then s else { s with items := s.items.filter (fun i => i.id != it.id) }).settleHolds

/-- The reply double of a posted item. -/
def State.replyOf (s : State) (it : Item) : Nat :=
  match it.slot with
  | none => 0
  | some n =>
    let r := (s.tile it.tile).pagerRing
    s.ld 0 0 (ringBase r + 64 * (n % ringSize r) + 0x20) 8

/-- PAGER_REPLY (R393): the fill unit acts on the reply to item `k`. -/
def execPagerReply (k : Nat) (s : State) : Out :=
  match s.items.find? (fun i => i.id == k && i.slot.isSome) with
  | none => .next s
  | some it =>
    let x := s.replyOf it
    if it.cause = 7 ∨ it.cause = 8 then .next { s with items := s.items.filter (fun i => i.id != k) }
    else if x = 0 then .next s
    else .next (s.answerAll it x)

/-- The ring of a tile has no room, so new items wait in the fill unit and are not yet posted (R497). -/
def State.ringFull (s : State) (t : Nat) : Bool :=
  ringSize (s.tile t).pagerRing ≤ ((s.tile t).prProd + 2 ^ 32 - (s.tile t).prCons) % 2 ^ 32

/-- PAGER_REPLY_TIMEOUT (R393): no reply within 2^25 ticks is FAIL. An item for which there is no ring that could be
written gets no reply either (log 45). -/
def execPagerReplyTimeout (k : Nat) (s : State) : Out :=
  match s.items.find? (fun i => i.id == k && i.slot.isSome) with
  | none =>
    match s.items.find? (fun i => i.id == k && !s.ringFull i.tile) with
    | none => .next s
    | some it => if s.tick < it.time + 2 ^ 25 then .next s else .next (s.answerAll it 3)
  | some it =>
    if it.cause = 7 ∨ it.cause = 8 then .next { s with items := s.items.filter (fun i => i.id != k) }
    else if s.tick < it.time + 2 ^ 25 ∨ s.replyOf it ≠ 0 then .next s
    else .next (s.answerAll it 3)

end Sys2Proof.Machine
end

