-- ==== Sys2Proof/Machine/Dies.lean ====
section
/-! DEFINITION. Beyond one die and one device: the loss of a die or base tile, the host's snoops and the port caches,
leases of the pool, back-invalidation, and accesses that arrive from peers (R462 to R482). -/

namespace Sys2Proof.Machine

/-! ### Loss of a die (R464, R465) -/

/-- A core number is one of die `d`. -/
def onDie (d core : Nat) : Bool := core / 32 == d && core < 1024

/-- A die's engines lose the blocks they own; those not yet written are poisoned (R464). -/
def State.loseOwns (s : State) (d : Nat) : State :=
  let lost := s.owns.filter (fun o => onDie d o.core)
  let s := { s with owns := s.owns.filter (fun o => !onDie d o.core) }
  lost.foldl (fun s o => if o.held then (if o.left = 0 then s else s.setPois o.blk true).releaseBlk o.blk else s) s

/-- The commands of a die's engines go with it, and so does what its groups wait for and what its level-1s hold. -/
def State.loseEngines (s : State) (d : Nat) : State :=
  let idle (x : Nat × Option CopyCtx) : Nat × Option CopyCtx :=
    if onDie d (x.1 / 16) then (x.1, x.2.map (fun c => { c with cmds := [] })) else x
  let stop (s : State) (e : Nat × Group) : State :=
    if e.2.isCompute && onDie d e.2.home then s.modG e.1 (fun g => { g with cpcnt := 0, mxcnt := 0, loads := [], ldcnt := 0 }) else s
  s.groups.foldl stop { s with
    ctxs := s.ctxs.map idle,
    mu := s.mu.filter (fun e => !onDie d (e.1 / 4)),
    cbq := s.cbq.filter (fun e => !onDie d e.1),
    l1 := s.l1.filter (fun b => !onDie d b.core),
    reqs := s.reqs.filter (fun r => match r.who with
      | .copy core _ _ _ _ => !onDie d core
      | _ => true) }

/-- A write of a lost die that was not acknowledged has not taken effect: its bytes are again what they were, but for those
that a later write has made (R464). -/
def State.undoStore (s : State) (x : PendStore) : State :=
  let later (k : Nat) : Bool := s.stores.any (fun y => x.id < y.id && y.undo.any (fun e => e.1 == k))
  { s with mem := x.undo.foldl (fun m e => if later e.1 then m else mapSet 0 m e.1 e.2) s.mem }

/-- Each unacknowledged write of a lost die takes effect or does not (R8, R464), from the latest to the first. The closing
arrival of an epoch that takes effect is made by STORE_ACK. -/
def State.loseStores (s : State) (d : Nat) : State :=
  (s.stores.filter (fun x => x.die == d)).reverse.foldl (fun s x =>
    let (s, c) := s.choose 2
    match c, x.kind with
    | 0, _ => (s.undoStore x).storeDone { x with undo := [] }
    | _, .close _ _ _ => s
    | _, _ => s.storeDone x) s

/-- A grid that has a resident team on a die. -/
def State.onDie (s : State) (d gr : Nat) : Bool :=
  (s.teamsOf gr).any (fun t => match (s.team t).map Team.place with
    | some (.resident c) => c / 32 == d
    | _ => false)

/-- An affected grid is replayed, or completes LINK_LOST; its teams stop (R465). -/
def State.gridLost (s : State) (gr : Nat) : State :=
  match s.grid gr with
  | none => s
  | some g =>
    if g.done then s
    else if g.isReplay && g.status == 0 then
      let s := (s.teamsOf gr).foldl (fun s t => if ((s.team t).map Team.running).getD false then s.stopTeam t else s) s
      (s.setGrid gr (fun g => { g with wantReplay := true, lossReplays := g.lossReplays + 1 })).due (.replayRestart gr)
    else
      let kids := s.descendants 11 (s.teamsOf gr)
      let s := s.decideGrid gr 4 0
      let s := kids.foldl (fun s k => s.decideGrid k 4 0) s
      ((gr :: kids).flatMap s.teamsOf).foldl (fun s t => s.failOne t 4) s

/-- DIE_LOSS (R464, R465). -/
def execDieLoss (d : Nat) (s : State) : Out :=
  if 32 ≤ d || (s.die d).lost then .next s
  else
    let hit := (s.grids.map (·.1)).filter (s.onDie d)
    let s := s.setDie d (fun x => { x with lost := true })
    let s := s.writeRec (d / 4) { kind := 10, sev := 4, unit := 3, res := d, flags := 4, aux := 1 }
    let s := (List.range 32).foldl (fun s i => s.setCore (32 * d + i) (fun c => { c with retired := true })) s
    let s := s.breachDams (fun x => onDie d x.core)
    let s := s.loseOwns d
    let s := (s.contribs.filter (fun c => onDie d c.core && c.dom.isNone && c.place != .staged)).foldl State.farGone s
    let s := hit.foldl State.gridLost s
    .next ((s.loseEngines d).loseStores d).settleHolds

/-- A base-tile core stops with its tile. -/
def State.stopBase (s : State) (u : Nat) : State := s.modG u (fun g => { g.setLane 0 .halted with save := none })

/-- BASE_TILE_LOSS (R466): fatal to the device. The UNIT of the records is not stated: it is free. -/
def execBaseTileLoss (t : Nat) (s : State) : Out :=
  if 8 ≤ t || (s.tile t).lost then .next s
  else
    let s := s.setTile t (fun x => { x with lost := true })
    let s := (s.grids.map (·.1)).foldl (fun s k =>
      match s.grid k with
      | some g => if g.done then s else (s.teamsOf k).foldl (fun s t => s.failOne t 4) (s.decideGrid k 4 0)
      | none => s) s
    let (s, unit) := s.choose 256
    let s := ((List.range 8).filter (fun u => !(s.tile u).lost)).foldl
      (fun s u => s.writeRec u { kind := 10, sev := 4, unit := unit, res := t, flags := 4, aux := 1 }) s
    .next ((((s.stopBase t).stopBase (8 + t)).fatal).due (.teamRetire 0))

/-! ### The host (R468 to R470) -/

/-- One tag is later than another (R315, R470). -/
def tagLater (x y : Nat) : Bool :=
  let d := (x + 2 ^ 16 - y % 2 ^ 16) % 2 ^ 16
  1 ≤ d && d < 2 ^ 15

/-- HOST_SNOOP (R469, R470): the host takes a block back, or shares it. -/
def execHostSnoop (p a : Nat) (inv : Bool) (s : State) : Out :=
  if !s.portUp p then .next s
  else
    let b := a / 64
    let s := s.setPort p (fun x =>
      let n := (x.tags + 1) % 2 ^ 16
      { x with tags := n, snoops := if inv then mapSet none x.snoops b (some n) else x.snoops })
    let mine (x : PortBlk) : Bool := x.port == p && x.blk == b
    let share (x : PortBlk) : PortBlk := { x with state := 1 }
    .next { s with portCache := if inv then s.portCache.filter (fun x => !mine x) else modWhere mine share s.portCache }

/-- Data that a port fetches: the host may have written the block since the device last held it, and may send poison. -/
def State.hostData (s : State) (p b : Nat) : State :=
  match s.choose 3 with
  | (s, 0) => s
  | (s, k) =>
    let (s, bs) := s.freeBytes 64
    { s with host := mapSetBytes s.host (hostKey p (64 * b)) bs }.setPois (hostBlk p (64 * b)) (k == 2)

/-- PORT_FILL (R470): the fill of a block for which requests wait, with the tag of its global observation. One that an
invalidating snoop has overtaken is not installed: it serves the reads of the groups that wait. -/
def execPortFill (p a tag : Nat) (s : State) : Out :=
  let b := a / 64
  let waits := s.reqs.filter (fun r => r.state == .onPort p b)
  let n := (s.port p).tags
  if waits.isEmpty || !s.portUp p || tagLater tag ((n + 1) % 2 ^ 16) then .next s
  else
    let s := s.setPort p (fun x => { x with tags := (n + 1) % 2 ^ 16 })
    let here (x : PortBlk) : Bool := x.port == p && x.blk == b
    let s := if s.portCache.any here then s else s.hostData p b
    let late := match mapGet none (s.port p).snoops b with
      | some t => tagLater tag t
      | none => true
    let others := s.portCache.filter (fun x => !here x)
    if late then
      let st := if waits.any (fun r => r.kind.isWrite) then 2 else 1
      let mine := others.filter (fun x => x.port == p)
      let rest := if 131072 ≤ mine.length then dropFirst (fun x => x.port == p) others else others
      .next (waits.foldl State.wakeReq { s with portCache := rest ++ [PortBlk.mk p b st []] }).settleHolds
    else
      let reads := waits.filter (fun r => !r.kind.isWrite)
      let ks := (reads.filterMap (fun r => match r.who with
        | .lanes k _ => some k
        | _ => none)).dedup
      let s := { s with portCache := if ks.isEmpty then others else others ++ [PortBlk.mk p b 4 ks] }
      .next (reads.foldl State.wakeReq s).settleHolds

/-- PORT_CACHE_EVICT (R468): a Modified block's bytes stand in host memory once it goes. -/
def execPortCacheEvict (p a : Nat) (s : State) : Out :=
  .next { s with portCache := s.portCache.filter (fun x => !(x.port == p && x.blk == a / 64)) }

/-- PORT_LINK_DOWN (R468): accesses that wait on the port are served afresh, and meet outcome PORT. -/
def execPortLinkDown (p : Nat) (s : State) : Out :=
  let down (r : Req) : Bool := match r.state with
    | .onPort q _ => q == p
    | _ => false
  .next { s.setPort p (fun x => { x with down := true }) with
    portCache := s.portCache.filter (fun x => x.port != p),
    reqs := modWhere down (fun r => { r with state := .fresh }) s.reqs }

/-! ### Leases (R471 to R474) -/

/-- The device writes STATE and ENDCAUSE of a lease. -/
def State.setLease (s : State) (i st : Nat) (cause : Option Nat) : State :=
  let s := (s.stb 0 0 (leaseVa i + 0x1C) 1 st).markDirty 0 0 (leaseVa i)
  match cause with
  | none => s
  | some c => s.stb 0 0 (leaseVa i + 0x1E) 1 c

/-- LEASE_EXPIRY (R472). -/
def execLeaseExpiry (i : Nat) (s : State) : Out :=
  let l := s.lease i
  if 4096 ≤ i || l.state != 1 || l.expiry = 0 || s.tick < l.expiry then .next s else .next (s.setLease i 2 (some 5))

/-- LEASE_REVOKE (R472): the pool manager revokes an active lease. -/
def execLeaseRevoke (i : Nat) (s : State) : Out :=
  if 4096 ≤ i || (s.lease i).state != 1 then .next s else .next (s.setLease i 2 (some 6))

/-- Sub-pages present in a frame that a lease backs. -/
def State.leaseSubs (s : State) (e : Frame) (i : Nat) : Bool :=
  (List.range 16).any (fun k => e.sub.getLsbD k &&
    (let w := s.walkRaw e.asid (e.vpn * 2 ^ 16 + 4096 * k)
     w.kind == .leaf && entKind w.entry == 1 && leafLease w.entry == i))

/-- Frames of a lease. -/
def State.leaseFrames (s : State) (i : Nat) : List (Nat × Frame) :=
  s.frames.filter (fun e => 1 ≤ e.2.state && e.2.state ≤ 3 && !e.2.table && e.2.view == 0 && s.leaseSubs e.2 i)

/-- LEASE_DRAIN_DONE (R472): while frames of a draining lease stand, the fill units write them back and free them; once
none stands the lease is ended. -/
def execLeaseDrainDone (i : Nat) (s : State) : Out :=
  if 4096 ≤ i || (s.lease i).state != 2 then .next s
  else
    let fs := s.leaseFrames i
    if fs.isEmpty then .next ((s.setLease i 3 none).refresh (.onLease i))
    else
      let go := fs.filter (fun e => e.2.state == 1)
      .next (go.foldl (fun s e =>
        let va := e.2.vpn * 2 ^ 16
        let lo := blkKey e.2.asid e.2.view va
        { s with l1 := s.l1.filter (fun b => !inRange b.home lo 1024) }.spillBegin (e.1 / 2 ^ 20) (e.1 % 2 ^ 20) false
          (s.stampFor none e.2.asid va)) s)

/-- LEASE_FAIL (R472): the target gives no response, or reports a fatal error. -/
def execLeaseFail (i : Nat) (s : State) : Out :=
  let l := s.lease i
  if 4096 ≤ i || !(l.state == 1 || l.state == 2) then .next s else .next ((s.setLease i 4 none).refresh (.onLease i))

/-! ### Back-invalidation (R475, R476) -/

/-- Sub-pages of a frame that a range of a pool device backs through shared leaves, with their walks. -/
def State.sharedSubs (s : State) (e : Frame) (dev a n : Nat) : List (Nat × WalkOut) :=
  ((List.range 16).map (fun k => (k, s.walkRaw e.asid (e.vpn * 2 ^ 16 + 4096 * k)))).filter (fun x =>
    x.2.kind == .leaf && entKind x.2.entry == 1 && entShrd x.2.entry &&
      (let l := s.lease (leafLease x.2.entry)
       let p := l.base + 4096 * (locOff x.2.entry + leafPage x.2 (e.vpn * 2 ^ 16 + 4096 * x.1))
       l.target == dev && l.type == 1 && p < a + n && a < p + 4096))

/-- The clean copies that views hold of a shared sub-page, with the blocks that they are kept in. -/
def State.viewCopies (s : State) (e : Frame) (va : Nat) : List (Nat × Nat × Nat) :=
  (s.viewBlk.filter (fun x => x.2 == 1)).filterMap (fun x =>
    let a := x.1 / 2 ^ 57
    let y := s.homeKey a 0 (x.1 % 2 ^ 51 * 64)
    if y.1 = e.asid ∧ inRange y.2.2 va 4096 then some (a, x.1 / 2 ^ 51 % 64, x.1 % 2 ^ 51 * 64) else none)

/-- Step 1 of R476 for one sub-page, under any ASID and view: its lines, every level-1 block of it, its translations, the
clean copies that views hold. -/
def State.dropShared (s : State) (e : Frame) (k : Nat) : State :=
  let va := e.vpn * 2 ^ 16 + 4096 * k
  let views := s.viewCopies e va
  let gone (b : L1Block) : Bool :=
    inRange b.home (blkKey e.asid e.view va) 64 || views.any (fun x => b.home == blkKey x.1 x.2.1 x.2.2)
  let s := { s with l1 := s.l1.filter (fun b => !gone b) }
  let s := views.foldl (fun s x => (s.dropLine (lineKey x.1 x.2.1 x.2.2)).dropViewBlk x.1 x.2.1 x.2.2) s
  s.dropSub e.asid e.view va

/-- Step 2 of R476 for one sub-page of a fill in flight: what was fetched is discarded, and it is fetched again. -/
def State.refetch (s : State) (fk : Nat) (e : Frame) (y : Nat × WalkOut) : State :=
  let va := e.vpn * 2 ^ 16 + 4096 * y.1
  if s.fetchable y.2 e.asid va then s.fetchNow y.2 e.asid 0 va else s.fillLess fk 0 (BitVec.ofNat 16 (2 ^ y.1))

/-- BISNP (R476): `n` bytes from address `a` of pool device `dev`. -/
def execBisnp (dev a n : Nat) (s : State) : Out :=
  .next (s.frames.foldl (fun s x =>
    let e := s.frame x.1
    if e.table || e.view != 0 || !(1 ≤ e.state && e.state ≤ 3) then s
    else
      let hit := s.sharedSubs e dev a n
      let mine := hit.filter (fun y => e.sub.getLsbD y.1)
      let again := match s.fills.find? (fun f => f.fk == x.1) with
        | some fl =>
          let live (y : Nat × WalkOut) : Bool := fl.subs.getLsbD y.1
          hit.filter live
        | none => []
      let s := mine.foldl (fun s y => s.dropShared e y.1) s
      let s := again.foldl (fun s y => s.refetch x.1 e y) s
      let m := mine.foldl (fun (m : BitVec 16) y => m ||| BitVec.ofNat 16 (2 ^ y.1)) 0
      let s := s.setFrame x.1 (fun e => { e with sub := e.sub &&& ~~~m, dirty := e.dirty &&& ~~~m })
      if !mine.isEmpty && (s.frame x.1).sub == 0 && e.state == 1 then s.freeFrame (x.1 / 2 ^ 20) (x.1 % 2 ^ 20) else s) s)

/-! ### Peers (R477 to R482) -/

/-- An entry of the export table (R478). -/
structure Export where
  base : Nat
  bytes : Nat
  asid : Nat
  flags : Nat
  importer : Nat
  deriving DecidableEq, Repr

def State.exportOf (s : State) (x : Nat) : Export :=
  let r := s.ld 0 0 (tableBase + 0x60000 + 32 * x) 32
  { base := recField r 0 8, bytes := recField r 8 8, asid := recField r 16 2 % 1024, flags := recField r 18 2,
    importer := recField r 20 2 }

def peerSize : PeerOp → Nat
  | .load n _ => n
  | .store n _ _ _ => n
  | .atomic _ w _ _ _ _ _ => if w then 8 else 4
  | .weir _ _ => 16
  | .reduce fn _ _ _ _ => farBytes fn

/-- Flags that an access needs (R478). -/
def peerNeeds : PeerOp → Nat
  | .load _ _ => 1
  | .store _ _ _ _ | .atomic _ _ _ _ _ _ _ => 3
  | .weir _ _ | .reduce _ _ _ _ _ => 5

def peerKind : PeerOp → AccKind
  | .load _ _ => .load
  | .weir _ _ => .weir
  | _ => .store

/-- Whether the window admits an access; the device answers EXPORT otherwise. -/
def Export.admits (e : Export) (imp off : Nat) (op : PeerOp) : Bool :=
  e.flags &&& peerNeeds op == peerNeeds op && off + (peerSize op) ≤ e.bytes && (e.importer == 0xFFFF || e.importer == imp)

/-- New value of a location under an atomic of a peer (R301, R302); `val` and `swp` are its operands. -/
def peerAtom (fn : Nat) (wide : Bool) (val swp m : Nat) : Option Nat :=
  let w : BitVec 1 := if wide then 1#1 else 0#1
  match fn with
  | 0 => wideOp w (fun m v => m + v) (fun m v => m + v) val m
  | 1 => wideOp w (fun m v => minS m v) (fun m v => minS m v) val m
  | 2 => wideOp w (fun m v => maxS m v) (fun m v => maxS m v) val m
  | 3 => wideOp w (fun m v => minU m v) (fun m v => minU m v) val m
  | 4 => wideOp w (fun m v => maxU m v) (fun m v => maxU m v) val m
  | 5 => wideOp w (fun m v => m &&& v) (fun m v => m &&& v) val m
  | 6 => wideOp w (fun m v => m ||| v) (fun m v => m ||| v) val m
  | 7 => wideOp w (fun m v => m ^^^ v) (fun m v => m ^^^ v) val m
  | 8 => wideOp w (fun _ v => v) (fun _ v => v) val m
  | 9 => if m = val then some swp else none
  | 10 => some (fAdd (if wide then f64 else f32) plainRne m val).1
  | _ => none

/-- A release that arrives from another device: a record whose signature has every bit set and whose clock is zero, or that
of the release sequence which an indivisible write continues (R479). -/
def State.peerRelease (s : State) (imp : Nat) (l : Loc) (n : Nat) (cont : Bool) : State :=
  let ws := l.words n
  let old := if cont then ws.filterMap (fun w => mapGet none s.rel w) else []
  let v := old.foldl (fun v r => clkMerge v r.clock) []
  let s := match l with
    | .home a _ x => s.putRecords (s.sliceOf a x) ws ⟨v, [], none⟩
    | _ => s
  s.hbRelease (peerAgent imp) ws 5 cont

/-- Every component of a clock is covered by the watermarks of this device (R479). -/
def State.marksCover (s : State) (v : Map Nat) : Bool :=
  v.all (fun c => c.2 == s.watermark c.1 || passed (s.watermark c.1) c.2 || (s.die c.1).lost)

/-- An acquire by another device returns only once the records of the words that it reads are covered (R479). -/
def State.peerMayAcquire (s : State) (l : Loc) (n : Nat) : Bool :=
  (l.words n).all (fun w => match mapGet none s.rel w with
    | some r => s.marksCover r.clock
    | none => true)

/-- Poison that crosses the fabric (R482): the blocks are poisoned and a record names its origin; the link is free. -/
def State.peerPoison (s : State) (l : Loc) (n asid va origin : Nat) : State :=
  let (s, link) := s.choose 64
  (s.poisonLoc l n).findErrors.writeRec (tileOfStack (s.stackOf asid va))
    { kind := 2, sev := 2, unit := 10, res := origin * 2 ^ 16 + link, key := s.keyField asid 0, addr := va }

/-- What a write of a peer brings about at its place besides the bytes. -/
def State.peerMark (s : State) (imp : Nat) (l : Loc) (n asid va : Nat) (pois : Bool) : State :=
  let s := match l with
    | .home a v h => (s.markDirty a v h).stampWords 40 l n
    | _ => s
  let s := s.seeHome (peerAgent imp) l n
  if pois then s.peerPoison l n asid va imp else s

/-- What an access of a peer does at its home. -/
def State.peerDo (s : State) (imp : Nat) (e : Export) (va : Nat) (l : Loc) : PeerOp → State
  | .load n acq =>
    let s := s.seeHome (peerAgent imp) l n
    if acq then s.hbAcquire (peerAgent imp) (l.words n) 5 else s
  | .store n x rel pois =>
    let s := ((s.wrLoc l n x).plainWrite 40 l n).peerMark imp l n e.asid va pois
    if rel then s.peerRelease imp l n false else s
  | .atomic fn w val swp acq rel pois =>
    let n := if w then 8 else 4
    let s := s.seeHome (peerAgent imp) l n
    let s := if acq then s.hbAcquire (peerAgent imp) (l.words n) 5 else s
    match peerAtom fn w val swp (s.rdLoc l n) with
    | none => s
    | some x =>
      let s := (s.wrLoc l n x).peerMark imp l n e.asid va (pois || s.locPois l n)
      if rel then s.peerRelease imp l n true else s
  | .weir a b => ((s.weirUpdate l a b false none).seeHome (peerAgent imp) l 16).peerRelease imp l 16 true
  | .reduce _ _ _ _ _ => s

/-- A contribution that arrives from device `imp` goes to its home as those of the device do (R480 to R482). -/
def State.peerReduce (s : State) (imp : Nat) (e : Export) (va fn : Nat) (val : DWord) (key ep : Nat) (pois : Bool) : State :=
  let (s, id) := s.fresh
  let s := if pois then s.peerPoison .gone 0 e.asid va imp else s
  { s with contribs := s.contribs ++ [Contrib.mk id e.asid 0 va fn val pois key (some imp) (e.base + ep)
      (2 ^ 57 + imp) 2048 0 0 .inFlight] }

/-- PEER_ACCESS (R477 to R482): an access of device `imp` through export window `x`, within one 64-byte block as accesses
between devices are, translated as any other. A fault goes
to this device's pager core; the importer tries again, or meets REMOTE_FAULT. -/
def execPeerAccess (imp x off : Nat) (op : PeerOp) (s : State) : Out :=
  let e := s.exportOf (x % 1024)
  let va := e.base + off
  if !e.admits imp off op || tableBase < va + (peerSize op) || 64 < va % 64 + peerSize op then .next s
  else
    match op with
    | .reduce fn val key ep pois => .next (s.peerReduce imp e va fn val key ep pois).settleHolds
    | _ =>
      if s.waitsFor (.peer imp (x % 1024)) then .next s
      else
        match s.homePlace (.peer imp (x % 1024)) (peerKind op) e.asid va (peerSize op) with
        | (s, none) => .next s
        | (s', some l) =>
          let acq := match op with
            | .load _ a => a
            | .atomic _ _ _ _ a _ _ => a
            | _ => false
          if acq && !s'.peerMayAcquire l (peerSize op) then .next s else .next (s'.peerDo imp e va l op).settleHolds

/-- PEER_RETRY (R479): a request to a peer had no response within 2^18 ticks: another path, or none remains. A store
whose path is lost is settled when its lanes issue again. -/
def execPeerRetry (k : Nat) (s : State) : Out :=
  match s.reqs.find? (fun r => r.id == k && (match r.state with
      | .onPeer _ => true
      | _ => false)) with
  | none => .next s
  | some q =>
    match s.choose 2 with
    | (s, 0) => .next (s.wakeReq q).settleHolds
    | (s, _) =>
      if q.kind.isWrite then .next (s.wakeReq q).settleHolds
      else if q.who.quiet then .next (s.quietFault q)
      else
        let (s, id) := s.backingItem q.kind q.asid q.view q.va 10 0
        .next (s.setReq k (.onItem id))

end Sys2Proof.Machine
end

