-- ==== Sys2Proof/Machine/System.lean ====
section
/-! DEFINITION. Start-up and housekeeping: boot, RUN, core and device reset, attestation, the waking of base-tile cores,
heartbeats and take-overs, temperatures, clocks and refresh (R33, R394, R493 to R503). -/

namespace Sys2Proof.Machine

/-! ### Start-up (R493 to R495) -/

/-- Byte address of the image of a core kind: the handler word, then the code at the kind's `CODE_BASE` (R33, R394). -/
def imageBase (k : Nat) : Nat := (if k = 0 then 0x100000 else 0x200000) - 8

/-- Regions that an image of `n` bytes takes. -/
def imageRegions (k n : Nat) : List Nat :=
  let first := imageBase k / 2 ^ 16
  (List.range ((imageBase k + n + 0xFFFF) / 2 ^ 16 - first)).map (fun i => first + i)

/-- A pinned, zeroed ASID 0 frame for a region, if it has none yet; the lowest free frame of its home stack. Code and
data may be fetched and written (log 21). -/
def State.bootFrame (s : State) (rg : Nat) : State :=
  let va := rg * 2 ^ 16
  let st := s.stackOf 0 va
  match s.findFrame st 0 0 va with
  | some _ => s
  | none =>
    match s.lowestFree st with
    | none => s
    | some f => s.linkFrame st f { Frame.forKey 0 0 rg false with state := 1, sub := 0xFFFF, w := true, x := true }

/-- Writes the image of core kind `k` into pinned frames (R493). -/
def State.loadImage (s : State) (k : Nat) : State :=
  let n := Config.firmwareLen k % 0xF0000 + 8
  let rs := imageRegions k n
  let s := rs.foldl State.bootFrame s
  let s := { s with mem := mapSetBytes s.mem (memKey 0 0 (imageBase k)) ((List.range n).map (Config.firmwareByte k)) }
  { s with pins := s.pins ++ [⟨0, rs.headD 0, rs.length, .boot⟩] }

/-- The boot ROM of tile `t` (R493, R494): it passes with slot A or B, or the tile stops in STAGE 15. -/
def State.bootTile (s : State) (t : Nat) : State :=
  match Config.startUp t % 3 with
  | 0 =>
    let s := s.setTile t (fun x =>
      { x with stage := 2, lastHb := s.tick, meas := Config.shake512 0 (Config.imageDigest t) })
    (s.readHandler t).readHandler (8 + t)
  | c => s.setTile t (fun x => { x with stage := 15, failcode := c })

/-- POWER_ON_BOOT (R493): HBM is trained and refresh runs at 2x; each tile verifies its image and starts its two cores. -/
def execPowerOnBoot (s : State) : Out :=
  if s.dev.poweredOn || s.dev.failcode != 0 then .next s
  else
    let s := (s.loadImage 0).loadImage 1
    let s := (List.range 8).foldl State.bootTile s
    let bad := (List.range 8).filter (fun t => (s.tile t).stage == 15)
    match bad with
    | [] => .next (s.setDev (fun d => { d with poweredOn := true }))
    | t :: _ =>
      let code := (s.tile t).failcode
      let s := s.setDev (fun d => { d with poweredOn := true, failcode := code })
      .next (if bad.length < 8 then s.fatal else s)

/-- RUN (R495): the lead core has ended start-up, or the self-test or the ports failed. -/
def execRun (s : State) : Out :=
  if !s.dev.poweredOn || s.dev.run || s.dev.failcode != 0 then .next s
  else
    match Config.startUpEnd % 3 with
    | 0 => .next ((s.setDev (fun d => { d with run := true })).setTile 0 (fun x => { x with stage := 3 }))
    | c =>
      .next (((s.setDev (fun d => { d with failcode := c + 2 })).setTile 0 (fun x => { x with stage := 15, failcode := c + 2 })).fatal)

/-- The core `u` after its reset: tile `u` of the pagers, `u - 8` of the management cores. -/
def Group.baseReset (u : Nat) : Group := if u < 8 then Group.pagerReset u else Group.mgmtReset (u - 8)

/-- CORE_RESET (R33, R113, R394): base-tile core `u`. A core held in reset after a take-over stays so (R501), and a
HALTED lane stays HALTED until device reset (R395). -/
def execCoreReset (u : Nat) (s : State) : Out :=
  if 16 ≤ u || (s.tile (u % 8)).stage = 15 || (8 ≤ u && s.coreTaken (u - 8))
    || ((s.getG u).map (fun g => g.laneAt 0 == .halted)).getD false then .next s
  else
    let mine (r : Req) : Bool := match r.who with
      | .lanes k _ => k == u
      | .handler k => k == u
      | _ => false
    let s := { s with
      reqs := s.reqs.filter (fun r => !mine r),
      stores := modWhere (fun x => x.grp == some u) (fun x => { x with grp := none }) s.stores }
    let s := s.setCore (1024 + u) (fun c => { c with cyc := 0 })
    .next ((s.modG u (fun _ => Group.baseReset u)).readHandler u)

/-- DEVICE_RESET (R409, R501, R503): the device stands as after power-good. What lies outside it keeps its contents, the
reference timer runs on, and the model's own counters of free values do (log 22). -/
def execDeviceReset (s : State) : Out :=
  .next { State.reset with
    tick := s.tick, free := s.free, ids := s.ids, host := s.host, pool := s.pool, flash := s.flash, peer := s.peer,
    pois := s.pois.filter (fun e => e.1 % 4 == 3) }

/-! ### Attestation (R494, R496) -/

/-- The report, signed as attestation `n` of the device. -/
def State.report (s : State) (n : Nat) : List Byte :=
  leBytes 8 devId ++ leBytes 8 s.dev.featAccept.toNat
    ++ (List.range 8).flatMap (fun t => leBytes 64 (s.tile t).meas.toNat)
    ++ leBytes 32 s.dev.nonce.toNat ++ leBytes 2 1280 ++ leBytes 14 0
    ++ (List.range 1280).map (Config.signatureByte n)

/-- ATTESTATION (R494): the lead core writes the report to host memory and is done. The host port is port 0 (log 20). -/
def execAttestation (a : BitVec 64) (s : State) : Out :=
  if s.dev.attestBusy != some a then .next s
  else
    let bs := s.report s.free
    .next ({ s with host := mapSetBytes s.host (hostKey 0 a.toNat) bs, free := s.free + 1 }.setDev
      (fun d => { d with attestBusy := none, attest := 1 }))

/-! ### Waking base-tile cores (R497, R503) -/

/-- A core that has exited begins again at packet 0 with `s4` set. -/
def State.wakeBase (s : State) (u : Nat) (x : DWord) : State :=
  s.modG u (fun g => { (((g.setLane 0 .live).setPc 0 0).setBlk 0 Blk.none) with r := g.r.wrS 4 x false, pkt := none })

/-- Core `u` stands exited and may be woken. -/
def State.asleep (s : State) (u : Nat) : Bool :=
  2 ≤ (s.tile (u % 8)).stage && (s.tile (u % 8)).stage != 15 && !(s.tile (u % 8)).lost
    && !(8 ≤ u && s.coreTaken (u - 8))
    && ((s.getG u).map (fun g => g.lane 0 == .exited)).getD false

/-- PAGER_WAKE (R497): items that wait enter the ring as it has room, and an exited core wakes for one that stands in
it. -/
def execPagerWake (t : Nat) (s : State) : Out :=
  let s := if 8 ≤ t then s else s.pump t
  let x := s.tile t
  if 8 ≤ t || !s.asleep t || x.prProd == x.prCons then .next s
  else
    .next (s.wakeBase t (BitVec.ofNat 64 (ringBase x.pagerRing + 64 * (x.prCons % ringSize x.pagerRing))))

/-- Whether a cause to wake the core that owns tile `t`'s block stands. -/
def State.wakeDue (s : State) (t cause : Nat) : Bool :=
  if cause = 1 then (s.tile (s.tile t).owner).lastTimer / 2 ^ 16 < s.tick / 2 ^ 16
  else (s.tile t).wake.contains cause

/-- TMC_WAKE (R497, R503): the management core that owns tile `t` wakes for cause 1 timer, 2 attest, 3 thermal,
4 sibling. -/
def execTmcWake (t cause : Nat) (s : State) : Out :=
  let u := 8 + (s.tile t).owner
  if 8 ≤ t || !s.asleep u || !s.wakeDue t cause then .next s
  else
    let s := s.setTile t (fun x => { x with wake := dropFirst (· == cause) x.wake })
    let s := s.setTile (u - 8) (fun x => { x with lastTimer := s.tick })
    .next (s.wakeBase u (BitVec.ofNat 64 cause))

/-! ### Refresh ownership (R500 to R503) -/

/-- HEARTBEAT_MISS (R501): 125,000 ticks without an accepted heartbeat. -/
def execHeartbeatMiss (t : Nat) (s : State) : Out :=
  let x := s.tile t
  if 8 ≤ t || x.stage < 2 || x.stage = 15 || x.lost || x.missAt.isSome || s.tick < x.lastHb + 125000 then .next s
  else
    let s := s.setTile t (fun x => { x with missAt := some s.tick, orphan := true, rateEff := max (min 2 x.rate) 1 })
    .next (s.setTile (t ^^^ 1) (fun x => { x with wake := x.wake ++ [4] }))

/-- TAKEOVER_TIMEOUT (R501, R503): no take-over within 1,250,000 ticks of the miss. -/
def execTakeoverTimeout (t : Nat) (s : State) : Out :=
  let x := s.tile t
  match x.missAt with
  | none => .next s
  | some m =>
    if x.overdue || s.tick < m + 1250000 then .next s
    else .next ((s.setTile t (fun x => { x with overdue := true })).fatal)

/-! ### Temperatures, clocks, refresh (R498, R499, R502) -/

/-- A threshold of a tile lies between two readings of a die. -/
def Tile.crossed (x : Tile) (a b : Int) : Bool :=
  (List.range 3).any (fun i =>
    let th := tempOf (bitsOf x.therm.toNat (16 * i) 16)
    decide (th ≤ a) != decide (th ≤ b))

/-- The sensors of a tile take a reading, free (log 4); a crossing wakes the management core, and hardware acts on
THROTTLE and TRIP. -/
def State.senseTile (s : State) (t : Nat) : State :=
  let n := s.free
  let new := (List.range 9).foldl (fun m i => mapSet 0 m i (Config.temperature t i n)) ([] : Map (BitVec 16))
  let old := s.tile t
  let s := { s with free := n + 1 }.setTile t (fun x => { x with sensors := new })
  let x := s.tile t
  let hot := (List.range 4).any (fun i => x.crossed (tempOf (old.sensor i)) (tempOf (x.sensor i)))
  let s := if hot then s.setTile t (fun x => { x with wake := x.wake ++ [3] }) else s
  (List.range 4).foldl (fun s i =>
    let d := 4 * t + i
    if (s.die d).lost then s
    else if s.thermAt d 2 ≤ s.dieTemp d then s.due (.dieLoss d)
    else if s.thermAt d 1 ≤ s.dieTemp d then s.due (.throttle d) else s) s

/-- REFRESH (R500, R502): the controllers of tile `t` refresh from their own counters, which changes no value; its
sensors take a reading. -/
def execRefresh (t : Nat) (s : State) : Out := if 8 ≤ t then .next s else .next (s.senseTile t)

/-- THROTTLE (R498): a die at THROTTLE or above runs at 600 MHz. -/
def execThrottle (d : Nat) (s : State) : Out :=
  if 32 ≤ d || (s.die d).throttled || (s.die d).lost || s.dieTemp d < s.thermAt d 1 then .next s
  else .next (s.setDie d (fun x => { x with throttled := true, mhz := 600 }))

/-- THROTTLE_END (R498): it has fallen 5 degrees below. -/
def execThrottleEnd (d : Nat) (s : State) : Out :=
  if 32 ≤ d || !(s.die d).throttled || s.thermAt d 1 - 40 < s.dieTemp d then .next s
  else .next (s.setDie d (fun x => { x with throttled := false, mhz := s.dev.mhz }))

/-- POWER_CLOCK_STEP (R499): every die's clock steps by 50 MHz, down while the module's average power is above the
limit. -/
def execPowerClockStep (up : Bool) (s : State) : Out :=
  let hotter := Config.overPower s.free
  let s := { s with free := s.free + 1 }
  if hotter == up then .next s
  else
    let m := if up then min 1500 (s.dev.mhz + 50) else max 600 (s.dev.mhz - 50)
    .next ((List.range 32).foldl (fun s d =>
      if (s.die d).throttled then s else s.setDie d (fun x => { x with mhz := m })) (s.setDev (fun d => { d with mhz := m })))

end Sys2Proof.Machine
end

