-- ==== Sys2Proof/Machine/Issue.lean ====
section
/-! DEFINITION. The issue of a quarter or of a base-tile core up to the packet: ready groups and their order, the issue
set, rotation, delivery of asynchronous traps, fetch (R18, R19, R37, R135 to R137, R145, R179, R197, R400, R401). The
words of the packet are performed by `State.finishIssue` (Machine/Chain.lean), which needs `exec`. -/

namespace Sys2Proof.Machine

/-! ### The issue set -/

/-- LIVE lanes that may issue: those of the handler while it runs (R396), those of Q in a quantum (R145). -/
def Group.issuable (g : Group) : Word :=
  let live := g.lanesIn .live
  let live := if g.save.isSome then live &&& g.hlanes else live
  if g.quantum != 0 && live &&& g.qmask != 0#32 then live &&& g.qmask else live

/-- Every lane of `m` at the least `pcv` whose block state equals that of the lowest such lane (R135). -/
def Group.leastSet (g : Group) (m : Word) : Word :=
  match leastBy (fun l => (g.pc l).toNat) (lanesOf m) with
  | none => 0
  | some a => maskOf (fun l => m.getLsbD l && g.pc l == g.pc a && g.blkOf l == g.blkOf a)

/-- The shadows of lanes `m` in a protected launch (R410). -/
def Group.shadowsOf (g : Group) (m : Word) : Word :=
  if g.r.prot then ((m &&& 0x55555555#32) <<< 1) &&& g.lanesIn .shadow else 0

/-- The issue set that the group would form next. -/
def Group.issueSet (g : Group) : Word :=
  let m := g.leastSet g.issuable
  m ||| g.shadowsOf m

/-- A quantum ends with no lane of Q LIVE; once BTC has reached 64 one begins (R145). -/
def Group.turn (g : Group) : Group :=
  let g := if g.quantum != 0 && g.lanesIn .live &&& g.qmask == 0#32 then { g with quantum := 0, qmask := 0 } else g
  if 64 ≤ g.btc ∧ g.quantum = 0 then g.beginQuantum else g

/-! ### Ready groups (R197) -/

/-- Unit `4 core + quarter` of a compute group; `4096 + u` of base-tile core `u`. -/
def unitOf (k : Nat) (g : Group) : Nat := if g.isCompute then 4 * g.home + g.quarter else 4096 + k

/-- Whether a group's core runs it: its team is resident and is neither saved nor restored; a base-tile core is out of
reset and not taken over (R493, R501). -/
def State.onCore (s : State) (k : Nat) (g : Group) : Bool :=
  if g.isCompute then
    !g.finished && (match s.team g.team with
      | some t => t.busy == 0 && (match t.place with
        | .resident _ => true
        | _ => false)
      | none => false)
  else 2 ≤ (s.tile g.home).stage && (s.tile g.home).stage != 15 && !(s.tile g.home).lost
    && !(g.kind == .mgmt && s.coreTaken (k - 8))

/-- A group that may issue; what only its chain can show, such as a stall, is found at the issue. Joins whose condition
holds are released before it issues again (R176). -/
def State.canIssue (s : State) (k : Nat) (g : Group) : Bool :=
  g.hold == .none && s.onCore k g && g.issueSet != 0#32 && g.joinDue == 0#32

/-- The groups of a unit that may issue. -/
def State.readyOf (s : State) (u : Nat) : List (Nat × Group) :=
  s.groups.filter (fun e => unitOf e.1 e.2 == u && s.canIssue e.1 e.2)

/-- Whether group `k` of a unit owes a ready group of it an issue (R179). -/
def State.owes (s : State) (u k : Nat) : Bool :=
  ((s.getG k).map (fun g => g.owed.any (fun j => (s.readyOf u).any (fun e => e.1 == j)))).getD false

/-- Those groups by oldest last issue, then by slot (R197); a group that owes a ready group an issue comes after (R179). -/
def State.candidates (s : State) (u : Nat) : List Nat :=
  let rs := s.readyOf u
  let owes (g : Group) : Bool := g.owed.any (fun k => rs.any (fun e => e.1 == k))
  (sortBy (fun e => (if owes e.2 then 2 ^ 80 else 0) + 32 * e.2.lastCyc + e.2.slot) rs).map (·.1)

/-! ### Asynchronous traps (R348, R399, R400) -/

/-- The copy-fault trap (R348). -/
def copyTrap (ctx : Nat) (q : CopyCmd) (lane : Nat) (f : CopyFault) : TrapReq :=
  let b (x : Bool) : Nat := if x then 1 else 0
  mkTrap 14 0
    (BitVec.ofNat 64 (f.handle % 2 ^ 16 + lane % 32 * 2 ^ 16 + f.side % 2 * 2 ^ 21 + b f.resolve * 2 ^ 22
      + b q.stage.isSome * 2 ^ 23 + ctx % 16 * 2 ^ 24 + b f.weir * 2 ^ 28))
    (BitVec.ofNat 64 (if f.weir then q.weirAddr else if f.resolve then 0 else f.addr))
    (BitVec.ofNat 64 (f.cause % 256 + f.detail % 256 * 256))
    (if f.weir || f.resolve then 0 else BitVec.ofNat 64 (f.row % 2 ^ 32 + f.col % 2 ^ 32 * 2 ^ 32))

/-- The asynchronous trap to deliver, copy faults first, and the state in which it counts as delivered. -/
def State.asyncTrap (s : State) : Option (State × TrapReq) :=
  if s.g.r.tm || !s.g.r.aen then none
  else
    match if s.g.isCompute then s.copyPending s.core s.gid else none with
    | some (x, q, i, lane, f) => some (s.markFault s.core x q.id i f, copyTrap x q lane f)
    | none =>
      match s.g.faults with
      | [] => none
      | f :: rest =>
        some (s.setG (fun g => { g with faults := rest }),
          mkTrap 15 0 0 f.addr (BitVec.ofNat 64 (f.cause % 256 + f.detail % 256 * 256)) f.key)

/-! ### Fetch (R18, R19, R37, R136, R404) -/

/-- What reading a part of a packet gives. -/
inductive Fetched where
  | bytes (bs : List Byte) (pois : Bool)
  | park (asid view va : Nat) (st : ReqState)
  | trap (t : TrapReq)
  deriving DecidableEq, Repr

/-- A part of a packet within one 64-byte block, outside the on-chip region; level-1 serves it from a block whose X bit is
set (R240). The group's own stores that a cofferdam or its
world still holds are fetched as it would load them (R112). -/
def State.fetchOff (s : State) (va n : Nat) : State × Fetched :=
  let v := if inTable va then 0 else s.g.view
  let asid := if inTable va then 0 else s.g.asid
  let w := if v = 0 then 0 else s.viewOver asid va 8 v
  let l1 := s.g.isCompute && !inTable va
  let (s, c) := if l1 && (s.ownDam (.home asid w va)).isNone then s.l1Serve asid w va n else (s, none)
  match c.bind (fun b => if b.x then some b else none) with
  | some b => (s, .bytes ((List.range n).map (s.pieceByte ⟨va, n, .home asid w va, some b, false⟩)) false)
  | none =>
    let bad : Fetched := .trap (s.kindTrap (lowestLane s.iss.set) va 5 s.iss.set false)
    let (s, r) :=
      if w = 0 then
        match s.locate .fetch false asid 0 va with
        | (s, .at (.peer d x o)) =>
          match s.peerTry .fetch asid 0 va with
          | (s, .wait y) => (s, Sum.inl (.park asid 0 va y))
          | (s, _) => (s, Sum.inr (.peer d x o))
        | (s, .at l) => (s.countNow (s.gridOfWho (.lanes s.gid 0)) asid va, Sum.inr l)
        | (s, .miss) => (s, Sum.inl (.park asid 0 va .fresh))
        | (s, .wait x) => (s, Sum.inl (.park asid 0 va x))
      else if !s.viewAllows .fetch asid va then (s, Sum.inl (.park asid w va .fresh))
      else
        match s.viewFill asid w va with
        | (s, some (.park a x b _ _ st)) => (s, Sum.inl (.park a x b st))
        | (s, some (.refuse _)) => (s, Sum.inl bad)
        | (s, none) => (s, Sum.inr (.home asid w va))
    match r with
    | Sum.inl e => (s, e)
    | Sum.inr l =>
      let s := s.settleUndo l n
      let s := match l with
        | .home a x h =>
          if l1 && (s.ownDam l).isNone then
            s.l1Fill s.core asid w va (.home a x (alignDown h 64)) true (s.blockX asid va l)
          else s
        | _ => s
      (s, .bytes ((List.range n).map (s.pieceByte ⟨va, n, l, none, false⟩)) (s.locPois l n))

/-- A part of a packet. The device map of base-tile registers permits loads and stores alone (R211, R295). -/
def State.fetchPart (s : State) (va n : Nat) : State × Fetched :=
  if onChip va then
    match s.onChipLoc s.actor va n with
    | .error r => (s, .trap (s.trapOf 8 s.iss.pc.toNat va r 0))
    | .ok (.mgmt _) => (s, .trap (s.kindTrap (lowestLane s.iss.set) va 2 s.iss.set false))
    | .ok l => (s, .bytes (s.rdBytes l n) (s.locPois l n))
  else if inTable va && s.g.r.prv == 0 then (s, .trap (s.trapOf 9 0 va 9 0))
  else s.fetchOff va n

/-- The 12 bytes of a packet, part by part; the first part that is not there decides. -/
def State.fetchBytes (s : State) (va : Nat) : State × Fetched :=
  (blockParts va 12).foldl (fun (acc : State × Fetched) p =>
    match acc with
    | (s, .bytes bs x) =>
      match s.fetchPart p.1 p.2 with
      | (s, .bytes cs y) => (s, .bytes (bs ++ cs) (x || y))
      | r => r
    | r => r) (s, .bytes [] false)

/-- The byte address of a packet (R37). -/
def packetAddr (base : DWord) (idx : Nat) : Nat := base.toNat + 12 * idx

/-- The unit has spent its issue on the group. -/
def State.touch (s : State) : State :=
  let c := (s.coreSt s.core).cyc
  s.setG (fun g => { g with lastCyc := c })

/-- The issue has come to nothing more. -/
def State.endIssue (s : State) : State := { s with iss := Issue.none }

/-- A packet that is not at hand: its bytes are read; lanes park where they are not resident (R142). -/
def State.fetchNew (s : State) (a : Nat) : State :=
  match s.fetchBytes a with
  | (s, .trap t) => ((s.trap t).touch).endIssue
  | (s, .park asid view va st) => ((s.addReq asid view va .fetch 0 (.lanes s.gid s.iss.set) st).leaveChain s.iss.set .parked).endIssue
  | (s, .bytes bs pois) =>
    if pois then ((s.trap { s.trapOf 13 s.iss.pc.toNat a 384 s.iss.set.toNat with addr := a }).touch).endIssue
    else
      let w (i : Nat) : Word := BitVec.ofNat 32 (leNat ((bs.drop (4 * i)).take 4))
      s.setG (fun g => { g with pkt := some ⟨pcPacket s.iss.pc, w 0, w 1, w 2⟩ })

/-- Fetch for the issue set (R56 step 1): the bad-PC and fetch-address traps, the packet, poison in it. An address past
2^57 takes the fetch-address trap (log 23). -/
def State.fetchPacket (s : State) : State :=
  let pc := s.iss.pc
  let a := packetAddr s.g.r.codeBase (pcPacket pc)
  if pcSlot pc = 3 then ((s.trap (s.trapOf 4 pc.toNat 0 0 0)).touch).endIssue
  else if s.g.r.codeBase.extractLsb' 57 7 != 0 || 2 ^ 57 < a + 12 then ((s.trap (s.trapOf 5 0 0 0 0)).touch).endIssue
  else
    match s.g.pkt with
    | some p => if p.idx = pcPacket pc then s else s.fetchNew a
    | none => s.fetchNew a

/-! ### QUARTER_ISSUE -/

/-- A group that is about to issue no longer stands in the debts of the groups of its quarter, and its own are void. -/
def State.payDebts (s : State) (k : Nat) : State :=
  if s.g.isCompute then
    (s.quarterMates.foldl (fun s j => s.modG j (fun g => { g with owed := g.owed.filter (· != k) })) s).setG
      (fun g => { g with owed := [] })
  else s

/-- The issue for group `k` begins (R401 steps 1 and 2, R56 step 1). It goes on only where `iss.set` is not 0 afterwards:
the packet then stands in `pkt`. A pending halt has taken its lanes already (`State.settleHalts`). -/
def State.beginIssue (s : State) (u k : Nat) : State :=
  let s := (s.focusOn k).setG Group.turn
  let set := s.g.issueSet
  if set = 0 then s.endIssue
  else
    let pc := s.g.pc (lowestLane set)
    let s := { s with iss := { Issue.none with unit := u, set := set, eff := set, pc := pc, chainPc := pc } }
    match s.asyncTrap with
    | some (s, t) => ((s.takeTrap { t with lane := lowestLane set } true set).touch).endIssue
    | none => s.fetchPacket

/-- Core cycles pass: at least one. -/
def State.passCycle (s : State) (u : Nat) : State :=
  let c := if u < 4096 then u / 4 else 1024 + (u - 4096)
  { s with free := s.free + 1 }.setCore c (fun x => { x with cyc := x.cyc + 1 + Config.cyclesOfStep s.free })

/-- QUARTER_ISSUE (R135, R197, R401): a cycle of unit `u` and the issue of its first group up to the packet; the step
then performs the chain (`State.finishIssue`). -/
def execQuarterIssue (u : Nat) (s : State) : Out :=
  match s.candidates u with
  | [] => .next s
  | k :: _ => .next ((s.passCycle u).beginIssue u k)

end Sys2Proof.Machine
end

