-- ==== Sys2Proof/Machine/Lane.lean ====
section
/-! DEFINITION. Lane arithmetic, logic, compares, multiplication, moves and bit fields: majors `0x10` to `0x1B` (R97 to
R105). -/

namespace Sys2Proof.Machine

/-- v[D] := f(v[A], v[B]) in each lane with effect. -/
def lane3 (d a b : BitVec 7) (f : Word → Word → Word) (s : State) : State :=
  lane1 (infV3 .v 1 1 1 d a b) d (fun l => f (s.rv a l) (s.rv b l)) s
/-- v[D] := f(v[A]). -/
def laneU (d a : BitVec 7) (f : Word → Word) (s : State) : State :=
  lane1 (infV2 .v 1 1 d a) d (fun l => f (s.rv a l)) s
/-- v[D] := f(v[A], v[B], v[D]). -/
def lane4 (d a b : BitVec 7) (f : Word → Word → Word → Word) (s : State) : State :=
  lane1 (infV4 .v 1 1 1 d a b) d (fun l => f (s.rv a l) (s.rv b l) (s.rv d l)) s

/-- `sel.b32` reads its predicate as a guard (R98, R404). -/
def infSel (d : BitVec 7) (p : BitVec 3) (b : BitVec 7) : Info :=
  { pipe := .v, reads := [.v b.toNat 1], writes := [.v d.toNat 1], consumes := [.p p.toNat] }
/-- Scalar to lanes: `w` lane registers. -/
def infBcast (w : Nat) (d a : BitVec 7) : Info := { pipe := .v, reads := [.s a.toNat], writes := [.v d.toNat w] }
/-- Lane to scalar. -/
def infRdl (w : Nat) (d a b : BitVec 7) : Info :=
  { pipe := .v, reads := [.v a.toNat w, .s b.toNat], writes := [.s d.toNat] }
def infWrl (d a b : BitVec 7) : Info :=
  { pipe := .v, reads := [.s a.toNat, .s b.toNat], writes := [.v d.toNat 1] }
def infPget (d : BitVec 7) (p : BitVec 3) : Info := { pipe := .v, reads := [.p p.toNat], writes := [.v d.toNat 1] }

/-- The lane index of R105. -/
def State.laneIdx (s : State) (b : BitVec 7) : Nat := bitsOf (s.rs b).toNat 0 5 % s.g.width

/-- A scalar read from lane x (R105); its poison is that of the lane's register and of the index. -/
def rdlOut (w : Nat) (d a b : BitVec 7) (x : DWord) (s : State) : State :=
  s.setR (fun r => r.wrS d.toNat x (s.src.poisW w a.toNat (s.laneIdx b) || s.src.poisS b.toNat))

/-- Whether a lane takes the value of `wrl`: lane x, and its shadow in a protected launch (R105, R410; log 12). -/
def State.wrlLane (s : State) (b : BitVec 7) (l : Nat) : Bool :=
  l == s.laneIdx b || (s.src.prot && l % 2 == 1 && l == s.laneIdx b + 1)

/-- `add.i32` (R97). -/
def execAddI32 (d a b : BitVec 7) (s : State) : Out :=
  issued (infV3 .v 1 1 1 d a b) s (lane3 d a b (fun x y => x + y))

/-- `sub.i32` (R97). -/
def execSubI32 (d a b : BitVec 7) (s : State) : Out :=
  issued (infV3 .v 1 1 1 d a b) s (lane3 d a b (fun x y => x - y))

/-- `and.b32` (R97). -/
def execAndB32 (d a b : BitVec 7) (s : State) : Out :=
  issued (infV3 .v 1 1 1 d a b) s (lane3 d a b (fun x y => x &&& y))

/-- `or.b32` (R97). -/
def execOrB32 (d a b : BitVec 7) (s : State) : Out :=
  issued (infV3 .v 1 1 1 d a b) s (lane3 d a b (fun x y => x ||| y))

/-- `xor.b32` (R97). -/
def execXorB32 (d a b : BitVec 7) (s : State) : Out :=
  issued (infV3 .v 1 1 1 d a b) s (lane3 d a b (fun x y => x ^^^ y))

/-- `andn.b32` (R97). -/
def execAndnB32 (d a b : BitVec 7) (s : State) : Out :=
  issued (infV3 .v 1 1 1 d a b) s (lane3 d a b (fun x y => x &&& ~~~y))

/-- `sll.b32` (R97). -/
def execSllB32 (d a b : BitVec 7) (s : State) : Out :=
  issued (infV3 .v 1 1 1 d a b) s (lane3 d a b (fun x y => x <<< (y.toNat % 32)))

/-- `srl.b32` (R97). -/
def execSrlB32 (d a b : BitVec 7) (s : State) : Out :=
  issued (infV3 .v 1 1 1 d a b) s (lane3 d a b (fun x y => x >>> (y.toNat % 32)))

/-- `sra.b32` (R97). -/
def execSraB32 (d a b : BitVec 7) (s : State) : Out :=
  issued (infV3 .v 1 1 1 d a b) s (lane3 d a b (fun x y => x.sshiftRight (y.toNat % 32)))

/-- `min.i32` (R97). -/
def execMinI32 (d a b : BitVec 7) (s : State) : Out :=
  issued (infV3 .v 1 1 1 d a b) s (lane3 d a b (fun x y => minS x y))

/-- `max.i32` (R97). -/
def execMaxI32 (d a b : BitVec 7) (s : State) : Out :=
  issued (infV3 .v 1 1 1 d a b) s (lane3 d a b (fun x y => maxS x y))

/-- `min.n32` (R97). -/
def execMinN32 (d a b : BitVec 7) (s : State) : Out :=
  issued (infV3 .v 1 1 1 d a b) s (lane3 d a b (fun x y => minU x y))

/-- `max.n32` (R97). -/
def execMaxN32 (d a b : BitVec 7) (s : State) : Out :=
  issued (infV3 .v 1 1 1 d a b) s (lane3 d a b (fun x y => maxU x y))

/-- `adds.i32` (R97). -/
def execAddsI32 (d a b : BitVec 7) (s : State) : Out :=
  issued (infV3 .v 1 1 1 d a b) s (lane3 d a b (fun x y => satS 32 (x.toInt + y.toInt)))

/-- `subs.i32` (R97). -/
def execSubsI32 (d a b : BitVec 7) (s : State) : Out :=
  issued (infV3 .v 1 1 1 d a b) s (lane3 d a b (fun x y => satS 32 (x.toInt - y.toInt)))

/-- `sel.b32` (R98). -/
def execSelB32 (d : BitVec 7) (p : BitVec 3) (b : BitVec 7) (s : State) : Out :=
  issued (infSel d p b) s (State.eachEff (f := fun r l => if s.src.rdPL p.toNat l then r.wrV d.toNat l (s.rv b l) ((infSel d p b).pois s.src l) else r))

/-- `add.i32` (R89, R97). -/
def execAddI32Imm (d a : BitVec 7) (i : Imm) (s : State) : Out :=
  issued (infV2 .v 1 1 d a) s (laneU d a (fun x => x + i.val32))

/-- `and.b32` (R89, R97). -/
def execAndB32Imm (d a : BitVec 7) (i : Imm) (s : State) : Out :=
  issued (infV2 .v 1 1 d a) s (laneU d a (fun x => x &&& i.val32))

/-- `or.b32` (R89, R97). -/
def execOrB32Imm (d a : BitVec 7) (i : Imm) (s : State) : Out :=
  issued (infV2 .v 1 1 d a) s (laneU d a (fun x => x ||| i.val32))

/-- `xor.b32` (R89, R97). -/
def execXorB32Imm (d a : BitVec 7) (i : Imm) (s : State) : Out :=
  issued (infV2 .v 1 1 d a) s (laneU d a (fun x => x ^^^ i.val32))

/-- `sll.b32` (R90, R97). -/
def execSllB32Imm (d a : BitVec 7) (n : BitVec 6) (_lit : Bool) (s : State) : Out :=
  issued (infV2 .v 1 1 d a) s (laneU d a (fun x => x <<< n.toNat))

/-- `srl.b32` (R90, R97). -/
def execSrlB32Imm (d a : BitVec 7) (n : BitVec 6) (_lit : Bool) (s : State) : Out :=
  issued (infV2 .v 1 1 d a) s (laneU d a (fun x => x >>> n.toNat))

/-- `sra.b32` (R90, R97). -/
def execSraB32Imm (d a : BitVec 7) (n : BitVec 6) (_lit : Bool) (s : State) : Out :=
  issued (infV2 .v 1 1 d a) s (laneU d a (fun x => x.sshiftRight n.toNat))

/-- `ror.b32` (R90, R97). -/
def execRorB32Imm (d a : BitVec 7) (n : BitVec 6) (_lit : Bool) (s : State) : Out :=
  issued (infV2 .v 1 1 d a) s (laneU d a (fun x => x.rotateRight n.toNat))

/-- `mov.b32` (R97). -/
def execMovB32Imm (d : BitVec 7) (i : Imm) (s : State) : Out :=
  issued (infVD d) s (lane1 (infVD d) d (fun _ => i.val32))

/-- `mul.b32` (R99). -/
def execMulB32 (d a b : BitVec 7) (s : State) : Out :=
  issued (infV3 .v 1 1 1 d a b) s (lane3 d a b (fun x y => x * y))

/-- `mulh.i32` (R99). -/
def execMulhI32 (d a b : BitVec 7) (s : State) : Out :=
  issued (infV3 .v 1 1 1 d a b) s (lane3 d a b (fun x y => mulhS x y))

/-- `mulh.n32` (R99). -/
def execMulhN32 (d a b : BitVec 7) (s : State) : Out :=
  issued (infV3 .v 1 1 1 d a b) s (lane3 d a b (fun x y => mulhU x y))

/-- `mad.b32` (R99). -/
def execMadB32 (d a b : BitVec 7) (s : State) : Out :=
  issued (infV4 .v 1 1 1 d a b) s (lane4 d a b (fun x y z => x * y + z))

/-- `div.i32` (R95, R99). -/
def execDivI32 (d a b : BitVec 7) (s : State) : Out :=
  issued (infV3 .v 1 1 1 d a b) s (lane3 d a b (fun x y => quotS x y))

/-- `div.n32` (R95, R99). -/
def execDivN32 (d a b : BitVec 7) (s : State) : Out :=
  issued (infV3 .v 1 1 1 d a b) s (lane3 d a b (fun x y => quotU x y))

/-- `rem.i32` (R95, R99). -/
def execRemI32 (d a b : BitVec 7) (s : State) : Out :=
  issued (infV3 .v 1 1 1 d a b) s (lane3 d a b (fun x y => remS x y))

/-- `rem.n32` (R95, R99). -/
def execRemN32 (d a b : BitVec 7) (s : State) : Out :=
  issued (infV3 .v 1 1 1 d a b) s (lane3 d a b (fun x y => remU x y))

/-- `mulw.i32` (R99). -/
def execMulwI32 (d a b : BitVec 7) (s : State) : Out :=
  issued (infV3 .v 2 1 1 d a b) s (lane2 (infV3 .v 2 1 1 d a b) d (fun l => (s.rv a l).signExtend 64 * (s.rv b l).signExtend 64))

/-- `mulw.n32` (R99). -/
def execMulwN32 (d a b : BitVec 7) (s : State) : Out :=
  issued (infV3 .v 2 1 1 d a b) s (lane2 (infV3 .v 2 1 1 d a b) d (fun l => (s.rv a l).zeroExtend 64 * (s.rv b l).zeroExtend 64))

/-- `madw.n32` (R99). -/
def execMadwN32 (d a b : BitVec 7) (s : State) : Out :=
  issued (infV4 .v 2 1 1 d a b) s (lane2 (infV4 .v 2 1 1 d a b) d (fun l => s.rv2 d l + (s.rv a l).zeroExtend 64 * (s.rv b l).zeroExtend 64))

/-- `dp4.i8` (R99). -/
def execDp4I8 (d a b : BitVec 7) (s : State) : Out :=
  issued (infV4 .v 1 1 1 d a b) s (lane4 d a b (fun x y z => z + BitVec.ofInt 32 (dot4 BitVec.toInt x y)))

/-- `dp4.n8` (R99). -/
def execDp4N8 (d a b : BitVec 7) (s : State) : Out :=
  issued (infV4 .v 1 1 1 d a b) s (lane4 d a b (fun x y z => z + BitVec.ofInt 32 (dot4 (fun v => (v.toNat : Int)) x y)))

/-- `cc.T32` (R102). -/
def execLaneCompare (p : BitVec 3) (a b : BitVec 7) (k : BitVec 4) (s : State) : Out :=
  issued (infVP 1 p a b) s (lanePred (infVP 1 p a b) p.toNat (fun l => intCond k (s.rv a l) (s.rv b l)))

/-- `cc.T32 immediate` (R103). -/
def execLaneCompareImm (k : BitVec 4) (p : BitVec 3) (a : BitVec 7) (i : Imm) (s : State) : Out :=
  issued (infVPI p a) s (lanePred (infVPI p a) p.toNat (fun l => intCond k (s.rv a l) i.val32))

/-- `bcast.b32` (R105). -/
def execBcastB32 (d a : BitVec 7) (s : State) : Out :=
  issued (infBcast 1 d a) s (lane1 (infBcast 1 d a) d (fun _ => (s.rs a).extractLsb' 0 32))

/-- `bcast.b64` (R105). -/
def execBcastB64 (d a : BitVec 7) (s : State) : Out :=
  issued (infBcast 2 d a) s (lane2 (infBcast 2 d a) d (fun _ => s.rs a))

/-- `rdl.n32` (R105). -/
def execRdlN32 (d a b : BitVec 7) (s : State) : Out :=
  issued (infRdl 1 d a b) s (rdlOut 1 d a b ((s.rv a (s.laneIdx b)).zeroExtend 64))

/-- `rdl.i32` (R105). -/
def execRdlI32 (d a b : BitVec 7) (s : State) : Out :=
  issued (infRdl 1 d a b) s (rdlOut 1 d a b ((s.rv a (s.laneIdx b)).signExtend 64))

/-- `rdl.b64` (R105). -/
def execRdlB64 (d a b : BitVec 7) (s : State) : Out :=
  issued (infRdl 2 d a b) s (rdlOut 2 d a b (s.rv2 a (s.laneIdx b)))

/-- `wrl.b32` (R105). -/
def execWrlB32 (d a b : BitVec 7) (s : State) : Out :=
  issued (infWrl d a b) s (State.eachEff (f := fun r l => if s.wrlLane b l then r.wrV d.toNat l ((s.rs a).extractLsb' 0 32) ((infWrl d a b).poisAny s) else r))

/-- `mov.b32` (R105). -/
def execMovB32 (d a : BitVec 7) (s : State) : Out :=
  issued (infV2 .v 1 1 d a) s (laneU d a id)

/-- `mov.b64` (R105). -/
def execMovB64 (d a : BitVec 7) (s : State) : Out :=
  issued (infV2 .v 2 2 d a) s (lane2 (infV2 .v 2 2 d a) d (fun l => s.rv2 a l))

/-- `pget.b32` (R105). -/
def execPgetB32 (d : BitVec 7) (p : BitVec 3) (s : State) : Out :=
  issued (infPget d p) s (lane1 (infPget d p) d (fun l => if s.src.rdPL p.toNat l then 1 else 0))

/-- `popc.b32` (R96, R100). -/
def execPopcB32 (d a : BitVec 7) (s : State) : Out :=
  issued (infV2 .v 1 1 d a) s (laneU d a (fun x => BitVec.ofNat 32 (popcount x)))

/-- `clz.b32` (R96, R100). -/
def execClzB32 (d a : BitVec 7) (s : State) : Out :=
  issued (infV2 .v 1 1 d a) s (laneU d a (fun x => BitVec.ofNat 32 (leadingZeros x)))

/-- `ctz.b32` (R96, R100). -/
def execCtzB32 (d a : BitVec 7) (s : State) : Out :=
  issued (infV2 .v 1 1 d a) s (laneU d a (fun x => BitVec.ofNat 32 (lowestSet x)))

/-- `brev.b32` (R96, R100). -/
def execBrevB32 (d a : BitVec 7) (s : State) : Out :=
  issued (infV2 .v 1 1 d a) s (laneU d a (fun x => bitReverse x))

/-- `bswap.b32` (R96, R100). -/
def execBswapB32 (d a : BitVec 7) (s : State) : Out :=
  issued (infV2 .v 1 1 d a) s (laneU d a (fun x => byteReverse 4 x))

/-- `bext.n32` (R96, R100). -/
def execBextN32 (d a b : BitVec 7) (s : State) : Out :=
  issued (infV3 .v 1 1 1 d a b) s (lane3 d a b (fun x y => bextN x (bitsOf y.toNat 0 5) (bitsOf y.toNat 8 6)))

/-- `bext.i32` (R96, R100). -/
def execBextI32 (d a b : BitVec 7) (s : State) : Out :=
  issued (infV3 .v 1 1 1 d a b) s (lane3 d a b (fun x y => bextI x (bitsOf y.toNat 0 5) (bitsOf y.toNat 8 6)))

/-- `bins.b32` (R96, R100). -/
def execBinsB32 (d a b : BitVec 7) (s : State) : Out :=
  issued (infV4 .v 1 1 1 d a b) s (lane4 d a b (fun x y z => bins z x (bitsOf y.toNat 0 5) (bitsOf y.toNat 8 6)))

end Sys2Proof.Machine
end

