-- ==== Sys2Proof/Machine/Matrix.lean ====
section
/-! DEFINITION. The matrix engine: the words of major `0x3A` and the events of the units (R351 to R376, R82 to R84). -/

namespace Sys2Proof.Machine

/-! ### The parameter block (R355 to R357) -/

/-- A parameter block as its fields. -/
structure MatPar where
  aoff : Nat
  boff : Nat
  afmt : Nat
  bfmt : Nat
  kc : Nat
  sparse : Bool
  ascale : Bool
  bscale : Bool
  cb : Bool
  tbl : Nat
  deriving DecidableEq, Repr

/-- Fields of the words of a parameter block (R356). -/
def MatPar.ofWords (w : Nat → Nat) : MatPar :=
  { aoff := bitsOf (w 0) 0 20, boff := bitsOf (w 1) 0 20, afmt := bitsOf (w 2) 0 3, bfmt := bitsOf (w 2) 4 3,
    kc := bitsOf (w 2) 8 2 + 1, sparse := bitsOf (w 2) 12 1 == 1, ascale := bitsOf (w 2) 13 1 == 1,
    bscale := bitsOf (w 2) 14 1 == 1, cb := bitsOf (w 2) 15 1 == 1, tbl := bitsOf (w 2) 16 3 }

/-- The bits that R356 marks zero in word `i`. -/
def matZero (i : Nat) : Nat :=
  match i with
  | 0 | 1 => 0xFFF00000
  | 2 => 0xFFF80C88
  | _ => 0xFFFFFFFF

/-- An activation of 8 bits. -/
def MatPar.narrow (p : MatPar) : Bool := p.afmt < 2
/-- A W4 or W3 weight. -/
def MatPar.coded (p : MatPar) : Bool := p.bfmt == 4 || p.bfmt == 5

/-- The pairs of R357. -/
def MatPar.pairOk (p : MatPar) : Bool :=
  p.afmt < 4 && (p.coded || (p.narrow && p.bfmt < 2) || (!p.narrow && p.bfmt == p.afmt))

/-- Bytes of fragment A and of fragment B (R355). -/
def MatPar.aBytes (p : MatPar) : Nat := p.kc * if p.narrow then 1024 else 2048
def MatPar.bUnit (p : MatPar) : Nat :=
  if p.bfmt = 5 then 384 else if p.bfmt = 4 ∨ p.sparse then 512 else if p.bfmt < 2 then 1024 else 2048
def MatPar.bBytes (p : MatPar) : Nat := p.kc * p.bUnit

/-- The first operand that breaks reason 5, then 6, of R362: offset, alignment, bytes. -/
def offsetsBad (scratch : Nat) (xs : List (Nat × Nat × Nat)) : Option (Nat × Nat) :=
  match xs.find? (fun x => x.1 % x.2.1 != 0) with
  | some x => some (5, x.1)
  | none => (xs.find? (fun x => 2 ^ 20 ≤ x.1 || scratch < x.1 + x.2.2)).map (fun x => (6, x.1))

/-- The reason of the matrix-parameter trap for a parameter block, with its value (R362, R492). -/
def matBad (sparsity w3 : Bool) (scratch : Nat) (w : Nat → Nat) : Option (Nat × Nat) :=
  let p := MatPar.ofWords w
  match (List.range 4).find? (fun i => w i &&& matZero i != 0) with
  | some i => some (1, w i)
  | none =>
    if !p.pairOk || (p.bfmt == 5 && !w3) then some (2, w 2)
    else if p.sparse && (!sparsity || !p.narrow || 2 ≤ p.bfmt || 2 < p.kc) then some (3, w 2)
    else if (p.ascale && !p.narrow) || (p.bscale && !(p.narrow && p.bfmt < 2)) || (p.cb && !p.coded) then some (4, w 2)
    else offsetsBad scratch [(p.aoff, 256, p.aBytes), (p.boff, 256, p.bBytes)]

/-! ### Elements (R67, R71, R72, R358 to R360) -/

def matFmt (n : Nat) : Fmt :=
  match n with
  | 0 => e4m3
  | 1 => e5m2
  | 2 => bf16
  | _ => f16

/-- What an operation reads: fragment bytes, codebook entries of the captured bank, side words by register and lane. -/
structure MatSrc where
  a : Nat → Nat → Nat
  b : Nat → Nat → Nat
  code : Nat → Nat
  side : Nat → Nat → Nat

/-- A(m, k) (R355). -/
def MatPar.aElem (p : MatPar) (x : MatSrc) (m k : Nat) : FV :=
  let c := k / 32
  let kk := k % 32
  (matFmt p.afmt).dec (if p.narrow then x.a (1024 * c + 32 * m + kk) 1 else x.a (2048 * c + 64 * m + 2 * kk) 2)

/-- B(k, n); `none` where 2:4 sparsity omits it (R355, R359, R360). -/
def MatPar.bElem (p : MatPar) (x : MatSrc) (k n : Nat) : Option FV :=
  let c := k / 32
  let kk := k % 32
  if p.coded then
    let w := if p.bfmt = 5 then 3 else 4
    let g := if p.bfmt = 5 then x.b (384 * c + 12 * n) 12 else x.b (512 * c + 16 * n) 16
    let u := bitsOf g (w * kk) w
    if p.cb then some (bf16.dec (x.code (16 * p.tbl + u)))
    else
      let v := signedOf w u
      some (.num (decide (v < 0)) v.natAbs 0)
  else if p.sparse then
    let md := x.side (2 + c) n
    let g := kk / 4
    let i := kk % 4
    let at_ (j : Nat) : FV := (matFmt p.bfmt).dec (x.b (512 * c + 16 * n + j) 1)
    if i = bitsOf md (4 * g + 2) 2 then some (at_ (2 * g + 1))
    else if i = bitsOf md (4 * g) 2 then some (at_ (2 * g))
    else none
  else
    some ((matFmt p.bfmt).dec (if p.bfmt < 2 then x.b (1024 * c + 32 * n + kk) 1 else x.b (2048 * c + 64 * n + 2 * kk) 2))

/-- The scales of unit `c` (R358). -/
def MatPar.sa (p : MatPar) (x : MatSrc) (bsel c m : Nat) : Nat :=
  if p.ascale then bitsOf (x.side 1 m) (8 * ((bsel + c) % 4)) 8 else 127
def MatPar.sb (p : MatPar) (x : MatSrc) (bsel c n : Nat) : Nat :=
  if p.coded || p.bscale then bitsOf (x.side 0 n) (8 * ((bsel + c) % 4)) 8 else 127

/-! ### Sums (R83, R84, R363) -/

/-- The exact sum of numbers, at their least exponent. -/
def sumAt (xs : List FV) (e0 : Int) : Int :=
  xs.foldl (fun t x => match x with
    | .num s m e => t + scaled s m e e0
    | _ => t) 0

/-- One chunk: its products, the power of two of its scales; an omitted product is `none` (R83, R84). -/
def chunkVal (ps : List (Option (FV × FV))) (sh : Int) : FpRes :=
  let xs := ps.filterMap id
  let zs := xs.map (fun p => mulExact p.1 p.2)
  let nan := xs.any (fun p => p.1.isNan || p.2.isNan)
  let zinf := xs.any (fun p => !p.1.isNan && !p.2.isNan && (mulExact p.1 p.2).isNone)
  let pos := zs.any (· == some (.inf false))
  let neg := zs.any (· == some (.inf true))
  if zinf || (pos && neg) then (f32.qnan, flagNV)
  else if nan then (f32.qnan, 0)
  else if pos || neg then (f32.signed neg f32.infMag, 0)
  else
    let vs := zs.filterMap id
    let e0 := vs.foldl (fun e x => match x with
      | .num _ m k => if m = 0 then e else min e k
      | _ => e) 0
    let t := sumAt vs e0
    if t = 0 then
      let minus := !ps.any Option.isNone && vs.all (fun x => x == .num true 0 (match x with
        | .num _ _ k => k
        | _ => 0))
      (f32.signed minus 0, 0)
    else roundTo f32 plainRne false (decide (t < 0)) t.natAbs (e0 + sh)

/-- `Round(acc + chunk)` (R84). -/
def accAdd (acc x : Nat) : FpRes :=
  let a := f32.dec acc
  let b := f32.dec x
  if a.isNan || b.isNan then (f32.qnan, if a.isSnan then flagNV else 0) else addCore f32 plainRne a b

/-- Element (m, n) of an operation from its start value (R363). -/
def MatPar.element (p : MatPar) (x : MatSrc) (bsel m n acc : Nat) : FpRes :=
  let ch := if p.narrow then 32 else 8
  (List.range (p.kc * 32 / ch)).foldl (fun r j =>
    let c := j * ch / 32
    let s1 := p.sa x bsel c m
    let s2 := p.sb x bsel c n
    let v := if s1 = 255 ∨ s2 = 255 then (f32.qnan, flagNV)
      else chunkVal ((List.range ch).map (fun i =>
        (p.bElem x (j * ch + i) n).map (fun b => (p.aElem x m (j * ch + i), b)))) ((s1 : Int) + s2 - 254)
    let z := accAdd r.1 v.1
    (z.1, r.2 ||| v.2 ||| z.2)) (acc, 0)

/-- NV and OF of the matrix status (R364). -/
def matFlags (f : BitVec 5) : BitVec 3 :=
  (if f &&& flagNV != 0#5 then 1#3 else 0#3) ||| (if f &&& flagOF != 0#5 then 2#3 else 0#3)

/-! ### Places -/

/-- Byte offset of a tile in the accumulator file (R353). -/
def tileOff (q t : Nat) : Nat := 0x10000 * q + 0x1000 * t

/-- A tile's place in the active file of a core. -/
def State.tileLoc (s : State) (core q t o : Nat) : Loc := .acc core (s.coreSt core).bank (tileOff q t + o)

/-- A copy owns the tile or has asked for it; `some id` counts only what commands before `id` hold (R374). -/
def State.tileOwned (s : State) (core q t : Nat) (before : Option Nat) : Bool :=
  let lo := accBlk core (s.coreSt core).bank (tileOff q t)
  s.owns.any (fun o => o.blk % 4 == 2 && lo ≤ o.blk && o.blk < lo + 256
    && (match before with
      | none => true
      | some id => o.held && o.cmd < id))

/-- Bytes of the team's scratchpad as a number. -/
def State.padLd (s : State) (t : Team) (o n : Nat) : Nat :=
  leNat ((List.range n).map (fun i => s.rdByte (t.spad (o + i)) 0))

/-- The 64-byte blocks of a scratchpad range. -/
def padBlocks (o n : Nat) : List Nat := (List.range ((n + 63) / 64)).map (fun j => o + 64 * j)

/-- A number is that of a matrix command that is not complete. -/
def State.ofUnit (s : State) (id : Nat) : Bool := s.mu.any (fun e => e.2.any (fun m => m.id == id))

/-- A copy owns a block of the range, or a cofferdam holds it (R284, R373). The blocks that tile stores own hold back no
unit (DEDUCED from R351 and R373, log 57). -/
def State.padHeld (s : State) (t : Team) (o n : Nat) : Bool :=
  (blockParts o n).any (fun p => match (t.spad p.1).ownKey 0 with
    | none => false
    | some b => s.owns.any (fun y => y.held && y.blk == b && !s.ofUnit y.cmd) || s.dams.any (fun d => !d.breached && d.blk == b))

def State.padPois (s : State) (t : Team) (o n : Nat) : Bool :=
  (alignDown o 64 :: (padBlocks o n ++ [o + n - 1])).any (fun x => s.locPois (t.spad x) 1)

/-- The unit as an accessor; a command carries what happens before it (R373). -/
def State.unitAccessor (s : State) (core q gid : Nat) (c : Map Nat) : Accessor :=
  { agent := muAgent core q, core := core, grp := ((s.getG gid).map Group.grp).getD 0, engine := true, pc := 0,
    lanes := 0, gid := gid, clock := some c }

/-- The unit's accesses to a scratchpad range, for the race detector. -/
def State.padNote (s : State) (a : Accessor) (t : Team) (o n : Nat) (write : Bool) : State :=
  (blockParts o n).foldl (fun s p => s.noteAccess a (t.spad p.1) (localBase + p.1) p.2 write) s

/-- Writes whole blocks with the poison of each (R376, R403). -/
def State.unitWrite (s : State) (at_ : Nat → Loc) (bs : List Byte) (pois : Nat → Bool) : State :=
  (List.range (bs.length / 64)).foldl (fun s j =>
    let l := at_ (64 * j)
    let s := (s.wrBytesFrom l 0 ((bs.drop (64 * j)).take 64)).plainWrite 32 l 64
    match l.pblk 0 with
    | none => s
    | some b => s.setPois b (pois j)) s

/-- Sets matrix-status bits of a quarter (R364). -/
def State.setMx (s : State) (tm q : Nat) (b : BitVec 3) : State :=
  s.setTeam tm (fun t => { t with mxstat := mapMod 0 t.mxstat q (fun x => x ||| b) })

/-! ### The words -/

def infMx (rs ws : List Reg) (c : Cnt) (uni use : List Reg) : Info :=
  { pipe := .m, reads := rs, writes := ws, base := false, role := 2, counter := c, uniform := uni, consumes := use }

/-- The matrix-parameter trap (R362). -/
def State.matTrap (s : State) (reason value : Nat) : State :=
  s.trap (s.trapOf 12 s.iss.pc.toNat s.iss.word.toNat reason value)

/-- The allotment of the executing group's team. -/
def State.padSize (s : State) : Nat := (s.myTeam.map Team.scratch).getD 0

/-- The scratchpad blocks that a tile store writes, as requests for ownership (R275, R369). -/
def State.muOwn (s : State) (id o n : Nat) : State :=
  match s.myTeam with
  | none => s
  | some t => (padBlocks o n).foldl (fun s x =>
      match (t.spad x).ownKey 0 with
      | none => s
      | some b =>
        let (s, k) := s.fresh
        { s with owns := s.owns ++ [Own.mk k b s.core id (64 * id) s.gid false 64] }) s

/-- A command joins its unit's queue (R351, R352). -/
def State.muEnter (s : State) (op : MuOp) (own : Option (Nat × Nat)) : State :=
  let core := s.core
  let q := s.g.quarter
  let (s, id) := s.fresh
  let s := s.setMuq core q (s.muq core q ++ [⟨id, s.gid, op, s.race.clock s.gid⟩])
  let s := (s.setG (fun g => { g with mxcnt := g.mxcnt + 1 })).hbTick s.gid
  match own with
  | none => s
  | some (o, n) => s.muOwn id o n

/-- The unit of quarter `q` of a core holds 16 commands not yet complete, the codebook loads issued to it among them
(R351). -/
def State.unitFull (s : State) (core q : Nat) : Bool :=
  let mine (x : CbCmd) : Bool := ((s.getG x.grp).map Group.quarter) == some q
  16 ≤ (s.muq core q).length + ((mapGet [] s.cbq core).filter mine).length

/-- A command for tile `t`: it waits while its unit is full or a copy owns the tile (R351, R374), then its operands are
checked (R362). -/
def State.muCommand (s : State) (t : Nat) (waits : Bool) (bad : Option (Nat × Nat)) (op : State → MuOp)
    (own : Option (Nat × Nat)) : State :=
  if s.unitFull s.core s.g.quarter || s.tileOwned s.core s.g.quarter t none || waits then s.stall
  else
    match bad with
    | some (r, v) => s.matTrap r v
    | none => s.muEnter (op s) own

/-- A codebook load of the group is not yet complete (R367). -/
def State.loadsCodebook (s : State) : Bool := (mapGet [] s.cbq s.core).any (fun x => x.grp == s.gid)

/-- `mma` (R361 to R363, R365). -/
def execMma (t : BitVec 4) (z : BitVec 1) (s : BitVec 2) (a b : BitVec 7) (st : State) : Out :=
  issued (infMx [.v a.toNat 4, .v b.toNat 4] [] .mx
      [.v a.toNat 1, .v (a.toNat + 1) 1, .v (a.toNat + 2) 1, .v (a.toNat + 3) 1] [.v a.toNat 4]) st (fun st =>
    let u := st.lead
    let w (i : Nat) : Word := st.src.rdV (a.toNat + i) u
    let p := MatPar.ofWords (fun i => (w i).toNat)
    let c := st.coreSt st.core
    st.muCommand t.toNat (p.cb && st.loadsCodebook) (matBad (st.feat 0) (st.feat 1) st.padSize (fun i => (w i).toNat))
      (fun st => .mma t.toNat (z == 1#1) s.toNat ((List.range 4).map w)
        ((List.range 128).map (fun k => st.src.rdV (b.toNat + k / 32) (k % 32)))
        (if p.cb then some (c.act, c.cbgen) else none)) none)

/-- `mld.f32` (R368). -/
def execMld (t : BitVec 4) (a : BitVec 7) (s : State) : Out :=
  issued (infMx [.s a.toNat] [] .mx [] [.s a.toNat]) s (fun s =>
    let o := (s.rs a).toNat
    s.muCommand t.toNat false (offsetsBad s.padSize [(o, 256, 4096)]) (fun _ => .mld t.toNat o) none)

/-- The weir that a tile store names, if it makes an update (R369). -/
def storeWeir (b : DWord) : Option Nat := if b.getLsbD 63 then none else some b.toNat

/-- A tile store: bytes written, alignment. -/
def State.muStore (s : State) (t n al : Nat) (a b : DWord) (op : Option Nat → MuOp) : State :=
  let w := storeWeir b
  let xs := (a.toNat, al, n) :: (match w with
    | none => []
    | some x => [(x, 16, 16)])
  s.muCommand t false (offsetsBad s.padSize xs) (fun _ => op w) (some (a.toNat, n))

/-- `mst` (R369). -/
def execMst (t : BitVec 4) (f : BitVec 1) (a b : BitVec 7) (s : State) : Out :=
  issued (infMx [.s a.toNat, .s b.toNat] [] .mx [] [.s a.toNat, .s b.toNat]) s (fun s =>
    s.muStore t.toNat (if f = 1#1 then 2048 else 4096) 256 (s.rs a) (s.rs b) (fun w => .mst t.toNat (s.rs a).toNat (f == 1#1) w))

/-- `mqst` (R370). -/
def execMqst (t : BitVec 4) (q : BitVec 1) (a b : BitVec 7) (s : State) : Out :=
  issued (infMx [.s a.toNat, .s b.toNat] [] .mx [] [.s a.toNat, .s b.toNat]) s (fun s =>
    s.muStore t.toNat 2112 64 (s.rs a) (s.rs b) (fun w => .mqst t.toNat (s.rs a).toNat (q == 1#1) w))

/-- `mcb` (R351, R366, R367): it joins the core's queue of codebook loads. -/
def execMcb (a : BitVec 7) (s : State) : Out :=
  issued (infMx [.s a.toNat] [] .mx [] [.s a.toNat]) s (fun s =>
    let o := (s.rs a).toNat
    if s.unitFull s.core s.g.quarter then s.stall
    else
      match offsetsBad s.padSize [(o, 64, 256)] with
      | some (r, v) => s.matTrap r v
      | none =>
        let s := { s with cbq := mapMod [] s.cbq s.core (fun x => x ++ [CbCmd.mk s.gid o (s.race.clock s.gid)]) }
        (s.setG (fun g => { g with mxcnt := g.mxcnt + 1 })).hbTick s.gid)

/-- The matrix status of the issuing group's quarter (R371). -/
def State.mxWord (s : State) : Nat :=
  let c := s.coreSt s.core
  c.cbgen % 65536 + c.act % 2 * 2 ^ 16 + (if (mapGet [] s.cbq s.core).isEmpty then 0 else 2 ^ 17)
    + ((s.myTeam.map (fun t => (mapGet 0 t.mxstat s.g.quarter).toNat)).getD 0) * 2 ^ 24

/-- `mxst` (R371). -/
def execMxst (d : BitVec 7) (s : State) : Out :=
  issued (infMx [] [.s d.toNat] .none [] []) s (fun s => scalarOut (infSD d) d (BitVec.ofNat 64 s.mxWord) s)

/-- `mxst.clr` (R371). -/
def execMxstClr (d : BitVec 7) (s : State) : Out :=
  issued (infMx [] [.s d.toNat] .none [] []) s (fun s =>
    (scalarOut (infSD d) d (BitVec.ofNat 64 s.mxWord) s).setTeam s.g.team
      (fun t => { t with mxstat := mapSet 0 t.mxstat s.g.quarter 0 }))

/-! ### Performing a command (R351, R363, R369, R370, R376) -/

/-- The tile's bytes, and the poison of its blocks. -/
def State.tileBytes (s : State) (core q t : Nat) : List Byte := s.rdBytes (s.tileLoc core q t 0) 4096
def State.tilePois (s : State) (core q t j : Nat) : Bool := s.locPois (s.tileLoc core q t (64 * j)) 1
def State.tileElem (s : State) (core q t e : Nat) : Nat := s.rdLoc (s.tileLoc core q t (4 * e)) 4

/-- What an `mma` reads. -/
def State.matSrc (s : State) (t : Team) (core : Nat) (p : MatPar) (side : List Word) (cap : Option (Nat × Nat)) : MatSrc :=
  { a := fun o n => s.padLd t (p.aoff + o) n, b := fun o n => s.padLd t (p.boff + o) n,
    code := fun e => (mapGet 0 s.codebook ((core * 2 + (cap.map (·.1)).getD 0) * 128 + e)).toNat,
    side := fun r l => (side.getD (32 * r + l) 0).toNat }

/-- Poison of what row `m` and column `n` are computed from (R376). -/
def State.rowPois (s : State) (t : Team) (p : MatPar) (m : Nat) : Bool :=
  let w := if p.narrow then 32 else 64
  (List.range p.kc).any (fun c => s.padPois t (p.aoff + 32 * w * c + w * m) w)
def State.colPois (s : State) (t : Team) (p : MatPar) (n : Nat) : Bool :=
  let w := p.bUnit / 32
  (List.range p.kc).any (fun c => s.padPois t (p.boff + p.bUnit * c + w * n) w)

/-- The effect of an `mma` (R363): the tile and the status bits. -/
def State.doMma (s : State) (tm : Nat) (t : Team) (core q tile : Nat) (z : Bool) (bsel : Nat) (w : List Word)
    (side : List Word) (cap : Option (Nat × Nat)) : State :=
  let p := MatPar.ofWords (fun i => (w.getD i 0).toNat)
  let x := s.matSrc t core p side cap
  let rs := (List.range 1024).map (fun e => p.element x bsel (e / 32) (e % 32) (if z then 0 else s.tileElem core q tile e))
  let bank := match cap with
    | some (b, _) => (s.coreSt core).cbPois.getLsbD b
    | none => false
  let pois (j : Nat) : Bool := bank || (!z && s.tilePois core q tile j) || s.rowPois t p (j / 2)
    || (List.range 16).any (fun i => s.colPois t p (16 * (j % 2) + i))
  let fl := rs.foldl (fun f r => f ||| matFlags r.2) 0
  let fl := if (List.range 64).any pois then fl ||| 4#3 else fl
  (s.unitWrite (s.tileLoc core q tile) (rs.flatMap (fun r => leBytes 4 r.1)) pois).setMx tm q fl

/-- A value of a quantising store: x / 2^(E − 127) (R81, R82). -/
def quantCode (f : Fmt) (x sc : Nat) : FpRes :=
  match f32.dec x with
  | .nan raw sg => (convNan f f32 raw, if sg then flagNV else 0)
  | .inf sg => (f.signed sg f.maxMag, flagNX)
  | .num sg m e => roundTo f plainRne true sg m (e - ((sc : Int) - 127))

/-- The bytes of a tile store with the poison of each of its blocks, and its flags (R369, R370). -/
def State.storeImage (s : State) (core q tile : Nat) (op : MuOp) : List Byte × (Nat → Bool) × BitVec 5 :=
  let el (e : Nat) : Nat := s.tileElem core q tile e
  let pz (j : Nat) : Bool := s.tilePois core q tile j
  match op with
  | .mst _ _ true _ =>
    let rs := (List.range 1024).map (fun e => fConv bf16 f32 plainRne false (el e))
    (rs.flatMap (fun r => leBytes 2 r.1), fun j => pz (2 * j) || pz (2 * j + 1), rs.foldl (fun f r => f ||| r.2) 0)
  | .mqst _ _ y _ =>
    let f := if y then e5m2 else e4m3
    let sc (xs : List Nat) : Nat := scaleByte false (if y then 1 else 0) xs
    let row (m : Nat) : Nat := sc ((List.range 32).map (fun n => el (32 * m + n)))
    let col (n : Nat) : Nat := sc ((List.range 32).map (fun m => el (32 * m + n)))
    let rs := (List.range 1024).map (fun e => quantCode f (el e) (row (e / 32)))
    let cs := (List.range 1024).map (fun e => quantCode f (el (32 * (e % 32) + e / 32)) (col (e / 32)))
    let byte (x : Nat) : Byte := BitVec.ofNat 8 x
    let rp (m : Nat) : Bool := pz (2 * m) || pz (2 * m + 1)
    let cp (n : Nat) : Bool := (List.range 32).any (fun m => pz (2 * m + n / 16))
    let two (f : Nat → Bool) (j : Nat) : Bool := f (2 * j) || f (2 * j + 1)
    ((rs ++ cs).map (fun r => byte r.1) ++ (List.range 32).map (fun m => byte (row m)) ++ (List.range 32).map (fun n => byte (col n)),
      fun j => if j < 16 then two rp j else if j < 32 then two cp (j - 16)
        else (List.range 32).any (fun i => rp i || cp i),
      (rs ++ cs).foldl (fun f r => f ||| r.2) 0)
  | _ => (s.tileBytes core q tile, pz, 0)

/-- A tile store's writes, the end of its ownership, and its weir update (R369, R370). -/
def State.doStore (s : State) (tm : Nat) (t : Team) (core q : Nat) (c : MuCmd) (tile o : Nat) (weir : Option Nat) : State :=
  let (bs, pz, fl) := s.storeImage core q tile c.op
  let st := matFlags fl ||| (if (List.range (bs.length / 64)).any pz then 4#3 else 0#3)
  let s := (s.unitWrite (fun x => t.spad (o + x)) bs pz).disown (fun y => y.cmd == c.id)
  let s := s.padNote (s.unitAccessor core q c.grp c.clock) t o bs.length true
  let s := match weir with
    | none => s
    | some w =>
      let l := t.spad w
      let s := (s.weirUpdate l 1 bs.length false none).releaseAt core (core / 32) l 16 true
      (s.hbTake (muAgent core q) c.clock).hbRelease (muAgent core q) (l.words 16) 1 true
  s.setMx tm q st

/-- A command may be performed: what it reads and writes is free of the ownership of others, its own blocks are its
own, and a weir update's earlier stores are acknowledged (R273, R275, R373, R374). -/
def State.muReady (s : State) (t : Team) (core q : Nat) (c : MuCmd) : Bool :=
  match c.op with
  | .mma tile _ _ w _ _ =>
    let p := MatPar.ofWords (fun i => (w.getD i 0).toNat)
    !s.tileOwned core q tile (some c.id) && !s.padHeld t p.aoff p.aBytes && !s.padHeld t p.boff p.bBytes
  | .mld tile o => !s.tileOwned core q tile (some c.id) && !s.padHeld t o 4096
  | .mst tile _ _ w | .mqst tile _ _ w =>
    !s.tileOwned core q tile (some c.id) && s.owns.all (fun y => y.cmd != c.id || y.held)
      && (match w with
        | none => true
        | some x => !s.padHeld t x 16 && !s.stores.any (fun y => y.grp == some c.grp))

/-- A command of group `k` is complete: its counter falls (R352). -/
def State.mxDone (s : State) (k : Nat) : State := s.modG k (fun g => { g with mxcnt := g.mxcnt - 1 })

/-- MU_COMMAND_PERFORM (R351): unit `q` of core `c` performs the oldest command of its queue. -/
def execMuCommandPerform (c q : Nat) (s : State) : Out :=
  match s.muq c q with
  | [] => .next s
  | m :: rest =>
    match (s.getG m.grp).bind (fun g => (s.team g.team).map (fun t => (g.team, t))) with
    | none => .next (s.setMuq c q rest)
    | some (tm, t) =>
      if !s.muReady t c q m then .next s
      else
        let a := s.unitAccessor c q m.grp m.clock
        let s := s.setMuq c q rest
        let s := match m.op with
          | .mma tile z bsel w side cap =>
            let p := MatPar.ofWords (fun i => (w.getD i 0).toNat)
            ((s.padNote a t p.aoff p.aBytes false).padNote a t p.boff p.bBytes false).doMma tm t c q tile z bsel w side cap
          | .mld tile o =>
            let s := s.padNote a t o 4096 false
            let pz (j : Nat) : Bool := s.padPois t (o + 64 * j) 64
            let bs := (List.range 4096).map (fun i => s.rdByte (t.spad (o + i)) 0)
            (s.unitWrite (s.tileLoc c q tile) bs pz).setMx tm q (if (List.range 64).any pz then 4#3 else 0#3)
          | .mst tile o _ w => s.doStore tm t c q m tile o w
          | .mqst tile o _ w => s.doStore tm t c q m tile o w
        .next ((s.hbDone m.grp (muAgent c q) m.clock).mxDone m.grp)

/-- CODEBOOK_SWITCH (R367): the oldest codebook load of core `c` fills the inactive bank, once no operation incomplete has
captured it, and makes it active. -/
def execCodebookSwitch (c : Nat) (s : State) : Out :=
  match mapGet [] s.cbq c with
  | [] => .next s
  | ⟨k, o, clk⟩ :: rest =>
    let cs := s.coreSt c
    let bank := 1 - cs.act % 2
    let holds (m : MuCmd) : Bool := match m.op with
      | .mma _ _ _ _ _ (some (b, _)) => b == bank
      | _ => false
    let done (s : State) : State := { s with cbq := mapSet [] s.cbq c rest }.mxDone k
    match (s.getG k).bind (fun g => (s.team g.team).map (fun t => (g, t))) with
    | none => .next (done s)
    | some (g, t) =>
      if (List.range 4).any (fun q => (s.muq c q).any holds) || s.padHeld t o 256 then .next s
      else
        let pz := s.padPois t o 256
        let s := s.padNote (s.unitAccessor c g.quarter k clk) t o 256 false
        let cb := (List.range 128).foldl (fun m e =>
          mapSet 0 m ((c * 2 + bank) * 128 + e) (BitVec.ofNat 16 (s.padLd t (o + 2 * e) 2))) s.codebook
        let b2 : BitVec 2 := BitVec.ofNat 2 (2 ^ bank)
        let up (x : CoreSt) : CoreSt :=
          { x with act := bank, cbgen := (x.cbgen + 1) % 65536, cbPois := (x.cbPois &&& ~~~b2) ||| (if pz then b2 else 0) }
        let s := { s with codebook := cb }.setCore c up
        .next (done ((if pz then s.setMx g.team g.quarter 4#3 else s).hbDone k (muAgent c g.quarter) clk))

end Sys2Proof.Machine
end

