-- ==== Sys2Proof/Machine/Parallel.lean ====
section
/-! DEFINITION. Lane exchanges, lane tests, scans, reductions and the team fold: majors `0x24` and `0x25` (R165 to
R174, R85, R86, R410). -/

namespace Sys2Proof.Machine

/-! ### Exchanges (R168) -/

/-- The source lane of lane `l`: lane `x` if the group has it, else its own; in a protected launch the lane of that
pair that has the receiver's parity (R168, R410). -/
def State.xchLane (s : State) (x : Int) (l : Nat) : Nat :=
  let y := if x < 0 ∨ (s.g.width : Int) ≤ x then l else x.toNat
  if s.src.prot then y / 2 * 2 + l % 2 else y

/-- v[D][l] := v[A][f l], `w` registers. -/
def xchWord (w : Nat) (d a : BitVec 7) (idx : Option (BitVec 7)) (f : Nat → Int) (s : State) : State :=
  s.eachEff (fun r l =>
    let x := s.xchLane (f l) l
    let p := s.src.poisW w a.toNat x || (idx.map (fun b => (s.src.poisV b.toNat).getLsbD l)).getD false
    r.wrW w d.toNat l (s.src.rdW w a.toNat x) p)

/-- The lane that an index register names. -/
def State.laneOf (s : State) (b : BitVec 7) (l : Nat) : Int := ((s.rv b l).toNat % 32 : Nat)

/-- `xch.at.b32` (R168). -/
def execXchAtB32 (d a b : BitVec 7) (s : State) : Out :=
  issued (infV3 .t 1 1 1 d a b) s (fun s => xchWord 1 d a (some b) (s.laneOf b) s)
/-- `xch.lo.b32` (R168). -/
def execXchLoB32 (d a : BitVec 7) (n : BitVec 5) (s : State) : Out :=
  issued (infV2 .t 1 1 d a) s (xchWord 1 d a none (fun l => (l : Int) - n.toNat))
/-- `xch.hi.b32` (R168). -/
def execXchHiB32 (d a : BitVec 7) (n : BitVec 5) (s : State) : Out :=
  issued (infV2 .t 1 1 d a) s (xchWord 1 d a none (fun l => (l : Int) + n.toNat))
/-- `xch.flip.b32` (R168). -/
def execXchFlipB32 (d a : BitVec 7) (n : BitVec 5) (s : State) : Out :=
  issued (infV2 .t 1 1 d a) s (xchWord 1 d a none (fun l => (l ^^^ n.toNat : Nat)))
/-- `xch.at.b64` (R168). -/
def execXchAtB64 (d a b : BitVec 7) (s : State) : Out :=
  issued (infV3 .t 2 2 1 d a b) s (fun s => xchWord 2 d a (some b) (s.laneOf b) s)
/-- `xch.lo.b64` (R168). -/
def execXchLoB64 (d a : BitVec 7) (n : BitVec 5) (s : State) : Out :=
  issued (infV2 .t 2 2 d a) s (xchWord 2 d a none (fun l => (l : Int) - n.toNat))
/-- `xch.hi.b64` (R168). -/
def execXchHiB64 (d a : BitVec 7) (n : BitVec 5) (s : State) : Out :=
  issued (infV2 .t 2 2 d a) s (xchWord 2 d a none (fun l => (l : Int) + n.toNat))
/-- `xch.flip.b64` (R168). -/
def execXchFlipB64 (d a : BitVec 7) (n : BitVec 5) (s : State) : Out :=
  issued (infV2 .t 2 2 d a) s (xchWord 2 d a none (fun l => (l ^^^ n.toNat : Nat)))

/-! ### Lane tests (R169) -/

/-- The lanes with effect that count for lane `l`: all of them, or those of its parity in a protected launch (R410). -/
def State.mates (s : State) (l : Nat) : List Nat :=
  (lanesOf s.iss.eff).filter (fun k => !s.src.prot || k % 2 == l % 2)

/-- A predicate bit from the lanes that count. -/
def testWord (d : BitVec 3) (f : List Nat → Bool) (pois : Nat → Bool) (s : State) : State :=
  s.eachEff (fun r l => r.wrP d.toNat l (f (s.mates l)) ((s.mates l).any pois))

def infTest (d a : BitVec 3) : Info := { pipe := .t, reads := [.p a.toNat], writes := [.p d.toNat] }
def infSame (d : BitVec 3) (a : BitVec 7) : Info := { pipe := .t, reads := [.v a.toNat 1], writes := [.p d.toNat] }
def infMask (d : BitVec 7) (a : BitVec 3) : Info := { pipe := .t, reads := [.p a.toNat], writes := [.v d.toNat 1] }

/-- Poison of predicate `a` in a lane. -/
def State.predPois (s : State) (a : BitVec 3) (l : Nat) : Bool := (s.src.poisP a.toNat).getLsbD l

/-- `lall` (R169). -/
def execLall (d a : BitVec 3) (s : State) : Out :=
  issued (infTest d a) s (fun s => testWord d (fun ls => ls.all (s.src.rdPL a.toNat)) (s.predPois a) s)
/-- `lany` (R169). -/
def execLany (d a : BitVec 3) (s : State) : Out :=
  issued (infTest d a) s (fun s => testWord d (fun ls => ls.any (s.src.rdPL a.toNat)) (s.predPois a) s)
/-- `lsame.b32` (R169). -/
def execLsameB32 (d : BitVec 3) (a : BitVec 7) (s : State) : Out :=
  issued (infSame d a) s (fun s =>
    testWord d (fun ls => ls.all (fun l => s.rv a l == s.rv a (ls.headD 0))) (fun l => (s.src.poisV a.toNat).getLsbD l) s)
/-- `lmask.b32` (R169): bit 2 j stands for the pair in a protected launch (R410). -/
def execLmaskB32 (d : BitVec 7) (a : BitVec 3) (s : State) : Out :=
  issued (infMask d a) s (fun s => s.eachEff (fun r l =>
    let ls := (s.mates l).filter (s.src.rdPL a.toNat)
    let m := ls.foldl (fun m k => m ||| laneBit (if s.src.prot then k / 2 * 2 else k)) 0
    r.wrV d.toNat l m ((s.mates l).any (s.predPois a))))

/-! ### Operators (R170) -/

/-- Registers of a value under an operator code. -/
def opRegs (o : BitVec 4) : Nat := if 11 ≤ o.toNat then 2 else 1

/-- Identity of an operator code. -/
def opIdentity (o : BitVec 4) : Nat :=
  match o.toNat with
  | 1 => 0x7FFFFFFF
  | 2 => 0x80000000
  | 3 => 0xFFFFFFFF
  | 5 => 0xFFFFFFFF
  | 9 => f32.infMag
  | 10 => f32.signed true f32.infMag
  | 12 => f64.infMag
  | 13 => f64.signed true f64.infMag
  | _ => 0

/-- The operator of a code. -/
def opFn (c : FpCtl) (o : BitVec 4) (x y : Nat) : FpRes :=
  let i (f : Word → Word → Word) : FpRes := ((f (BitVec.ofNat 32 x) (BitVec.ofNat 32 y)).toNat, 0)
  match o.toNat with
  | 0 => i (fun a b => a + b)
  | 1 => i minS
  | 2 => i maxS
  | 3 => i minU
  | 4 => i maxU
  | 5 => i (fun a b => a &&& b)
  | 6 => i (fun a b => a ||| b)
  | 7 => i (fun a b => a ^^^ b)
  | 8 => fAdd f32 c x y
  | 9 => fMinMax f32 c false false x y
  | 10 => fMinMax f32 c true false x y
  | 11 => fAdd f64 c x y
  | 12 => fMinMax f64 c false false x y
  | _ => fMinMax f64 c true false x y

/-! ### Scans (R86, R171) -/

/-- A step of a scan: the lane, its result, the exceptions of its step, and the poison gathered so far. -/
structure ScanAt where
  lane : Nat
  val : Nat
  fl : BitVec 5
  pois : Bool
  deriving DecidableEq, Repr

/-- The scan over lanes in ascending order, latest first. -/
def scanSteps (op : Nat → Nat → FpRes) (x : Nat → Nat) (pois : Nat → Bool) (ls : List Nat) : List ScanAt :=
  ls.foldl (fun acc l =>
    match acc with
    | [] => [⟨l, x l, 0, pois l⟩]
    | y :: _ =>
      let (v, f) := op y.val (x l)
      ⟨l, v, f, y.pois || pois l⟩ :: acc) []

/-- Lanes that take part for lane `l` (R166). -/
def State.takers (s : State) (p : BitVec 3) (l : Nat) : List Nat := (s.mates l).filter (s.src.rdPL p.toNat)

/-- A scan word: `excl` takes the lanes below only, with `none` where there is none. -/
def scanWord (excl : Bool) (d a : BitVec 7) (p : BitVec 3) (o : BitVec 4) (s : State) : State :=
  let w := opRegs o
  let steps (l : Nat) : List ScanAt :=
    scanSteps (opFn s.fc o) (s.rw w a) (fun k => s.src.poisW w a.toNat k) (s.takers p l)
  let here (l : Nat) : Option ScanAt := (steps l).find? (fun y => if excl then y.lane < l else y.lane ≤ l)
  let flags (l : Nat) : BitVec 5 := (((steps l).find? (fun y => y.lane == l)).map ScanAt.fl).getD 0
  let pois (l : Nat) : Bool := (((steps l).find? (fun y => y.lane == l)).map ScanAt.pois).getD false
  fpFinishOn pois flags (fun s => s.eachEff (fun r l =>
    r.wrW w d.toNat l (((here l).map ScanAt.val).getD (if excl then opIdentity o else 0))
      (((here l).map ScanAt.pois).getD false))) s

def infScan (d a : BitVec 7) (p : BitVec 3) (o : BitVec 4) : Info :=
  { pipe := .t, reads := [.v a.toNat (opRegs o), .p p.toNat], writes := [.v d.toNat (opRegs o)], consumes := [.p p.toNat] }

/-- `scan` (R171). -/
def execScan (d a : BitVec 7) (p : BitVec 3) (o : BitVec 4) (s : State) : Out :=
  issued (infScan d a p o) s (scanWord false d a p o)
/-- `scanx` (R171). -/
def execScanx (d a : BitVec 7) (p : BitVec 3) (o : BitVec 4) (s : State) : Out :=
  issued (infScan d a p o) s (scanWord true d a p o)

/-! ### Reductions (R85, R172 to R174) -/

/-- The reduction of the lanes of one parity by the tree of R85, its exceptions and its poison. -/
def State.reduceFor (s : State) (a : BitVec 7) (p : BitVec 3) (o : BitVec 4) (l : Nat) : Option Nat × BitVec 5 × Bool :=
  let w := opRegs o
  let ls := s.takers p l
  let (v, f) := treeFold (opFn s.fc o) (fun i => if ls.contains i then some (s.rw w a i) else none) 5 0
  (v, f, ls.any (fun k => s.src.poisW w a.toNat k))

/-- `red` (R172). -/
def execRed (d a : BitVec 7) (p : BitVec 3) (o : BitVec 4) (s : State) : Out :=
  issued (infScan d a p o) s (fun s =>
    fpFinishOn (fun l => (s.reduceFor a p o l).2.2) (fun l => (s.reduceFor a p o l).2.1) (fun s =>
      s.eachEff (fun r l =>
        r.wrW (opRegs o) d.toNat l ((s.reduceFor a p o l).1.getD 0) (s.reduceFor a p o l).2.2)) s)

def infTput (a : BitVec 7) (p : BitVec 3) (o : BitVec 4) : Info :=
  { pipe := .t, base := false, reads := [.v a.toNat (opRegs o), .p p.toNat], consumes := [.p p.toNat] }
def infTget (d : BitVec 7) (o : BitVec 4) : Info := { pipe := .t, base := false, writes := [.v d.toNat (opRegs o)] }

/-- `tput` (R174): a scalar effect, made from the even lanes in a protected launch. The fold buffer holds no poison
(R402). -/
def execTput (a : BitVec 7) (p : BitVec 3) (o : BitVec 4) (s : State) : Out :=
  issued (infTput a p o) s (fun s =>
    let x := s.reduceFor a p o 0
    fpFinishOn (fun _ => x.2.2) (fun _ => x.2.1) (fun s =>
      let e := !s.g.foldE
      let slot : Option FoldSlot := x.1.map (fun v => FoldSlot.mk (BitVec.ofNat 64 v) o.toNat e)
      (s.setG (fun g => { g with foldE := e })).setTeam s.g.team (fun t =>
        { t with fold := mapSet none t.fold s.g.grp slot })) s)

/-- `tget` (R174). -/
def execTget (d : BitVec 7) (o : BitVec 4) (s : State) : Out :=
  issued (infTget d o) s (fun s =>
    let slot (i : Nat) : Option Nat := (s.myTeam.bind (fun t => mapGet none t.fold i)).bind (fun x =>
      if x.op = o.toNat ∧ x.tag = s.g.foldE then some x.val.toNat else none)
    let x := treeFold (opFn s.fc o) slot 5 0
    fpFinishOn (fun _ => false) (fun _ => x.2) (fun s => s.eachEff (fun r l => r.wrW (opRegs o) d.toNat l (x.1.getD 0) false)) s)

end Sys2Proof.Machine
end

