-- ==== Sys2Proof/Machine/Scalar.lean ====
section
/-! DEFINITION. Scalar arithmetic, logic, compares and predicate logic: majors `0x01` to `0x0A` (R92 to R96, R101 to
R104). -/

namespace Sys2Proof.Machine

/-- s[D] := f(s[A], s[B]). -/
def scal3 (d a b : BitVec 7) (f : DWord → DWord → DWord) (s : State) : State :=
  scalarOut (infS3 d a b) d (f (s.rs a) (s.rs b)) s
/-- s[D] := f(s[A]). -/
def scal2 (d a : BitVec 7) (f : DWord → DWord) (s : State) : State := scalarOut (infS2 d a) d (f (s.rs a)) s

/-- `add.i64` (R92). -/
def execAddI64 (d a b : BitVec 7) (s : State) : Out :=
  issued (infS3 d a b) s (scal3 d a b (fun x y => x + y))

/-- `sub.i64` (R92). -/
def execSubI64 (d a b : BitVec 7) (s : State) : Out :=
  issued (infS3 d a b) s (scal3 d a b (fun x y => x - y))

/-- `and.b64` (R92). -/
def execAndB64 (d a b : BitVec 7) (s : State) : Out :=
  issued (infS3 d a b) s (scal3 d a b (fun x y => x &&& y))

/-- `or.b64` (R92). -/
def execOrB64 (d a b : BitVec 7) (s : State) : Out :=
  issued (infS3 d a b) s (scal3 d a b (fun x y => x ||| y))

/-- `xor.b64` (R92). -/
def execXorB64 (d a b : BitVec 7) (s : State) : Out :=
  issued (infS3 d a b) s (scal3 d a b (fun x y => x ^^^ y))

/-- `andn.b64` (R92). -/
def execAndnB64 (d a b : BitVec 7) (s : State) : Out :=
  issued (infS3 d a b) s (scal3 d a b (fun x y => x &&& ~~~y))

/-- `sll.b64` (R92). -/
def execSllB64 (d a b : BitVec 7) (s : State) : Out :=
  issued (infS3 d a b) s (scal3 d a b (fun x y => x <<< (y.toNat % 64)))

/-- `srl.b64` (R92). -/
def execSrlB64 (d a b : BitVec 7) (s : State) : Out :=
  issued (infS3 d a b) s (scal3 d a b (fun x y => x >>> (y.toNat % 64)))

/-- `sra.b64` (R92). -/
def execSraB64 (d a b : BitVec 7) (s : State) : Out :=
  issued (infS3 d a b) s (scal3 d a b (fun x y => x.sshiftRight (y.toNat % 64)))

/-- `ror.b64` (R92). -/
def execRorB64 (d a b : BitVec 7) (s : State) : Out :=
  issued (infS3 d a b) s (scal3 d a b (fun x y => x.rotateRight (y.toNat % 64)))

/-- `min.i64` (R92). -/
def execMinI64 (d a b : BitVec 7) (s : State) : Out :=
  issued (infS3 d a b) s (scal3 d a b (fun x y => minS x y))

/-- `max.i64` (R92). -/
def execMaxI64 (d a b : BitVec 7) (s : State) : Out :=
  issued (infS3 d a b) s (scal3 d a b (fun x y => maxS x y))

/-- `min.n64` (R92). -/
def execMinN64 (d a b : BitVec 7) (s : State) : Out :=
  issued (infS3 d a b) s (scal3 d a b (fun x y => minU x y))

/-- `max.n64` (R92). -/
def execMaxN64 (d a b : BitVec 7) (s : State) : Out :=
  issued (infS3 d a b) s (scal3 d a b (fun x y => maxU x y))

/-- `add.i32` (R92). -/
def execAddI32Scalar (d a b : BitVec 7) (s : State) : Out :=
  issued (infS3 d a b) s (scal3 d a b (fun x y => ((x + y).extractLsb' 0 32).signExtend 64))

/-- `sub.i32` (R92). -/
def execSubI32Scalar (d a b : BitVec 7) (s : State) : Out :=
  issued (infS3 d a b) s (scal3 d a b (fun x y => ((x - y).extractLsb' 0 32).signExtend 64))

/-- `add.i64` (R89, R92). -/
def execAddI64Imm (d a : BitVec 7) (i : Imm) (s : State) : Out :=
  issued (infS2 d a) s (scal2 d a (fun x => x + i.val64))

/-- `and.b64` (R89, R92). -/
def execAndB64Imm (d a : BitVec 7) (i : Imm) (s : State) : Out :=
  issued (infS2 d a) s (scal2 d a (fun x => x &&& i.val64))

/-- `or.b64` (R89, R92). -/
def execOrB64Imm (d a : BitVec 7) (i : Imm) (s : State) : Out :=
  issued (infS2 d a) s (scal2 d a (fun x => x ||| i.val64))

/-- `xor.b64` (R89, R92). -/
def execXorB64Imm (d a : BitVec 7) (i : Imm) (s : State) : Out :=
  issued (infS2 d a) s (scal2 d a (fun x => x ^^^ i.val64))

/-- `sll.b64` (R90, R92). -/
def execSllB64Imm (d a : BitVec 7) (n : BitVec 6) (_lit : Bool) (s : State) : Out :=
  issued (infS2 d a) s (scal2 d a (fun x => x <<< n.toNat))

/-- `srl.b64` (R90, R92). -/
def execSrlB64Imm (d a : BitVec 7) (n : BitVec 6) (_lit : Bool) (s : State) : Out :=
  issued (infS2 d a) s (scal2 d a (fun x => x >>> n.toNat))

/-- `sra.b64` (R90, R92). -/
def execSraB64Imm (d a : BitVec 7) (n : BitVec 6) (_lit : Bool) (s : State) : Out :=
  issued (infS2 d a) s (scal2 d a (fun x => x.sshiftRight n.toNat))

/-- `ror.b64` (R90, R92). -/
def execRorB64Imm (d a : BitVec 7) (n : BitVec 6) (_lit : Bool) (s : State) : Out :=
  issued (infS2 d a) s (scal2 d a (fun x => x.rotateRight n.toNat))

/-- `cc.T64` (R102). -/
def execScalarCompare (p : BitVec 3) (a b : BitVec 7) (k : BitVec 4) (s : State) : Out :=
  issued (infSP p a b) s (lanePred (infSP p a b) p.toNat (fun _ => intCond k (s.rs a) (s.rs b)))

/-- `cc.T64 immediate` (R103). -/
def execScalarCompareImm (k : BitVec 4) (p : BitVec 3) (a : BitVec 7) (i : Imm) (s : State) : Out :=
  issued (infSPI p a) s (lanePred (infSPI p a) p.toNat (fun _ => intCond k (s.rs a) i.val64))

/-- `pand` (R104). -/
def execPand (d a b : BitVec 3) (s : State) : Out :=
  issued (infP3 d a b) s (lanePred (infP3 d a b) d.toNat (fun l => (s.src.rdPL a.toNat l) && (s.src.rdPL b.toNat l)))

/-- `por` (R104). -/
def execPor (d a b : BitVec 3) (s : State) : Out :=
  issued (infP3 d a b) s (lanePred (infP3 d a b) d.toNat (fun l => (s.src.rdPL a.toNat l) || (s.src.rdPL b.toNat l)))

/-- `pxor` (R104). -/
def execPxor (d a b : BitVec 3) (s : State) : Out :=
  issued (infP3 d a b) s (lanePred (infP3 d a b) d.toNat (fun l => xor (s.src.rdPL a.toNat l) (s.src.rdPL b.toNat l)))

/-- `pandn` (R104). -/
def execPandn (d a b : BitVec 3) (s : State) : Out :=
  issued (infP3 d a b) s (lanePred (infP3 d a b) d.toNat (fun l => (s.src.rdPL a.toNat l) && !(s.src.rdPL b.toNat l)))

/-- `mul.i64` (R94). -/
def execMulI64 (d a b : BitVec 7) (s : State) : Out :=
  issued (infS3 d a b) s (scal3 d a b (fun x y => x * y))

/-- `mulh.i64` (R94). -/
def execMulhI64 (d a b : BitVec 7) (s : State) : Out :=
  issued (infS3 d a b) s (scal3 d a b (fun x y => mulhS x y))

/-- `mulh.n64` (R94). -/
def execMulhN64 (d a b : BitVec 7) (s : State) : Out :=
  issued (infS3 d a b) s (scal3 d a b (fun x y => mulhU x y))

/-- `div.i64` (R95). -/
def execDivI64 (d a b : BitVec 7) (s : State) : Out :=
  issued (infS3 d a b) s (scal3 d a b (fun x y => quotS x y))

/-- `div.n64` (R95). -/
def execDivN64 (d a b : BitVec 7) (s : State) : Out :=
  issued (infS3 d a b) s (scal3 d a b (fun x y => quotU x y))

/-- `rem.i64` (R95). -/
def execRemI64 (d a b : BitVec 7) (s : State) : Out :=
  issued (infS3 d a b) s (scal3 d a b (fun x y => remS x y))

/-- `rem.n64` (R95). -/
def execRemN64 (d a b : BitVec 7) (s : State) : Out :=
  issued (infS3 d a b) s (scal3 d a b (fun x y => remU x y))

/-- `lea2.b64` (R94). -/
def execLea2B64 (d a b : BitVec 7) (s : State) : Out :=
  issued (infS3 d a b) s (scal3 d a b (fun x y => x + y <<< 1))

/-- `lea4.b64` (R94). -/
def execLea4B64 (d a b : BitVec 7) (s : State) : Out :=
  issued (infS3 d a b) s (scal3 d a b (fun x y => x + y <<< 2))

/-- `lea8.b64` (R94). -/
def execLea8B64 (d a b : BitVec 7) (s : State) : Out :=
  issued (infS3 d a b) s (scal3 d a b (fun x y => x + y <<< 3))

/-- `lea16.b64` (R94). -/
def execLea16B64 (d a b : BitVec 7) (s : State) : Out :=
  issued (infS3 d a b) s (scal3 d a b (fun x y => x + y <<< 4))

/-- `pack.b64` (R94). -/
def execPackB64 (d a b : BitVec 7) (s : State) : Out :=
  issued (infS3 d a b) s (scal3 d a b (fun x y => y.extractLsb' 0 32 ++ x.extractLsb' 0 32))

/-- `popc.b64` (R96). -/
def execPopcB64 (d a : BitVec 7) (s : State) : Out :=
  issued (infS2 d a) s (scal2 d a (fun x => BitVec.ofNat 64 (popcount x)))

/-- `clz.b64` (R96). -/
def execClzB64 (d a : BitVec 7) (s : State) : Out :=
  issued (infS2 d a) s (scal2 d a (fun x => BitVec.ofNat 64 (leadingZeros x)))

/-- `ctz.b64` (R96). -/
def execCtzB64 (d a : BitVec 7) (s : State) : Out :=
  issued (infS2 d a) s (scal2 d a (fun x => BitVec.ofNat 64 (lowestSet x)))

/-- `brev.b64` (R96). -/
def execBrevB64 (d a : BitVec 7) (s : State) : Out :=
  issued (infS2 d a) s (scal2 d a (fun x => bitReverse x))

/-- `bswap.b64` (R96). -/
def execBswapB64 (d a : BitVec 7) (s : State) : Out :=
  issued (infS2 d a) s (scal2 d a (fun x => byteReverse 8 x))

/-- `bext.n64` (R96). -/
def execBextN64 (d a b : BitVec 7) (s : State) : Out :=
  issued (infS3 d a b) s (scal3 d a b (fun x y => bextN x (bitsOf y.toNat 0 6) (bitsOf y.toNat 8 7)))

/-- `bext.i64` (R96). -/
def execBextI64 (d a b : BitVec 7) (s : State) : Out :=
  issued (infS3 d a b) s (scal3 d a b (fun x y => bextI x (bitsOf y.toNat 0 6) (bitsOf y.toNat 8 7)))

/-- `bins.b64` (R96). -/
def execBinsB64 (d a b : BitVec 7) (s : State) : Out :=
  issued (infS4 d a b) s (scalarOut (infS4 d a b) d (bins (s.rs d) (s.rs a) (bitsOf (s.rs b).toNat 0 6) (bitsOf (s.rs b).toNat 8 7)))

/-- `mov.i64` (R93). -/
def execMovI64 (d : BitVec 7) (i : Imm) (s : State) : Out :=
  issued (infSD d) s (scalarOut (infSD d) d i.val64)

end Sys2Proof.Machine
end

