-- ==== Sys2Proof/Machine/Sfu.lean ====
section
/-! DEFINITION. The special-function unit: major `0x22` (R132).

The exact value is approximated in fixed point far below the bound; the results that meet the bound are the candidates,
and the device's own choice among them is `Config.sfuPick`, a fixed function of function and input (log 13). -/

namespace Sys2Proof.Machine

/-- Fractional bits of the fixed-point values. -/
def fixP : Nat := 448

/-- Terms of a series x^k / k! from `k` on; `t` is the last term, `x` in fixed point. -/
def expSeries (x : Nat) : Nat → Nat → Nat → Nat
  | 0, _, _ => 0
  | n + 1, k, t => t + expSeries x n (k + 1) (t * x / 2 ^ fixP / (k + 1))

/-- Alternating series of cosine (`k` = 0) and sine (`k` = 1): `t` the term, `x2` the square of the angle. -/
def trigSeries (x2 : Nat) : Nat → Nat → Nat → Int
  | 0, _, _ => 0
  | n + 1, k, t => (t : Int) - trigSeries x2 n (k + 2) (t * x2 / 2 ^ fixP / ((k + 1) * (k + 2)))

/-- Series of atanh (`alt` false) or atan of a fixed-point `x`: `p` the power of x, `x2` its square. -/
def atanSeries (alt : Bool) (x2 : Nat) : Nat → Nat → Nat → Int
  | 0, _, _ => 0
  | n + 1, k, p =>
    let r := atanSeries alt x2 n (k + 2) (p * x2 / 2 ^ fixP)
    ((p / k : Nat) : Int) + if alt then -r else r

def atanRecip (alt : Bool) (q : Nat) : Int :=
  let x := 2 ^ fixP / q
  atanSeries alt (x * x / 2 ^ fixP) 460 1 x

/-- π by 16 atan(1/5) − 4 atan(1/239). -/
def fixPi : Nat := (16 * atanRecip true 5 - 4 * atanRecip true 239).toNat
/-- ln 2 by 2 atanh(1/3). -/
def fixLn2 : Nat := (2 * atanRecip false 3).toNat

/-- A number as fixed point, rounded down. -/
def toFix (m : Nat) (e : Int) : Nat :=
  let k := e + fixP
  if 0 ≤ k then m * 2 ^ k.toNat else m / 2 ^ (-k).toNat

/-- 2^f of a fixed-point fraction, in [1, 2). -/
def fixExp2 (f : Nat) : Nat := expSeries (f * fixLn2 / 2 ^ fixP) 120 0 (2 ^ fixP)

/-- log2 of a fixed-point value in [1, 2), by atanh((z − 1)/(z + 1)). -/
def fixLog2 (z : Nat) : Nat :=
  let u := (z - 2 ^ fixP) * 2 ^ fixP / (z + 2 ^ fixP)
  (2 * atanSeries false (u * u / 2 ^ fixP) 300 1 u).toNat * 2 ^ fixP / fixLn2

/-- sin πt and cos πt of a fixed-point t in [0, 1/2]. -/
def fixSin (t : Nat) : Nat :=
  let x := t * fixPi / 2 ^ fixP
  (trigSeries (x * x / 2 ^ fixP) 90 1 x).toNat
def fixCos (t : Nat) : Nat :=
  let x := t * fixPi / 2 ^ fixP
  (trigSeries (x * x / 2 ^ fixP) 90 0 (2 ^ fixP)).toNat

/-- An approximation of the exact value: sign, magnitude `m × 2^(e − fixP)`. -/
structure Approx where
  sg : Bool
  m : Nat
  e : Int
  deriving DecidableEq, Repr

/-- |code − y| ≤ bound × ulp(y), both in units of 2^-fixP × 2^e; the slack covers the approximation. -/
def Approx.within (y : Approx) (bound : Nat) (code : Nat) : Bool :=
  match f32.dec code with
  | .num s m e =>
    let k := e - y.e + fixP
    let r : Int := ((if 0 ≤ k then m * 2 ^ k.toNat else m / 2 ^ (-k).toNat : Nat) : Int)
    let d := ((if s == y.sg then r else -r) - (y.m : Int)).natAbs
    let top : Int := (Nat.log2 y.m : Int) - fixP + y.e
    let u := max top (-126) - 23 - y.e + fixP
    let ulp := if 0 ≤ u then 2 ^ u.toNat else 0
    decide (d ≤ bound * ulp + 2 ^ 64)
  | _ => false

/-- Codes of FP32 near the value: those within 8 of the value rounded down, and the two zeros with small negatives. -/
def Approx.near (y : Approx) : List Nat :=
  let c := (roundTo f32 ⟨.rtz, false, false⟩ true false y.m (y.e - fixP)).1
  let up := ((List.range 16).map (fun i => c + i)).filterMap (fun x => if x < 8 then none else some (x - 8))
  (up.filter (fun x => x ≤ f32.maxMag)).map (f32.signed y.sg)
    ++ (if c < 8 then (List.range 8).map (f32.signed (!y.sg)) else [])

/-- The results that R132 allows for an exact value, and infinity with OF wherever rounding it to nearest even overflows.
R132 names an overflow for `exp2` and `exp` alone; that `rcp` may give one too is the model's (DESIGN CHOICE, log 47). -/
def Approx.candidates (y : Approx) (bound : Nat) : List FpRes :=
  let ok := (y.near.filter (y.within bound)).map (fun c => (c, (0 : BitVec 5)))
  let big := (roundTo f32 plainRne false y.sg y.m (y.e - fixP)).2 &&& flagOF != 0
  if big then ok ++ [(f32.signed y.sg f32.infMag, flagOF)] else ok

/-- FTZ on a special-function result, which raises nothing (R132). -/
def sfuFtz (ftz : Bool) (x : FpRes) : FpRes :=
  if ftz && f32.mag x.1 != 0 && decide (f32.mag x.1 < 2 ^ 23) then (f32.signed (f32.sgn x.1) 0, x.2) else x

/-- What a function gives for an input: a special value, or the candidates of an exact value. -/
inductive SfuVal where
  | exact (r : FpRes)
  | about (y : Approx)
  deriving DecidableEq, Repr

/-- A power of two: m is 1. -/
def oneBit (m : Nat) : Bool := m == 2 ^ Nat.log2 m

/-- A value that FP32 holds, exactly rounded. -/
def sfuExact (sg : Bool) (m : Nat) (e : Int) : SfuVal := .exact ((roundTo f32 plainRne false sg m e).1, 0)

def sfuRcp (x : FV) : SfuVal :=
  match x with
  | .inf s => .exact (f32.signed s 0, 0)
  | .num s m e =>
    if m = 0 then .exact (f32.signed s f32.infMag, flagDZ)
    else
      let k := -(e + (Nat.log2 m : Int))
      if oneBit m && decide (k ≤ 127) then sfuExact s 1 k
      else .about ⟨s, 2 ^ (fixP + 32) / m, -e - 32⟩
  | _ => .exact (f32.qnan, 0)

/-- 1/√x and √x: the number is taken as a four-fold power times a value. -/
def sfuRoot (recip : Bool) (x : FV) : SfuVal :=
  match x with
  | .inf s => if s then .exact (f32.qnan, flagNV) else if recip then .exact (0, 0) else .exact (f32.infMag, 0)
  | .num s m e =>
    if m = 0 then .exact (f32.signed s (if recip then f32.infMag else 0), if recip then flagDZ else 0)
    else if s then .exact (f32.qnan, flagNV)
    else
      let top := e + (Nat.log2 m : Int)
      if oneBit m && decide (top % 2 = 0) then sfuExact false 1 (if recip then -(top / 2) else top / 2)
      else
        let (m, e) := if e % 2 = 0 then (m, e) else (2 * m, e - 1)
        let r := isqrt (m * 2 ^ (2 * fixP))
        if recip then .about ⟨false, 2 ^ (2 * fixP + 32) / r, -(e / 2) - 32⟩ else .about ⟨false, r, e / 2⟩
  | _ => .exact (f32.qnan, 0)

/-- 2^t for a signed fixed-point t. -/
def exp2About (t : Int) : SfuVal :=
  let n := t / 2 ^ fixP
  .about ⟨false, fixExp2 (t - n * 2 ^ fixP).toNat, n⟩

/-- Signed fixed point of a number. -/
def toFixS (sg : Bool) (m : Nat) (e : Int) : Int := if sg then -(toFix m e : Int) else toFix m e

/-- A bound given as the FP32 number that prints so. -/
def fpLt (x y : Nat) : Bool := (f32.dec x).cmp (f32.dec y) == -1

def sfuExp2 (raw : Nat) (x : FV) : SfuVal :=
  match x with
  | .inf s => .exact (if s then 0 else f32.infMag, 0)
  | .num s m e =>
    if m = 0 then sfuExact false 1 0
    else if !fpLt raw 0x43000000 then .exact (f32.infMag, flagOF)
    else if fpLt raw 0xC3160000 then .exact (0, 0)
    else
      let (n, nx) := roundInt .rtz s m e
      if !nx && n ≤ 149 then sfuExact false 1 (if s then -(n : Int) else n)
      else exp2About (toFixS s m e)
  | _ => .exact (f32.qnan, 0)

def sfuExp (raw : Nat) (x : FV) : SfuVal :=
  match x with
  | .inf s => .exact (if s then 0 else f32.infMag, 0)
  | .num s m e =>
    if m = 0 then sfuExact false 1 0
    else if !fpLt raw 0x42B17218 then .exact (f32.infMag, flagOF)
    else if fpLt raw 0xC2CFF1B4 then .exact (0, 0)
    else exp2About (toFixS s m e * 2 ^ fixP / fixLn2)
  | _ => .exact (f32.qnan, 0)

def sfuLog2 (x : FV) : SfuVal :=
  match x with
  | .inf s => if s then .exact (f32.qnan, flagNV) else .exact (f32.infMag, 0)
  | .num s m e =>
    if m = 0 then .exact (f32.signed true f32.infMag, flagDZ)
    else if s then .exact (f32.qnan, flagNV)
    else
      let top := e + (Nat.log2 m : Int)
      if oneBit m then
        if top = 0 then .exact (0, 0) else sfuExact (decide (top < 0)) top.natAbs 0
      else
        let v := top * 2 ^ fixP + (fixLog2 (m * 2 ^ (fixP - Nat.log2 m)) : Int)
        .about ⟨decide (v < 0), v.natAbs, 0⟩
  | _ => .exact (f32.qnan, 0)

/-- x mod 2 in [0, 2) as fixed point, exactly: FP32 has no bit below 2^-149. -/
def mod2 (sg : Bool) (m : Nat) (e : Int) : Nat :=
  let t := toFix m e % 2 ^ (fixP + 1)
  if sg then (2 ^ (fixP + 1) - t) % 2 ^ (fixP + 1) else t

/-- A value of sine or cosine by its eighth: `t` in [0, 2). -/
def trigAbout (t : Nat) : SfuVal :=
  let neg := decide (2 ^ fixP < t)
  let t := if neg then t - 2 ^ fixP else t
  let t := if 2 * t ≤ 2 ^ fixP then t else 2 ^ fixP - t
  if 4 * t ≤ 2 ^ fixP then .about ⟨neg, fixSin t, 0⟩ else .about ⟨neg, fixCos (2 ^ (fixP - 1) - t), 0⟩

def sfuSin (x : FV) : SfuVal :=
  match x with
  | .inf _ => .exact (f32.qnan, flagNV)
  | .num s m e =>
    let t := mod2 s m e
    if t % 2 ^ fixP = 0 then .exact (f32.signed s 0, 0)
    else if t = 2 ^ (fixP - 1) then sfuExact false 1 0
    else if t = 2 ^ (fixP - 1) + 2 ^ fixP then sfuExact true 1 0
    else trigAbout t
  | _ => .exact (f32.qnan, 0)

/-- cos πx is sin π(x + 1/2). -/
def sfuCos (x : FV) : SfuVal :=
  match x with
  | .inf _ => .exact (f32.qnan, flagNV)
  | .num s m e =>
    let t := mod2 s m e
    if t = 0 then sfuExact false 1 0
    else if t = 2 ^ fixP then sfuExact true 1 0
    else if t % 2 ^ fixP = 2 ^ (fixP - 1) then .exact (0, 0)
    else trigAbout ((t + 2 ^ (fixP - 1)) % 2 ^ (fixP + 1))
  | _ => .exact (f32.qnan, 0)

/-- The value of function `fn` (R132); 8 is the sine of `sincospi`, 9 its cosine. -/
def sfuVal (fn raw : Nat) (x : FV) : SfuVal :=
  match fn with
  | 0 => sfuRcp x
  | 1 => sfuRoot true x
  | 2 => sfuRoot false x
  | 3 => sfuExp2 raw x
  | 4 => sfuLog2 x
  | 5 | 8 => sfuSin x
  | 6 | 9 => sfuCos x
  | _ => sfuExp raw x

/-- Bound in ulp (R132). -/
def sfuBound (fn : Nat) : Nat := if fn = 3 ∨ fn = 4 ∨ fn = 7 then 2 else 1

/-- A result of the unit: the special value, or the device's choice among the candidates. -/
def sfu (fn : Nat) (c : FpCtl) (x : Nat) : FpRes :=
  let raw := f32.daz c.daz x
  let a := f32.dec raw
  withNan f32 [a]
    (match sfuVal fn raw a with
    | .exact r => sfuFtz c.ftz r
    | .about y =>
      let cs := y.candidates (sfuBound fn)
      sfuFtz c.ftz (cs.getD (Config.sfuPick fn (BitVec.ofNat 32 raw) % cs.length) (f32.signed y.sg f32.infMag, flagOF)))

/-- A word of the unit with one result. -/
def sfuOut (fn : Nat) (d a : BitVec 7) (s : State) : State :=
  fpLanes (infV2 .t 1 1 d a) 1 d (fun l => sfu fn s.fc (s.rw 1 a l)) s

/-- `rcp.f32` (R132). -/
def execRcp (d a : BitVec 7) (s : State) : Out :=
  issued (infV2 .t 1 1 d a) s (sfuOut 0 d a)

/-- `rsqrt.f32` (R132). -/
def execRsqrt (d a : BitVec 7) (s : State) : Out :=
  issued (infV2 .t 1 1 d a) s (sfuOut 1 d a)

/-- `sfsqrt.f32` (R132). -/
def execSfsqrt (d a : BitVec 7) (s : State) : Out :=
  issued (infV2 .t 1 1 d a) s (sfuOut 2 d a)

/-- `exp2.f32` (R132). -/
def execExp2 (d a : BitVec 7) (s : State) : Out :=
  issued (infV2 .t 1 1 d a) s (sfuOut 3 d a)

/-- `log2.f32` (R132). -/
def execLog2 (d a : BitVec 7) (s : State) : Out :=
  issued (infV2 .t 1 1 d a) s (sfuOut 4 d a)

/-- `sinpi.f32` (R132). -/
def execSinpi (d a : BitVec 7) (s : State) : Out :=
  issued (infV2 .t 1 1 d a) s (sfuOut 5 d a)

/-- `cospi.f32` (R132). -/
def execCospi (d a : BitVec 7) (s : State) : Out :=
  issued (infV2 .t 1 1 d a) s (sfuOut 6 d a)

/-- `exp.f32` (R132). -/
def execExp (d a : BitVec 7) (s : State) : Out :=
  issued (infV2 .t 1 1 d a) s (sfuOut 7 d a)

/-- `sincospi.f32` (R132): cosine to v[D], sine to v[D+1]. -/
def execSincospi (d a : BitVec 7) (s : State) : Out :=
  issued (infV2 .t 2 1 d a) s (fpLanes (infV2 .t 2 1 d a) 2 d (fun l =>
    let x := s.rw 1 a l
    ((sfu 9 s.fc x).1 + 2 ^ 32 * (sfu 8 s.fc x).1, (sfu 9 s.fc x).2 ||| (sfu 8 s.fc x).2)))

end Sys2Proof.Machine
end

