-- ==== Sys2Proof/Machine/Dispatch.lean ====
section
/-! DEFINITION. The dispatch: one arm for each constructor of `Instr`, each one direct call of its meaning. -/

namespace Sys2Proof.Machine

def exec (i : Instr) (s : State) : Host.Outcome State Fault Refusal :=
  match i with
  | .powerOnBoot => Sys2Proof.Machine.execPowerOnBoot s
  | .coreReset u => Sys2Proof.Machine.execCoreReset u s
  | .run => Sys2Proof.Machine.execRun s
  | .quarterIssue u => Sys2Proof.Machine.execQuarterIssue u s
  | .rotationQuantum g => Sys2Proof.Machine.execRotationQuantum g s
  | .loadComplete g k => Sys2Proof.Machine.execLoadComplete g k s
  | .storeAck k => Sys2Proof.Machine.execStoreAck k s
  | .joinRelease g => Sys2Proof.Machine.execJoinRelease g s
  | .groupFinish g => Sys2Proof.Machine.execGroupFinish g s
  | .teamRetire t => Sys2Proof.Machine.execTeamRetire t s
  | .queueDoorbell p q v => Sys2Proof.Machine.execQueueDoorbell p q v s
  | .recordAccept p q => Sys2Proof.Machine.execRecordAccept p q s
  | .teamPlace gr => Sys2Proof.Machine.execTeamPlace gr s
  | .depWeirObserve gr => Sys2Proof.Machine.execDepWeirObserve gr s
  | .thermalMigration d => Sys2Proof.Machine.execThermalMigration d s
  | .placementWindowInstall p v => Sys2Proof.Machine.execPlacementWindowInstall p v s
  | .l2LineEvict a w ln => Sys2Proof.Machine.execL2LineEvict a w ln s
  | .fadeTick => Sys2Proof.Machine.execFadeTick s
  | .l2Miss r => Sys2Proof.Machine.execL2Miss r s
  | .fillDataLand st f => Sys2Proof.Machine.execFillDataLand st f s
  | .tableInvalidation k st => Sys2Proof.Machine.execTableInvalidation k st s
  | .cowBreak r => Sys2Proof.Machine.execCowBreak r s
  | .prefetch a w rg => Sys2Proof.Machine.execPrefetch a w rg s
  | .watermarkPublish d => Sys2Proof.Machine.execWatermarkPublish d s
  | .signatureSweep d => Sys2Proof.Machine.execSignatureSweep d s
  | .ownershipRequest k => Sys2Proof.Machine.execOwnershipRequest k s
  | .damGrant g => Sys2Proof.Machine.execDamGrant g s
  | .damLeaseExpiry k => Sys2Proof.Machine.execDamLeaseExpiry k s
  | .rfarDrain c q => Sys2Proof.Machine.execRfarDrain c q s
  | .rfarStage k => Sys2Proof.Machine.execRfarStage k s
  | .epochClose e => Sys2Proof.Machine.execEpochClose e s
  | .sliceFold e sl => Sys2Proof.Machine.execSliceFold e sl s
  | .weirWaitEnd g => Sys2Proof.Machine.execWeirWaitEnd g s
  | .copyResolve c x => Sys2Proof.Machine.execCopyResolve c x s
  | .copyPiece c x b => Sys2Proof.Machine.execCopyPiece c x b s
  | .muCommandPerform c q => Sys2Proof.Machine.execMuCommandPerform c q s
  | .codebookSwitch c => Sys2Proof.Machine.execCodebookSwitch c s
  | .nvmeCompletion k st => Sys2Proof.Machine.execNvmeCompletion k st s
  | .nvmeTimeout k => Sys2Proof.Machine.execNvmeTimeout k s
  | .flashSwapOut t => Sys2Proof.Machine.execFlashSwapOut t s
  | .pagerReply k => Sys2Proof.Machine.execPagerReply k s
  | .pagerReplyTimeout k => Sys2Proof.Machine.execPagerReplyTimeout k s
  | .replayRestart gr => Sys2Proof.Machine.execReplayRestart gr s
  | .teamSave t => Sys2Proof.Machine.execTeamSave t s
  | .teamResume t => Sys2Proof.Machine.execTeamResume t s
  | .ctxBaseWrite t v => Sys2Proof.Machine.execCtxBaseWrite t v s
  | .ctxAreaReady t => Sys2Proof.Machine.execCtxAreaReady t s
  | .gangMapChange gr gg => Sys2Proof.Machine.execGangMapChange gr gg s
  | .viewTagFree a w => Sys2Proof.Machine.execViewTagFree a w s
  | .dieLoss d => Sys2Proof.Machine.execDieLoss d s
  | .baseTileLoss t => Sys2Proof.Machine.execBaseTileLoss t s
  | .dieClkClear d => Sys2Proof.Machine.execDieClkClear d s
  | .hostSnoop p a inv => Sys2Proof.Machine.execHostSnoop p a inv s
  | .portFill p a tag => Sys2Proof.Machine.execPortFill p a tag s
  | .portCacheEvict p a => Sys2Proof.Machine.execPortCacheEvict p a s
  | .leaseExpiry k => Sys2Proof.Machine.execLeaseExpiry k s
  | .leaseRevoke k => Sys2Proof.Machine.execLeaseRevoke k s
  | .leaseDrainDone k => Sys2Proof.Machine.execLeaseDrainDone k s
  | .leaseFail k => Sys2Proof.Machine.execLeaseFail k s
  | .bisnp dev a n => Sys2Proof.Machine.execBisnp dev a n s
  | .peerAccess imp x off op => Sys2Proof.Machine.execPeerAccess imp x off op s
  | .peerRetry k => Sys2Proof.Machine.execPeerRetry k s
  | .polderConfigWrite p v => Sys2Proof.Machine.execPolderConfigWrite p v s
  | .queueControlWrite p q v => Sys2Proof.Machine.execQueueControlWrite p q v s
  | .keyLoad k => Sys2Proof.Machine.execKeyLoad k s
  | .keyClear k => Sys2Proof.Machine.execKeyClear k s
  | .keyUpdateDone k => Sys2Proof.Machine.execKeyUpdateDone k s
  | .attestation a => Sys2Proof.Machine.execAttestation a s
  | .pagerWake t => Sys2Proof.Machine.execPagerWake t s
  | .tmcWake t cause => Sys2Proof.Machine.execTmcWake t cause s
  | .tileHeartbeat t wr => Sys2Proof.Machine.execTileHeartbeat t wr s
  | .tileRateSet t wr rate => Sys2Proof.Machine.execTileRateSet t wr rate s
  | .tileTake t wr => Sys2Proof.Machine.execTileTake t wr s
  | .heartbeatMiss t => Sys2Proof.Machine.execHeartbeatMiss t s
  | .takeoverTimeout t => Sys2Proof.Machine.execTakeoverTimeout t s
  | .throttle d => Sys2Proof.Machine.execThrottle d s
  | .throttleEnd d => Sys2Proof.Machine.execThrottleEnd d s
  | .powerClockStep up => Sys2Proof.Machine.execPowerClockStep up s
  | .refresh t => Sys2Proof.Machine.execRefresh t s
  | .mgmtRegisterWrite off n v w => Sys2Proof.Machine.execMgmtRegisterWrite off n v w s
  | .deviceReset => Sys2Proof.Machine.execDeviceReset s
  | .portLinkDown p => Sys2Proof.Machine.execPortLinkDown p s
  | .spillwayWriteBackDone k ok => Sys2Proof.Machine.execSpillwayWriteBackDone k ok s
  | .shadowBankDrainDone c => Sys2Proof.Machine.execShadowBankDrainDone c s
  | .prConsWrite t v => Sys2Proof.Machine.execPrConsWrite t v s
  | .cowResvWrite t st v => Sys2Proof.Machine.execCowResvWrite t st v s
  | .nop => Sys2Proof.Machine.execNop s
  | .pblk p l t => Sys2Proof.Machine.execPblk p l t s
  | .addI64 d a b => Sys2Proof.Machine.execAddI64 d a b s
  | .subI64 d a b => Sys2Proof.Machine.execSubI64 d a b s
  | .andB64 d a b => Sys2Proof.Machine.execAndB64 d a b s
  | .orB64 d a b => Sys2Proof.Machine.execOrB64 d a b s
  | .xorB64 d a b => Sys2Proof.Machine.execXorB64 d a b s
  | .andnB64 d a b => Sys2Proof.Machine.execAndnB64 d a b s
  | .sllB64 d a b => Sys2Proof.Machine.execSllB64 d a b s
  | .srlB64 d a b => Sys2Proof.Machine.execSrlB64 d a b s
  | .sraB64 d a b => Sys2Proof.Machine.execSraB64 d a b s
  | .rorB64 d a b => Sys2Proof.Machine.execRorB64 d a b s
  | .minI64 d a b => Sys2Proof.Machine.execMinI64 d a b s
  | .maxI64 d a b => Sys2Proof.Machine.execMaxI64 d a b s
  | .minN64 d a b => Sys2Proof.Machine.execMinN64 d a b s
  | .maxN64 d a b => Sys2Proof.Machine.execMaxN64 d a b s
  | .addI32Scalar d a b => Sys2Proof.Machine.execAddI32Scalar d a b s
  | .subI32Scalar d a b => Sys2Proof.Machine.execSubI32Scalar d a b s
  | .addI64Imm d a i_ => Sys2Proof.Machine.execAddI64Imm d a i_ s
  | .andB64Imm d a i_ => Sys2Proof.Machine.execAndB64Imm d a i_ s
  | .orB64Imm d a i_ => Sys2Proof.Machine.execOrB64Imm d a i_ s
  | .xorB64Imm d a i_ => Sys2Proof.Machine.execXorB64Imm d a i_ s
  | .sllB64Imm d a n lit => Sys2Proof.Machine.execSllB64Imm d a n lit s
  | .srlB64Imm d a n lit => Sys2Proof.Machine.execSrlB64Imm d a n lit s
  | .sraB64Imm d a n lit => Sys2Proof.Machine.execSraB64Imm d a n lit s
  | .rorB64Imm d a n lit => Sys2Proof.Machine.execRorB64Imm d a n lit s
  | .scalarCompare p a b k => Sys2Proof.Machine.execScalarCompare p a b k s
  | .scalarCompareImm k p a i_ => Sys2Proof.Machine.execScalarCompareImm k p a i_ s
  | .pand d a b => Sys2Proof.Machine.execPand d a b s
  | .por d a b => Sys2Proof.Machine.execPor d a b s
  | .pxor d a b => Sys2Proof.Machine.execPxor d a b s
  | .pandn d a b => Sys2Proof.Machine.execPandn d a b s
  | .mulI64 d a b => Sys2Proof.Machine.execMulI64 d a b s
  | .mulhI64 d a b => Sys2Proof.Machine.execMulhI64 d a b s
  | .mulhN64 d a b => Sys2Proof.Machine.execMulhN64 d a b s
  | .divI64 d a b => Sys2Proof.Machine.execDivI64 d a b s
  | .divN64 d a b => Sys2Proof.Machine.execDivN64 d a b s
  | .remI64 d a b => Sys2Proof.Machine.execRemI64 d a b s
  | .remN64 d a b => Sys2Proof.Machine.execRemN64 d a b s
  | .lea2B64 d a b => Sys2Proof.Machine.execLea2B64 d a b s
  | .lea4B64 d a b => Sys2Proof.Machine.execLea4B64 d a b s
  | .lea8B64 d a b => Sys2Proof.Machine.execLea8B64 d a b s
  | .lea16B64 d a b => Sys2Proof.Machine.execLea16B64 d a b s
  | .packB64 d a b => Sys2Proof.Machine.execPackB64 d a b s
  | .popcB64 d a => Sys2Proof.Machine.execPopcB64 d a s
  | .clzB64 d a => Sys2Proof.Machine.execClzB64 d a s
  | .ctzB64 d a => Sys2Proof.Machine.execCtzB64 d a s
  | .brevB64 d a => Sys2Proof.Machine.execBrevB64 d a s
  | .bswapB64 d a => Sys2Proof.Machine.execBswapB64 d a s
  | .bextN64 d a b => Sys2Proof.Machine.execBextN64 d a b s
  | .bextI64 d a b => Sys2Proof.Machine.execBextI64 d a b s
  | .binsB64 d a b => Sys2Proof.Machine.execBinsB64 d a b s
  | .movI64 d i_ => Sys2Proof.Machine.execMovI64 d i_ s
  | .br p n d s_ => Sys2Proof.Machine.execBr p n d s_ s
  | .jr a => Sys2Proof.Machine.execJr a s
  | .call d a => Sys2Proof.Machine.execCall d a s
  | .ret a => Sys2Proof.Machine.execRet a s
  | .mrd d i_ => Sys2Proof.Machine.execMrd d i_ s
  | .mwr a i_ => Sys2Proof.Machine.execMwr a i_ s
  | .wait l s_ p x => Sys2Proof.Machine.execWait l s_ p x s
  | .ifence => Sys2Proof.Machine.execIfence s
  | .rdcyc d => Sys2Proof.Machine.execRdcyc d s
  | .rdtime d => Sys2Proof.Machine.execRdtime d s
  | .exit => Sys2Proof.Machine.execExit s
  | .yield => Sys2Proof.Machine.execYield s
  | .tbar a => Sys2Proof.Machine.execTbar a s
  | .join => Sys2Proof.Machine.execJoin s
  | .idrScalar d a => Sys2Proof.Machine.execIdrScalar d a s
  | .idrLane d a => Sys2Proof.Machine.execIdrLane d a s
  | .launch d a => Sys2Proof.Machine.execLaunch d a s
  | .kput d a => Sys2Proof.Machine.execKput d a s
  | .kget d a => Sys2Proof.Machine.execKget d a s
  | .brk k => Sys2Proof.Machine.execBrk k s
  | .dbgHalt d a => Sys2Proof.Machine.execDbgHalt d a s
  | .dbgResume d a => Sys2Proof.Machine.execDbgResume d a s
  | .dbgStep d a => Sys2Proof.Machine.execDbgStep d a s
  | .dbgRdpc d a => Sys2Proof.Machine.execDbgRdpc d a s
  | .dbgWatch d a => Sys2Proof.Machine.execDbgWatch d a s
  | .dbgHalted d a => Sys2Proof.Machine.execDbgHalted d a s
  | .tret => Sys2Proof.Machine.execTret s
  | .tretSkip => Sys2Proof.Machine.execTretSkip s
  | .tretExit => Sys2Proof.Machine.execTretExit s
  | .tretTo a => Sys2Proof.Machine.execTretTo a s
  | .addI32 d a b => Sys2Proof.Machine.execAddI32 d a b s
  | .subI32 d a b => Sys2Proof.Machine.execSubI32 d a b s
  | .andB32 d a b => Sys2Proof.Machine.execAndB32 d a b s
  | .orB32 d a b => Sys2Proof.Machine.execOrB32 d a b s
  | .xorB32 d a b => Sys2Proof.Machine.execXorB32 d a b s
  | .andnB32 d a b => Sys2Proof.Machine.execAndnB32 d a b s
  | .sllB32 d a b => Sys2Proof.Machine.execSllB32 d a b s
  | .srlB32 d a b => Sys2Proof.Machine.execSrlB32 d a b s
  | .sraB32 d a b => Sys2Proof.Machine.execSraB32 d a b s
  | .minI32 d a b => Sys2Proof.Machine.execMinI32 d a b s
  | .maxI32 d a b => Sys2Proof.Machine.execMaxI32 d a b s
  | .minN32 d a b => Sys2Proof.Machine.execMinN32 d a b s
  | .maxN32 d a b => Sys2Proof.Machine.execMaxN32 d a b s
  | .addsI32 d a b => Sys2Proof.Machine.execAddsI32 d a b s
  | .subsI32 d a b => Sys2Proof.Machine.execSubsI32 d a b s
  | .selB32 d p b => Sys2Proof.Machine.execSelB32 d p b s
  | .addI32Imm d a i_ => Sys2Proof.Machine.execAddI32Imm d a i_ s
  | .andB32Imm d a i_ => Sys2Proof.Machine.execAndB32Imm d a i_ s
  | .orB32Imm d a i_ => Sys2Proof.Machine.execOrB32Imm d a i_ s
  | .xorB32Imm d a i_ => Sys2Proof.Machine.execXorB32Imm d a i_ s
  | .sllB32Imm d a n lit => Sys2Proof.Machine.execSllB32Imm d a n lit s
  | .srlB32Imm d a n lit => Sys2Proof.Machine.execSrlB32Imm d a n lit s
  | .sraB32Imm d a n lit => Sys2Proof.Machine.execSraB32Imm d a n lit s
  | .rorB32Imm d a n lit => Sys2Proof.Machine.execRorB32Imm d a n lit s
  | .movB32Imm d i_ => Sys2Proof.Machine.execMovB32Imm d i_ s
  | .mulB32 d a b => Sys2Proof.Machine.execMulB32 d a b s
  | .mulhI32 d a b => Sys2Proof.Machine.execMulhI32 d a b s
  | .mulhN32 d a b => Sys2Proof.Machine.execMulhN32 d a b s
  | .madB32 d a b => Sys2Proof.Machine.execMadB32 d a b s
  | .divI32 d a b => Sys2Proof.Machine.execDivI32 d a b s
  | .divN32 d a b => Sys2Proof.Machine.execDivN32 d a b s
  | .remI32 d a b => Sys2Proof.Machine.execRemI32 d a b s
  | .remN32 d a b => Sys2Proof.Machine.execRemN32 d a b s
  | .mulwI32 d a b => Sys2Proof.Machine.execMulwI32 d a b s
  | .mulwN32 d a b => Sys2Proof.Machine.execMulwN32 d a b s
  | .madwN32 d a b => Sys2Proof.Machine.execMadwN32 d a b s
  | .dp4I8 d a b => Sys2Proof.Machine.execDp4I8 d a b s
  | .dp4N8 d a b => Sys2Proof.Machine.execDp4N8 d a b s
  | .laneCompare p a b k => Sys2Proof.Machine.execLaneCompare p a b k s
  | .laneCompareImm k p a i_ => Sys2Proof.Machine.execLaneCompareImm k p a i_ s
  | .bcastB32 d a => Sys2Proof.Machine.execBcastB32 d a s
  | .bcastB64 d a => Sys2Proof.Machine.execBcastB64 d a s
  | .rdlN32 d a b => Sys2Proof.Machine.execRdlN32 d a b s
  | .rdlI32 d a b => Sys2Proof.Machine.execRdlI32 d a b s
  | .rdlB64 d a b => Sys2Proof.Machine.execRdlB64 d a b s
  | .wrlB32 d a b => Sys2Proof.Machine.execWrlB32 d a b s
  | .movB32 d a => Sys2Proof.Machine.execMovB32 d a s
  | .movB64 d a => Sys2Proof.Machine.execMovB64 d a s
  | .pgetB32 d p => Sys2Proof.Machine.execPgetB32 d p s
  | .popcB32 d a => Sys2Proof.Machine.execPopcB32 d a s
  | .clzB32 d a => Sys2Proof.Machine.execClzB32 d a s
  | .ctzB32 d a => Sys2Proof.Machine.execCtzB32 d a s
  | .brevB32 d a => Sys2Proof.Machine.execBrevB32 d a s
  | .bswapB32 d a => Sys2Proof.Machine.execBswapB32 d a s
  | .bextN32 d a b => Sys2Proof.Machine.execBextN32 d a b s
  | .bextI32 d a b => Sys2Proof.Machine.execBextI32 d a b s
  | .binsB32 d a b => Sys2Proof.Machine.execBinsB32 d a b s
  | .addF32 d a b => Sys2Proof.Machine.execAddF32 d a b s
  | .subF32 d a b => Sys2Proof.Machine.execSubF32 d a b s
  | .mulF32 d a b => Sys2Proof.Machine.execMulF32 d a b s
  | .divF32 d a b => Sys2Proof.Machine.execDivF32 d a b s
  | .sqrtF32 d a => Sys2Proof.Machine.execSqrtF32 d a s
  | .minF32 d a b => Sys2Proof.Machine.execMinF32 d a b s
  | .maxF32 d a b => Sys2Proof.Machine.execMaxF32 d a b s
  | .minnF32 d a b => Sys2Proof.Machine.execMinnF32 d a b s
  | .maxnF32 d a b => Sys2Proof.Machine.execMaxnF32 d a b s
  | .absF32 d a => Sys2Proof.Machine.execAbsF32 d a s
  | .negF32 d a => Sys2Proof.Machine.execNegF32 d a s
  | .csgnF32 d a b => Sys2Proof.Machine.execCsgnF32 d a b s
  | .classF32 d a => Sys2Proof.Machine.execClassF32 d a s
  | .compareF32 k p a b => Sys2Proof.Machine.execCompareF32 k p a b s
  | .rintF32 d a m => Sys2Proof.Machine.execRintF32 d a m s
  | .sclF32 d a b => Sys2Proof.Machine.execSclF32 d a b s
  | .addF64 d a b => Sys2Proof.Machine.execAddF64 d a b s
  | .subF64 d a b => Sys2Proof.Machine.execSubF64 d a b s
  | .mulF64 d a b => Sys2Proof.Machine.execMulF64 d a b s
  | .divF64 d a b => Sys2Proof.Machine.execDivF64 d a b s
  | .sqrtF64 d a => Sys2Proof.Machine.execSqrtF64 d a s
  | .minF64 d a b => Sys2Proof.Machine.execMinF64 d a b s
  | .maxF64 d a b => Sys2Proof.Machine.execMaxF64 d a b s
  | .minnF64 d a b => Sys2Proof.Machine.execMinnF64 d a b s
  | .maxnF64 d a b => Sys2Proof.Machine.execMaxnF64 d a b s
  | .absF64 d a => Sys2Proof.Machine.execAbsF64 d a s
  | .negF64 d a => Sys2Proof.Machine.execNegF64 d a s
  | .csgnF64 d a b => Sys2Proof.Machine.execCsgnF64 d a b s
  | .classF64 d a => Sys2Proof.Machine.execClassF64 d a s
  | .compareF64 k p a b => Sys2Proof.Machine.execCompareF64 k p a b s
  | .rintF64 d a m => Sys2Proof.Machine.execRintF64 d a m s
  | .sclF64 d a b => Sys2Proof.Machine.execSclF64 d a b s
  | .addF16 d a b => Sys2Proof.Machine.execAddF16 d a b s
  | .subF16 d a b => Sys2Proof.Machine.execSubF16 d a b s
  | .mulF16 d a b => Sys2Proof.Machine.execMulF16 d a b s
  | .minF16 d a b => Sys2Proof.Machine.execMinF16 d a b s
  | .maxF16 d a b => Sys2Proof.Machine.execMaxF16 d a b s
  | .add2F16 d a b => Sys2Proof.Machine.execAdd2F16 d a b s
  | .sub2F16 d a b => Sys2Proof.Machine.execSub2F16 d a b s
  | .mul2F16 d a b => Sys2Proof.Machine.execMul2F16 d a b s
  | .addBf16 d a b => Sys2Proof.Machine.execAddBf16 d a b s
  | .subBf16 d a b => Sys2Proof.Machine.execSubBf16 d a b s
  | .mulBf16 d a b => Sys2Proof.Machine.execMulBf16 d a b s
  | .minBf16 d a b => Sys2Proof.Machine.execMinBf16 d a b s
  | .maxBf16 d a b => Sys2Proof.Machine.execMaxBf16 d a b s
  | .add2Bf16 d a b => Sys2Proof.Machine.execAdd2Bf16 d a b s
  | .sub2Bf16 d a b => Sys2Proof.Machine.execSub2Bf16 d a b s
  | .mul2Bf16 d a b => Sys2Proof.Machine.execMul2Bf16 d a b s
  | .fmaF32 d a b => Sys2Proof.Machine.execFmaF32 d a b s
  | .fmsF32 d a b => Sys2Proof.Machine.execFmsF32 d a b s
  | .fnmaF32 d a b => Sys2Proof.Machine.execFnmaF32 d a b s
  | .fnmsF32 d a b => Sys2Proof.Machine.execFnmsF32 d a b s
  | .fmaF64 d a b => Sys2Proof.Machine.execFmaF64 d a b s
  | .fmsF64 d a b => Sys2Proof.Machine.execFmsF64 d a b s
  | .fnmaF64 d a b => Sys2Proof.Machine.execFnmaF64 d a b s
  | .fnmsF64 d a b => Sys2Proof.Machine.execFnmsF64 d a b s
  | .fmaF16 d a b => Sys2Proof.Machine.execFmaF16 d a b s
  | .fnmaF16 d a b => Sys2Proof.Machine.execFnmaF16 d a b s
  | .fma2F16 d a b => Sys2Proof.Machine.execFma2F16 d a b s
  | .fnma2F16 d a b => Sys2Proof.Machine.execFnma2F16 d a b s
  | .fmaBf16 d a b => Sys2Proof.Machine.execFmaBf16 d a b s
  | .fnmaBf16 d a b => Sys2Proof.Machine.execFnmaBf16 d a b s
  | .fma2Bf16 d a b => Sys2Proof.Machine.execFma2Bf16 d a b s
  | .fnma2Bf16 d a b => Sys2Proof.Machine.execFnma2Bf16 d a b s
  | .cvt d a x m s_ t => Sys2Proof.Machine.execCvt d a x m s_ t s
  | .cvtE4m3F32 d a b => Sys2Proof.Machine.execCvtE4m3F32 d a b s
  | .cvthiE4m3F32 d a b => Sys2Proof.Machine.execCvthiE4m3F32 d a b s
  | .cvtE5m2F32 d a b => Sys2Proof.Machine.execCvtE5m2F32 d a b s
  | .cvthiE5m2F32 d a b => Sys2Proof.Machine.execCvthiE5m2F32 d a b s
  | .cvtE4m3F32Sat d a b => Sys2Proof.Machine.execCvtE4m3F32Sat d a b s
  | .cvthiE4m3F32Sat d a b => Sys2Proof.Machine.execCvthiE4m3F32Sat d a b s
  | .cvtE5m2F32Sat d a b => Sys2Proof.Machine.execCvtE5m2F32Sat d a b s
  | .cvthiE5m2F32Sat d a b => Sys2Proof.Machine.execCvthiE5m2F32Sat d a b s
  | .cvtF32E4m3 d a k => Sys2Proof.Machine.execCvtF32E4m3 d a k s
  | .cvtF32E5m2 d a k => Sys2Proof.Machine.execCvtF32E5m2 d a k s
  | .cvt2Bf16E4m3 d a h => Sys2Proof.Machine.execCvt2Bf16E4m3 d a h s
  | .cvt2Bf16E5m2 d a h => Sys2Proof.Machine.execCvt2Bf16E5m2 d a h s
  | .qsc d a t => Sys2Proof.Machine.execQsc d a t s
  | .cvtW4F32 d a b => Sys2Proof.Machine.execCvtW4F32 d a b s
  | .cvtW3F32 d a b => Sys2Proof.Machine.execCvtW3F32 d a b s
  | .cvtF32W4 d a b => Sys2Proof.Machine.execCvtF32W4 d a b s
  | .rcp d a => Sys2Proof.Machine.execRcp d a s
  | .rsqrt d a => Sys2Proof.Machine.execRsqrt d a s
  | .sfsqrt d a => Sys2Proof.Machine.execSfsqrt d a s
  | .exp2 d a => Sys2Proof.Machine.execExp2 d a s
  | .log2 d a => Sys2Proof.Machine.execLog2 d a s
  | .sinpi d a => Sys2Proof.Machine.execSinpi d a s
  | .cospi d a => Sys2Proof.Machine.execCospi d a s
  | .exp d a => Sys2Proof.Machine.execExp d a s
  | .sincospi d a => Sys2Proof.Machine.execSincospi d a s
  | .clmulB32 d a b => Sys2Proof.Machine.execClmulB32 d a b s
  | .clmulhB32 d a b => Sys2Proof.Machine.execClmulhB32 d a b s
  | .clmulwB32 d a b => Sys2Proof.Machine.execClmulwB32 d a b s
  | .clmulB64 d a b => Sys2Proof.Machine.execClmulB64 d a b s
  | .clmulhB64 d a b => Sys2Proof.Machine.execClmulhB64 d a b s
  | .clmulwB64 d a b => Sys2Proof.Machine.execClmulwB64 d a b s
  | .clmulrB32 d a b => Sys2Proof.Machine.execClmulrB32 d a b s
  | .clmulrB64 d a b => Sys2Proof.Machine.execClmulrB64 d a b s
  | .xchAtB32 d a b => Sys2Proof.Machine.execXchAtB32 d a b s
  | .xchLoB32 d a n => Sys2Proof.Machine.execXchLoB32 d a n s
  | .xchHiB32 d a n => Sys2Proof.Machine.execXchHiB32 d a n s
  | .xchFlipB32 d a n => Sys2Proof.Machine.execXchFlipB32 d a n s
  | .xchAtB64 d a b => Sys2Proof.Machine.execXchAtB64 d a b s
  | .xchLoB64 d a n => Sys2Proof.Machine.execXchLoB64 d a n s
  | .xchHiB64 d a n => Sys2Proof.Machine.execXchHiB64 d a n s
  | .xchFlipB64 d a n => Sys2Proof.Machine.execXchFlipB64 d a n s
  | .lall d a => Sys2Proof.Machine.execLall d a s
  | .lany d a => Sys2Proof.Machine.execLany d a s
  | .lsameB32 d a => Sys2Proof.Machine.execLsameB32 d a s
  | .lmaskB32 d a => Sys2Proof.Machine.execLmaskB32 d a s
  | .scan d a p o => Sys2Proof.Machine.execScan d a p o s
  | .scanx d a p o => Sys2Proof.Machine.execScanx d a p o s
  | .red d a p o => Sys2Proof.Machine.execRed d a p o s
  | .tput a p o => Sys2Proof.Machine.execTput a p o s
  | .tget d o => Sys2Proof.Machine.execTget d o s
  | .ldN8 t b x y o h => Sys2Proof.Machine.execLdN8 t b x y o h s
  | .ldI8 t b x y o h => Sys2Proof.Machine.execLdI8 t b x y o h s
  | .ldN16 t b x y o h => Sys2Proof.Machine.execLdN16 t b x y o h s
  | .ldI16 t b x y o h => Sys2Proof.Machine.execLdI16 t b x y o h s
  | .ldB32 t b x y o h => Sys2Proof.Machine.execLdB32 t b x y o h s
  | .ldB64 t b x y o h => Sys2Proof.Machine.execLdB64 t b x y o h s
  | .ldB128 t b x y o h => Sys2Proof.Machine.execLdB128 t b x y o h s
  | .stB8 t b x y o h => Sys2Proof.Machine.execStB8 t b x y o h s
  | .stB16 t b x y o h => Sys2Proof.Machine.execStB16 t b x y o h s
  | .stB32 t b x y o h => Sys2Proof.Machine.execStB32 t b x y o h s
  | .stB64 t b x y o h => Sys2Proof.Machine.execStB64 t b x y o h s
  | .stB128 t b x y o h => Sys2Proof.Machine.execStB128 t b x y o h s
  | .ldScalar t b w d => Sys2Proof.Machine.execLdScalar t b w d s
  | .stScalar t b w d => Sys2Proof.Machine.execStScalar t b w d s
  | .atomAdd d a s_ o w => Sys2Proof.Machine.execAtomAdd d a s_ o w s
  | .atomMinI d a s_ o w => Sys2Proof.Machine.execAtomMinI d a s_ o w s
  | .atomMaxI d a s_ o w => Sys2Proof.Machine.execAtomMaxI d a s_ o w s
  | .atomMinN d a s_ o w => Sys2Proof.Machine.execAtomMinN d a s_ o w s
  | .atomMaxN d a s_ o w => Sys2Proof.Machine.execAtomMaxN d a s_ o w s
  | .atomAnd d a s_ o w => Sys2Proof.Machine.execAtomAnd d a s_ o w s
  | .atomOr d a s_ o w => Sys2Proof.Machine.execAtomOr d a s_ o w s
  | .atomXor d a s_ o w => Sys2Proof.Machine.execAtomXor d a s_ o w s
  | .atomExch d a s_ o w => Sys2Proof.Machine.execAtomExch d a s_ o w s
  | .atomCas d a s_ o w => Sys2Proof.Machine.execAtomCas d a s_ o w s
  | .atomAddF d a s_ o w => Sys2Proof.Machine.execAtomAddF d a s_ o w s
  | .ldo d a s_ o w => Sys2Proof.Machine.execLdo d a s_ o w s
  | .sto d a s_ o w => Sys2Proof.Machine.execSto d a s_ o w s
  | .rfarAddI32 a b => Sys2Proof.Machine.execRfarAddI32 a b s
  | .rfarAddI64 a b => Sys2Proof.Machine.execRfarAddI64 a b s
  | .rfarMinI32 a b => Sys2Proof.Machine.execRfarMinI32 a b s
  | .rfarMaxI32 a b => Sys2Proof.Machine.execRfarMaxI32 a b s
  | .rfarMinN32 a b => Sys2Proof.Machine.execRfarMinN32 a b s
  | .rfarMaxN32 a b => Sys2Proof.Machine.execRfarMaxN32 a b s
  | .rfarAndB32 a b => Sys2Proof.Machine.execRfarAndB32 a b s
  | .rfarOrB32 a b => Sys2Proof.Machine.execRfarOrB32 a b s
  | .rfarXorB32 a b => Sys2Proof.Machine.execRfarXorB32 a b s
  | .rfarAddF32 a b => Sys2Proof.Machine.execRfarAddF32 a b s
  | .rfarAddF64 a b => Sys2Proof.Machine.execRfarAddF64 a b s
  | .rfarMinF32 a b => Sys2Proof.Machine.execRfarMinF32 a b s
  | .rfarMaxF32 a b => Sys2Proof.Machine.execRfarMaxF32 a b s
  | .repOpen a => Sys2Proof.Machine.execRepOpen a s
  | .repFlush => Sys2Proof.Machine.execRepFlush s
  | .repClose => Sys2Proof.Machine.execRepClose s
  | .damTake d a b => Sys2Proof.Machine.execDamTake d a b s
  | .damChk d a => Sys2Proof.Machine.execDamChk d a s
  | .damEnd d a => Sys2Proof.Machine.execDamEnd d a s
  | .warm a b => Sys2Proof.Machine.execWarm a b s
  | .warr d a s_ n => Sys2Proof.Machine.execWarr d a s_ n s
  | .wwait s_ a b => Sys2Proof.Machine.execWwait s_ a b s
  | .wprobe d a s_ => Sys2Proof.Machine.execWprobe d a s_ s
  | .fenceAcq s_ => Sys2Proof.Machine.execFenceAcq s_ s
  | .fenceRel s_ => Sys2Proof.Machine.execFenceRel s_ s
  | .fenceFull s_ => Sys2Proof.Machine.execFenceFull s_ s
  | .cctlL1b a => Sys2Proof.Machine.execCctlL1b a s
  | .cctlL1all => Sys2Proof.Machine.execCctlL1all s
  | .cctlWbl d a => Sys2Proof.Machine.execCctlWbl d a s
  | .cctlWbf d a => Sys2Proof.Machine.execCctlWbf d a s
  | .cctlRel d a => Sys2Proof.Machine.execCctlRel d a s
  | .pinReload d a => Sys2Proof.Machine.execPinReload d a s
  | .pinEnd d a => Sys2Proof.Machine.execPinEnd d a s
  | .pinSet d a => Sys2Proof.Machine.execPinSet d a s
  | .pinClr d a => Sys2Proof.Machine.execPinClr d a s
  | .cptCopy d a b => Sys2Proof.Machine.execCptCopy d a b s
  | .cptLtab a b => Sys2Proof.Machine.execCptLtab a b s
  | .cptBind d a => Sys2Proof.Machine.execCptBind d a s
  | .cptAdv d a => Sys2Proof.Machine.execCptAdv d a s
  | .cptRel d a => Sys2Proof.Machine.execCptRel d a s
  | .cptRes d a x => Sys2Proof.Machine.execCptRes d a x s
  | .mma t z s_ a b => Sys2Proof.Machine.execMma t z s_ a b s
  | .mld t a => Sys2Proof.Machine.execMld t a s
  | .mst t f a b => Sys2Proof.Machine.execMst t f a b s
  | .mqst t q a b => Sys2Proof.Machine.execMqst t q a b s
  | .mcb a => Sys2Proof.Machine.execMcb a s
  | .mxst d => Sys2Proof.Machine.execMxst d s
  | .mxstClr d => Sys2Proof.Machine.execMxstClr d s
  | .fqePf d a => Sys2Proof.Machine.execFqePf d a s
  | .fqeSync d a => Sys2Proof.Machine.execFqeSync d a s
  | .fqeSub d a => Sys2Proof.Machine.execFqeSub d a s
  | .wfork d a => Sys2Proof.Machine.execWfork d a s
  | .wenter d a => Sys2Proof.Machine.execWenter d a s
  | .wleave d => Sys2Proof.Machine.execWleave d s
  | .wchoose d a => Sys2Proof.Machine.execWchoose d a s
  | .wstat d a => Sys2Proof.Machine.execWstat d a s
  | .wwho d => Sys2Proof.Machine.execWwho d s

end Sys2Proof.Machine
end

