-- ==== Sys2Proof/WellFormed.lean ====
section
/-! DEFINITION. Which instructions are well formed: the field values that an entry assigns (R40, R50, R54).

`Instr.badField` gives the reason of the illegal-instruction trap (R55) of a word whose fields hold a value that its
entry does not assign; `none` for a word that is an instruction. The marker value `0x400` is never a short immediate,
nor `0x80` a short displacement (R41); `Instr.markerFree` says so. -/

namespace Sys2Proof

/-- Reason `r` where the field value is not assigned. -/
def reasonUnless (ok : Bool) (r : Nat) : Option Nat := if ok then none else some r

/-- Fields of a lane memory word (R39): H is not 3, and X = 0 leaves the index field zero. -/
def mvBad (x : BitVec 7) (y : BitVec 1) (h : BitVec 2) : Option Nat :=
  reasonUnless (h != 3#2 && (y == 1#1 || x == 0#7)) 3

/-- Control field of major `0x36` (R300): scopes 6 and 7 are unassigned, and ORD is one the function permits (R301). -/
def atomBad (s : BitVec 3) (ok : Bool) : Option Nat := reasonUnless (s.toNat < 6 && ok) 3

/-- Format codes 0 to 3 of R126 are floating-point. -/
def cvtIsFloat (c : BitVec 3) : Bool := c.toNat < 4

/-- The reason of R55 for a field value that the instruction's entry does not assign. -/
def Instr.badField : Instr → Option Nat
  | .pblk _ l t => reasonUnless (t.toNat < 2 ^ (l.toNat + 1)) 8
  | .sllB32Imm _ _ n _ | .srlB32Imm _ _ n _ | .sraB32Imm _ _ n _ | .rorB32Imm _ _ n _ => reasonUnless (n.toNat < 32) 3
  | .scalarCompare _ _ _ k | .laneCompare _ _ _ k => reasonUnless (k.toNat < 12) 2
  | .scalarCompareImm k _ _ _ | .laneCompareImm k _ _ _ => reasonUnless (k.toNat < 12) 3
  | .compareF32 k _ _ _ | .compareF64 k _ _ _ => reasonUnless (k.toNat < 8) 3
  | .rintF32 _ _ m | .rintF64 _ _ m => reasonUnless (m.toNat < 5) 3
  | .cvt _ _ x m s t =>
    reasonUnless (s != t && m.toNat < 5 && (x == 0#1 || (!cvtIsFloat s && !cvtIsFloat t))) 3
  | .idrScalar _ a => reasonUnless (a.toNat < 16 && a != 0#7) 3
  | .idrLane _ a => reasonUnless (a.toNat < 16) 3
  | .scan _ _ _ o | .scanx _ _ _ o | .red _ _ _ o | .tput _ _ o | .tget _ o => reasonUnless (o.toNat < 14) 2
  | .ldN8 _ _ x y _ h | .ldI8 _ _ x y _ h | .ldN16 _ _ x y _ h | .ldI16 _ _ x y _ h | .ldB32 _ _ x y _ h
  | .ldB64 _ _ x y _ h | .ldB128 _ _ x y _ h | .stB8 _ _ x y _ h | .stB16 _ _ x y _ h | .stB32 _ _ x y _ h
  | .stB64 _ _ x y _ h | .stB128 _ _ x y _ h => mvBad x y h
  | .ldScalar _ _ w _ => reasonUnless (w != 7#3) 3
  | .atomAdd _ _ s _ _ | .atomMinI _ _ s _ _ | .atomMaxI _ _ s _ _ | .atomMinN _ _ s _ _ | .atomMaxN _ _ s _ _
  | .atomAnd _ _ s _ _ | .atomOr _ _ s _ _ | .atomXor _ _ s _ _ | .atomExch _ _ s _ _ | .atomCas _ _ s _ _
  | .atomAddF _ _ s _ _ => atomBad s true
  | .ldo _ _ s o _ => atomBad s (o == 0#2 || o == 1#2)
  | .sto _ _ s o _ => atomBad s (o == 0#2 || o == 2#2)
  | .damTake _ _ b => reasonUnless (1 ≤ b.toNat && b.toNat ≤ 64) 3
  | .warr _ _ s _ | .wwait s _ _ | .wprobe _ _ s | .fenceAcq s | .fenceRel s | .fenceFull s =>
    reasonUnless (s.toNat < 6) 3
  | .cptRes _ _ x => reasonUnless (x != 3#2) 3
  | _ => none

/-- A short immediate is never the marker value (R41). -/
def Imm.ok : Imm → Bool
  | .short x => x != 0x400#11
  | .lit _ => true

/-- A short displacement is never the marker value (R41). -/
def Disp.ok : Disp → Bool
  | .short x => x != 0x80#8
  | .lit _ => true

/-- No field holds the marker in place of a value (R41). -/
def Instr.markerFree : Instr → Bool
  | .addI64Imm _ _ i | .andB64Imm _ _ i | .orB64Imm _ _ i | .xorB64Imm _ _ i => i.ok
  | .scalarCompareImm _ _ _ i | .laneCompareImm _ _ _ i => i.ok
  | .movI64 _ i | .movB32Imm _ i | .mrd _ i | .mwr _ i => i.ok
  | .addI32Imm _ _ i | .andB32Imm _ _ i | .orB32Imm _ _ i | .xorB32Imm _ _ i => i.ok
  | .ldScalar _ _ _ d | .stScalar _ _ _ d => d.ok
  | _ => true

/-- A well-formed instruction. -/
def Instr.wf (i : Instr) : Bool := i.badField.isNone && i.markerFree

end Sys2Proof
end

