-- ==== Sys2Proof/Decode.lean ====
section
/-! DEFINITION. The decoder and the encoder of instruction words (R38 to R55).

`decodeFields` and `encodeFields` are written from the same layout tables (R39 and the entries of the opcode table);
the chain bit C is kept beside the instruction in `Decoded`. Decoding is total: every word gives an instruction or
the reason of the illegal-instruction trap (R55). -/

namespace Sys2Proof

/-- The fields of a word in format R (R39): C, major, d, a, b, fn. -/
structure Fields where
  major : BitVec 6
  d : BitVec 7
  a : BitVec 7
  b : BitVec 7
  fn : BitVec 4
  deriving DecidableEq, Repr

/-- Bits [24:0] of a word. -/
def Fields.body (f : Fields) : BitVec 25 := f.d ++ f.a ++ f.b ++ f.fn

/-- The imm11 field of format I. -/
def Fields.imm (f : Fields) : BitVec 11 := f.b ++ f.fn

def Fields.ofBody (major : BitVec 6) (x : BitVec 25) : Fields :=
  ⟨major, x.extractLsb' 18 7, x.extractLsb' 11 7, x.extractLsb' 4 7, x.extractLsb' 0 4⟩

def Fields.ofImm (major : BitVec 6) (d a : BitVec 7) (i : BitVec 11) : Fields :=
  ⟨major, d, a, i.extractLsb' 4 7, i.extractLsb' 0 4⟩

/-- The word of fields and a chain bit (R38). -/
def pack (c : BitVec 1) (f : Fields) : Word := c ++ f.major ++ f.d ++ f.a ++ f.b ++ f.fn

/-- The fields of a word (R38). -/
def unpack (w : Word) : Fields :=
  ⟨w.extractLsb' 25 6, w.extractLsb' 18 7, w.extractLsb' 11 7, w.extractLsb' 4 7, w.extractLsb' 0 4⟩

/-- The field value of an immediate and its literal word (R41). -/
def Imm.field : Imm → BitVec 11
  | .short x => x
  | .lit _ => 0x400#11
def Imm.literal : Imm → Option Word
  | .short _ => none
  | .lit x => some x
def Disp.field : Disp → BitVec 8
  | .short x => x
  | .lit _ => 0x80#8
def Disp.literal : Disp → Option Word
  | .short _ => none
  | .lit x => some x

/-- An immediate (R41): the marker takes the literal word; with no word left in the packet, reason 7 (R42). -/
def decImm (x : BitVec 11) (lit : Option Word) (k : Imm → Instr) : Except Nat Instr :=
  if x == 0x400#11 then
    match lit with
    | none => .error 7
    | some l => .ok (k (.lit l))
  else .ok (k (.short x))

/-- A displacement of format MS (R41). -/
def decDisp (x : BitVec 8) (lit : Option Word) (k : Disp → Instr) : Except Nat Instr :=
  if x == 0x80#8 then
    match lit with
    | none => .error 7
    | some l => .ok (k (.lit l))
  else .ok (k (.short x))

/-- A field that must be zero (R40): reason 3 where it is not. -/
def ensure3 (b : Bool) (i : Instr) : Except Nat Instr := if b then .ok i else .error 3

/-- Major `0x01` of R53. -/
def decode01 (f : Fields) : Except Nat Instr :=
  match f.fn.toNat with
  | 0 => .ok (Instr.addI64 f.d f.a f.b)
  | 1 => .ok (Instr.subI64 f.d f.a f.b)
  | 2 => .ok (Instr.andB64 f.d f.a f.b)
  | 3 => .ok (Instr.orB64 f.d f.a f.b)
  | 4 => .ok (Instr.xorB64 f.d f.a f.b)
  | 5 => .ok (Instr.andnB64 f.d f.a f.b)
  | 6 => .ok (Instr.sllB64 f.d f.a f.b)
  | 7 => .ok (Instr.srlB64 f.d f.a f.b)
  | 8 => .ok (Instr.sraB64 f.d f.a f.b)
  | 9 => .ok (Instr.rorB64 f.d f.a f.b)
  | 10 => .ok (Instr.minI64 f.d f.a f.b)
  | 11 => .ok (Instr.maxI64 f.d f.a f.b)
  | 12 => .ok (Instr.minN64 f.d f.a f.b)
  | 13 => .ok (Instr.maxN64 f.d f.a f.b)
  | 14 => .ok (Instr.addI32Scalar f.d f.a f.b)
  | _ => .ok (Instr.subI32Scalar f.d f.a f.b)

/-- Major `0x02` of R53. -/
def decode02 (f : Fields) : Except Nat Instr :=
  match f.fn.toNat with
  | 0 => ensure3 (f.d.extractLsb' 3 4 == 0x0#4) (Instr.scalarCompare (f.d.extractLsb' 0 3) f.a f.b f.fn)
  | 1 => ensure3 (f.d.extractLsb' 3 4 == 0x0#4) (Instr.scalarCompare (f.d.extractLsb' 0 3) f.a f.b f.fn)
  | 2 => ensure3 (f.d.extractLsb' 3 4 == 0x0#4) (Instr.scalarCompare (f.d.extractLsb' 0 3) f.a f.b f.fn)
  | 3 => ensure3 (f.d.extractLsb' 3 4 == 0x0#4) (Instr.scalarCompare (f.d.extractLsb' 0 3) f.a f.b f.fn)
  | 4 => ensure3 (f.d.extractLsb' 3 4 == 0x0#4) (Instr.scalarCompare (f.d.extractLsb' 0 3) f.a f.b f.fn)
  | 5 => ensure3 (f.d.extractLsb' 3 4 == 0x0#4) (Instr.scalarCompare (f.d.extractLsb' 0 3) f.a f.b f.fn)
  | 6 => ensure3 (f.d.extractLsb' 3 4 == 0x0#4) (Instr.scalarCompare (f.d.extractLsb' 0 3) f.a f.b f.fn)
  | 7 => ensure3 (f.d.extractLsb' 3 4 == 0x0#4) (Instr.scalarCompare (f.d.extractLsb' 0 3) f.a f.b f.fn)
  | 8 => ensure3 (f.d.extractLsb' 3 4 == 0x0#4) (Instr.scalarCompare (f.d.extractLsb' 0 3) f.a f.b f.fn)
  | 9 => ensure3 (f.d.extractLsb' 3 4 == 0x0#4) (Instr.scalarCompare (f.d.extractLsb' 0 3) f.a f.b f.fn)
  | 10 => ensure3 (f.d.extractLsb' 3 4 == 0x0#4) (Instr.scalarCompare (f.d.extractLsb' 0 3) f.a f.b f.fn)
  | 11 => ensure3 (f.d.extractLsb' 3 4 == 0x0#4) (Instr.scalarCompare (f.d.extractLsb' 0 3) f.a f.b f.fn)
  | 12 => ensure3 (f.d.extractLsb' 3 4 == 0x0#4 && f.a.extractLsb' 3 4 == 0x0#4 && f.b.extractLsb' 3 4 == 0x0#4) (Instr.pand (f.d.extractLsb' 0 3) (f.a.extractLsb' 0 3) (f.b.extractLsb' 0 3))
  | 13 => ensure3 (f.d.extractLsb' 3 4 == 0x0#4 && f.a.extractLsb' 3 4 == 0x0#4 && f.b.extractLsb' 3 4 == 0x0#4) (Instr.por (f.d.extractLsb' 0 3) (f.a.extractLsb' 0 3) (f.b.extractLsb' 0 3))
  | 14 => ensure3 (f.d.extractLsb' 3 4 == 0x0#4 && f.a.extractLsb' 3 4 == 0x0#4 && f.b.extractLsb' 3 4 == 0x0#4) (Instr.pxor (f.d.extractLsb' 0 3) (f.a.extractLsb' 0 3) (f.b.extractLsb' 0 3))
  | _ => ensure3 (f.d.extractLsb' 3 4 == 0x0#4 && f.a.extractLsb' 3 4 == 0x0#4 && f.b.extractLsb' 3 4 == 0x0#4) (Instr.pandn (f.d.extractLsb' 0 3) (f.a.extractLsb' 0 3) (f.b.extractLsb' 0 3))

/-- Major `0x03` of R53. -/
def decode03 (f : Fields) : Except Nat Instr :=
  match f.fn.toNat with
  | 0 => .ok (Instr.mulI64 f.d f.a f.b)
  | 1 => .ok (Instr.mulhI64 f.d f.a f.b)
  | 2 => .ok (Instr.mulhN64 f.d f.a f.b)
  | 3 => .ok (Instr.divI64 f.d f.a f.b)
  | 4 => .ok (Instr.divN64 f.d f.a f.b)
  | 5 => .ok (Instr.remI64 f.d f.a f.b)
  | 6 => .ok (Instr.remN64 f.d f.a f.b)
  | 7 => .ok (Instr.lea2B64 f.d f.a f.b)
  | 8 => .ok (Instr.lea4B64 f.d f.a f.b)
  | 9 => .ok (Instr.lea8B64 f.d f.a f.b)
  | 10 => .ok (Instr.lea16B64 f.d f.a f.b)
  | 11 => .ok (Instr.packB64 f.d f.a f.b)
  | 12 => match f.b.toNat with
    | 0 => .ok (Instr.popcB64 f.d f.a)
    | 1 => .ok (Instr.clzB64 f.d f.a)
    | 2 => .ok (Instr.ctzB64 f.d f.a)
    | 3 => .ok (Instr.brevB64 f.d f.a)
    | 4 => .ok (Instr.bswapB64 f.d f.a)
    | _ => .error 2
  | 13 => .ok (Instr.bextN64 f.d f.a f.b)
  | 14 => .ok (Instr.bextI64 f.d f.a f.b)
  | _ => .ok (Instr.binsB64 f.d f.a f.b)

/-- Major `0x04` of R53. -/
def decode04 (f : Fields) (lit : Option Word) : Except Nat Instr :=
  decImm f.imm lit (.addI64Imm f.d f.a)

/-- Major `0x05` of R53. -/
def decode05 (f : Fields) (lit : Option Word) : Except Nat Instr :=
  decImm f.imm lit (.andB64Imm f.d f.a)

/-- Major `0x06` of R53. -/
def decode06 (f : Fields) (lit : Option Word) : Except Nat Instr :=
  decImm f.imm lit (.orB64Imm f.d f.a)

/-- Major `0x07` of R53. -/
def decode07 (f : Fields) (lit : Option Word) : Except Nat Instr :=
  decImm f.imm lit (.xorB64Imm f.d f.a)

/-- Major `0x08` of R53. -/
def decode08 (f : Fields) (lit : Option Word) : Except Nat Instr :=
  let pick (ctl : BitVec 8) (isLit : Bool) : Instr :=
    let n := ctl.extractLsb' 0 6
    match (ctl.extractLsb' 6 2).toNat with
    | 0 => .sllB64Imm f.d f.a n isLit
    | 1 => .srlB64Imm f.d f.a n isLit
    | 2 => .sraB64Imm f.d f.a n isLit
    | _ => .rorB64Imm f.d f.a n isLit
  if f.imm == 0x400#11 then
    match lit with
    | none => .error 7
    | some l => if l.extractLsb' 8 24 == 0#24 then .ok (pick (l.extractLsb' 0 8) true) else .error 3
  else if f.imm.extractLsb' 8 3 == 0#3 then .ok (pick (f.imm.extractLsb' 0 8) false) else .error 3

/-- Major `0x09` of R53. -/
def decode09 (f : Fields) (lit : Option Word) : Except Nat Instr :=
  decImm f.imm lit (.scalarCompareImm (f.d.extractLsb' 3 4) (f.d.extractLsb' 0 3) f.a)

/-- Major `0x0A` of R53. -/
def decode0A (f : Fields) (lit : Option Word) : Except Nat Instr :=
  if f.a == 0x0#7 then decImm f.imm lit (.movI64 f.d) else .error 3

/-- Major `0x0B` of R53. -/
def decode0B (f : Fields) : Except Nat Instr :=
  .ok (.br (f.body.extractLsb' 22 3) (f.body.extractLsb' 21 1) (f.body.extractLsb' 2 19) (f.body.extractLsb' 0 2))

/-- Major `0x0C` of R53. -/
def decode0C (f : Fields) : Except Nat Instr :=
  match f.fn.toNat with
  | 0 => ensure3 (f.d == 0x0#7 && f.b == 0x0#7) (Instr.jr f.a)
  | 1 => ensure3 (f.b == 0x0#7) (Instr.call f.d f.a)
  | 2 => ensure3 (f.d == 0x0#7 && f.b == 0x0#7) (Instr.ret f.a)
  | _ => .error 2

/-- Major `0x0D` of R53. -/
def decode0D (f : Fields) (lit : Option Word) : Except Nat Instr :=
  if f.a == 0x0#7 then decImm f.imm lit (.mrd f.d) else .error 3

/-- Major `0x0E` of R53. -/
def decode0E (f : Fields) (lit : Option Word) : Except Nat Instr :=
  if f.d == 0x0#7 then decImm f.imm lit (.mwr f.a) else .error 3

/-- Major `0x0F` of R53. -/
def decode0F (f : Fields) : Except Nat Instr :=
  match f.fn.toNat with
  | 0 => ensure3 (f.d == 0x0#7 && f.a == 0x0#7 && f.b == 0x0#7) (Instr.nop)
  | 1 => ensure3 (f.body.extractLsb' 4 1 == 0#1) (.wait (f.body.extractLsb' 19 6) (f.body.extractLsb' 13 6) (f.body.extractLsb' 9 4) (f.body.extractLsb' 5 4))
  | 2 => ensure3 (f.d == 0x0#7 && f.a == 0x0#7 && f.b == 0x0#7) (Instr.ifence)
  | 3 => ensure3 (f.a == 0x0#7 && f.b == 0x0#7) (Instr.rdcyc f.d)
  | 4 => ensure3 (f.a == 0x0#7 && f.b == 0x0#7) (Instr.rdtime f.d)
  | 8 => match f.b.toNat with
    | 0 => ensure3 (f.d == 0x0#7 && f.a == 0x0#7) (Instr.exit)
    | 1 => ensure3 (f.d == 0x0#7 && f.a == 0x0#7) (Instr.yield)
    | _ => .error 2
  | 9 => ensure3 (f.d == 0x0#7 && f.b == 0x0#7) (Instr.tbar f.a)
  | 10 => ensure3 (f.d == 0x0#7 && f.a == 0x0#7 && f.b == 0x0#7) (Instr.join)
  | 11 => if f.b.extractLsb' 0 1 == 0#1 then ensure3 (f.b.extractLsb' 1 6 == 0#6) (Instr.idrScalar f.d f.a)
    else ensure3 (f.b.extractLsb' 1 6 == 0#6) (Instr.idrLane f.d f.a)
  | 12 => ensure3 (f.b == 0x0#7) (Instr.launch f.d f.a)
  | 13 => match f.b.toNat with
    | 0 => ensure3 (f.d.extractLsb' 3 4 == 0x0#4) (Instr.kput (f.d.extractLsb' 0 3) f.a)
    | 1 => ensure3 (f.a.extractLsb' 3 4 == 0x0#4) (Instr.kget f.d (f.a.extractLsb' 0 3))
    | _ => .error 2
  | 14 => if f.b.extractLsb' 6 1 == 1#1 then ensure3 (f.d == 0#7 && f.a == 0#7) (.brk (f.b.extractLsb' 0 6))
    else match f.b.toNat with
    | 0 => .ok (Instr.dbgHalt f.d f.a)
    | 1 => .ok (Instr.dbgResume f.d f.a)
    | 2 => .ok (Instr.dbgStep f.d f.a)
    | 3 => .ok (Instr.dbgRdpc f.d f.a)
    | 4 => .ok (Instr.dbgWatch f.d f.a)
    | 5 => .ok (Instr.dbgHalted f.d f.a)
    | _ => .error 2
  | 15 => match f.b.toNat with
    | 0 => ensure3 (f.d == 0x0#7 && f.a == 0x0#7) (Instr.tret)
    | 1 => ensure3 (f.d == 0x0#7 && f.a == 0x0#7) (Instr.tretSkip)
    | 2 => ensure3 (f.d == 0x0#7 && f.a == 0x0#7) (Instr.tretExit)
    | 3 => ensure3 (f.d == 0x0#7) (Instr.tretTo f.a)
    | _ => .error 2
  | _ => .error 2

/-- Major `0x10` of R53. -/
def decode10 (f : Fields) : Except Nat Instr :=
  match f.fn.toNat with
  | 0 => .ok (Instr.addI32 f.d f.a f.b)
  | 1 => .ok (Instr.subI32 f.d f.a f.b)
  | 2 => .ok (Instr.andB32 f.d f.a f.b)
  | 3 => .ok (Instr.orB32 f.d f.a f.b)
  | 4 => .ok (Instr.xorB32 f.d f.a f.b)
  | 5 => .ok (Instr.andnB32 f.d f.a f.b)
  | 6 => .ok (Instr.sllB32 f.d f.a f.b)
  | 7 => .ok (Instr.srlB32 f.d f.a f.b)
  | 8 => .ok (Instr.sraB32 f.d f.a f.b)
  | 9 => .ok (Instr.minI32 f.d f.a f.b)
  | 10 => .ok (Instr.maxI32 f.d f.a f.b)
  | 11 => .ok (Instr.minN32 f.d f.a f.b)
  | 12 => .ok (Instr.maxN32 f.d f.a f.b)
  | 13 => .ok (Instr.addsI32 f.d f.a f.b)
  | 14 => .ok (Instr.subsI32 f.d f.a f.b)
  | _ => ensure3 (f.a.extractLsb' 3 4 == 0x0#4) (Instr.selB32 f.d (f.a.extractLsb' 0 3) f.b)

/-- Major `0x11` of R53. -/
def decode11 (f : Fields) : Except Nat Instr :=
  match f.fn.toNat with
  | 0 => .ok (Instr.mulB32 f.d f.a f.b)
  | 1 => .ok (Instr.mulhI32 f.d f.a f.b)
  | 2 => .ok (Instr.mulhN32 f.d f.a f.b)
  | 3 => .ok (Instr.madB32 f.d f.a f.b)
  | 4 => .ok (Instr.divI32 f.d f.a f.b)
  | 5 => .ok (Instr.divN32 f.d f.a f.b)
  | 6 => .ok (Instr.remI32 f.d f.a f.b)
  | 7 => .ok (Instr.remN32 f.d f.a f.b)
  | 8 => .ok (Instr.mulwI32 f.d f.a f.b)
  | 9 => .ok (Instr.mulwN32 f.d f.a f.b)
  | 10 => .ok (Instr.madwN32 f.d f.a f.b)
  | 11 => .ok (Instr.dp4I8 f.d f.a f.b)
  | 12 => .ok (Instr.dp4N8 f.d f.a f.b)
  | _ => .error 2

/-- Major `0x12` of R53. -/
def decode12 (f : Fields) : Except Nat Instr :=
  match f.fn.toNat with
  | 0 => ensure3 (f.d.extractLsb' 3 4 == 0x0#4) (Instr.laneCompare (f.d.extractLsb' 0 3) f.a f.b f.fn)
  | 1 => ensure3 (f.d.extractLsb' 3 4 == 0x0#4) (Instr.laneCompare (f.d.extractLsb' 0 3) f.a f.b f.fn)
  | 2 => ensure3 (f.d.extractLsb' 3 4 == 0x0#4) (Instr.laneCompare (f.d.extractLsb' 0 3) f.a f.b f.fn)
  | 3 => ensure3 (f.d.extractLsb' 3 4 == 0x0#4) (Instr.laneCompare (f.d.extractLsb' 0 3) f.a f.b f.fn)
  | 4 => ensure3 (f.d.extractLsb' 3 4 == 0x0#4) (Instr.laneCompare (f.d.extractLsb' 0 3) f.a f.b f.fn)
  | 5 => ensure3 (f.d.extractLsb' 3 4 == 0x0#4) (Instr.laneCompare (f.d.extractLsb' 0 3) f.a f.b f.fn)
  | 6 => ensure3 (f.d.extractLsb' 3 4 == 0x0#4) (Instr.laneCompare (f.d.extractLsb' 0 3) f.a f.b f.fn)
  | 7 => ensure3 (f.d.extractLsb' 3 4 == 0x0#4) (Instr.laneCompare (f.d.extractLsb' 0 3) f.a f.b f.fn)
  | 8 => ensure3 (f.d.extractLsb' 3 4 == 0x0#4) (Instr.laneCompare (f.d.extractLsb' 0 3) f.a f.b f.fn)
  | 9 => ensure3 (f.d.extractLsb' 3 4 == 0x0#4) (Instr.laneCompare (f.d.extractLsb' 0 3) f.a f.b f.fn)
  | 10 => ensure3 (f.d.extractLsb' 3 4 == 0x0#4) (Instr.laneCompare (f.d.extractLsb' 0 3) f.a f.b f.fn)
  | 11 => ensure3 (f.d.extractLsb' 3 4 == 0x0#4) (Instr.laneCompare (f.d.extractLsb' 0 3) f.a f.b f.fn)
  | _ => .error 2

/-- Major `0x13` of R53. -/
def decode13 (f : Fields) (lit : Option Word) : Except Nat Instr :=
  decImm f.imm lit (.addI32Imm f.d f.a)

/-- Major `0x14` of R53. -/
def decode14 (f : Fields) (lit : Option Word) : Except Nat Instr :=
  decImm f.imm lit (.andB32Imm f.d f.a)

/-- Major `0x15` of R53. -/
def decode15 (f : Fields) (lit : Option Word) : Except Nat Instr :=
  decImm f.imm lit (.orB32Imm f.d f.a)

/-- Major `0x16` of R53. -/
def decode16 (f : Fields) (lit : Option Word) : Except Nat Instr :=
  decImm f.imm lit (.xorB32Imm f.d f.a)

/-- Major `0x17` of R53. -/
def decode17 (f : Fields) (lit : Option Word) : Except Nat Instr :=
  let pick (ctl : BitVec 8) (isLit : Bool) : Instr :=
    let n := ctl.extractLsb' 0 6
    match (ctl.extractLsb' 6 2).toNat with
    | 0 => .sllB32Imm f.d f.a n isLit
    | 1 => .srlB32Imm f.d f.a n isLit
    | 2 => .sraB32Imm f.d f.a n isLit
    | _ => .rorB32Imm f.d f.a n isLit
  if f.imm == 0x400#11 then
    match lit with
    | none => .error 7
    | some l => if l.extractLsb' 8 24 == 0#24 then .ok (pick (l.extractLsb' 0 8) true) else .error 3
  else if f.imm.extractLsb' 8 3 == 0#3 then .ok (pick (f.imm.extractLsb' 0 8) false) else .error 3

/-- Major `0x18` of R53. -/
def decode18 (f : Fields) (lit : Option Word) : Except Nat Instr :=
  decImm f.imm lit (.laneCompareImm (f.d.extractLsb' 3 4) (f.d.extractLsb' 0 3) f.a)

/-- Major `0x19` of R53. -/
def decode19 (f : Fields) (lit : Option Word) : Except Nat Instr :=
  if f.a == 0x0#7 then decImm f.imm lit (.movB32Imm f.d) else .error 3

/-- Major `0x1A` of R53. -/
def decode1A (f : Fields) : Except Nat Instr :=
  match f.fn.toNat with
  | 0 => ensure3 (f.b == 0x0#7) (Instr.bcastB32 f.d f.a)
  | 1 => ensure3 (f.b == 0x0#7) (Instr.bcastB64 f.d f.a)
  | 2 => .ok (Instr.rdlN32 f.d f.a f.b)
  | 3 => .ok (Instr.rdlI32 f.d f.a f.b)
  | 4 => .ok (Instr.rdlB64 f.d f.a f.b)
  | 5 => .ok (Instr.wrlB32 f.d f.a f.b)
  | 6 => ensure3 (f.b == 0x0#7) (Instr.movB32 f.d f.a)
  | 7 => ensure3 (f.b == 0x0#7) (Instr.movB64 f.d f.a)
  | 8 => ensure3 (f.a.extractLsb' 3 4 == 0x0#4 && f.b == 0x0#7) (Instr.pgetB32 f.d (f.a.extractLsb' 0 3))
  | _ => .error 2

/-- Major `0x1B` of R53. -/
def decode1B (f : Fields) : Except Nat Instr :=
  match f.fn.toNat with
  | 0 => ensure3 (f.b == 0x0#7) (Instr.popcB32 f.d f.a)
  | 1 => ensure3 (f.b == 0x0#7) (Instr.clzB32 f.d f.a)
  | 2 => ensure3 (f.b == 0x0#7) (Instr.ctzB32 f.d f.a)
  | 3 => ensure3 (f.b == 0x0#7) (Instr.brevB32 f.d f.a)
  | 4 => ensure3 (f.b == 0x0#7) (Instr.bswapB32 f.d f.a)
  | 5 => .ok (Instr.bextN32 f.d f.a f.b)
  | 6 => .ok (Instr.bextI32 f.d f.a f.b)
  | 7 => .ok (Instr.binsB32 f.d f.a f.b)
  | _ => .error 2

/-- Major `0x1C` of R53. -/
def decode1C (f : Fields) : Except Nat Instr :=
  match f.fn.toNat with
  | 0 => .ok (Instr.addF32 f.d f.a f.b)
  | 1 => .ok (Instr.subF32 f.d f.a f.b)
  | 2 => .ok (Instr.mulF32 f.d f.a f.b)
  | 3 => .ok (Instr.divF32 f.d f.a f.b)
  | 4 => ensure3 (f.b == 0x0#7) (Instr.sqrtF32 f.d f.a)
  | 5 => .ok (Instr.minF32 f.d f.a f.b)
  | 6 => .ok (Instr.maxF32 f.d f.a f.b)
  | 7 => .ok (Instr.minnF32 f.d f.a f.b)
  | 8 => .ok (Instr.maxnF32 f.d f.a f.b)
  | 9 => ensure3 (f.b == 0x0#7) (Instr.absF32 f.d f.a)
  | 10 => ensure3 (f.b == 0x0#7) (Instr.negF32 f.d f.a)
  | 11 => .ok (Instr.csgnF32 f.d f.a f.b)
  | 12 => ensure3 (f.b == 0x0#7) (Instr.classF32 f.d f.a)
  | 13 => .ok (Instr.compareF32 (f.d.extractLsb' 3 4) (f.d.extractLsb' 0 3) f.a f.b)
  | 14 => ensure3 (f.b.extractLsb' 3 4 == 0x0#4) (Instr.rintF32 f.d f.a (f.b.extractLsb' 0 3))
  | _ => .ok (Instr.sclF32 f.d f.a f.b)

/-- Major `0x1D` of R53. -/
noncomputable def decode1D (f : Fields) : Except Nat Instr :=
  match f.fn.toNat with
  | 0 => .ok (Instr.addF64 f.d f.a f.b)
  | 1 => .ok (Instr.subF64 f.d f.a f.b)
  | 2 => .ok (Instr.mulF64 f.d f.a f.b)
  | 3 => .ok (Instr.divF64 f.d f.a f.b)
  | 4 => ensure3 (f.b == 0x0#7) (Instr.sqrtF64 f.d f.a)
  | 5 => .ok (Instr.minF64 f.d f.a f.b)
  | 6 => .ok (Instr.maxF64 f.d f.a f.b)
  | 7 => .ok (Instr.minnF64 f.d f.a f.b)
  | 8 => .ok (Instr.maxnF64 f.d f.a f.b)
  | 9 => ensure3 (f.b == 0x0#7) (Instr.absF64 f.d f.a)
  | 10 => ensure3 (f.b == 0x0#7) (Instr.negF64 f.d f.a)
  | 11 => .ok (Instr.csgnF64 f.d f.a f.b)
  | 12 => ensure3 (f.b == 0x0#7) (Instr.classF64 f.d f.a)
  | 13 => .ok (Instr.compareF64 (f.d.extractLsb' 3 4) (f.d.extractLsb' 0 3) f.a f.b)
  | 14 => ensure3 (f.b.extractLsb' 3 4 == 0x0#4) (Instr.rintF64 f.d f.a (f.b.extractLsb' 0 3))
  | _ => .ok (Instr.sclF64 f.d f.a f.b)

/-- Major `0x1E` of R53. -/
noncomputable def decode1E (f : Fields) : Except Nat Instr :=
  match f.fn.toNat with
  | 0 => .ok (Instr.addF16 f.d f.a f.b)
  | 1 => .ok (Instr.subF16 f.d f.a f.b)
  | 2 => .ok (Instr.mulF16 f.d f.a f.b)
  | 3 => .ok (Instr.minF16 f.d f.a f.b)
  | 4 => .ok (Instr.maxF16 f.d f.a f.b)
  | 5 => .ok (Instr.add2F16 f.d f.a f.b)
  | 6 => .ok (Instr.sub2F16 f.d f.a f.b)
  | 7 => .ok (Instr.mul2F16 f.d f.a f.b)
  | 8 => .ok (Instr.addBf16 f.d f.a f.b)
  | 9 => .ok (Instr.subBf16 f.d f.a f.b)
  | 10 => .ok (Instr.mulBf16 f.d f.a f.b)
  | 11 => .ok (Instr.minBf16 f.d f.a f.b)
  | 12 => .ok (Instr.maxBf16 f.d f.a f.b)
  | 13 => .ok (Instr.add2Bf16 f.d f.a f.b)
  | 14 => .ok (Instr.sub2Bf16 f.d f.a f.b)
  | _ => .ok (Instr.mul2Bf16 f.d f.a f.b)

/-- Major `0x1F` of R53. -/
noncomputable def decode1F (f : Fields) : Except Nat Instr :=
  match f.fn.toNat with
  | 0 => .ok (Instr.fmaF32 f.d f.a f.b)
  | 1 => .ok (Instr.fmsF32 f.d f.a f.b)
  | 2 => .ok (Instr.fnmaF32 f.d f.a f.b)
  | 3 => .ok (Instr.fnmsF32 f.d f.a f.b)
  | 4 => .ok (Instr.fmaF64 f.d f.a f.b)
  | 5 => .ok (Instr.fmsF64 f.d f.a f.b)
  | 6 => .ok (Instr.fnmaF64 f.d f.a f.b)
  | 7 => .ok (Instr.fnmsF64 f.d f.a f.b)
  | 8 => .ok (Instr.fmaF16 f.d f.a f.b)
  | 9 => .ok (Instr.fnmaF16 f.d f.a f.b)
  | 10 => .ok (Instr.fma2F16 f.d f.a f.b)
  | 11 => .ok (Instr.fnma2F16 f.d f.a f.b)
  | 12 => .ok (Instr.fmaBf16 f.d f.a f.b)
  | 13 => .ok (Instr.fnmaBf16 f.d f.a f.b)
  | 14 => .ok (Instr.fma2Bf16 f.d f.a f.b)
  | _ => .ok (Instr.fnma2Bf16 f.d f.a f.b)

/-- Major `0x20` of R53. -/
noncomputable def decode20 (f : Fields) : Except Nat Instr :=
  match f.fn.toNat with
  | 0 => .ok (Instr.cvt f.d f.a (f.b.extractLsb' 6 1) (f.b.extractLsb' 3 3) (f.b.extractLsb' 0 3) (f.fn.extractLsb' 0 3))
  | 1 => .ok (Instr.cvt f.d f.a (f.b.extractLsb' 6 1) (f.b.extractLsb' 3 3) (f.b.extractLsb' 0 3) (f.fn.extractLsb' 0 3))
  | 2 => .ok (Instr.cvt f.d f.a (f.b.extractLsb' 6 1) (f.b.extractLsb' 3 3) (f.b.extractLsb' 0 3) (f.fn.extractLsb' 0 3))
  | 3 => .ok (Instr.cvt f.d f.a (f.b.extractLsb' 6 1) (f.b.extractLsb' 3 3) (f.b.extractLsb' 0 3) (f.fn.extractLsb' 0 3))
  | 4 => .ok (Instr.cvt f.d f.a (f.b.extractLsb' 6 1) (f.b.extractLsb' 3 3) (f.b.extractLsb' 0 3) (f.fn.extractLsb' 0 3))
  | 5 => .ok (Instr.cvt f.d f.a (f.b.extractLsb' 6 1) (f.b.extractLsb' 3 3) (f.b.extractLsb' 0 3) (f.fn.extractLsb' 0 3))
  | 6 => .ok (Instr.cvt f.d f.a (f.b.extractLsb' 6 1) (f.b.extractLsb' 3 3) (f.b.extractLsb' 0 3) (f.fn.extractLsb' 0 3))
  | 7 => .ok (Instr.cvt f.d f.a (f.b.extractLsb' 6 1) (f.b.extractLsb' 3 3) (f.b.extractLsb' 0 3) (f.fn.extractLsb' 0 3))
  | _ => .error 2

/-- Major `0x21` of R53. -/
noncomputable def decode21 (f : Fields) : Except Nat Instr :=
  match f.fn.toNat with
  | 0 => .ok (Instr.cvtE4m3F32 f.d f.a f.b)
  | 1 => .ok (Instr.cvthiE4m3F32 f.d f.a f.b)
  | 2 => .ok (Instr.cvtE5m2F32 f.d f.a f.b)
  | 3 => .ok (Instr.cvthiE5m2F32 f.d f.a f.b)
  | 4 => .ok (Instr.cvtE4m3F32Sat f.d f.a f.b)
  | 5 => .ok (Instr.cvthiE4m3F32Sat f.d f.a f.b)
  | 6 => .ok (Instr.cvtE5m2F32Sat f.d f.a f.b)
  | 7 => .ok (Instr.cvthiE5m2F32Sat f.d f.a f.b)
  | 8 => ensure3 (f.b.extractLsb' 2 5 == 0x0#5) (Instr.cvtF32E4m3 f.d f.a (f.b.extractLsb' 0 2))
  | 9 => ensure3 (f.b.extractLsb' 2 5 == 0x0#5) (Instr.cvtF32E5m2 f.d f.a (f.b.extractLsb' 0 2))
  | 10 => ensure3 (f.b.extractLsb' 1 6 == 0x0#6) (Instr.cvt2Bf16E4m3 f.d f.a (f.b.extractLsb' 0 1))
  | 11 => ensure3 (f.b.extractLsb' 1 6 == 0x0#6) (Instr.cvt2Bf16E5m2 f.d f.a (f.b.extractLsb' 0 1))
  | 12 => ensure3 (f.b.extractLsb' 2 5 == 0x0#5) (Instr.qsc f.d f.a (f.b.extractLsb' 0 2))
  | 13 => .ok (Instr.cvtW4F32 f.d f.a f.b)
  | 14 => .ok (Instr.cvtW3F32 f.d f.a f.b)
  | _ => .ok (Instr.cvtF32W4 f.d f.a f.b)

/-- Major `0x22` of R53. -/
noncomputable def decode22 (f : Fields) : Except Nat Instr :=
  match f.fn.toNat with
  | 0 => ensure3 (f.b == 0x0#7) (Instr.rcp f.d f.a)
  | 1 => ensure3 (f.b == 0x0#7) (Instr.rsqrt f.d f.a)
  | 2 => ensure3 (f.b == 0x0#7) (Instr.sfsqrt f.d f.a)
  | 3 => ensure3 (f.b == 0x0#7) (Instr.exp2 f.d f.a)
  | 4 => ensure3 (f.b == 0x0#7) (Instr.log2 f.d f.a)
  | 5 => ensure3 (f.b == 0x0#7) (Instr.sinpi f.d f.a)
  | 6 => ensure3 (f.b == 0x0#7) (Instr.cospi f.d f.a)
  | 7 => ensure3 (f.b == 0x0#7) (Instr.exp f.d f.a)
  | 8 => ensure3 (f.b == 0x0#7) (Instr.sincospi f.d f.a)
  | _ => .error 2

/-- Major `0x23` of R53. -/
noncomputable def decode23 (f : Fields) : Except Nat Instr :=
  match f.fn.toNat with
  | 0 => .ok (Instr.clmulB32 f.d f.a f.b)
  | 1 => .ok (Instr.clmulhB32 f.d f.a f.b)
  | 2 => .ok (Instr.clmulwB32 f.d f.a f.b)
  | 3 => .ok (Instr.clmulB64 f.d f.a f.b)
  | 4 => .ok (Instr.clmulhB64 f.d f.a f.b)
  | 5 => .ok (Instr.clmulwB64 f.d f.a f.b)
  | 6 => .ok (Instr.clmulrB32 f.d f.a f.b)
  | 7 => .ok (Instr.clmulrB64 f.d f.a f.b)
  | _ => .error 2

/-- Major `0x24` of R53. -/
noncomputable def decode24 (f : Fields) : Except Nat Instr :=
  match f.fn.toNat with
  | 0 => .ok (Instr.xchAtB32 f.d f.a f.b)
  | 1 => ensure3 (f.b.extractLsb' 5 2 == 0x0#2) (Instr.xchLoB32 f.d f.a (f.b.extractLsb' 0 5))
  | 2 => ensure3 (f.b.extractLsb' 5 2 == 0x0#2) (Instr.xchHiB32 f.d f.a (f.b.extractLsb' 0 5))
  | 3 => ensure3 (f.b.extractLsb' 5 2 == 0x0#2) (Instr.xchFlipB32 f.d f.a (f.b.extractLsb' 0 5))
  | 4 => .ok (Instr.xchAtB64 f.d f.a f.b)
  | 5 => ensure3 (f.b.extractLsb' 5 2 == 0x0#2) (Instr.xchLoB64 f.d f.a (f.b.extractLsb' 0 5))
  | 6 => ensure3 (f.b.extractLsb' 5 2 == 0x0#2) (Instr.xchHiB64 f.d f.a (f.b.extractLsb' 0 5))
  | 7 => ensure3 (f.b.extractLsb' 5 2 == 0x0#2) (Instr.xchFlipB64 f.d f.a (f.b.extractLsb' 0 5))
  | _ => .error 2

/-- Major `0x25` of R53. -/
noncomputable def decode25 (f : Fields) : Except Nat Instr :=
  match f.fn.toNat with
  | 0 => ensure3 (f.d.extractLsb' 3 4 == 0x0#4 && f.a.extractLsb' 3 4 == 0x0#4 && f.b == 0x0#7) (Instr.lall (f.d.extractLsb' 0 3) (f.a.extractLsb' 0 3))
  | 1 => ensure3 (f.d.extractLsb' 3 4 == 0x0#4 && f.a.extractLsb' 3 4 == 0x0#4 && f.b == 0x0#7) (Instr.lany (f.d.extractLsb' 0 3) (f.a.extractLsb' 0 3))
  | 2 => ensure3 (f.d.extractLsb' 3 4 == 0x0#4 && f.b == 0x0#7) (Instr.lsameB32 (f.d.extractLsb' 0 3) f.a)
  | 3 => ensure3 (f.a.extractLsb' 3 4 == 0x0#4 && f.b == 0x0#7) (Instr.lmaskB32 f.d (f.a.extractLsb' 0 3))
  | 4 => .ok (Instr.scan f.d f.a (f.b.extractLsb' 4 3) (f.b.extractLsb' 0 4))
  | 5 => .ok (Instr.scanx f.d f.a (f.b.extractLsb' 4 3) (f.b.extractLsb' 0 4))
  | 6 => .ok (Instr.red f.d f.a (f.b.extractLsb' 4 3) (f.b.extractLsb' 0 4))
  | 7 => if 14 ≤ (f.b.extractLsb' 0 4).toNat then .error 2
    else ensure3 (f.d == 0x0#7) (Instr.tput f.a (f.b.extractLsb' 4 3) (f.b.extractLsb' 0 4))
  | 8 => if 14 ≤ (f.b.extractLsb' 0 4).toNat then .error 2
    else ensure3 (f.a == 0x0#7 && f.b.extractLsb' 4 3 == 0x0#3) (Instr.tget f.d (f.b.extractLsb' 0 4))
  | _ => .error 2

/-- Major `0x28` of R53. -/
noncomputable def decode28 (f : Fields) (lit : Option Word) : Except Nat Instr :=
  if f.fn.extractLsb' 2 1 == 1#1 then
    match lit with
    | none => .error 7
    | some l => .ok (.ldN8 f.d f.a f.b (f.fn.extractLsb' 3 1) (some l) (f.fn.extractLsb' 0 2))
  else .ok (.ldN8 f.d f.a f.b (f.fn.extractLsb' 3 1) none (f.fn.extractLsb' 0 2))

/-- Major `0x29` of R53. -/
noncomputable def decode29 (f : Fields) (lit : Option Word) : Except Nat Instr :=
  if f.fn.extractLsb' 2 1 == 1#1 then
    match lit with
    | none => .error 7
    | some l => .ok (.ldI8 f.d f.a f.b (f.fn.extractLsb' 3 1) (some l) (f.fn.extractLsb' 0 2))
  else .ok (.ldI8 f.d f.a f.b (f.fn.extractLsb' 3 1) none (f.fn.extractLsb' 0 2))

/-- Major `0x2A` of R53. -/
noncomputable def decode2A (f : Fields) (lit : Option Word) : Except Nat Instr :=
  if f.fn.extractLsb' 2 1 == 1#1 then
    match lit with
    | none => .error 7
    | some l => .ok (.ldN16 f.d f.a f.b (f.fn.extractLsb' 3 1) (some l) (f.fn.extractLsb' 0 2))
  else .ok (.ldN16 f.d f.a f.b (f.fn.extractLsb' 3 1) none (f.fn.extractLsb' 0 2))

/-- Major `0x2B` of R53. -/
noncomputable def decode2B (f : Fields) (lit : Option Word) : Except Nat Instr :=
  if f.fn.extractLsb' 2 1 == 1#1 then
    match lit with
    | none => .error 7
    | some l => .ok (.ldI16 f.d f.a f.b (f.fn.extractLsb' 3 1) (some l) (f.fn.extractLsb' 0 2))
  else .ok (.ldI16 f.d f.a f.b (f.fn.extractLsb' 3 1) none (f.fn.extractLsb' 0 2))

/-- Major `0x2C` of R53. -/
noncomputable def decode2C (f : Fields) (lit : Option Word) : Except Nat Instr :=
  if f.fn.extractLsb' 2 1 == 1#1 then
    match lit with
    | none => .error 7
    | some l => .ok (.ldB32 f.d f.a f.b (f.fn.extractLsb' 3 1) (some l) (f.fn.extractLsb' 0 2))
  else .ok (.ldB32 f.d f.a f.b (f.fn.extractLsb' 3 1) none (f.fn.extractLsb' 0 2))

/-- Major `0x2D` of R53. -/
noncomputable def decode2D (f : Fields) (lit : Option Word) : Except Nat Instr :=
  if f.fn.extractLsb' 2 1 == 1#1 then
    match lit with
    | none => .error 7
    | some l => .ok (.ldB64 f.d f.a f.b (f.fn.extractLsb' 3 1) (some l) (f.fn.extractLsb' 0 2))
  else .ok (.ldB64 f.d f.a f.b (f.fn.extractLsb' 3 1) none (f.fn.extractLsb' 0 2))

/-- Major `0x2E` of R53. -/
noncomputable def decode2E (f : Fields) (lit : Option Word) : Except Nat Instr :=
  if f.fn.extractLsb' 2 1 == 1#1 then
    match lit with
    | none => .error 7
    | some l => .ok (.ldB128 f.d f.a f.b (f.fn.extractLsb' 3 1) (some l) (f.fn.extractLsb' 0 2))
  else .ok (.ldB128 f.d f.a f.b (f.fn.extractLsb' 3 1) none (f.fn.extractLsb' 0 2))

/-- Major `0x2F` of R53. -/
noncomputable def decode2F (f : Fields) (lit : Option Word) : Except Nat Instr :=
  if f.fn.extractLsb' 2 1 == 1#1 then
    match lit with
    | none => .error 7
    | some l => .ok (.stB8 f.d f.a f.b (f.fn.extractLsb' 3 1) (some l) (f.fn.extractLsb' 0 2))
  else .ok (.stB8 f.d f.a f.b (f.fn.extractLsb' 3 1) none (f.fn.extractLsb' 0 2))

/-- Major `0x30` of R53. -/
noncomputable def decode30 (f : Fields) (lit : Option Word) : Except Nat Instr :=
  if f.fn.extractLsb' 2 1 == 1#1 then
    match lit with
    | none => .error 7
    | some l => .ok (.stB16 f.d f.a f.b (f.fn.extractLsb' 3 1) (some l) (f.fn.extractLsb' 0 2))
  else .ok (.stB16 f.d f.a f.b (f.fn.extractLsb' 3 1) none (f.fn.extractLsb' 0 2))

/-- Major `0x31` of R53. -/
noncomputable def decode31 (f : Fields) (lit : Option Word) : Except Nat Instr :=
  if f.fn.extractLsb' 2 1 == 1#1 then
    match lit with
    | none => .error 7
    | some l => .ok (.stB32 f.d f.a f.b (f.fn.extractLsb' 3 1) (some l) (f.fn.extractLsb' 0 2))
  else .ok (.stB32 f.d f.a f.b (f.fn.extractLsb' 3 1) none (f.fn.extractLsb' 0 2))

/-- Major `0x32` of R53. -/
noncomputable def decode32 (f : Fields) (lit : Option Word) : Except Nat Instr :=
  if f.fn.extractLsb' 2 1 == 1#1 then
    match lit with
    | none => .error 7
    | some l => .ok (.stB64 f.d f.a f.b (f.fn.extractLsb' 3 1) (some l) (f.fn.extractLsb' 0 2))
  else .ok (.stB64 f.d f.a f.b (f.fn.extractLsb' 3 1) none (f.fn.extractLsb' 0 2))

/-- Major `0x33` of R53. -/
noncomputable def decode33 (f : Fields) (lit : Option Word) : Except Nat Instr :=
  if f.fn.extractLsb' 2 1 == 1#1 then
    match lit with
    | none => .error 7
    | some l => .ok (.stB128 f.d f.a f.b (f.fn.extractLsb' 3 1) (some l) (f.fn.extractLsb' 0 2))
  else .ok (.stB128 f.d f.a f.b (f.fn.extractLsb' 3 1) none (f.fn.extractLsb' 0 2))

/-- Major `0x34` of R53. -/
noncomputable def decode34 (f : Fields) (lit : Option Word) : Except Nat Instr :=
  decDisp (f.body.extractLsb' 0 8) lit (.ldScalar f.d f.a (f.body.extractLsb' 8 3))

/-- Major `0x35` of R53. -/
noncomputable def decode35 (f : Fields) (lit : Option Word) : Except Nat Instr :=
  if f.body.extractLsb' 8 1 == 0#1 then decDisp (f.body.extractLsb' 0 8) lit (.stScalar f.d f.a (f.body.extractLsb' 9 2)) else .error 3

/-- Major `0x36` of R53. -/
noncomputable def decode36 (f : Fields) : Except Nat Instr :=
  match f.fn.toNat with
  | 0 => ensure3 (f.b.extractLsb' 0 1 == 0x0#1) (Instr.atomAdd f.d f.a (f.b.extractLsb' 4 3) (f.b.extractLsb' 2 2) (f.b.extractLsb' 1 1))
  | 1 => ensure3 (f.b.extractLsb' 0 1 == 0x0#1) (Instr.atomMinI f.d f.a (f.b.extractLsb' 4 3) (f.b.extractLsb' 2 2) (f.b.extractLsb' 1 1))
  | 2 => ensure3 (f.b.extractLsb' 0 1 == 0x0#1) (Instr.atomMaxI f.d f.a (f.b.extractLsb' 4 3) (f.b.extractLsb' 2 2) (f.b.extractLsb' 1 1))
  | 3 => ensure3 (f.b.extractLsb' 0 1 == 0x0#1) (Instr.atomMinN f.d f.a (f.b.extractLsb' 4 3) (f.b.extractLsb' 2 2) (f.b.extractLsb' 1 1))
  | 4 => ensure3 (f.b.extractLsb' 0 1 == 0x0#1) (Instr.atomMaxN f.d f.a (f.b.extractLsb' 4 3) (f.b.extractLsb' 2 2) (f.b.extractLsb' 1 1))
  | 5 => ensure3 (f.b.extractLsb' 0 1 == 0x0#1) (Instr.atomAnd f.d f.a (f.b.extractLsb' 4 3) (f.b.extractLsb' 2 2) (f.b.extractLsb' 1 1))
  | 6 => ensure3 (f.b.extractLsb' 0 1 == 0x0#1) (Instr.atomOr f.d f.a (f.b.extractLsb' 4 3) (f.b.extractLsb' 2 2) (f.b.extractLsb' 1 1))
  | 7 => ensure3 (f.b.extractLsb' 0 1 == 0x0#1) (Instr.atomXor f.d f.a (f.b.extractLsb' 4 3) (f.b.extractLsb' 2 2) (f.b.extractLsb' 1 1))
  | 8 => ensure3 (f.b.extractLsb' 0 1 == 0x0#1) (Instr.atomExch f.d f.a (f.b.extractLsb' 4 3) (f.b.extractLsb' 2 2) (f.b.extractLsb' 1 1))
  | 9 => ensure3 (f.b.extractLsb' 0 1 == 0x0#1) (Instr.atomCas f.d f.a (f.b.extractLsb' 4 3) (f.b.extractLsb' 2 2) (f.b.extractLsb' 1 1))
  | 10 => ensure3 (f.b.extractLsb' 0 1 == 0x0#1) (Instr.atomAddF f.d f.a (f.b.extractLsb' 4 3) (f.b.extractLsb' 2 2) (f.b.extractLsb' 1 1))
  | 11 => ensure3 (f.b.extractLsb' 0 1 == 0x0#1) (Instr.ldo f.d f.a (f.b.extractLsb' 4 3) (f.b.extractLsb' 2 2) (f.b.extractLsb' 1 1))
  | 12 => ensure3 (f.b.extractLsb' 0 1 == 0x0#1) (Instr.sto f.d f.a (f.b.extractLsb' 4 3) (f.b.extractLsb' 2 2) (f.b.extractLsb' 1 1))
  | _ => .error 2

/-- Major `0x37` of R53. -/
noncomputable def decode37 (f : Fields) : Except Nat Instr :=
  match f.fn.toNat with
  | 0 => ensure3 (f.d == 0x0#7) (Instr.rfarAddI32 f.a f.b)
  | 1 => ensure3 (f.d == 0x0#7) (Instr.rfarAddI64 f.a f.b)
  | 2 => ensure3 (f.d == 0x0#7) (Instr.rfarMinI32 f.a f.b)
  | 3 => ensure3 (f.d == 0x0#7) (Instr.rfarMaxI32 f.a f.b)
  | 4 => ensure3 (f.d == 0x0#7) (Instr.rfarMinN32 f.a f.b)
  | 5 => ensure3 (f.d == 0x0#7) (Instr.rfarMaxN32 f.a f.b)
  | 6 => ensure3 (f.d == 0x0#7) (Instr.rfarAndB32 f.a f.b)
  | 7 => ensure3 (f.d == 0x0#7) (Instr.rfarOrB32 f.a f.b)
  | 8 => ensure3 (f.d == 0x0#7) (Instr.rfarXorB32 f.a f.b)
  | 9 => ensure3 (f.d == 0x0#7) (Instr.rfarAddF32 f.a f.b)
  | 10 => ensure3 (f.d == 0x0#7) (Instr.rfarAddF64 f.a f.b)
  | 11 => ensure3 (f.d == 0x0#7) (Instr.rfarMinF32 f.a f.b)
  | 12 => ensure3 (f.d == 0x0#7) (Instr.rfarMaxF32 f.a f.b)
  | 13 => ensure3 (f.d == 0x0#7 && f.b == 0x0#7) (Instr.repOpen f.a)
  | 14 => ensure3 (f.d == 0x0#7 && f.a == 0x0#7 && f.b == 0x0#7) (Instr.repFlush)
  | _ => ensure3 (f.d == 0x0#7 && f.a == 0x0#7 && f.b == 0x0#7) (Instr.repClose)

/-- Major `0x38` of R53. -/
noncomputable def decode38 (f : Fields) : Except Nat Instr :=
  match f.fn.toNat with
  | 0 => .ok (Instr.damTake f.d f.a f.b)
  | 1 => ensure3 (f.b == 0x0#7) (Instr.damChk f.d f.a)
  | 2 => ensure3 (f.b == 0x0#7) (Instr.damEnd f.d f.a)
  | 3 => ensure3 (f.d == 0x0#7) (Instr.warm f.a f.b)
  | 4 => .ok (Instr.warr f.d f.a (f.b.extractLsb' 4 3) (f.b.extractLsb' 0 4))
  | 5 => ensure3 (f.d.extractLsb' 3 4 == 0x0#4) (Instr.wwait (f.d.extractLsb' 0 3) f.a f.b)
  | 6 => ensure3 (f.b.extractLsb' 0 4 == 0x0#4) (Instr.wprobe f.d f.a (f.b.extractLsb' 4 3))
  | 7 => match (f.b.extractLsb' 0 2).toNat with
    | 1 => ensure3 (f.d == 0x0#7 && f.a == 0x0#7 && f.b.extractLsb' 0 4 == 0x1#4) (Instr.fenceAcq (f.b.extractLsb' 4 3))
    | 2 => ensure3 (f.d == 0x0#7 && f.a == 0x0#7 && f.b.extractLsb' 0 4 == 0x2#4) (Instr.fenceRel (f.b.extractLsb' 4 3))
    | 3 => ensure3 (f.d == 0x0#7 && f.a == 0x0#7 && f.b.extractLsb' 0 4 == 0x3#4) (Instr.fenceFull (f.b.extractLsb' 4 3))
    | _ => .error 3
  | 8 => match f.b.toNat with
    | 0 => ensure3 (f.d == 0x0#7) (Instr.cctlL1b f.a)
    | 1 => ensure3 (f.d == 0x0#7 && f.a == 0x0#7) (Instr.cctlL1all)
    | 2 => .ok (Instr.cctlWbl f.d f.a)
    | 3 => .ok (Instr.cctlWbf f.d f.a)
    | 4 => .ok (Instr.cctlRel f.d f.a)
    | _ => .error 2
  | 9 => match (f.b.extractLsb' 0 2).toNat with
    | 0 => ensure3 (f.b.extractLsb' 2 5 == 0#5) (Instr.pinReload f.d f.a)
    | 1 => ensure3 (f.b.extractLsb' 2 5 == 0#5) (Instr.pinEnd f.d f.a)
    | 2 => ensure3 (f.b.extractLsb' 2 5 == 0#5) (Instr.pinSet f.d f.a)
    | _ => ensure3 (f.b.extractLsb' 2 5 == 0#5) (Instr.pinClr f.d f.a)
  | _ => .error 2

/-- Major `0x39` of R53. -/
noncomputable def decode39 (f : Fields) : Except Nat Instr :=
  match f.fn.toNat with
  | 0 => .ok (Instr.cptCopy f.d f.a f.b)
  | 1 => ensure3 (f.d == 0x0#7) (Instr.cptLtab f.a f.b)
  | 2 => ensure3 (f.b == 0x0#7) (Instr.cptBind f.d f.a)
  | 3 => ensure3 (f.b == 0x0#7) (Instr.cptAdv f.d f.a)
  | 4 => ensure3 (f.b == 0x0#7) (Instr.cptRel f.d f.a)
  | 5 => ensure3 (f.b.extractLsb' 2 5 == 0x0#5) (Instr.cptRes f.d f.a (f.b.extractLsb' 0 2))
  | _ => .error 2

/-- Major `0x3A` of R53. -/
noncomputable def decode3A (f : Fields) : Except Nat Instr :=
  match f.fn.toNat with
  | 0 => .ok (Instr.mma (f.d.extractLsb' 3 4) (f.d.extractLsb' 2 1) (f.d.extractLsb' 0 2) f.a f.b)
  | 1 => ensure3 (f.d.extractLsb' 0 3 == 0x0#3 && f.b == 0x0#7) (Instr.mld (f.d.extractLsb' 3 4) f.a)
  | 2 => ensure3 (f.d.extractLsb' 0 2 == 0x0#2) (Instr.mst (f.d.extractLsb' 3 4) (f.d.extractLsb' 2 1) f.a f.b)
  | 3 => ensure3 (f.d.extractLsb' 0 2 == 0x0#2) (Instr.mqst (f.d.extractLsb' 3 4) (f.d.extractLsb' 2 1) f.a f.b)
  | 4 => ensure3 (f.d == 0x0#7 && f.b == 0x0#7) (Instr.mcb f.a)
  | 5 => match f.b.toNat with
    | 0 => ensure3 (f.a == 0x0#7) (Instr.mxst f.d)
    | 1 => ensure3 (f.a == 0x0#7) (Instr.mxstClr f.d)
    | _ => .error 2
  | _ => .error 2

/-- Major `0x3B` of R53. -/
noncomputable def decode3B (f : Fields) : Except Nat Instr :=
  match f.fn.toNat with
  | 0 => ensure3 (f.b == 0x0#7) (Instr.fqePf f.d f.a)
  | 1 => ensure3 (f.b == 0x0#7) (Instr.fqeSync f.d f.a)
  | 2 => ensure3 (f.b == 0x0#7) (Instr.fqeSub f.d f.a)
  | 4 => ensure3 (f.b == 0x0#7) (Instr.wfork f.d f.a)
  | 5 => ensure3 (f.b == 0x0#7) (Instr.wenter f.d f.a)
  | 6 => ensure3 (f.a == 0x0#7 && f.b == 0x0#7) (Instr.wleave f.d)
  | 7 => ensure3 (f.b == 0x0#7) (Instr.wchoose f.d f.a)
  | 8 => ensure3 (f.b == 0x0#7) (Instr.wstat f.d f.a)
  | 9 => ensure3 (f.a == 0x0#7 && f.b == 0x0#7) (Instr.wwho f.d)
  | _ => .error 2

/-- Major `0x3C` of R53. -/
def decode3C (f : Fields) : Except Nat Instr :=
  if f.body.extractLsb' 0 11 == 0#11 then
    .ok (.pblk (f.body.extractLsb' 22 3) (f.body.extractLsb' 19 3) (f.body.extractLsb' 11 8))
  else .error 8

/-- The instruction that a word's fields name, by the opcode map (R53): the reasons are those of R55, taken in
the order of R56 (1 unassigned major, 2 unassigned function, 3 field value, 7 literal outside the packet,
8 malformed `pblk`). `lit` is the next word of the packet, if there is one (R42). -/
noncomputable def decodeFields (f : Fields) (lit : Option Word) : Except Nat Instr :=
  match f.major.toNat with
  | 0x01 => decode01 f
  | 0x02 => decode02 f
  | 0x03 => decode03 f
  | 0x04 => decode04 f lit
  | 0x05 => decode05 f lit
  | 0x06 => decode06 f lit
  | 0x07 => decode07 f lit
  | 0x08 => decode08 f lit
  | 0x09 => decode09 f lit
  | 0x0a => decode0A f lit
  | 0x0b => decode0B f
  | 0x0c => decode0C f
  | 0x0d => decode0D f lit
  | 0x0e => decode0E f lit
  | 0x0f => decode0F f
  | 0x10 => decode10 f
  | 0x11 => decode11 f
  | 0x12 => decode12 f
  | 0x13 => decode13 f lit
  | 0x14 => decode14 f lit
  | 0x15 => decode15 f lit
  | 0x16 => decode16 f lit
  | 0x17 => decode17 f lit
  | 0x18 => decode18 f lit
  | 0x19 => decode19 f lit
  | 0x1a => decode1A f
  | 0x1b => decode1B f
  | 0x1c => decode1C f
  | 0x1d => decode1D f
  | 0x1e => decode1E f
  | 0x1f => decode1F f
  | 0x20 => decode20 f
  | 0x21 => decode21 f
  | 0x22 => decode22 f
  | 0x23 => decode23 f
  | 0x24 => decode24 f
  | 0x25 => decode25 f
  | 0x28 => decode28 f lit
  | 0x29 => decode29 f lit
  | 0x2a => decode2A f lit
  | 0x2b => decode2B f lit
  | 0x2c => decode2C f lit
  | 0x2d => decode2D f lit
  | 0x2e => decode2E f lit
  | 0x2f => decode2F f lit
  | 0x30 => decode30 f lit
  | 0x31 => decode31 f lit
  | 0x32 => decode32 f lit
  | 0x33 => decode33 f lit
  | 0x34 => decode34 f lit
  | 0x35 => decode35 f lit
  | 0x36 => decode36 f
  | 0x37 => decode37 f
  | 0x38 => decode38 f
  | 0x39 => decode39 f
  | 0x3a => decode3A f
  | 0x3b => decode3B f
  | 0x3c => decode3C f
  | _ => .error 1

/-- The fields and the literal word of an encoded instruction; events have no encoding. -/
def encodeFields : Instr → Option (Fields × Option Word)
  | .nop => some (.mk 0x0f#6 0x0#7 0x0#7 0x0#7 0x0#4, none)
  | .pblk p l t => some (.ofBody 0x3c#6 (p ++ l ++ t ++ 0#11), none)
  | .addI64 d a b => some (.mk 0x01#6 d a b 0x0#4, none)
  | .subI64 d a b => some (.mk 0x01#6 d a b 0x1#4, none)
  | .andB64 d a b => some (.mk 0x01#6 d a b 0x2#4, none)
  | .orB64 d a b => some (.mk 0x01#6 d a b 0x3#4, none)
  | .xorB64 d a b => some (.mk 0x01#6 d a b 0x4#4, none)
  | .andnB64 d a b => some (.mk 0x01#6 d a b 0x5#4, none)
  | .sllB64 d a b => some (.mk 0x01#6 d a b 0x6#4, none)
  | .srlB64 d a b => some (.mk 0x01#6 d a b 0x7#4, none)
  | .sraB64 d a b => some (.mk 0x01#6 d a b 0x8#4, none)
  | .rorB64 d a b => some (.mk 0x01#6 d a b 0x9#4, none)
  | .minI64 d a b => some (.mk 0x01#6 d a b 0xa#4, none)
  | .maxI64 d a b => some (.mk 0x01#6 d a b 0xb#4, none)
  | .minN64 d a b => some (.mk 0x01#6 d a b 0xc#4, none)
  | .maxN64 d a b => some (.mk 0x01#6 d a b 0xd#4, none)
  | .addI32Scalar d a b => some (.mk 0x01#6 d a b 0xe#4, none)
  | .subI32Scalar d a b => some (.mk 0x01#6 d a b 0xf#4, none)
  | .addI64Imm d a i => some (.ofImm 0x04#6 d a i.field, i.literal)
  | .andB64Imm d a i => some (.ofImm 0x05#6 d a i.field, i.literal)
  | .orB64Imm d a i => some (.ofImm 0x06#6 d a i.field, i.literal)
  | .xorB64Imm d a i => some (.ofImm 0x07#6 d a i.field, i.literal)
  | .sllB64Imm d a n lit => some (.ofImm 0x08#6 d a (if lit then 0x400#11 else 0#3 ++ 0#2 ++ n), if lit then some (0#24 ++ 0#2 ++ n) else none)
  | .srlB64Imm d a n lit => some (.ofImm 0x08#6 d a (if lit then 0x400#11 else 0#3 ++ 1#2 ++ n), if lit then some (0#24 ++ 1#2 ++ n) else none)
  | .sraB64Imm d a n lit => some (.ofImm 0x08#6 d a (if lit then 0x400#11 else 0#3 ++ 2#2 ++ n), if lit then some (0#24 ++ 2#2 ++ n) else none)
  | .rorB64Imm d a n lit => some (.ofImm 0x08#6 d a (if lit then 0x400#11 else 0#3 ++ 3#2 ++ n), if lit then some (0#24 ++ 3#2 ++ n) else none)
  | .scalarCompare p a b k => some (.mk 0x02#6 (0x0#4 ++ p) a b k, none)
  | .scalarCompareImm k p a i => some (.ofImm 0x09#6 (k ++ p) a i.field, i.literal)
  | .pand d a b => some (.mk 0x02#6 (0x0#4 ++ d) (0x0#4 ++ a) (0x0#4 ++ b) 0xc#4, none)
  | .por d a b => some (.mk 0x02#6 (0x0#4 ++ d) (0x0#4 ++ a) (0x0#4 ++ b) 0xd#4, none)
  | .pxor d a b => some (.mk 0x02#6 (0x0#4 ++ d) (0x0#4 ++ a) (0x0#4 ++ b) 0xe#4, none)
  | .pandn d a b => some (.mk 0x02#6 (0x0#4 ++ d) (0x0#4 ++ a) (0x0#4 ++ b) 0xf#4, none)
  | .mulI64 d a b => some (.mk 0x03#6 d a b 0x0#4, none)
  | .mulhI64 d a b => some (.mk 0x03#6 d a b 0x1#4, none)
  | .mulhN64 d a b => some (.mk 0x03#6 d a b 0x2#4, none)
  | .divI64 d a b => some (.mk 0x03#6 d a b 0x3#4, none)
  | .divN64 d a b => some (.mk 0x03#6 d a b 0x4#4, none)
  | .remI64 d a b => some (.mk 0x03#6 d a b 0x5#4, none)
  | .remN64 d a b => some (.mk 0x03#6 d a b 0x6#4, none)
  | .lea2B64 d a b => some (.mk 0x03#6 d a b 0x7#4, none)
  | .lea4B64 d a b => some (.mk 0x03#6 d a b 0x8#4, none)
  | .lea8B64 d a b => some (.mk 0x03#6 d a b 0x9#4, none)
  | .lea16B64 d a b => some (.mk 0x03#6 d a b 0xa#4, none)
  | .packB64 d a b => some (.mk 0x03#6 d a b 0xb#4, none)
  | .popcB64 d a => some (.mk 0x03#6 d a 0x0#7 0xc#4, none)
  | .clzB64 d a => some (.mk 0x03#6 d a 0x1#7 0xc#4, none)
  | .ctzB64 d a => some (.mk 0x03#6 d a 0x2#7 0xc#4, none)
  | .brevB64 d a => some (.mk 0x03#6 d a 0x3#7 0xc#4, none)
  | .bswapB64 d a => some (.mk 0x03#6 d a 0x4#7 0xc#4, none)
  | .bextN64 d a b => some (.mk 0x03#6 d a b 0xd#4, none)
  | .bextI64 d a b => some (.mk 0x03#6 d a b 0xe#4, none)
  | .binsB64 d a b => some (.mk 0x03#6 d a b 0xf#4, none)
  | .movI64 d i => some (.ofImm 0x0a#6 d 0x0#7 i.field, i.literal)
  | .br p n d s => some (.ofBody 0x0b#6 (p ++ n ++ d ++ s), none)
  | .jr a => some (.mk 0x0c#6 0x0#7 a 0x0#7 0x0#4, none)
  | .call d a => some (.mk 0x0c#6 d a 0x0#7 0x1#4, none)
  | .ret a => some (.mk 0x0c#6 0x0#7 a 0x0#7 0x2#4, none)
  | .mrd d i => some (.ofImm 0x0d#6 d 0x0#7 i.field, i.literal)
  | .mwr a i => some (.ofImm 0x0e#6 0x0#7 a i.field, i.literal)
  | .wait l s p x => some (.ofBody 0x0f#6 (l ++ s ++ p ++ x ++ 0#1 ++ 1#4), none)
  | .ifence => some (.mk 0x0f#6 0x0#7 0x0#7 0x0#7 0x2#4, none)
  | .rdcyc d => some (.mk 0x0f#6 d 0x0#7 0x0#7 0x3#4, none)
  | .rdtime d => some (.mk 0x0f#6 d 0x0#7 0x0#7 0x4#4, none)
  | .exit => some (.mk 0x0f#6 0x0#7 0x0#7 0x0#7 0x8#4, none)
  | .yield => some (.mk 0x0f#6 0x0#7 0x0#7 0x1#7 0x8#4, none)
  | .tbar a => some (.mk 0x0f#6 0x0#7 a 0x0#7 0x9#4, none)
  | .join => some (.mk 0x0f#6 0x0#7 0x0#7 0x0#7 0xa#4, none)
  | .idrScalar d a => some (.mk 0x0f#6 d a 0x0#7 0xb#4, none)
  | .idrLane d a => some (.mk 0x0f#6 d a 0x1#7 0xb#4, none)
  | .launch d a => some (.mk 0x0f#6 d a 0x0#7 0xc#4, none)
  | .kput d a => some (.mk 0x0f#6 (0x0#4 ++ d) a 0x0#7 0xd#4, none)
  | .kget d a => some (.mk 0x0f#6 d (0x0#4 ++ a) 0x1#7 0xd#4, none)
  | .brk k => some (.mk 0x0f#6 0x0#7 0x0#7 (0x1#1 ++ k) 0xe#4, none)
  | .dbgHalt d a => some (.mk 0x0f#6 d a 0x0#7 0xe#4, none)
  | .dbgResume d a => some (.mk 0x0f#6 d a 0x1#7 0xe#4, none)
  | .dbgStep d a => some (.mk 0x0f#6 d a 0x2#7 0xe#4, none)
  | .dbgRdpc d a => some (.mk 0x0f#6 d a 0x3#7 0xe#4, none)
  | .dbgWatch d a => some (.mk 0x0f#6 d a 0x4#7 0xe#4, none)
  | .dbgHalted d a => some (.mk 0x0f#6 d a 0x5#7 0xe#4, none)
  | .tret => some (.mk 0x0f#6 0x0#7 0x0#7 0x0#7 0xf#4, none)
  | .tretSkip => some (.mk 0x0f#6 0x0#7 0x0#7 0x1#7 0xf#4, none)
  | .tretExit => some (.mk 0x0f#6 0x0#7 0x0#7 0x2#7 0xf#4, none)
  | .tretTo a => some (.mk 0x0f#6 0x0#7 a 0x3#7 0xf#4, none)
  | .addI32 d a b => some (.mk 0x10#6 d a b 0x0#4, none)
  | .subI32 d a b => some (.mk 0x10#6 d a b 0x1#4, none)
  | .andB32 d a b => some (.mk 0x10#6 d a b 0x2#4, none)
  | .orB32 d a b => some (.mk 0x10#6 d a b 0x3#4, none)
  | .xorB32 d a b => some (.mk 0x10#6 d a b 0x4#4, none)
  | .andnB32 d a b => some (.mk 0x10#6 d a b 0x5#4, none)
  | .sllB32 d a b => some (.mk 0x10#6 d a b 0x6#4, none)
  | .srlB32 d a b => some (.mk 0x10#6 d a b 0x7#4, none)
  | .sraB32 d a b => some (.mk 0x10#6 d a b 0x8#4, none)
  | .minI32 d a b => some (.mk 0x10#6 d a b 0x9#4, none)
  | .maxI32 d a b => some (.mk 0x10#6 d a b 0xa#4, none)
  | .minN32 d a b => some (.mk 0x10#6 d a b 0xb#4, none)
  | .maxN32 d a b => some (.mk 0x10#6 d a b 0xc#4, none)
  | .addsI32 d a b => some (.mk 0x10#6 d a b 0xd#4, none)
  | .subsI32 d a b => some (.mk 0x10#6 d a b 0xe#4, none)
  | .selB32 d p b => some (.mk 0x10#6 d (0x0#4 ++ p) b 0xf#4, none)
  | .addI32Imm d a i => some (.ofImm 0x13#6 d a i.field, i.literal)
  | .andB32Imm d a i => some (.ofImm 0x14#6 d a i.field, i.literal)
  | .orB32Imm d a i => some (.ofImm 0x15#6 d a i.field, i.literal)
  | .xorB32Imm d a i => some (.ofImm 0x16#6 d a i.field, i.literal)
  | .sllB32Imm d a n lit => some (.ofImm 0x17#6 d a (if lit then 0x400#11 else 0#3 ++ 0#2 ++ n), if lit then some (0#24 ++ 0#2 ++ n) else none)
  | .srlB32Imm d a n lit => some (.ofImm 0x17#6 d a (if lit then 0x400#11 else 0#3 ++ 1#2 ++ n), if lit then some (0#24 ++ 1#2 ++ n) else none)
  | .sraB32Imm d a n lit => some (.ofImm 0x17#6 d a (if lit then 0x400#11 else 0#3 ++ 2#2 ++ n), if lit then some (0#24 ++ 2#2 ++ n) else none)
  | .rorB32Imm d a n lit => some (.ofImm 0x17#6 d a (if lit then 0x400#11 else 0#3 ++ 3#2 ++ n), if lit then some (0#24 ++ 3#2 ++ n) else none)
  | .movB32Imm d i => some (.ofImm 0x19#6 d 0x0#7 i.field, i.literal)
  | .mulB32 d a b => some (.mk 0x11#6 d a b 0x0#4, none)
  | .mulhI32 d a b => some (.mk 0x11#6 d a b 0x1#4, none)
  | .mulhN32 d a b => some (.mk 0x11#6 d a b 0x2#4, none)
  | .madB32 d a b => some (.mk 0x11#6 d a b 0x3#4, none)
  | .divI32 d a b => some (.mk 0x11#6 d a b 0x4#4, none)
  | .divN32 d a b => some (.mk 0x11#6 d a b 0x5#4, none)
  | .remI32 d a b => some (.mk 0x11#6 d a b 0x6#4, none)
  | .remN32 d a b => some (.mk 0x11#6 d a b 0x7#4, none)
  | .mulwI32 d a b => some (.mk 0x11#6 d a b 0x8#4, none)
  | .mulwN32 d a b => some (.mk 0x11#6 d a b 0x9#4, none)
  | .madwN32 d a b => some (.mk 0x11#6 d a b 0xa#4, none)
  | .dp4I8 d a b => some (.mk 0x11#6 d a b 0xb#4, none)
  | .dp4N8 d a b => some (.mk 0x11#6 d a b 0xc#4, none)
  | .laneCompare p a b k => some (.mk 0x12#6 (0x0#4 ++ p) a b k, none)
  | .laneCompareImm k p a i => some (.ofImm 0x18#6 (k ++ p) a i.field, i.literal)
  | .bcastB32 d a => some (.mk 0x1a#6 d a 0x0#7 0x0#4, none)
  | .bcastB64 d a => some (.mk 0x1a#6 d a 0x0#7 0x1#4, none)
  | .rdlN32 d a b => some (.mk 0x1a#6 d a b 0x2#4, none)
  | .rdlI32 d a b => some (.mk 0x1a#6 d a b 0x3#4, none)
  | .rdlB64 d a b => some (.mk 0x1a#6 d a b 0x4#4, none)
  | .wrlB32 d a b => some (.mk 0x1a#6 d a b 0x5#4, none)
  | .movB32 d a => some (.mk 0x1a#6 d a 0x0#7 0x6#4, none)
  | .movB64 d a => some (.mk 0x1a#6 d a 0x0#7 0x7#4, none)
  | .pgetB32 d p => some (.mk 0x1a#6 d (0x0#4 ++ p) 0x0#7 0x8#4, none)
  | .popcB32 d a => some (.mk 0x1b#6 d a 0x0#7 0x0#4, none)
  | .clzB32 d a => some (.mk 0x1b#6 d a 0x0#7 0x1#4, none)
  | .ctzB32 d a => some (.mk 0x1b#6 d a 0x0#7 0x2#4, none)
  | .brevB32 d a => some (.mk 0x1b#6 d a 0x0#7 0x3#4, none)
  | .bswapB32 d a => some (.mk 0x1b#6 d a 0x0#7 0x4#4, none)
  | .bextN32 d a b => some (.mk 0x1b#6 d a b 0x5#4, none)
  | .bextI32 d a b => some (.mk 0x1b#6 d a b 0x6#4, none)
  | .binsB32 d a b => some (.mk 0x1b#6 d a b 0x7#4, none)
  | .addF32 d a b => some (.mk 0x1c#6 d a b 0x0#4, none)
  | .subF32 d a b => some (.mk 0x1c#6 d a b 0x1#4, none)
  | .mulF32 d a b => some (.mk 0x1c#6 d a b 0x2#4, none)
  | .divF32 d a b => some (.mk 0x1c#6 d a b 0x3#4, none)
  | .sqrtF32 d a => some (.mk 0x1c#6 d a 0x0#7 0x4#4, none)
  | .minF32 d a b => some (.mk 0x1c#6 d a b 0x5#4, none)
  | .maxF32 d a b => some (.mk 0x1c#6 d a b 0x6#4, none)
  | .minnF32 d a b => some (.mk 0x1c#6 d a b 0x7#4, none)
  | .maxnF32 d a b => some (.mk 0x1c#6 d a b 0x8#4, none)
  | .absF32 d a => some (.mk 0x1c#6 d a 0x0#7 0x9#4, none)
  | .negF32 d a => some (.mk 0x1c#6 d a 0x0#7 0xa#4, none)
  | .csgnF32 d a b => some (.mk 0x1c#6 d a b 0xb#4, none)
  | .classF32 d a => some (.mk 0x1c#6 d a 0x0#7 0xc#4, none)
  | .compareF32 k p a b => some (.mk 0x1c#6 (k ++ p) a b 0xd#4, none)
  | .rintF32 d a m => some (.mk 0x1c#6 d a (0x0#4 ++ m) 0xe#4, none)
  | .sclF32 d a b => some (.mk 0x1c#6 d a b 0xf#4, none)
  | .addF64 d a b => some (.mk 0x1d#6 d a b 0x0#4, none)
  | .subF64 d a b => some (.mk 0x1d#6 d a b 0x1#4, none)
  | .mulF64 d a b => some (.mk 0x1d#6 d a b 0x2#4, none)
  | .divF64 d a b => some (.mk 0x1d#6 d a b 0x3#4, none)
  | .sqrtF64 d a => some (.mk 0x1d#6 d a 0x0#7 0x4#4, none)
  | .minF64 d a b => some (.mk 0x1d#6 d a b 0x5#4, none)
  | .maxF64 d a b => some (.mk 0x1d#6 d a b 0x6#4, none)
  | .minnF64 d a b => some (.mk 0x1d#6 d a b 0x7#4, none)
  | .maxnF64 d a b => some (.mk 0x1d#6 d a b 0x8#4, none)
  | .absF64 d a => some (.mk 0x1d#6 d a 0x0#7 0x9#4, none)
  | .negF64 d a => some (.mk 0x1d#6 d a 0x0#7 0xa#4, none)
  | .csgnF64 d a b => some (.mk 0x1d#6 d a b 0xb#4, none)
  | .classF64 d a => some (.mk 0x1d#6 d a 0x0#7 0xc#4, none)
  | .compareF64 k p a b => some (.mk 0x1d#6 (k ++ p) a b 0xd#4, none)
  | .rintF64 d a m => some (.mk 0x1d#6 d a (0x0#4 ++ m) 0xe#4, none)
  | .sclF64 d a b => some (.mk 0x1d#6 d a b 0xf#4, none)
  | .addF16 d a b => some (.mk 0x1e#6 d a b 0x0#4, none)
  | .subF16 d a b => some (.mk 0x1e#6 d a b 0x1#4, none)
  | .mulF16 d a b => some (.mk 0x1e#6 d a b 0x2#4, none)
  | .minF16 d a b => some (.mk 0x1e#6 d a b 0x3#4, none)
  | .maxF16 d a b => some (.mk 0x1e#6 d a b 0x4#4, none)
  | .add2F16 d a b => some (.mk 0x1e#6 d a b 0x5#4, none)
  | .sub2F16 d a b => some (.mk 0x1e#6 d a b 0x6#4, none)
  | .mul2F16 d a b => some (.mk 0x1e#6 d a b 0x7#4, none)
  | .addBf16 d a b => some (.mk 0x1e#6 d a b 0x8#4, none)
  | .subBf16 d a b => some (.mk 0x1e#6 d a b 0x9#4, none)
  | .mulBf16 d a b => some (.mk 0x1e#6 d a b 0xa#4, none)
  | .minBf16 d a b => some (.mk 0x1e#6 d a b 0xb#4, none)
  | .maxBf16 d a b => some (.mk 0x1e#6 d a b 0xc#4, none)
  | .add2Bf16 d a b => some (.mk 0x1e#6 d a b 0xd#4, none)
  | .sub2Bf16 d a b => some (.mk 0x1e#6 d a b 0xe#4, none)
  | .mul2Bf16 d a b => some (.mk 0x1e#6 d a b 0xf#4, none)
  | .fmaF32 d a b => some (.mk 0x1f#6 d a b 0x0#4, none)
  | .fmsF32 d a b => some (.mk 0x1f#6 d a b 0x1#4, none)
  | .fnmaF32 d a b => some (.mk 0x1f#6 d a b 0x2#4, none)
  | .fnmsF32 d a b => some (.mk 0x1f#6 d a b 0x3#4, none)
  | .fmaF64 d a b => some (.mk 0x1f#6 d a b 0x4#4, none)
  | .fmsF64 d a b => some (.mk 0x1f#6 d a b 0x5#4, none)
  | .fnmaF64 d a b => some (.mk 0x1f#6 d a b 0x6#4, none)
  | .fnmsF64 d a b => some (.mk 0x1f#6 d a b 0x7#4, none)
  | .fmaF16 d a b => some (.mk 0x1f#6 d a b 0x8#4, none)
  | .fnmaF16 d a b => some (.mk 0x1f#6 d a b 0x9#4, none)
  | .fma2F16 d a b => some (.mk 0x1f#6 d a b 0xa#4, none)
  | .fnma2F16 d a b => some (.mk 0x1f#6 d a b 0xb#4, none)
  | .fmaBf16 d a b => some (.mk 0x1f#6 d a b 0xc#4, none)
  | .fnmaBf16 d a b => some (.mk 0x1f#6 d a b 0xd#4, none)
  | .fma2Bf16 d a b => some (.mk 0x1f#6 d a b 0xe#4, none)
  | .fnma2Bf16 d a b => some (.mk 0x1f#6 d a b 0xf#4, none)
  | .cvt d a x m s t => some (.mk 0x20#6 d a (x ++ m ++ s) (0x0#1 ++ t), none)
  | .cvtE4m3F32 d a b => some (.mk 0x21#6 d a b 0x0#4, none)
  | .cvthiE4m3F32 d a b => some (.mk 0x21#6 d a b 0x1#4, none)
  | .cvtE5m2F32 d a b => some (.mk 0x21#6 d a b 0x2#4, none)
  | .cvthiE5m2F32 d a b => some (.mk 0x21#6 d a b 0x3#4, none)
  | .cvtE4m3F32Sat d a b => some (.mk 0x21#6 d a b 0x4#4, none)
  | .cvthiE4m3F32Sat d a b => some (.mk 0x21#6 d a b 0x5#4, none)
  | .cvtE5m2F32Sat d a b => some (.mk 0x21#6 d a b 0x6#4, none)
  | .cvthiE5m2F32Sat d a b => some (.mk 0x21#6 d a b 0x7#4, none)
  | .cvtF32E4m3 d a k => some (.mk 0x21#6 d a (0x0#5 ++ k) 0x8#4, none)
  | .cvtF32E5m2 d a k => some (.mk 0x21#6 d a (0x0#5 ++ k) 0x9#4, none)
  | .cvt2Bf16E4m3 d a h => some (.mk 0x21#6 d a (0x0#6 ++ h) 0xa#4, none)
  | .cvt2Bf16E5m2 d a h => some (.mk 0x21#6 d a (0x0#6 ++ h) 0xb#4, none)
  | .qsc d a t => some (.mk 0x21#6 d a (0x0#5 ++ t) 0xc#4, none)
  | .cvtW4F32 d a b => some (.mk 0x21#6 d a b 0xd#4, none)
  | .cvtW3F32 d a b => some (.mk 0x21#6 d a b 0xe#4, none)
  | .cvtF32W4 d a b => some (.mk 0x21#6 d a b 0xf#4, none)
  | .rcp d a => some (.mk 0x22#6 d a 0x0#7 0x0#4, none)
  | .rsqrt d a => some (.mk 0x22#6 d a 0x0#7 0x1#4, none)
  | .sfsqrt d a => some (.mk 0x22#6 d a 0x0#7 0x2#4, none)
  | .exp2 d a => some (.mk 0x22#6 d a 0x0#7 0x3#4, none)
  | .log2 d a => some (.mk 0x22#6 d a 0x0#7 0x4#4, none)
  | .sinpi d a => some (.mk 0x22#6 d a 0x0#7 0x5#4, none)
  | .cospi d a => some (.mk 0x22#6 d a 0x0#7 0x6#4, none)
  | .exp d a => some (.mk 0x22#6 d a 0x0#7 0x7#4, none)
  | .sincospi d a => some (.mk 0x22#6 d a 0x0#7 0x8#4, none)
  | .clmulB32 d a b => some (.mk 0x23#6 d a b 0x0#4, none)
  | .clmulhB32 d a b => some (.mk 0x23#6 d a b 0x1#4, none)
  | .clmulwB32 d a b => some (.mk 0x23#6 d a b 0x2#4, none)
  | .clmulB64 d a b => some (.mk 0x23#6 d a b 0x3#4, none)
  | .clmulhB64 d a b => some (.mk 0x23#6 d a b 0x4#4, none)
  | .clmulwB64 d a b => some (.mk 0x23#6 d a b 0x5#4, none)
  | .clmulrB32 d a b => some (.mk 0x23#6 d a b 0x6#4, none)
  | .clmulrB64 d a b => some (.mk 0x23#6 d a b 0x7#4, none)
  | .xchAtB32 d a b => some (.mk 0x24#6 d a b 0x0#4, none)
  | .xchLoB32 d a n => some (.mk 0x24#6 d a (0x0#2 ++ n) 0x1#4, none)
  | .xchHiB32 d a n => some (.mk 0x24#6 d a (0x0#2 ++ n) 0x2#4, none)
  | .xchFlipB32 d a n => some (.mk 0x24#6 d a (0x0#2 ++ n) 0x3#4, none)
  | .xchAtB64 d a b => some (.mk 0x24#6 d a b 0x4#4, none)
  | .xchLoB64 d a n => some (.mk 0x24#6 d a (0x0#2 ++ n) 0x5#4, none)
  | .xchHiB64 d a n => some (.mk 0x24#6 d a (0x0#2 ++ n) 0x6#4, none)
  | .xchFlipB64 d a n => some (.mk 0x24#6 d a (0x0#2 ++ n) 0x7#4, none)
  | .lall d a => some (.mk 0x25#6 (0x0#4 ++ d) (0x0#4 ++ a) 0x0#7 0x0#4, none)
  | .lany d a => some (.mk 0x25#6 (0x0#4 ++ d) (0x0#4 ++ a) 0x0#7 0x1#4, none)
  | .lsameB32 d a => some (.mk 0x25#6 (0x0#4 ++ d) a 0x0#7 0x2#4, none)
  | .lmaskB32 d a => some (.mk 0x25#6 d (0x0#4 ++ a) 0x0#7 0x3#4, none)
  | .scan d a p o => some (.mk 0x25#6 d a (p ++ o) 0x4#4, none)
  | .scanx d a p o => some (.mk 0x25#6 d a (p ++ o) 0x5#4, none)
  | .red d a p o => some (.mk 0x25#6 d a (p ++ o) 0x6#4, none)
  | .tput a p o => some (.mk 0x25#6 0x0#7 a (p ++ o) 0x7#4, none)
  | .tget d o => some (.mk 0x25#6 d 0x0#7 (0x0#3 ++ o) 0x8#4, none)
  | .ldN8 t b x y o h => some (.mk 0x28#6 t b x (y ++ (if o.isSome then 1#1 else 0#1) ++ h), o)
  | .ldI8 t b x y o h => some (.mk 0x29#6 t b x (y ++ (if o.isSome then 1#1 else 0#1) ++ h), o)
  | .ldN16 t b x y o h => some (.mk 0x2a#6 t b x (y ++ (if o.isSome then 1#1 else 0#1) ++ h), o)
  | .ldI16 t b x y o h => some (.mk 0x2b#6 t b x (y ++ (if o.isSome then 1#1 else 0#1) ++ h), o)
  | .ldB32 t b x y o h => some (.mk 0x2c#6 t b x (y ++ (if o.isSome then 1#1 else 0#1) ++ h), o)
  | .ldB64 t b x y o h => some (.mk 0x2d#6 t b x (y ++ (if o.isSome then 1#1 else 0#1) ++ h), o)
  | .ldB128 t b x y o h => some (.mk 0x2e#6 t b x (y ++ (if o.isSome then 1#1 else 0#1) ++ h), o)
  | .stB8 t b x y o h => some (.mk 0x2f#6 t b x (y ++ (if o.isSome then 1#1 else 0#1) ++ h), o)
  | .stB16 t b x y o h => some (.mk 0x30#6 t b x (y ++ (if o.isSome then 1#1 else 0#1) ++ h), o)
  | .stB32 t b x y o h => some (.mk 0x31#6 t b x (y ++ (if o.isSome then 1#1 else 0#1) ++ h), o)
  | .stB64 t b x y o h => some (.mk 0x32#6 t b x (y ++ (if o.isSome then 1#1 else 0#1) ++ h), o)
  | .stB128 t b x y o h => some (.mk 0x33#6 t b x (y ++ (if o.isSome then 1#1 else 0#1) ++ h), o)
  | .ldScalar t b w d => some (.ofBody 0x34#6 (t ++ b ++ w ++ d.field), d.literal)
  | .stScalar t b w d => some (.ofBody 0x35#6 (t ++ b ++ (w ++ 0#1) ++ d.field), d.literal)
  | .atomAdd d a s o w => some (.mk 0x36#6 d a (s ++ o ++ w ++ 0x0#1) 0x0#4, none)
  | .atomMinI d a s o w => some (.mk 0x36#6 d a (s ++ o ++ w ++ 0x0#1) 0x1#4, none)
  | .atomMaxI d a s o w => some (.mk 0x36#6 d a (s ++ o ++ w ++ 0x0#1) 0x2#4, none)
  | .atomMinN d a s o w => some (.mk 0x36#6 d a (s ++ o ++ w ++ 0x0#1) 0x3#4, none)
  | .atomMaxN d a s o w => some (.mk 0x36#6 d a (s ++ o ++ w ++ 0x0#1) 0x4#4, none)
  | .atomAnd d a s o w => some (.mk 0x36#6 d a (s ++ o ++ w ++ 0x0#1) 0x5#4, none)
  | .atomOr d a s o w => some (.mk 0x36#6 d a (s ++ o ++ w ++ 0x0#1) 0x6#4, none)
  | .atomXor d a s o w => some (.mk 0x36#6 d a (s ++ o ++ w ++ 0x0#1) 0x7#4, none)
  | .atomExch d a s o w => some (.mk 0x36#6 d a (s ++ o ++ w ++ 0x0#1) 0x8#4, none)
  | .atomCas d a s o w => some (.mk 0x36#6 d a (s ++ o ++ w ++ 0x0#1) 0x9#4, none)
  | .atomAddF d a s o w => some (.mk 0x36#6 d a (s ++ o ++ w ++ 0x0#1) 0xa#4, none)
  | .ldo d a s o w => some (.mk 0x36#6 d a (s ++ o ++ w ++ 0x0#1) 0xb#4, none)
  | .sto d a s o w => some (.mk 0x36#6 d a (s ++ o ++ w ++ 0x0#1) 0xc#4, none)
  | .rfarAddI32 a b => some (.mk 0x37#6 0x0#7 a b 0x0#4, none)
  | .rfarAddI64 a b => some (.mk 0x37#6 0x0#7 a b 0x1#4, none)
  | .rfarMinI32 a b => some (.mk 0x37#6 0x0#7 a b 0x2#4, none)
  | .rfarMaxI32 a b => some (.mk 0x37#6 0x0#7 a b 0x3#4, none)
  | .rfarMinN32 a b => some (.mk 0x37#6 0x0#7 a b 0x4#4, none)
  | .rfarMaxN32 a b => some (.mk 0x37#6 0x0#7 a b 0x5#4, none)
  | .rfarAndB32 a b => some (.mk 0x37#6 0x0#7 a b 0x6#4, none)
  | .rfarOrB32 a b => some (.mk 0x37#6 0x0#7 a b 0x7#4, none)
  | .rfarXorB32 a b => some (.mk 0x37#6 0x0#7 a b 0x8#4, none)
  | .rfarAddF32 a b => some (.mk 0x37#6 0x0#7 a b 0x9#4, none)
  | .rfarAddF64 a b => some (.mk 0x37#6 0x0#7 a b 0xa#4, none)
  | .rfarMinF32 a b => some (.mk 0x37#6 0x0#7 a b 0xb#4, none)
  | .rfarMaxF32 a b => some (.mk 0x37#6 0x0#7 a b 0xc#4, none)
  | .repOpen a => some (.mk 0x37#6 0x0#7 a 0x0#7 0xd#4, none)
  | .repFlush => some (.mk 0x37#6 0x0#7 0x0#7 0x0#7 0xe#4, none)
  | .repClose => some (.mk 0x37#6 0x0#7 0x0#7 0x0#7 0xf#4, none)
  | .damTake d a b => some (.mk 0x38#6 d a b 0x0#4, none)
  | .damChk d a => some (.mk 0x38#6 d a 0x0#7 0x1#4, none)
  | .damEnd d a => some (.mk 0x38#6 d a 0x0#7 0x2#4, none)
  | .warm a b => some (.mk 0x38#6 0x0#7 a b 0x3#4, none)
  | .warr d a s n => some (.mk 0x38#6 d a (s ++ n) 0x4#4, none)
  | .wwait s a b => some (.mk 0x38#6 (0x0#4 ++ s) a b 0x5#4, none)
  | .wprobe d a s => some (.mk 0x38#6 d a (s ++ 0x0#4) 0x6#4, none)
  | .fenceAcq s => some (.mk 0x38#6 0x0#7 0x0#7 (s ++ 0x1#4) 0x7#4, none)
  | .fenceRel s => some (.mk 0x38#6 0x0#7 0x0#7 (s ++ 0x2#4) 0x7#4, none)
  | .fenceFull s => some (.mk 0x38#6 0x0#7 0x0#7 (s ++ 0x3#4) 0x7#4, none)
  | .cctlL1b a => some (.mk 0x38#6 0x0#7 a 0x0#7 0x8#4, none)
  | .cctlL1all => some (.mk 0x38#6 0x0#7 0x0#7 0x1#7 0x8#4, none)
  | .cctlWbl d a => some (.mk 0x38#6 d a 0x2#7 0x8#4, none)
  | .cctlWbf d a => some (.mk 0x38#6 d a 0x3#7 0x8#4, none)
  | .cctlRel d a => some (.mk 0x38#6 d a 0x4#7 0x8#4, none)
  | .pinReload d a => some (.mk 0x38#6 d a 0x0#7 0x9#4, none)
  | .pinEnd d a => some (.mk 0x38#6 d a 0x1#7 0x9#4, none)
  | .pinSet d a => some (.mk 0x38#6 d a 0x2#7 0x9#4, none)
  | .pinClr d a => some (.mk 0x38#6 d a 0x3#7 0x9#4, none)
  | .cptCopy d a b => some (.mk 0x39#6 d a b 0x0#4, none)
  | .cptLtab a b => some (.mk 0x39#6 0x0#7 a b 0x1#4, none)
  | .cptBind d a => some (.mk 0x39#6 d a 0x0#7 0x2#4, none)
  | .cptAdv d a => some (.mk 0x39#6 d a 0x0#7 0x3#4, none)
  | .cptRel d a => some (.mk 0x39#6 d a 0x0#7 0x4#4, none)
  | .cptRes d a x => some (.mk 0x39#6 d a (0x0#5 ++ x) 0x5#4, none)
  | .mma t z s a b => some (.mk 0x3a#6 (t ++ z ++ s) a b 0x0#4, none)
  | .mld t a => some (.mk 0x3a#6 (t ++ 0x0#3) a 0x0#7 0x1#4, none)
  | .mst t f a b => some (.mk 0x3a#6 (t ++ f ++ 0x0#2) a b 0x2#4, none)
  | .mqst t q a b => some (.mk 0x3a#6 (t ++ q ++ 0x0#2) a b 0x3#4, none)
  | .mcb a => some (.mk 0x3a#6 0x0#7 a 0x0#7 0x4#4, none)
  | .mxst d => some (.mk 0x3a#6 d 0x0#7 0x0#7 0x5#4, none)
  | .mxstClr d => some (.mk 0x3a#6 d 0x0#7 0x1#7 0x5#4, none)
  | .fqePf d a => some (.mk 0x3b#6 d a 0x0#7 0x0#4, none)
  | .fqeSync d a => some (.mk 0x3b#6 d a 0x0#7 0x1#4, none)
  | .fqeSub d a => some (.mk 0x3b#6 d a 0x0#7 0x2#4, none)
  | .wfork d a => some (.mk 0x3b#6 d a 0x0#7 0x4#4, none)
  | .wenter d a => some (.mk 0x3b#6 d a 0x0#7 0x5#4, none)
  | .wleave d => some (.mk 0x3b#6 d 0x0#7 0x0#7 0x6#4, none)
  | .wchoose d a => some (.mk 0x3b#6 d a 0x0#7 0x7#4, none)
  | .wstat d a => some (.mk 0x3b#6 d a 0x0#7 0x8#4, none)
  | .wwho d => some (.mk 0x3b#6 d 0x0#7 0x0#7 0x9#4, none)
  | _ => none

/-- A decoded word: its chain bit (R43), its instruction, and whether the next slot is its literal (R42). -/
structure Decoded where
  chain : Bool
  instr : Instr
  hasLit : Bool
  deriving DecidableEq, Repr

/-- Whether an instruction is followed by a literal word (R41, R42). -/
def Instr.usesLit (i : Instr) : Bool :=
  match encodeFields i with
  | some (_, some _) => true
  | _ => false

/-- Whether a word takes the next one as its literal: its format and its marker say so, whatever its other fields hold
(R39, R41; log 24). -/
def wordTakesLit (w : Word) : Bool :=
  let m := (w.extractLsb' 25 6).toNat
  if 0x28 ≤ m ∧ m ≤ 0x33 then w.getLsbD 2
  else if m = 0x34 ∨ m = 0x35 then w.extractLsb' 0 8 == 0x80#8
  else if (0x04 ≤ m ∧ m ≤ 0x0A) ∨ m = 0x0D ∨ m = 0x0E ∨ (0x13 ≤ m ∧ m ≤ 0x19) then w.extractLsb' 0 11 == 0x400#11
  else false

/-- The reason of a word whose literal would lie outside the packet: 7, or the lower one that its fields give (R56). -/
noncomputable def literalReason (w : Word) : Nat :=
  match decodeFields (unpack w) (some 0) with
  | .error r => r
  | .ok i => i.badField.getD 7

/-- Decoding of one word (R38 to R42, R53 to R56 step 2 up to reason 8). -/
noncomputable def decodeWord (w : Word) (lit : Option Word) : Except Nat Decoded :=
  match decodeFields (unpack w) lit with
  | .error r => .error (if r = 7 then literalReason w else r)
  | .ok i =>
    match i.badField with
    | some r => .error r
    | none => .ok ⟨w.getLsbD 31, i, i.usesLit⟩

/-- The words of an instruction: its word with C = 0, and its literal word if it has one. -/
def encode (i : Instr) : List Word :=
  match encodeFields i with
  | none => []
  | some (f, none) => [pack 0#1 f]
  | some (f, some l) => [pack 0#1 f, l]

/-- Decoding the words of an instruction in the order in which they stand in a packet. -/
noncomputable def decode (ws : List Word) : Except Nat Decoded :=
  match ws with
  | [] => .error 0
  | w :: rest => decodeWord w rest.head?

/-- The instruction that the decoder reads from a word numbered as spec/opcode_table.json numbers it; the literal word
that a marker asks for is zero. -/
noncomputable def decodeTableWord (_nbits w : Nat) : Option Instr :=
  match decodeWord (BitVec.ofNat 32 w) (some (BitVec.ofNat 32 (w / 2 ^ 32))) with
  | .ok d => some d.instr
  | .error _ => none

end Sys2Proof
end

