-- ==== Sys2Proof/Machine/Info.lean ====
section
/-! DEFINITION. The record of what stands before the effect of each word, by instruction (R2, R13, R28, R29, R50, R53,
R152, R167, R404): the one that its meaning is `issued` with. Steps of other agents have none. -/

namespace Sys2Proof.Machine

def infoOf (i : Instr) : Info :=
  match i with
  | .powerOnBoot => inf0 .none
  | .coreReset _ => inf0 .none
  | .run => inf0 .none
  | .quarterIssue _ => inf0 .none
  | .rotationQuantum _ => inf0 .none
  | .loadComplete _ _ => inf0 .none
  | .storeAck _ => inf0 .none
  | .joinRelease _ => inf0 .none
  | .groupFinish _ => inf0 .none
  | .teamRetire _ => inf0 .none
  | .queueDoorbell _ _ _ => inf0 .none
  | .recordAccept _ _ => inf0 .none
  | .teamPlace _ => inf0 .none
  | .depWeirObserve _ => inf0 .none
  | .thermalMigration _ => inf0 .none
  | .placementWindowInstall _ _ => inf0 .none
  | .l2LineEvict _ _ _ => inf0 .none
  | .fadeTick => inf0 .none
  | .l2Miss _ => inf0 .none
  | .fillDataLand _ _ => inf0 .none
  | .tableInvalidation _ _ => inf0 .none
  | .cowBreak _ => inf0 .none
  | .prefetch _ _ _ => inf0 .none
  | .watermarkPublish _ => inf0 .none
  | .signatureSweep _ => inf0 .none
  | .ownershipRequest _ => inf0 .none
  | .damGrant _ => inf0 .none
  | .damLeaseExpiry _ => inf0 .none
  | .rfarDrain _ _ => inf0 .none
  | .rfarStage _ => inf0 .none
  | .epochClose _ => inf0 .none
  | .sliceFold _ _ => inf0 .none
  | .weirWaitEnd _ => inf0 .none
  | .copyResolve _ _ => inf0 .none
  | .copyPiece _ _ _ => inf0 .none
  | .muCommandPerform _ _ => inf0 .none
  | .codebookSwitch _ => inf0 .none
  | .nvmeCompletion _ _ => inf0 .none
  | .nvmeTimeout _ => inf0 .none
  | .flashSwapOut _ => inf0 .none
  | .pagerReply _ => inf0 .none
  | .pagerReplyTimeout _ => inf0 .none
  | .replayRestart _ => inf0 .none
  | .teamSave _ => inf0 .none
  | .teamResume _ => inf0 .none
  | .ctxBaseWrite _ _ => inf0 .none
  | .ctxAreaReady _ => inf0 .none
  | .gangMapChange _ _ => inf0 .none
  | .viewTagFree _ _ => inf0 .none
  | .dieLoss _ => inf0 .none
  | .baseTileLoss _ => inf0 .none
  | .dieClkClear _ => inf0 .none
  | .hostSnoop _ _ _ => inf0 .none
  | .portFill _ _ _ => inf0 .none
  | .portCacheEvict _ _ => inf0 .none
  | .leaseExpiry _ => inf0 .none
  | .leaseRevoke _ => inf0 .none
  | .leaseDrainDone _ => inf0 .none
  | .leaseFail _ => inf0 .none
  | .bisnp _ _ _ => inf0 .none
  | .peerAccess _ _ _ _ => inf0 .none
  | .peerRetry _ => inf0 .none
  | .polderConfigWrite _ _ => inf0 .none
  | .queueControlWrite _ _ _ => inf0 .none
  | .keyLoad _ => inf0 .none
  | .keyClear _ => inf0 .none
  | .keyUpdateDone _ => inf0 .none
  | .attestation _ => inf0 .none
  | .pagerWake _ => inf0 .none
  | .tmcWake _ _ => inf0 .none
  | .tileHeartbeat _ _ => inf0 .none
  | .tileRateSet _ _ _ => inf0 .none
  | .tileTake _ _ => inf0 .none
  | .heartbeatMiss _ => inf0 .none
  | .takeoverTimeout _ => inf0 .none
  | .throttle _ => inf0 .none
  | .throttleEnd _ => inf0 .none
  | .powerClockStep _ => inf0 .none
  | .refresh _ => inf0 .none
  | .mgmtRegisterWrite _ _ _ _ => inf0 .none
  | .deviceReset => inf0 .none
  | .portLinkDown _ => inf0 .none
  | .spillwayWriteBackDone _ _ => inf0 .none
  | .shadowBankDrainDone _ => inf0 .none
  | .prConsWrite _ _ => inf0 .none
  | .cowResvWrite _ _ _ => inf0 .none
  | .nop => inf0 .s
  | .pblk p _ _ => infPblk p
  | .addI64 d a b => infS3 d a b
  | .subI64 d a b => infS3 d a b
  | .andB64 d a b => infS3 d a b
  | .orB64 d a b => infS3 d a b
  | .xorB64 d a b => infS3 d a b
  | .andnB64 d a b => infS3 d a b
  | .sllB64 d a b => infS3 d a b
  | .srlB64 d a b => infS3 d a b
  | .sraB64 d a b => infS3 d a b
  | .rorB64 d a b => infS3 d a b
  | .minI64 d a b => infS3 d a b
  | .maxI64 d a b => infS3 d a b
  | .minN64 d a b => infS3 d a b
  | .maxN64 d a b => infS3 d a b
  | .addI32Scalar d a b => infS3 d a b
  | .subI32Scalar d a b => infS3 d a b
  | .addI64Imm d a _ => infS2 d a
  | .andB64Imm d a _ => infS2 d a
  | .orB64Imm d a _ => infS2 d a
  | .xorB64Imm d a _ => infS2 d a
  | .sllB64Imm d a _ _ => infS2 d a
  | .srlB64Imm d a _ _ => infS2 d a
  | .sraB64Imm d a _ _ => infS2 d a
  | .rorB64Imm d a _ _ => infS2 d a
  | .scalarCompare p a b _ => infSP p a b
  | .scalarCompareImm _ p a _ => infSPI p a
  | .pand d a b => infP3 d a b
  | .por d a b => infP3 d a b
  | .pxor d a b => infP3 d a b
  | .pandn d a b => infP3 d a b
  | .mulI64 d a b => infS3 d a b
  | .mulhI64 d a b => infS3 d a b
  | .mulhN64 d a b => infS3 d a b
  | .divI64 d a b => infS3 d a b
  | .divN64 d a b => infS3 d a b
  | .remI64 d a b => infS3 d a b
  | .remN64 d a b => infS3 d a b
  | .lea2B64 d a b => infS3 d a b
  | .lea4B64 d a b => infS3 d a b
  | .lea8B64 d a b => infS3 d a b
  | .lea16B64 d a b => infS3 d a b
  | .packB64 d a b => infS3 d a b
  | .popcB64 d a => infS2 d a
  | .clzB64 d a => infS2 d a
  | .ctzB64 d a => infS2 d a
  | .brevB64 d a => infS2 d a
  | .bswapB64 d a => infS2 d a
  | .bextN64 d a b => infS3 d a b
  | .bextI64 d a b => infS3 d a b
  | .binsB64 d a b => infS4 d a b
  | .movI64 d _ => infSD d
  | .br p _ _ _ => infBr p
  | .jr a => infJr a
  | .call d a => infCall d a
  | .ret a => infJr a
  | .mrd d i => infMrd d i
  | .mwr a i => infMwr a i
  | .wait _ _ _ _ => inf0 .s
  | .ifence => inf0 .s
  | .rdcyc d => infClock d
  | .rdtime d => infClock d
  | .exit => { pipe := .s, control := true }
  | .yield => { pipe := .s, base := false }
  | .tbar a => infTbar a
  | .join => { pipe := .s, base := false }
  | .idrScalar d _ => infIdrS d
  | .idrLane d _ => infIdrV d
  | .launch d a => infLaunch d a
  | .kput d a => infKput d a
  | .kget d a => infKget d a
  | .brk _ => { pipe := .s, base := false }
  | .dbgHalt d a => infDbg d a false
  | .dbgResume d a => infDbg d a false
  | .dbgStep d a => infDbg d a false
  | .dbgRdpc d a => infDbg d a false
  | .dbgWatch d a => infDbg d a true
  | .dbgHalted d a => infDbg d a false
  | .tret => infTret
  | .tretSkip => infTret
  | .tretExit => infTret
  | .tretTo a => infTretTo a
  | .addI32 d a b => infV3 .v 1 1 1 d a b
  | .subI32 d a b => infV3 .v 1 1 1 d a b
  | .andB32 d a b => infV3 .v 1 1 1 d a b
  | .orB32 d a b => infV3 .v 1 1 1 d a b
  | .xorB32 d a b => infV3 .v 1 1 1 d a b
  | .andnB32 d a b => infV3 .v 1 1 1 d a b
  | .sllB32 d a b => infV3 .v 1 1 1 d a b
  | .srlB32 d a b => infV3 .v 1 1 1 d a b
  | .sraB32 d a b => infV3 .v 1 1 1 d a b
  | .minI32 d a b => infV3 .v 1 1 1 d a b
  | .maxI32 d a b => infV3 .v 1 1 1 d a b
  | .minN32 d a b => infV3 .v 1 1 1 d a b
  | .maxN32 d a b => infV3 .v 1 1 1 d a b
  | .addsI32 d a b => infV3 .v 1 1 1 d a b
  | .subsI32 d a b => infV3 .v 1 1 1 d a b
  | .selB32 d p b => infSel d p b
  | .addI32Imm d a _ => infV2 .v 1 1 d a
  | .andB32Imm d a _ => infV2 .v 1 1 d a
  | .orB32Imm d a _ => infV2 .v 1 1 d a
  | .xorB32Imm d a _ => infV2 .v 1 1 d a
  | .sllB32Imm d a _ _ => infV2 .v 1 1 d a
  | .srlB32Imm d a _ _ => infV2 .v 1 1 d a
  | .sraB32Imm d a _ _ => infV2 .v 1 1 d a
  | .rorB32Imm d a _ _ => infV2 .v 1 1 d a
  | .movB32Imm d _ => infVD d
  | .mulB32 d a b => infV3 .v 1 1 1 d a b
  | .mulhI32 d a b => infV3 .v 1 1 1 d a b
  | .mulhN32 d a b => infV3 .v 1 1 1 d a b
  | .madB32 d a b => infV4 .v 1 1 1 d a b
  | .divI32 d a b => infV3 .v 1 1 1 d a b
  | .divN32 d a b => infV3 .v 1 1 1 d a b
  | .remI32 d a b => infV3 .v 1 1 1 d a b
  | .remN32 d a b => infV3 .v 1 1 1 d a b
  | .mulwI32 d a b => infV3 .v 2 1 1 d a b
  | .mulwN32 d a b => infV3 .v 2 1 1 d a b
  | .madwN32 d a b => infV4 .v 2 1 1 d a b
  | .dp4I8 d a b => infV4 .v 1 1 1 d a b
  | .dp4N8 d a b => infV4 .v 1 1 1 d a b
  | .laneCompare p a b _ => infVP 1 p a b
  | .laneCompareImm _ p a _ => infVPI p a
  | .bcastB32 d a => infBcast 1 d a
  | .bcastB64 d a => infBcast 2 d a
  | .rdlN32 d a b => infRdl 1 d a b
  | .rdlI32 d a b => infRdl 1 d a b
  | .rdlB64 d a b => infRdl 2 d a b
  | .wrlB32 d a b => infWrl d a b
  | .movB32 d a => infV2 .v 1 1 d a
  | .movB64 d a => infV2 .v 2 2 d a
  | .pgetB32 d p => infPget d p
  | .popcB32 d a => infV2 .v 1 1 d a
  | .clzB32 d a => infV2 .v 1 1 d a
  | .ctzB32 d a => infV2 .v 1 1 d a
  | .brevB32 d a => infV2 .v 1 1 d a
  | .bswapB32 d a => infV2 .v 1 1 d a
  | .bextN32 d a b => infV3 .v 1 1 1 d a b
  | .bextI32 d a b => infV3 .v 1 1 1 d a b
  | .binsB32 d a b => infV4 .v 1 1 1 d a b
  | .addF32 d a b => infV3 .v 1 1 1 d a b
  | .subF32 d a b => infV3 .v 1 1 1 d a b
  | .mulF32 d a b => infV3 .v 1 1 1 d a b
  | .divF32 d a b => infV3 .v 1 1 1 d a b
  | .sqrtF32 d a => infV2 .v 1 1 d a
  | .minF32 d a b => infV3 .v 1 1 1 d a b
  | .maxF32 d a b => infV3 .v 1 1 1 d a b
  | .minnF32 d a b => infV3 .v 1 1 1 d a b
  | .maxnF32 d a b => infV3 .v 1 1 1 d a b
  | .absF32 d a => infV2 .v 1 1 d a
  | .negF32 d a => infV2 .v 1 1 d a
  | .csgnF32 d a b => infV3 .v 1 1 1 d a b
  | .classF32 d a => infV2 .v 1 1 d a
  | .compareF32 _ p a b => infVP 1 p a b
  | .rintF32 d a _ => infV2 .v 1 1 d a
  | .sclF32 d a b => infV3 .v 1 1 1 d a b
  | .addF64 d a b => infV3 .v 2 2 2 d a b
  | .subF64 d a b => infV3 .v 2 2 2 d a b
  | .mulF64 d a b => infV3 .v 2 2 2 d a b
  | .divF64 d a b => infV3 .v 2 2 2 d a b
  | .sqrtF64 d a => infV2 .v 2 2 d a
  | .minF64 d a b => infV3 .v 2 2 2 d a b
  | .maxF64 d a b => infV3 .v 2 2 2 d a b
  | .minnF64 d a b => infV3 .v 2 2 2 d a b
  | .maxnF64 d a b => infV3 .v 2 2 2 d a b
  | .absF64 d a => infV2 .v 2 2 d a
  | .negF64 d a => infV2 .v 2 2 d a
  | .csgnF64 d a b => infV3 .v 2 2 2 d a b
  | .classF64 d a => infV2 .v 1 2 d a
  | .compareF64 _ p a b => infVP 2 p a b
  | .rintF64 d a _ => infV2 .v 2 2 d a
  | .sclF64 d a b => infV3 .v 2 2 1 d a b
  | .addF16 d a b => infV3 .v 1 1 1 d a b
  | .subF16 d a b => infV3 .v 1 1 1 d a b
  | .mulF16 d a b => infV3 .v 1 1 1 d a b
  | .minF16 d a b => infV3 .v 1 1 1 d a b
  | .maxF16 d a b => infV3 .v 1 1 1 d a b
  | .add2F16 d a b => infV3 .v 1 1 1 d a b
  | .sub2F16 d a b => infV3 .v 1 1 1 d a b
  | .mul2F16 d a b => infV3 .v 1 1 1 d a b
  | .addBf16 d a b => infV3 .v 1 1 1 d a b
  | .subBf16 d a b => infV3 .v 1 1 1 d a b
  | .mulBf16 d a b => infV3 .v 1 1 1 d a b
  | .minBf16 d a b => infV3 .v 1 1 1 d a b
  | .maxBf16 d a b => infV3 .v 1 1 1 d a b
  | .add2Bf16 d a b => infV3 .v 1 1 1 d a b
  | .sub2Bf16 d a b => infV3 .v 1 1 1 d a b
  | .mul2Bf16 d a b => infV3 .v 1 1 1 d a b
  | .fmaF32 d a b => infV4 .v 1 1 1 d a b
  | .fmsF32 d a b => infV4 .v 1 1 1 d a b
  | .fnmaF32 d a b => infV4 .v 1 1 1 d a b
  | .fnmsF32 d a b => infV4 .v 1 1 1 d a b
  | .fmaF64 d a b => infV4 .v 2 2 2 d a b
  | .fmsF64 d a b => infV4 .v 2 2 2 d a b
  | .fnmaF64 d a b => infV4 .v 2 2 2 d a b
  | .fnmsF64 d a b => infV4 .v 2 2 2 d a b
  | .fmaF16 d a b => infV4 .v 1 1 1 d a b
  | .fnmaF16 d a b => infV4 .v 1 1 1 d a b
  | .fma2F16 d a b => infV4 .v 1 1 1 d a b
  | .fnma2F16 d a b => infV4 .v 1 1 1 d a b
  | .fmaBf16 d a b => infV4 .v 1 1 1 d a b
  | .fnmaBf16 d a b => infV4 .v 1 1 1 d a b
  | .fma2Bf16 d a b => infV4 .v 1 1 1 d a b
  | .fnma2Bf16 d a b => infV4 .v 1 1 1 d a b
  | .cvt d a _ _ t u => infV2 .t (cvtRegs u) (cvtRegs t) d a
  | .cvtE4m3F32 d a b => infV4 .t 1 1 1 d a b
  | .cvthiE4m3F32 d a b => infV4 .t 1 1 1 d a b
  | .cvtE5m2F32 d a b => infV4 .t 1 1 1 d a b
  | .cvthiE5m2F32 d a b => infV4 .t 1 1 1 d a b
  | .cvtE4m3F32Sat d a b => infV4 .t 1 1 1 d a b
  | .cvthiE4m3F32Sat d a b => infV4 .t 1 1 1 d a b
  | .cvtE5m2F32Sat d a b => infV4 .t 1 1 1 d a b
  | .cvthiE5m2F32Sat d a b => infV4 .t 1 1 1 d a b
  | .cvtF32E4m3 d a _ => infV2 .t 1 1 d a
  | .cvtF32E5m2 d a _ => infV2 .t 1 1 d a
  | .cvt2Bf16E4m3 d a _ => infV2 .t 1 1 d a
  | .cvt2Bf16E5m2 d a _ => infV2 .t 1 1 d a
  | .qsc d a t => if t = 3#2 then infW3 (infV2 .t 1 1 d a) else infV2 .t 1 1 d a
  | .cvtW4F32 d a b => infV3 .t 1 1 1 d a b
  | .cvtW3F32 d a b => infW3 (infV3 .t 1 1 1 d a b)
  | .cvtF32W4 d a b => infV3 .t 1 1 1 d a b
  | .rcp d a => infV2 .t 1 1 d a
  | .rsqrt d a => infV2 .t 1 1 d a
  | .sfsqrt d a => infV2 .t 1 1 d a
  | .exp2 d a => infV2 .t 1 1 d a
  | .log2 d a => infV2 .t 1 1 d a
  | .sinpi d a => infV2 .t 1 1 d a
  | .cospi d a => infV2 .t 1 1 d a
  | .exp d a => infV2 .t 1 1 d a
  | .sincospi d a => infV2 .t 2 1 d a
  | .clmulB32 d a b => infV3 .t 1 1 1 d a b
  | .clmulhB32 d a b => infV3 .t 1 1 1 d a b
  | .clmulwB32 d a b => infV3 .t 2 1 1 d a b
  | .clmulB64 d a b => infV3 .t 2 2 2 d a b
  | .clmulhB64 d a b => infV3 .t 2 2 2 d a b
  | .clmulwB64 d a b => infV3 .t 4 2 2 d a b
  | .clmulrB32 d a b => infV3 .t 1 1 1 d a b
  | .clmulrB64 d a b => infV3 .t 2 2 2 d a b
  | .xchAtB32 d a b => infV3 .t 1 1 1 d a b
  | .xchLoB32 d a _ => infV2 .t 1 1 d a
  | .xchHiB32 d a _ => infV2 .t 1 1 d a
  | .xchFlipB32 d a _ => infV2 .t 1 1 d a
  | .xchAtB64 d a b => infV3 .t 2 2 1 d a b
  | .xchLoB64 d a _ => infV2 .t 2 2 d a
  | .xchHiB64 d a _ => infV2 .t 2 2 d a
  | .xchFlipB64 d a _ => infV2 .t 2 2 d a
  | .lall d a => infTest d a
  | .lany d a => infTest d a
  | .lsameB32 d a => infSame d a
  | .lmaskB32 d a => infMask d a
  | .scan d a p o => infScan d a p o
  | .scanx d a p o => infScan d a p o
  | .red d a p o => infScan d a p o
  | .tput a p o => infTput a p o
  | .tget d o => infTget d o
  | .ldN8 t b x y o _ => infLd 1 1 t b x y o
  | .ldI8 t b x y o _ => infLd 1 1 t b x y o
  | .ldN16 t b x y o _ => infLd 1 2 t b x y o
  | .ldI16 t b x y o _ => infLd 1 2 t b x y o
  | .ldB32 t b x y o _ => infLd 1 4 t b x y o
  | .ldB64 t b x y o _ => infLd 2 8 t b x y o
  | .ldB128 t b x y o _ => infLd 4 16 t b x y o
  | .stB8 t b x y o _ => infSt 1 1 t b x y o
  | .stB16 t b x y o _ => infSt 1 2 t b x y o
  | .stB32 t b x y o _ => infSt 1 4 t b x y o
  | .stB64 t b x y o _ => infSt 2 8 t b x y o
  | .stB128 t b x y o _ => infSt 4 16 t b x y o
  | .ldScalar t b _ d => infLdS t b d
  | .stScalar t b _ d => infStS t b d
  | .atomAdd d a _ _ w => infAtom d a (atomWidth w) (atomWidth w) .ld
  | .atomMinI d a _ _ w => infAtom d a (atomWidth w) (atomWidth w) .ld
  | .atomMaxI d a _ _ w => infAtom d a (atomWidth w) (atomWidth w) .ld
  | .atomMinN d a _ _ w => infAtom d a (atomWidth w) (atomWidth w) .ld
  | .atomMaxN d a _ _ w => infAtom d a (atomWidth w) (atomWidth w) .ld
  | .atomAnd d a _ _ w => infAtom d a (atomWidth w) (atomWidth w) .ld
  | .atomOr d a _ _ w => infAtom d a (atomWidth w) (atomWidth w) .ld
  | .atomXor d a _ _ w => infAtom d a (atomWidth w) (atomWidth w) .ld
  | .atomExch d a _ _ w => infAtom d a (atomWidth w) (atomWidth w) .ld
  | .atomCas d a _ _ w => infAtom d a (2 * atomWidth w) (atomWidth w) .ld
  | .atomAddF d a _ _ w => infAtom d a (atomWidth w) (atomWidth w) .ld
  | .ldo d a _ _ w => infAtom d a 0 (atomWidth w) .ld
  | .sto d a _ _ w => infAtom d a (atomWidth w) 0 .st
  | .rfarAddI32 a b => infRfar 1 a b
  | .rfarAddI64 a b => infRfar 2 a b
  | .rfarMinI32 a b => infRfar 1 a b
  | .rfarMaxI32 a b => infRfar 1 a b
  | .rfarMinN32 a b => infRfar 1 a b
  | .rfarMaxN32 a b => infRfar 1 a b
  | .rfarAndB32 a b => infRfar 1 a b
  | .rfarOrB32 a b => infRfar 1 a b
  | .rfarXorB32 a b => infRfar 1 a b
  | .rfarAddF32 a b => infRfar 1 a b
  | .rfarAddF64 a b => infRfar 2 a b
  | .rfarMinF32 a b => infRfar 1 a b
  | .rfarMaxF32 a b => infRfar 1 a b
  | .repOpen a => infAddr a .none
  | .repFlush => inf0 .m
  | .repClose => { inf0 .m with counter := .st }
  | .damTake d a _ => infAddrD d a .none
  | .damChk d a => infAddrD d a .none
  | .damEnd d a => infAddrD d a .none
  | .warm a b => { infAddr a .st with reads := [.s a.toNat, .s b.toNat] }
  | .warr d a _ _ => infAddrD d a .ld
  | .wwait _ a b => { infAddr a .none with reads := [.s a.toNat, .s b.toNat] }
  | .wprobe d a _ => infAddrD d a .ld
  | .fenceAcq _ => inf0 .m
  | .fenceRel _ => inf0 .m
  | .fenceFull _ => inf0 .m
  | .cctlL1b a => infAddr a .none
  | .cctlL1all => inf0 .m
  | .cctlWbl d a => infAddrD d a .ld
  | .cctlWbf d a => infAddrD d a .ld
  | .cctlRel d a => { infAddrD d a .ld with need := .prv 1 }
  | .pinReload d a => infAddrD d a .ld
  | .pinEnd d a => infAddrD d a .ld
  | .pinSet d a => { infAddrD d a .ld with need := .prv 1 }
  | .pinClr d a => { infAddrD d a .ld with need := .prv 1 }
  | .cptCopy d a b => infCptCopy d a b
  | .cptLtab a b => infCpt [.s a.toNat, .s b.toNat] [] .none []
  | .cptBind d a => infCpt [.s a.toNat] [.s d.toNat] .none []
  | .cptAdv d a => infCpt [.s a.toNat] [.s d.toNat] .cp []
  | .cptRel d a => infCpt [.s a.toNat] [.s d.toNat] .none []
  | .cptRes d a _ => infCpt [.s a.toNat, .s d.toNat] [.s d.toNat] .none []
  | .mma _ _ _ a b => infMx [.v a.toNat 4, .v b.toNat 4] [] .mx [.v a.toNat 1, .v (a.toNat + 1) 1, .v (a.toNat + 2) 1, .v (a.toNat + 3) 1] [.v a.toNat 4]
  | .mld _ a => infMx [.s a.toNat] [] .mx [] [.s a.toNat]
  | .mst _ _ a b => infMx [.s a.toNat, .s b.toNat] [] .mx [] [.s a.toNat, .s b.toNat]
  | .mqst _ _ a b => infMx [.s a.toNat, .s b.toNat] [] .mx [] [.s a.toNat, .s b.toNat]
  | .mcb a => infMx [.s a.toNat] [] .mx [] [.s a.toNat]
  | .mxst d => infMx [] [.s d.toNat] .none [] []
  | .mxstClr d => infMx [] [.s d.toNat] .none [] []
  | .fqePf d a => infFqe d a .none
  | .fqeSync d a => infFqe d a .none
  | .fqeSub d a => { infFqe d a .ld with need := .prv 1 }
  | .wfork d a => infWorld [.s a.toNat] d
  | .wenter d a => infWorld [.s a.toNat] d
  | .wleave d => infWorld [] d
  | .wchoose d a => infWorld [.s a.toNat] d
  | .wstat d a => infWorld [.s a.toNat] d
  | .wwho d => infWorld [] d

end Sys2Proof.Machine
end

