-- ==== Sys2Proof/Machine/Chain.lean ====
section
/-! DEFINITION. A chain: its words in the packet, its checks, its words' effects as one unit, and what follows it: the
advance of `pcv`, rotation, single step (R20, R37, R42 to R51, R56, R135 to R145, R197, R401, R411, R415). Every
definition that performs words takes the meaning of an instruction as its argument; Machine/Step.lean gives it `exec`. -/

namespace Sys2Proof.Machine

/-- An outcome goes on with `f` where it is a next state. -/
def andThen {α β : Type} (o : Host.Outcome α Fault Refusal) (f : α → Host.Outcome β Fault Refusal) :
    Host.Outcome β Fault Refusal :=
  match o with
  | .next s => f s
  | .fault r => .fault r
  | .refused r => .refused r

/-! ### The words of a packet (R37, R42, R43, R48) -/

/-- Word in a slot. -/
def Packet.word (p : Packet) : Nat → Word
  | 0 => p.w0
  | 1 => p.w1
  | _ => p.w2

/-- The word that would be the literal of a slot's word. -/
def Packet.lit (p : Packet) (i : Nat) : Option Word := if 2 ≤ i then none else some (p.word (i + 1))

/-- Whether a slot's word takes the next one as its literal (R41, R42). -/
def Packet.takesLit (p : Packet) (i : Nat) : Bool := i < 2 && wordTakesLit (p.word i)

/-- Whether a slot holds a literal word, found by decoding from slot 0 (R42). -/
def Packet.isLit (p : Packet) : Nat → Bool
  | 0 => false
  | 1 => p.takesLit 0
  | _ => !p.takesLit 0 && p.takesLit 1

/-- A word of a chain: its `pcv`, the word, and its instruction or the reason of R55. -/
structure ChainWord where
  pc : Word
  word : Word
  d : Except Nat Instr

/-- The slot past a word and its literal. -/
def Packet.after (p : Packet) (i : Nat) : Nat := if p.takesLit i then i + 2 else i + 1

/-- The word of a slot. -/
noncomputable def Packet.chainWord (p : Packet) (i : Nat) : ChainWord :=
  ⟨mkPc p.idx i, p.word i, (decodeWord (p.word i) (p.lit i)).map Decoded.instr⟩

/-- The words from slot `i` to the end of their chain, the slot past it, and whether it would leave the packet. -/
noncomputable def Packet.chainFrom (p : Packet) : Nat → Nat → List ChainWord × Nat × Bool
  | 0, i => ([], i, false)
  | n + 1, i =>
    let j := p.after i
    if (p.word i).getLsbD 31 then
      if 2 < j then ([p.chainWord i], j, true)
      else
        let r := p.chainFrom n j
        (p.chainWord i :: r.1, r.2)
    else ([p.chainWord i], j, false)

/-- Whether a word is a `pblk` (R49, R53). -/
def isPblk (w : Word) : Bool := w.extractLsb' 25 6 == 0x3C#6

/-- The pipe of a word, which its major fixes (R38, R53). -/
def pipeOf (w : Word) : Pipe :=
  let m := (w.extractLsb' 25 6).toNat
  if 0x01 ≤ m ∧ m ≤ 0x0F then .s
  else if 0x10 ≤ m ∧ m ≤ 0x1F then .v
  else if 0x20 ≤ m ∧ m ≤ 0x25 then .t
  else if 0x28 ≤ m ∧ m ≤ 0x3B then .m
  else .none

def ChainWord.info (c : ChainWord) : Option Info :=
  match c.d with
  | .ok i => some (infoOf i)
  | .error _ => none

/-- Two registers overlap (R45). -/
def Reg.overlaps : Reg → Reg → Bool
  | .v a w, .v b x => a < b + x && b < a + w
  | .s a, .s b => a == b
  | .p a, .p b => a == b
  | .k a, .k b => a == b
  | .m a, .m b => a == b
  | _, _ => false

/-- Two words share a pipe (R44). -/
def sharePipe : List ChainWord → Bool
  | [] => false
  | c :: r => (pipeOf c.word != .none && r.any (fun x => pipeOf x.word == pipeOf c.word)) || sharePipe r

def ChainWord.writes (c : ChainWord) : List Reg := (c.info.map Info.writes).getD []

/-- Two words write one register (R45). -/
def shareWrite : List ChainWord → Bool
  | [] => false
  | c :: r => c.writes.any (fun a => r.any (fun x => x.writes.any (fun b => a.overlaps b))) || shareWrite r

/-- Reason 8 of a chain: a `pblk` in it that does not stand alone, with C = 0 (R44). -/
def pblkInChain (cs : List ChainWord) : Bool :=
  cs.any (fun c => isPblk c.word && (c.word.getLsbD 31 || 1 < cs.length))

/-- Reasons 4 to 6, reported at the first word (R43 to R45). -/
def chainReason (cs : List ChainWord) (cross : Bool) : Option Nat :=
  if cross then some 4 else if sharePipe cs then some 5 else if shareWrite cs then some 6 else none

/-- Reasons 9 and 10 of the word at place `j` of an issue with block state `b` (R50). -/
def blockReason (b : Blk) (j : Nat) (c : ChainWord) : Option Nat :=
  if j < b.left ∧ isPblk c.word then some 9
  else if j + 1 < b.left ∧ (c.info.map Info.control).getD false then some 10
  else none

/-- The guard of the word at place `j` of an issue (R49). -/
def Blk.guard (b : Blk) (j : Nat) : Bool := if j < b.left then (if b.pat.getLsbD j then b.mask else !b.mask) else true

/-! ### The issue's view of one word -/

/-- Block state of the issue set (R135). -/
def State.setBlkOf (s : State) : Blk := s.g.blkOf (lowestLane s.iss.set)

/-- The word at place `j` is at hand. -/
def State.atWord (s : State) (b : Blk) (j : Nat) (c : ChainWord) : State :=
  s.setIss (fun i => { i with pc := c.pc, word := c.word, eff := if b.guard j then i.set else 0 })

/-- The reason of a word that names no instruction (R55). -/
def ChainWord.reason (c : ChainWord) : Option Nat :=
  match c.d with
  | .error r => some r
  | .ok _ => none

/-- The static checks of a word (R56 steps 2 to 5); those of the chain stand at its first word. A word without effect in
any lane raises no trap (R49), nor does a chain whose words all lack effect. -/
def State.checkWord (s : State) (cs : List ChainWord) (cross : Bool) (b : Blk) (j : Nat) (c : ChainWord) : Option TrapReq :=
  let s := s.atWord b j c
  let on (x : Option Nat) : Option Nat := if s.iss.eff = 0 then none else x
  let first (x : Option Nat) : Option Nat := if j = 0 ∧ (List.range cs.length).any b.guard then x else none
  match [on c.reason, first (if pblkInChain cs then some 8 else none), on (c.info.bind (fun i => i.unavailable s)),
      first (chainReason cs cross), on (blockReason b j c)].findSome? id with
  | some r => some (s.ill r)
  | none => if s.iss.eff = 0 then none else c.info.bind (fun i => i.operandTrap s)

/-- Words with their places. -/
def placed (cs : List ChainWord) : List (Nat × ChainWord) := (List.range cs.length).zip cs

/-- The first static trap of a chain, with its word. -/
def State.checkChain (s : State) (cs : List ChainWord) (cross : Bool) (b : Blk) : Option (ChainWord × TrapReq) :=
  (placed cs).findSome? (fun e => (s.checkWord cs cross b e.1 e.2).map (fun t => (e.2, t)))

/-- Some word of the chain must wait (R28, R29, R45). -/
def State.chainStalls (s : State) (cs : List ChainWord) (b : Blk) : Bool :=
  (placed cs).any (fun e => b.guard e.1 && (e.2.info.map (fun i => i.stalls (s.atWord b e.1 e.2))).getD false)

/-- The pair whose guards differ (R411): its even lane. -/
def State.guardMismatch (s : State) : Option Nat :=
  if !s.g.r.prot then none
  else pairDiffer s.iss.set (fun l => (s.g.blkOf l).mask)

/-! ### The chain as one unit (R45 to R47, R138 to R142) -/

/-- The chain is undone; free values drawn stay drawn. -/
def State.undo (s t : State) : State := { s with free := t.free, ids := t.ids }

/-- Performs words in turn, as far as one traps, stalls, mismatches or makes lanes leave the chain. -/
def runWords (ex : Instr → State → Out) (b : Blk) : List (Nat × ChainWord) → State → Out
  | [], s => .next s
  | (j, c) :: r, s =>
    match c.d with
    | .error _ => .next s
    | .ok i =>
      andThen (ex i (s.atWord b j c)) (fun t =>
        if t.iss.trap.isSome || t.iss.stalled || t.iss.mism.isSome || t.iss.parked != s.iss.parked then .next t
        else runWords ex b r t)

/-- The words in the order in which they act: a transfer of control after the others (R46). -/
def actOrder (cs : List ChainWord) : List (Nat × ChainWord) :=
  let ctl (e : Nat × ChainWord) : Bool := (e.2.info.map Info.control).getD false
  (placed cs).filter (fun e => !ctl e) ++ (placed cs).filter ctl

/-- Lanes that left the chain of several words stay out, and what their leaving did stands; the others issue again. -/
def State.without (s t : State) : State :=
  let m := t.iss.parked
  let back (g : Group) (l : Nat) : Group :=
    { g with lsv := mapSet .exited g.lsv l (t.g.lane l), pcv := mapSet 0 g.pcv l (t.g.pc l),
             parkEnd := mapSet none g.parkEnd l (mapGet none t.g.parkEnd l) }
  let s := (s.undo t).setG (fun g => { g.eachLane m back with watchPass := t.g.watchPass })
  let s := s.setTeam s.g.team (fun x => { x with mbox := ((t.team s.g.team).map Team.mbox).getD x.mbox })
  { s with reqs := t.reqs, items := t.items, iss := { s.iss with set := s.iss.set &&& ~~~m } }

/-- How the words of a chain ended. -/
inductive Ran where
  | done (s : State)
  | stalled (s : State)
  | trapped (s : State)
  | mism (s : State) (l : Nat) (aux : DWord)

/-- The trap of the lowest-slot word that raises one (R47): a transfer acts last but may stand before the word that
trapped. -/
def State.firstTrap (ex : Instr → State → Out) (s : State) (b : Blk) (cs : List ChainWord) (t : TrapReq) (at_ : Word) :
    TrapReq × Word :=
  let early := (placed cs).find? (fun e => (e.2.info.map Info.control).getD false && e.2.pc.toNat < at_.toNat)
  match early with
  | none => (t, at_)
  | some (j, c) =>
    match c.d with
    | .error _ => (t, at_)
    | .ok i =>
      match ex i (s.atWord b j c) with
      | .next u => (match u.iss.trap with
        | some x => (x, c.pc)
        | none => (t, at_))
      | _ => (t, at_)

/-- The trap of a chain of several words: the traps of all its words are looked for before any lane parks or halts (R47,
R401 step 3). -/
def State.chainTrap (ex : Instr → State → Out) (s : State) (b : Blk) (cs : List ChainWord) : Option (TrapReq × Word) :=
  match runWords ex b (actOrder cs) (s.setIss (fun i => { i with probe := true })) with
  | .next t => t.iss.trap.map (fun x => State.firstTrap ex s b cs x t.iss.pc)
  | _ => none

/-- A chain of several words: all sources are read before any word writes (R45); on a trap none has effect (R47). -/
def runMany (ex : Instr → State → Out) (b : Blk) (cs : List ChainWord) :
    Nat → State → Host.Outcome Ran Fault Refusal
  | 0, s => .next (.done s)
  | n + 1, s =>
    if s.iss.set = 0 then .next (.done s)
    else
      let s1 := s.setIss (fun i => { i with pre := some s.g.r, opcnt := some s.g.opcnt })
      match s1.chainTrap ex b cs with
      | some (x, pc) => .next (.trapped ((s.setIss (fun i => { i with pc := pc })).trap x))
      | none =>
        andThen (runWords ex b (actOrder cs) s1) (fun t =>
          if t.iss.stalled then .next (.stalled (s.undo t))
          else
            match t.iss.mism with
            | some (l, aux) => .next (.mism (s.undo t) l aux)
            | none => if t.iss.parked != 0#32 then runMany ex b cs n (s.without t) else .next (.done t))

/-- A chain of one word. -/
def runOne (ex : Instr → State → Out) (b : Blk) (c : ChainWord) (s : State) : Host.Outcome Ran Fault Refusal :=
  match c.d with
  | .error _ => .next (.done s)
  | .ok i =>
    andThen (ex i (s.atWord b 0 c)) (fun t =>
      if t.iss.stalled then .next (.stalled (s.undo t))
      else
        match t.iss.mism with
        | some (l, aux) => .next (.mism (s.undo t) l aux)
        | none => if t.iss.trap.isSome then .next (.trapped t) else .next (.done t))

/-- A mismatch of a lane pair (R408, R411): a record, and the replay of the launch or the end of the team. -/
def State.mismatch (s : State) (l : Nat) (aux : DWord) : State :=
  let rp := s.replayFlags s.gid 13 s.g.home
  let s := s.writeRec s.g.tile { s.recOf s.gid 7 3 with
    flags := (rp.map (·.2)).getD 0, pcv := s.iss.chainPc.toNat, lanes := (laneBit l ||| laneBit (l + 1)).toNat, aux := aux.toNat }
  match rp with
  | some (gr, _) => s.callReplay gr 13 s.g.home
  | none => s.failTeam s.g.team

/-! ### After the chain -/

/-- Backward transfers and quanta (R145). `g` is the group before the chain, `ctl` the `pcv` of the chain's transfer. LIVE
lanes that a handler suspends do not count as lanes outside the issue set (DESIGN CHOICE, log 48). -/
def Group.rotate (h g : Group) (set set0 : Word) (moved : Word) (ctl : Option Word) : Group :=
  if g.quantum != 0 then
    let h := { h with quantum := g.quantum - 1 }
    if g.quantum = 1 then { h with qmask := 0 } else h
  else
    let live := g.lanesIn .live
    let live := if g.save.isSome then live &&& g.hlanes else live
    let back : Bool := match ctl with
      | none => false
      | some pc => (lanesOf (set &&& moved)).any (fun l => h.lane l == .live && (h.pc l).toNat ≤ pc.toNat)
    let returned := g.save.isSome && h.save.isNone
    if live &&& ~~~set0 = 0 then { h with btc := 0 }
    else if back && !returned then { h with btc := g.btc + 1 } else h

/-- A step halt after the issue (R23, R415). -/
def State.stepHalt (s : State) (set : Word) : State :=
  let live := maskOf (fun l => s.g.laneAt l == .live)
  let s := s.setG (fun g => g.eachLane live (fun g l => g.putLane l .halted))
  if s.g.isCompute then s.postDebug s.g.team 2 s.g.grp 0 set else s

/-- The end of an issued chain of `n` counted words: lanes that no word moved advance to `next`, or, at the end of the
last packet, take the bad-PC trap with the `pcv` of the last word (R20); then what belongs to the issue as a whole.
`s` is the state before the chain. A lane that parked or halted has been in the issue set (R142, R145); a chain that had no
effect in any lane is no step (R23). -/
def State.retire (t s : State) (n : Nat) (next last : Word) (ends : Bool) (ctl : Option Word) : State :=
  let set := t.iss.set &&& ~~~t.iss.parked
  let set0 := s.iss.set
  let adv := t.iss.set &&& ~~~t.iss.moved
  let t := t.setR (fun r =>
    let r := r.raise t.iss.raised
    if t.iss.unif then r.setUnifFl else r)
  let t := t.setG (fun g => g.eachLane adv (fun g l => (g.setPc l (if ends then last else next)).setBlk l ((g.blkOf l).past n)))
  let num := s.g.issueNo + 1
  let step := (s.g.r.sstep || s.g.stepArmed) && set != 0#32
  let late := if ends && adv != 0#32 then some (adv, last) else t.iss.late
  let t := t.setG (fun h =>
    { (h.rotate s.g set set0 t.iss.moved ctl) with
      issueNo := num,
      lastIssue := (lanesOf set0).foldl (fun m l => mapSet 0 m l num) h.lastIssue,
      lastSet := set0,
      preBlk := (match h.hold with
        | .wwait _ _ _ _ | .dam _ _ _ _ | .leave _ _ => s.g.blk
        | _ => []),
      watchPass := h.watchPass &&& ~~~set,
      stepArmed := if step && s.g.stepArmed then false else h.stepArmed,
      pkt := if t.iss.moved == 0#32 && pcPacket next == pcPacket t.iss.chainPc && !ends then h.pkt else none })
  let t := if step then t.stepHalt set else t
  match late with
  | some (m, pc) => (t.badPcEnd m pc).endIssue
  | none => t.endIssue

/-! ### The issue of one group, and of a unit -/

/-- What the attempt to issue a group came to: the pipes it used, or `none` where no chain issued: it had to wait, its
lanes park on the fetch, or a trap came before it, and other groups are tried in the same cycle (R197, R198). -/
abbrev Tried := Host.Outcome (State × Option (List Pipe)) Fault Refusal

/-- Performs the chain of the issue begun, if it can issue beside the pipes `busy` (R197, R401 steps 3 to 5). -/
noncomputable def State.tryChain (ex : Instr → State → Out) (busy : List Pipe) (s : State) : Tried :=
  match s.g.pkt with
  | none => .next (s.endIssue, none)
  | some p =>
    if s.iss.set = 0 then .next (s.endIssue, none)
    else if p.isLit (pcSlot s.iss.pc) then .next (((s.trap (s.trapOf 4 s.iss.pc.toNat 0 0 0)).touch).endIssue, none)
    else
      let (cs, j, cross) := p.chainFrom 3 (pcSlot s.iss.pc)
      let pipes := (cs.map (fun c => pipeOf c.word)).filter (fun x => x != .none && x != .v)
      if pipes.any busy.contains then .next (s.endIssue, none)
      else
        let b := s.setBlkOf
        let next := if j ≤ 2 then mkPc p.idx j else mkPc (p.idx + 1) 0
        let n := (cs.filter (fun c => !isPblk c.word)).length
        let last := (cs.getLast?.map ChainWord.pc).getD s.iss.pc
        let ends := 2 < j && p.idx + 1 == 2 ^ 30
        let past : Past := ⟨if ends then last else next, n, ends⟩
        let ctl := (cs.find? (fun c => (c.info.map Info.control).getD false)).map ChainWord.pc
        let s := s.setIss (fun i => { i with next := next, skip := some past })
        match s.checkChain cs cross b with
        | some (c, t) =>
          .next (((s.setIss (fun i => { i with pc := c.pc, word := c.word })).trap t).touch.endIssue, some pipes)
        | none =>
          if s.chainStalls cs b then .next (s.endIssue, none)
          else
            match s.guardMismatch with
            | some l => .next ((s.mismatch l 0).touch.endIssue, some pipes)
            | none =>
              let s0 := (s.payDebts s.gid).touch
              andThen (match cs with
                | [c] => runOne ex b c s0
                | _ => runMany ex b cs 33 s0) (fun r =>
                match r with
                | .stalled t => .next ((s.undo t).endIssue, none)
                | .trapped t => .next ((t.setG (fun g => { g with pkt := none })).endIssue, some pipes)
                | .mism t l aux => .next ((t.mismatch l aux).endIssue, some pipes)
                | .done t => .next (t.retire s0 n next last ends ctl, some pipes))

/-- Tries groups in their order until one issues (R197). -/
noncomputable def tryGroups (ex : Instr → State → Out) (u : Nat) (busy : List Pipe) : List Nat → State → Tried
  | [], s => .next (s, none)
  | k :: r, s =>
    if !(s.readyOf u).any (fun e => e.1 == k) then tryGroups ex u busy r s
    else
    andThen (State.tryChain ex busy (s.beginIssue u k)) (fun x =>
      match x.2 with
      | some ps => .next (x.1, some ps)
      | none => tryGroups ex u busy r x.1)

/-- The second chain of a quarter's cycle, which it may issue (R197): none from a group that owes a ready group an issue
(R179). -/
noncomputable def State.secondChain (ex : Instr → State → Out) (u : Nat) (first : Nat) (pipes : List Pipe) (s : State) : Out :=
  let ks := (s.candidates u).filter (fun k => k != first && !s.owes u k)
  if 4096 ≤ u || ks.isEmpty then .next s
  else
    match s.choose 2 with
    | (s, 0) => .next s
    | (s, _) => andThen (tryGroups ex u pipes ks s) (fun x => .next x.1)

/-- The rest of QUARTER_ISSUE once it has begun with its first group: the chain, the groups after it while their chains
must wait, and the second chain. -/
noncomputable def State.finishIssue (ex : Instr → State → Out) (u : Nat) (s : State) : Out :=
  andThen (State.tryChain ex [] s) (fun x =>
    match x.2 with
    | some ps => x.1.secondChain ex u s.gid ps
    | none =>
      andThen (tryGroups ex u [] ((x.1.candidates u).filter (· != s.gid)) x.1) (fun y =>
        match y.2 with
        | some ps => y.1.secondChain ex u y.1.gid ps
        | none => .next y.1))

end Sys2Proof.Machine
end

