-- ==== Sys2Proof/Machine/Enabled.lean ====
section
/-! DEFINITION. What may happen next (log 3): the steps of the agenda first, else any step of an agent that is enabled, at
a free choice; and the passing of time. A step of the list that its own meaning finds not enabled changes nothing. Inputs
from outside (host writes, snoops, losses, resets) stand in the agenda. -/

namespace Sys2Proof.Machine

/-- Units with a group that may issue. -/
def State.issues (s : State) : List Instr :=
  (((s.groups.filter (fun e => s.canIssue e.1 e.2)).map (fun e => unitOf e.1 e.2)).dedup).map Instr.quarterIssue

/-- What may happen to one group. -/
def groupSteps (e : Nat × Group) : List Instr :=
  let (k, g) := e
  (List.range g.loads.length).map (fun i => Instr.loadComplete k i)
    ++ (if g.lsv.any (fun x => x.2 == .joinWait) then [.joinRelease k] else [])
    ++ (if 64 ≤ g.btc then [.rotationQuantum k] else [])
    ++ (if g.isCompute && !g.finished && g.over_ then [.groupFinish k] else [])
    ++ (match g.hold with
      | .none => []
      | .dam _ _ _ _ => [.damGrant k]
      | _ => [.weirWaitEnd k])

/-- Teams, grids, queues and the scheduler. -/
def State.gridSteps (s : State) : List Instr :=
  s.teams.flatMap (fun e => match e.2 with
    | none => []
    | some t =>
      (if t.place == .finished then [.teamRetire e.1] else [])
        ++ (if t.busy = 1 then [.teamSave e.1] else if t.busy = 2 then [.teamResume e.1] else [])
        ++ (if t.running then [.flashSwapOut e.1] else []))
    ++ s.grids.flatMap (fun e => match e.2 with
      | none => []
      | some g =>
        if g.done then []
        else
          [Instr.teamRetire 0] ++ (if g.hasDep && !g.depPassed then [.depWeirObserve e.1] else [])
            ++ (if g.wantReplay then [.replayRestart e.1] else []))
    ++ s.polders.flatMap (fun p => p.2.queues.filterMap (fun q =>
      if q.2.acc != q.2.prod then some (.recordAccept p.1 q.1) else none))
    ++ (match s.schedule with
      | some (.place gr _) => [.teamPlace gr]
      | some (.save gr _) => [.teamPlace gr]
      | some (.resume _ ts _) => ts.head?.toList.map Instr.teamResume
      | none => [])

/-- Translation, fills, write-backs, replies. -/
def State.fillSteps (s : State) : List Instr :=
  s.reqs.flatMap (fun r => match r.state with
    | .fresh => [.l2Miss r.id]
    | .onCow => if r.breaks then [.cowBreak r.id] else []
    | .onPeer _ => [.peerRetry r.id]
    | .onPort p b => [.portFill p (64 * b) (((s.port p).tags + 1) % 2 ^ 16), .portFill p (64 * b) (s.port p).tags]
    | _ => [])
    ++ (s.fills.filter (fun f => f.cmds.isEmpty)).map (fun f => .fillDataLand (f.fk / 2 ^ 20) (f.fk % 2 ^ 20))
    ++ (s.spills.filter (fun p => p.cmds.isEmpty)).flatMap (fun p =>
      [.spillwayWriteBackDone p.id true, .spillwayWriteBackDone p.id false])
    ++ s.invals.flatMap (fun i => (lanesOf i.toStacks).map (fun st => .tableInvalidation i.id st))
    ++ s.items.flatMap (fun i => [.pagerReply i.id, .pagerReplyTimeout i.id])
    ++ s.nvme.flatMap (fun c =>
      [.nvmeCompletion c.id 0, .nvmeCompletion c.id (BitVec.ofNat 16 (Config.choose (s.free + 1))), .nvmeTimeout c.id])
    ++ s.l2.map (fun e => .l2LineEvict (e.1 / 2 ^ 55) (e.1 / 2 ^ 49 % 64) (e.1 % 2 ^ 49))
    ++ s.portCache.map (fun b => .portCacheEvict b.port (64 * b.blk))
    ++ (s.tags.filter (fun t => t.2.state == .draining)).map (fun t => .viewTagFree (t.1 / 64) (t.1 % 64))
    ++ (List.range 4096).flatMap (fun i => match (s.lease i).state with
      | 1 => [Instr.leaseExpiry i]
      | 2 => [Instr.leaseDrainDone i]
      | _ => [])

/-- Stores, orderings, reductions, engines. -/
def State.engineSteps (s : State) : List Instr :=
  s.stores.map (fun x => .storeAck x.id)
    ++ (List.range 32).flatMap (fun d =>
      (if s.watermark d != (s.die d).mark then [Instr.watermarkPublish d] else []) ++ [.signatureSweep d])
    ++ (s.owns.filter (fun o => !o.held)).map (fun o => .ownershipRequest o.id)
    ++ s.dams.map (fun d => .damLeaseExpiry d.id)
    ++ s.contribs.flatMap (fun c => match c.place with
      | .buffered => [.rfarDrain c.core c.quarter]
      | .inFlight => [.rfarStage c.id]
      | _ => [])
    ++ ((List.range s.closings.length).zip s.closings).flatMap (fun e =>
      e.2.slices.map (fun sl => .sliceFold e.1 sl) ++ (if e.2.slices.isEmpty then [.epochClose e.1] else []))
    ++ s.ctxs.flatMap (fun e => match e.2 with
      | none => []
      | some c => [Instr.copyResolve (e.1 / 16) (e.1 % 16)] ++ c.cmds.flatMap (fun q =>
          (List.range q.boxes.length).map (fun b => .copyPiece (e.1 / 16) (e.1 % 16) (64 * q.id + b))))
    ++ s.mu.map (fun e => .muCommandPerform (e.1 / 4) (e.1 % 4))
    ++ s.cbq.map (fun e => .codebookSwitch e.1)
    ++ (s.cores.filter (fun e => e.2.draining)).map (fun e => .shadowBankDrainDone e.1)

/-- Start-up and housekeeping. -/
def State.tileSteps (s : State) : List Instr :=
  (if !s.dev.poweredOn then [.powerOnBoot] else if !s.dev.run then [.run] else [])
    ++ (List.range 8).flatMap (fun t =>
      [.refresh t, .pagerWake t, .tmcWake t 1, .tmcWake t 2, .tmcWake t 3, .tmcWake t 4, .ctxAreaReady t,
        .heartbeatMiss t, .takeoverTimeout t])
    ++ (List.range 32).flatMap (fun d => [.thermalMigration d, .throttle d, .throttleEnd d])
    ++ [.powerClockStep true, .powerClockStep false]
    ++ s.dev.keyPending.map (fun e => .keyUpdateDone e.1)
    ++ (match s.dev.attestBusy with
      | some a => [.attestation a]
      | none => [])

/-- Every step that may happen next. -/
def State.enabled (s : State) : List Instr :=
  s.issues ++ s.groups.flatMap groupSteps ++ s.gridSteps ++ s.fillSteps ++ s.engineSteps ++ s.tileSteps

/-- The next step, and the state in which it happens: the head of the agenda, else a free choice. -/
def State.pickStep (s : State) : Instr × State :=
  match s.agenda with
  | i :: r => (i, { s with agenda := r })
  | [] =>
    let es := s.enabled
    (es.getD (Config.choose s.free % es.length) (.refresh 0), { s with free := s.free + 2 })

/-- The reference timer runs; a fade tick falls due at every multiple of 2^17 that it passes (R6, R221). -/
def State.passTick (s : State) : State :=
  let t := s.tick + Config.ticksOfStep s.free
  { s with tick := t, free := s.free + 1,
           agenda := s.agenda ++ List.replicate (t / 2 ^ 17 - s.tick / 2 ^ 17) .fadeTick }

end Sys2Proof.Machine
end

