-- ==== Sys2Proof/Machine/Load.lean ====
section
/-! DEFINITION. Placing one instruction where the next step fetches it (log 25), on a core that has it: the pager core of
tile 0, or a group of a role that may issue it on compute core 0. -/

namespace Sys2Proof.Machine

/-- The packet's bytes at an address of a key, in a level-2 line that allows fetches. -/
def State.placeWord (s : State) (asid va w : Nat) : State :=
  { s with mem := mapSetBytes s.mem (memKey asid 0 va) (leBytes 12 (w % 2 ^ 64)),
           l2 := mapSet none s.l2 (lineKey asid 0 va) (some (L2Line.fresh true true false)) }

/-- The pager core of tile 0 is out of reset, LIVE at packet 0, and issues next. -/
def State.loadPager (s : State) (w : Nat) : State :=
  let s := (s.setTile 0 (fun x => { x with stage := max 2 x.stage })).modG 0 (fun g =>
    { (g.setLane 0 .live).setPc 0 0 with hold := .none, pkt := none })
  let s := { s with agenda := [.quarterIssue 4096] }
  s.placeWord 0 (((s.getG 0).map (fun g => g.r.codeBase.toNat)).getD 0) w

/-- A launch record of one team of one group of a ROLE_KIND with 128 registers, `CODE_BASE` 0x20_0000 (R183 to R185). -/
def oneGroupRecord (kind : Nat) : Nat :=
  2 ^ 28 + (2 ^ 32 + 2 ^ 64 + 2 ^ 96) + 0x200000 * 2 ^ 128
    + (kind * 2 ^ 32 + 2 ^ 39 + 128 * 2 ^ 40 + 2 ^ 48) * 2 ^ (8 * 0x40)

/-- Team 0 of grid 0, resident on core 0: the numbers that `State.fresh` never gives. -/
def loadedTeam : Team :=
  { grid := 0, lin := 0, place := .resident 0, nGroups := 1, core := 0, scratch := 0, pieces := [], fold := [], mbox := 0,
    watch := [], forks := [], held := [], children := [], mxstat := [], placedAt := 0, placeNo := 0, padSlot := none, waits := [], imgs := [],
    dest := none, cbPois := 0, busy := 0 }

/-- A group of a ROLE_KIND, alone in its team, on compute core 0, issues next. -/
def State.loadCompute (s : State) (kind w : Nat) : State :=
  let gr := Grid.new (oneGroupRecord kind) none none 1 0 0 0 false
  let g := { gr.startGroup 0 0 0 0 0 0 (0, gr.roleDesc 0, 0) with hold := .none }
  let s := (s.putG (gidOf 0 0) g).placeWord 1 0x200000 w
  { s with agenda := [.quarterIssue 0], grids := mapSet none s.grids 0 (some { gr with next := 1 }),
           teams := mapSet none s.teams 0 (some loadedTeam) }

/-- The instruction of a table word, where the next step fetches it. -/
noncomputable def State.loadWord (s : State) (nbits w : Nat) : State :=
  match decodeTableWord nbits w with
  | none => s.loadPager w
  | some i => if (infoOf i).base && (infoOf i).role == 0 then s.loadPager w else s.loadCompute (infoOf i).role w

end Sys2Proof.Machine
end

