-- ==== Sys2Proof/Machine/Step.lean ====
section
/-! DEFINITION. The step of the device: time passes, one step of one agent happens, and an issue performs its chain. -/

namespace Sys2Proof.Machine

/-- What follows the meaning of a step: the rest of an issue. -/
noncomputable def State.conclude (i : Instr) (s : State) : Out :=
  match i with
  | .quarterIssue u => s.finishIssue exec u
  | _ => .next s.endIssue

/-- One step: the agenda's head or an enabled step at a free choice (log 3). -/
noncomputable def step (s : State) : Host.Outcome State Fault Refusal :=
  andThen (exec s.passTick.pickStep.1 s.passTick.pickStep.2) (State.conclude s.passTick.pickStep.1)

/-- The state with an instruction, numbered as spec/opcode_table.json numbers it, where the next step fetches it. -/
noncomputable def State.withFetchWord (s : State) (nbits w : Nat) : State := s.loadWord nbits w

end Sys2Proof.Machine
end

