-- ==== Sys2Proof/Safety.lean ====
section
/-! DEFINITION. What the statements about this machine are stated in: when a word has its effect, what it leaves
unchanged, and what the results of each shape of word are. -/

namespace Sys2Proof.Machine

/-! ### When a word has its effect (R2, R13, R16, R28, R29, R32, R56, R134, R152, R167, R404, R492) -/

/-- The word at hand meets none of the conditions that stand before its effect. -/
structure Ready (i : Instr) (s : State) : Prop where
  /-- the core, the role, the feature and the register number are there (reasons 11 to 13) -/
  available : (infoOf i).unavailable s = none
  /-- some lane has effect -/
  lanes : s.iss.eff ≠ 0
  /-- pairs are even, quads multiples of 4 (R13) -/
  aligned : ∀ r ∈ (infoOf i).reads ++ (infoOf i).writes, r.aligned = true
  /-- lane registers are below the allotment (R134) -/
  allotted : ∀ r ∈ (infoOf i).reads ++ (infoOf i).writes, r.outside s.g.regsN = none
  /-- the mode allows it (R16, R32) -/
  allowed : (infoOf i).need.ok s.src = true
  /-- no counter is full, no operand awaits a load or an engine (R28, R29) -/
  noWait : (infoOf i).stalls s = false
  /-- its uniform operands are uniform, or `MSTAT.UNIF` lets them differ (R167) -/
  uniform : s.src.unifMode = true ∨ (infoOf i).nonuniform s = none
  /-- no operand whose poison it consumes is poisoned (R404) -/
  clean : (infoOf i).poisoned s = none

/-- The state in which a ready word acts: `MSTAT.UNIF_FL` will be set where a uniform operand differs (R167). -/
def State.noted (s : State) (i : Instr) : State := (infoOf i).noteUnif s

/-! ### Frames -/

/-- Every byte outside the register files reads as before. -/
def SameBytes (s t : State) : Prop := ∀ l i, (∀ k b, l ≠ .reg k b) → t.rdByte l i = s.rdByte l i

/-- `s` with the scalars of `t`. -/
def State.takeScalars (s t : State) : State :=
  s.setR (fun r => { r with s := t.g.r.s, sPois := t.g.r.sPois })
/-- `s` with the lane registers of `t`. -/
def State.takeLanes (s t : State) : State :=
  s.setR (fun r => { r with v := t.g.r.v, vPois := t.g.r.vPois })
/-- `s` with the predicates of `t`. -/
def State.takePreds (s t : State) : State :=
  s.setR (fun r => { r with p := t.g.r.p, pPois := t.g.r.pPois })

/-- `t` is `s` with scalar `d` at `x` and its poison bit at `b`; all else is as it was. -/
structure ScalarIs (d : Nat) (x : DWord) (b : Bool) (s t : State) : Prop where
  value : t.g.r.rdS d = x
  poison : t.g.r.poisS d = b
  others : ∀ n, n ≠ d → t.g.r.rdS n = s.g.r.rdS n ∧ t.g.r.poisS n = s.g.r.poisS n
  bytes : SameBytes s t
  rest : t = s.takeScalars t

/-- `t` is `s` with the `w` lane registers from `d` at `x l j` in the lanes `l` of `m`, their poison bits at `b l`; all
else is as it was. -/
structure LanesAre (m : Word) (d w : Nat) (x : Nat → Nat → Word) (b : Nat → Bool) (s t : State) : Prop where
  value : ∀ l j, m.getLsbD l = true → j < w → t.g.r.rdV (d + j) l = x l j ∧ (t.g.r.poisV (d + j)).getLsbD l = b l
  others : ∀ n l, l < 32 → ¬ (m.getLsbD l = true ∧ d ≤ n ∧ n < d + w) →
    t.g.r.rdV n l = s.g.r.rdV n l ∧ (t.g.r.poisV n).getLsbD l = (s.g.r.poisV n).getLsbD l
  bytes : SameBytes s t
  rest : t = s.takeLanes t

/-- `t` is `s` with predicate `d` at `x l` in the lanes `l` of `m`, its poison bits at `b l`, and, where `d` is `p7`,
with nothing changed (R15); all else is as it was. -/
structure PredIs (m : Word) (d : Nat) (x b : Nat → Bool) (s t : State) : Prop where
  value : d ≠ 7 → ∀ l, m.getLsbD l = true → t.g.r.rdPL d l = x l ∧ (t.g.r.poisP d).getLsbD l = b l
  others : ∀ n l, l < 32 → ¬ (m.getLsbD l = true ∧ n = d ∧ d ≠ 7) →
    t.g.r.rdPL n l = s.g.r.rdPL n l ∧ (t.g.r.poisP n).getLsbD l = (s.g.r.poisP n).getLsbD l
  bytes : SameBytes s t
  rest : t = s.takePreds t

/-! ### Poison of sources, lane by lane (R402, R403) -/

/-- Some of `w` lane registers from `n` is poisoned in lane `l`. -/
def Regs.badV (r : Regs) (n w l : Nat) : Bool := (List.range w).any (fun j => (r.poisV (n + j)).getLsbD l)

/-! ### Readings of numbers -/

/-- The signed reading of 32 bits, and the 32 bits of an integer. -/
def s32 (x : Nat) : Int := (BitVec.ofNat 32 x).toInt
def u32 (z : Int) : Nat := (z % 2 ^ 32).toNat
/-- Byte `i` of a word, signed and unsigned. -/
def s8 (x i : Nat) : Int := (BitVec.ofNat 8 (x / 256 ^ i)).toInt
def u8 (x i : Nat) : Nat := x / 256 ^ i % 256
/-- Number of ones among the low `n` bits. -/
def onesOf (n x : Nat) : Nat := ((List.range n).filter x.testBit).length
/-- Length of a bit field that may not pass bit `w - 1` (R96). -/
def fieldOf (w pos len : Nat) : Nat := min len (w - pos)
/-- The bit-field functions of R96 at width `w` on numbers. -/
def fieldN (w x pos len : Nat) : Nat := x / 2 ^ pos % 2 ^ fieldOf w pos len
def fieldI (w x pos len : Nat) : Int :=
  if fieldOf w pos len = 0 then 0 else (fieldN w x pos len : Int).bmod (2 ^ fieldOf w pos len)
def fieldIns (w d a pos len : Nat) : Nat :=
  d - fieldN w d pos len * 2 ^ pos + a % 2 ^ fieldOf w pos len * 2 ^ pos

/-- A condition code of R101 at width `w`. -/
def condHolds (w k a b : Nat) : Prop :=
  let x := (BitVec.ofNat w a).toInt
  let y := (BitVec.ofNat w b).toInt
  (k = 0 ∧ a = b) ∨ (k = 1 ∧ a ≠ b) ∨ (k = 2 ∧ x < y) ∨ (k = 3 ∧ x ≥ y) ∨ (k = 4 ∧ a < b) ∨ (k = 5 ∧ a ≥ b)
    ∨ (k = 6 ∧ x ≤ y) ∨ (k = 7 ∧ x > y) ∨ (k = 8 ∧ a ≤ b) ∨ (k = 9 ∧ a > b)
    ∨ (k = 10 ∧ a &&& b ≠ 0) ∨ (k = 11 ∧ a &&& b = 0)

/-! ### Shapes of words -/

/-- `D := f(A, B)` on scalars. -/
def Scalar3 (c : BitVec 7 → BitVec 7 → BitVec 7 → Instr) (f : DWord → DWord → DWord) : Prop :=
  ∀ d a b s, Ready (c d a b) s → ∃ t, exec (c d a b) s = .next t ∧
    ScalarIs d.toNat (f (s.src.rdS a.toNat) (s.src.rdS b.toNat)) (s.src.poisS a.toNat || s.src.poisS b.toNat) s t

/-- `D := f(A)` on scalars. -/
def Scalar2 (c : BitVec 7 → BitVec 7 → Instr) (f : DWord → DWord) : Prop :=
  ∀ d a s, Ready (c d a) s → ∃ t, exec (c d a) s = .next t ∧
    ScalarIs d.toNat (f (s.src.rdS a.toNat)) (s.src.poisS a.toNat) s t

/-- `D := f(A, B)` in the lanes with effect: operands and result of `wa`, `wb`, `wd` registers as numbers. -/
def Lane3 (wd wa wb : Nat) (c : BitVec 7 → BitVec 7 → BitVec 7 → Instr) (f : Nat → Nat → Nat) : Prop :=
  ∀ d a b s, Ready (c d a b) s → ∃ t, exec (c d a b) s = .next t ∧
    LanesAre s.iss.eff d.toNat wd
      (fun l j => BitVec.ofNat 32 (f (s.src.rdW wa a.toNat l) (s.src.rdW wb b.toNat l) / 2 ^ (32 * j)))
      (fun l => s.src.badV a.toNat wa l || s.src.badV b.toNat wb l) s t

/-- `D := f(A)` in the lanes with effect. -/
def Lane2 (wd wa : Nat) (c : BitVec 7 → BitVec 7 → Instr) (f : Nat → Nat) : Prop :=
  ∀ d a s, Ready (c d a) s → ∃ t, exec (c d a) s = .next t ∧
    LanesAre s.iss.eff d.toNat wd (fun l j => BitVec.ofNat 32 (f (s.src.rdW wa a.toNat l) / 2 ^ (32 * j)))
      (fun l => s.src.badV a.toNat wa l) s t

/-- `D := f(A, B, D)` in the lanes with effect. -/
def Lane4 (wd wa wb : Nat) (c : BitVec 7 → BitVec 7 → BitVec 7 → Instr) (f : Nat → Nat → Nat → Nat) : Prop :=
  ∀ d a b s, Ready (c d a b) s → ∃ t, exec (c d a b) s = .next t ∧
    LanesAre s.iss.eff d.toNat wd
      (fun l j => BitVec.ofNat 32
        (f (s.src.rdW wa a.toNat l) (s.src.rdW wb b.toNat l) (s.src.rdW wd d.toNat l) / 2 ^ (32 * j)))
      (fun l => s.src.badV a.toNat wa l || s.src.badV b.toNat wb l || s.src.badV d.toNat wd l) s t

/-- Predicates from predicates, lane by lane. -/
def Pred3 (c : BitVec 3 → BitVec 3 → BitVec 3 → Instr) (f : Bool → Bool → Bool) : Prop :=
  ∀ d a b s, Ready (c d a b) s → ∃ t, exec (c d a b) s = .next t ∧
    PredIs s.iss.eff d.toNat (fun l => f (s.src.rdPL a.toNat l) (s.src.rdPL b.toNat l))
      (fun l => (s.src.poisP a.toNat).getLsbD l || (s.src.poisP b.toNat).getLsbD l) s t

/-! ### Floating-point words (R26, R116 to R119) -/

/-- The exceptions that the lanes of `m` raise together; a lane with a poisoned source raises none (R403). -/
def flagsOf (m : Word) (r : Nat → FpRes) (b : Nat → Bool) : BitVec 5 :=
  (lanesOf m).foldl (fun u l => if b l then u else u ||| (r l).2) 0

/-- The end of a floating-point word with results `r l` of `w` registers: where no exception raised is enabled, the
results are written and the flags become due; else the floating-point trap is taken with the union in `TRAP_INFO0`, for
the lowest lane that raised an enabled one, and nothing is written (R26, R118). -/
def FpEnds (i : Instr) (s : State) (d w : Nat) (r : Nat → FpRes) (b : Nat → Bool) : Prop :=
  let u := flagsOf s.iss.eff r b
  (u &&& s.src.fpEnables = 0 → ∃ t, exec i s = .next t ∧
    LanesAre s.iss.eff d w (fun l j => BitVec.ofNat 32 ((r l).1 / 2 ^ (32 * j))) b (s.raise u) t) ∧
  (u &&& s.src.fpEnables ≠ 0 → ∃ l, s.iss.eff.getLsbD l = true ∧ b l = false ∧ (r l).2 &&& s.src.fpEnables ≠ 0 ∧
    (∀ k, k < l → s.iss.eff.getLsbD k = true → b k = false → (r k).2 &&& s.src.fpEnables = 0) ∧
    exec i s = .next (s.trap (mkTrap 6 l (u.zeroExtend 64) 0 0 0)))

/-- A floating-point word of two, one or three operands of `w` registers each. -/
def Fp3 (w : Nat) (c : BitVec 7 → BitVec 7 → BitVec 7 → Instr) (f : FpCtl → Nat → Nat → FpRes) : Prop :=
  ∀ d a b s, Ready (c d a b) s →
    FpEnds (c d a b) s d.toNat w (fun l => f s.src.fctl (s.src.rdW w a.toNat l) (s.src.rdW w b.toNat l))
      (fun l => s.src.badV a.toNat w l || s.src.badV b.toNat w l)
def Fp2 (wd wa : Nat) (c : BitVec 7 → BitVec 7 → Instr) (f : FpCtl → Nat → FpRes) : Prop :=
  ∀ d a s, Ready (c d a) s →
    FpEnds (c d a) s d.toNat wd (fun l => f s.src.fctl (s.src.rdW wa a.toNat l)) (fun l => s.src.badV a.toNat wa l)
def Fp4 (w : Nat) (c : BitVec 7 → BitVec 7 → BitVec 7 → Instr) (f : FpCtl → Nat → Nat → Nat → FpRes) : Prop :=
  ∀ d a b s, Ready (c d a b) s →
    FpEnds (c d a b) s d.toNat w
      (fun l => f s.src.fctl (s.src.rdW w a.toNat l) (s.src.rdW w b.toNat l) (s.src.rdW w d.toNat l))
      (fun l => s.src.badV a.toNat w l || s.src.badV b.toNat w l || s.src.badV d.toNat w l)

/-- The value of a finite code. -/
def Fmt.val (f : Fmt) (x : Nat) : Rat :=
  match f.dec x with
  | .num sg m e => (if sg then -1 else 1) * (m : Rat) * (2 : Rat) ^ e
  | _ => 0
/-- A finite code of a format. -/
def Fmt.finite (f : Fmt) (x : Nat) : Prop := x < 2 * f.signBit ∧ ∃ sg m e, f.dec x = .num sg m e

/-- The same where a lane's exceptions `f` are silenced apart from the poison `b` of its result. -/
def CombineEnds (i : Instr) (s : State) (d w : Nat) (x : Nat → Nat) (f : Nat → BitVec 5) (b : Nat → Bool) : Prop :=
  let u := (lanesOf s.iss.eff).foldl (fun u l => u ||| f l) 0
  (u &&& s.src.fpEnables = 0 → ∃ t, exec i s = .next t ∧
    LanesAre s.iss.eff d w (fun l j => BitVec.ofNat 32 (x l / 2 ^ (32 * j))) b (s.raise u) t) ∧
  (u &&& s.src.fpEnables ≠ 0 → ∃ l, exec i s = .next (s.trap (mkTrap 6 l (u.zeroExtend 64) 0 0 0)))

/-! ### Scans (R86, R171) -/

/-- Values combined in order, the first delivered unchanged. -/
def combine (op : Nat → Nat → FpRes) (x : Nat → Nat) : List Nat → Option Nat
  | [] => none
  | a :: as => some (as.foldl (fun v k => (op v (x k)).1) (x a))

/-- Exceptions of the step that takes lane `l` in, among lanes `ls` in ascending order. -/
def combineFlags (op : Nat → Nat → FpRes) (x : Nat → Nat) (ls : List Nat) (l : Nat) : BitVec 5 :=
  if ls.contains l then
    match combine op x (ls.filter (· < l)) with
    | none => 0
    | some v => (op v (x l)).2
  else 0

/-! ### Control (R18 to R21, R49, R51, R106 to R108) -/

/-- `t` is `s` with the lanes of `m` at `pc`, no block state left in them, marked as moved; all else as it was. -/
structure MovedTo (m pc : Word) (s t : State) : Prop where
  pcs : ∀ l, t.g.pc l = if m.getLsbD l then pc else s.g.pc l
  blks : ∀ l, t.g.blkOf l = if m.getLsbD l then Blk.none else s.g.blkOf l
  moved : t.iss.moved = s.iss.moved ||| m
  bytes : SameBytes s t
  rest : t = { s with g := { s.g with pcv := t.g.pcv, blk := t.g.blk }, iss := { s.iss with moved := t.iss.moved } }

/-- `t` is `s` but for the registers of the executing group's machine state: `MSTAT`, `FPCTL`, `CODE_BASE`, the trap
registers. -/
def State.takeMachine (s t : State) : State :=
  s.setR (fun r => { r with mstat := t.g.r.mstat, fpctl := t.g.r.fpctl, codeBase := t.g.r.codeBase,
                            trapCause := t.g.r.trapCause, info0 := t.g.r.info0, info1 := t.g.r.info1,
                            info2 := t.g.r.info2, info3 := t.g.r.info3 })

/-! ### Accesses to memory (R264, R285, R292 to R298, R403, R416, R442, R472, R483) -/

/-- The accesses `xs` (lane, address) of a word, looked for in order: the state after, and what each came to. -/
def State.lookUps (s : State) (kd : Kind) (hint n : Nat) (xs : List (Nat × Nat)) :
    State × List (Nat × Nat × Except Stop (List Piece)) :=
  xs.foldl (fun acc x => ((acc.1.resolve kd hint x.2 n).1, acc.2 ++ [(x.1, x.2, (acc.1.resolve kd hint x.2 n).2)])) (s, [])

/-- The accesses `xs` of a word pass every check, meet no watchpoint, and all are found: at the parts `go`, in `u`. -/
structure Served (kd : Kind) (pre : Option Nat) (hint n : Nat) (shared : Bool) (xs : List (Nat × Nat)) (s u : State)
    (go : List (Nat × Nat × List Piece)) : Prop where
  checks : s.checkAccess kd pre n shared xs = none
  unwatched : s.watched kd.k.isWrite n xs = none
  found : s.lookUps kd hint n xs = (u, go.map (fun x => (x.1, x.2.1, .ok x.2.2)))
  some_ : go ≠ []

/-- The parts of the accesses in order, each with the address at which its access begins. -/
def partsOf (go : List (Nat × Nat × List Piece)) : List (Nat × Nat × Piece) :=
  go.flatMap (fun x => x.2.2.map (fun p => (x.1, x.2.1, p)))

/-- No other agent's access that the race detector remembers conflicts with one of the parts. -/
def Alone (u : State) (go : List (Nat × Nat × List Piece)) (write : Bool) : Prop :=
  ∀ x ∈ partsOf go, ∀ i, i < x.2.2.n → ∀ k, x.2.2.loc.sector i = some k →
    ∀ y ∈ mapGet [] u.race.sect k, y.agent = u.gid ∨ (y.write = false ∧ write = false)

/-- The byte of storage that byte `i` of a place is. -/
def Loc.cell (l : Loc) (i : Nat) : Option (Nat × Nat) :=
  match l with
  | .home a v x => some (0, memKey a v x + i)
  | .spad c o => some (1, c * 2 ^ 20 + o + i)
  | .acc c b o => some (2, 4 * accKey c b (o + i) + (o + i) % 4)
  | .host p h => some (3, hostKey p h + i)
  | .peer d x o => some (4, peerKey d x o + i)
  | .row c o => some (5, 4 * rowKey c ((o + i) / 4) + (o + i) % 4)
  | .reg k b => some (6 + k, b + i)
  | .gone | .mgmt _ => none

/-- Part `p` is written where it lies, whatever the lease table says. -/
def State.direct (s : State) (p : Piece) : Prop :=
  p.hold = false ∧ s.ownDam p.loc = none ∧ (∀ o, p.loc ≠ .mgmt o) ∧ p.loc ≠ .gone ∧
    (∀ k b, p.loc = .reg k b → (s.getG k).isSome = true) ∧
    (∀ a v h, p.loc = .home a v h → inTable h = true → a = 0 ∧ v = 0 ∧ ∀ i, i < p.n → leaseAt (h + i) = none)

/-- A byte of storage that one of the parts writes. -/
def State.stored (s : State) (ps : List (Nat × Nat × Piece)) (c : Nat × Nat) : Prop :=
  ∃ x ∈ ps, x.2.2.hold = false ∧ s.ownDam x.2.2.loc = none ∧ ∃ i, i < x.2.2.n ∧ x.2.2.loc.cell i = some c

/-- The bytes of the tables that a store may set beside its own: END_CAUSE of a lease that it revokes (R472), and the
byte that holds D of a leaf (R247). -/
def sideByte (c : Nat × Nat) : Prop :=
  (∃ k, k < 4096 ∧ c = (0, memKey 0 0 (leaseVa k + 0x1E))) ∨ ∃ k, k < 2 ^ 37 ∧ c = (0, memKey 0 0 (tableBase + 16 * k + 1))

/-- A place where a weir may lie: 16 bytes of home memory or of a scratchpad. -/
def Loc.holdsWeir (l : Loc) : Prop :=
  (∃ a v h, l = .home a v h ∧ ∀ i, i < 16 → ¬ sideByte (0, memKey a v h + i)) ∨ ∃ c o, l = .spad c o

/-- Every byte outside `m` reads as before, registers in bytes among them. -/
def KeptBut (m : Nat × Nat → Prop) (s t : State) : Prop :=
  ∀ l i c, Loc.cell l i = some c → ¬ m c → t.rdByte l i = s.rdByte l i

/-- `t` is `u` with one more load outstanding, which will write `ws`. -/
structure LoadSent (ws : List LoadWrite) (u t : State) : Prop where
  count : t.g.ldcnt = u.g.ldcnt + 1
  load : t.g.loads = u.g.loads ++ [⟨ws, none⟩]
  group : t.g = { u.g with ldcnt := t.g.ldcnt, loads := t.g.loads }

/-- One more store of the executing group is outstanding; its scalars, predicates and lanes are as they were. -/
structure StoreSent (u t : State) : Prop where
  count : t.g.stcnt = u.g.stcnt + 1
  store : ∃ x, t.stores.getLast? = some x ∧ x.grp = some u.gid
  regs : t.g.r.s = u.g.r.s ∧ t.g.r.p = u.g.r.p ∧ t.g.r.mstat = u.g.r.mstat ∧ t.g.r.fpctl = u.g.r.fpctl
  lanes : t.g.pcv = u.g.pcv ∧ t.g.lsv = u.g.lsv ∧ t.g.blk = u.g.blk

/-- The lanes of each pair of a protected launch agree on `f` (R411). -/
def State.alike {α : Type} (s : State) (f : Nat → α) : Prop :=
  s.src.prot = false ∨ ∀ i, i < 16 → s.iss.eff.getLsbD (2 * i) = true → s.iss.eff.getLsbD (2 * i + 1) = true →
    f (2 * i) = f (2 * i + 1)

/-- The effective address of a lane memory word (R290). -/
def eaOf (s : State) (b x : BitVec 7) (y : BitVec 1) (o : Option (BitVec 32)) (size l : Nat) : Nat :=
  (((s.src.rdS b.toNat).toNat + (if y = 1#1 then (s.src.rdV x.toNat l).toInt * size else 0)
    + (match o with
       | some v => v.toInt
       | none => 0) : Int) % 2 ^ 64).toNat

/-! ### What stands where at home (R202, R229 to R241, R250, R275, R284) -/

/-- `n` bytes of view 0 from `va` stand in a level-2 line that allows every access, no cofferdam holds them and no engine
owns them, and no share of a run is being broken. -/
structure Stands (s : State) (asid va n : Nat) : Prop where
  line : ∃ l, mapGet none s.l2 (lineKey asid 0 va) = some l ∧ l.w = true ∧ l.x = true
  freed : s.heldBlk none (.home asid 0 va) n = none
  calm : ∀ r ∈ s.reqs, r.breaks = false

/-- Nothing at the home of `va` in view 0 holds it or a translation of it, and no share of a run is being broken. -/
structure Absent (s : State) (asid va : Nat) : Prop where
  line : mapGet none s.l2 (lineKey asid 0 va) = none
  frame : s.findFrame (s.stackOf asid va) asid 0 va = none
  cached : s.tuFind asid 0 va = none
  calm : ∀ r ∈ s.reqs, r.breaks = false

/-- The walk of `va` by the unit of stack `st` ends at `w`: its walk cache holds nothing of the ASID, and every line that
the walk reads stands in level-2. -/
structure Walks (s : State) (st asid va : Nat) (w : WalkOut) : Prop where
  ends : s.walkRaw asid va = w
  lines : ∀ l ∈ w.lines, (mapGet none s.l2 l.1).isSome = true
  cold : ∀ x ∈ s.walk, x.stack = st → x.asid ≠ asid

/-- The one access of a word whose address stands in scalar `a`. -/
def State.oneAccess (s : State) (a : BitVec 7) : List (Nat × Nat) := [(s.lead, (s.src.rdS a.toNat).toNat)]

end Sys2Proof.Machine
end

