-- ==== Sys2Proof/Certificates/Slice0/Obligations.lean ====
section
/-! DEFINITION. The statements for the provers. -/

open Sys2Proof Sys2Proof.Machine

/-! ### Integer words (R92 to R105) -/

/-- R92, R94: scalar arithmetic and logic of two registers. Each ready word answers the state in which `s[D]` holds the
value, its poison bit is the union of its sources' (R403), and nothing else differs. -/
def Obligations.ScalarArithmetic : Prop :=
  Scalar3 .addI64 (fun a b => BitVec.ofNat 64 (a.toNat + b.toNat)) ∧
  Scalar3 .subI64 (fun a b => BitVec.ofInt 64 (a.toNat - b.toNat)) ∧
  Scalar3 .andB64 (fun a b => a &&& b) ∧
  Scalar3 .orB64 (fun a b => a ||| b) ∧
  Scalar3 .xorB64 (fun a b => a ^^^ b) ∧
  Scalar3 .andnB64 (fun a b => a &&& ~~~b) ∧
  Scalar3 .sllB64 (fun a b => BitVec.ofNat 64 (a.toNat * 2 ^ (b.toNat % 64))) ∧
  Scalar3 .srlB64 (fun a b => BitVec.ofNat 64 (a.toNat / 2 ^ (b.toNat % 64))) ∧
  Scalar3 .sraB64 (fun a b => BitVec.ofInt 64 (a.toInt / 2 ^ (b.toNat % 64))) ∧
  Scalar3 .rorB64 (fun a b => (a >>> (b.toNat % 64)) ||| (a <<< (64 - b.toNat % 64))) ∧
  Scalar3 .minI64 (fun a b => if a.toInt ≤ b.toInt then a else b) ∧
  Scalar3 .maxI64 (fun a b => if a.toInt ≤ b.toInt then b else a) ∧
  Scalar3 .minN64 (fun a b => if a.toNat ≤ b.toNat then a else b) ∧
  Scalar3 .maxN64 (fun a b => if a.toNat ≤ b.toNat then b else a) ∧
  Scalar3 .addI32Scalar (fun a b => BitVec.ofInt 64 ((a.toInt + b.toInt).bmod (2 ^ 32))) ∧
  Scalar3 .subI32Scalar (fun a b => BitVec.ofInt 64 ((a.toInt - b.toInt).bmod (2 ^ 32))) ∧
  Scalar3 .mulI64 (fun a b => BitVec.ofNat 64 (a.toNat * b.toNat)) ∧
  Scalar3 .mulhI64 (fun a b => BitVec.ofInt 64 (a.toInt * b.toInt / 2 ^ 64)) ∧
  Scalar3 .mulhN64 (fun a b => BitVec.ofNat 64 (a.toNat * b.toNat / 2 ^ 64)) ∧
  Scalar3 .lea2B64 (fun a b => BitVec.ofNat 64 (a.toNat + 2 * b.toNat)) ∧
  Scalar3 .lea4B64 (fun a b => BitVec.ofNat 64 (a.toNat + 4 * b.toNat)) ∧
  Scalar3 .lea8B64 (fun a b => BitVec.ofNat 64 (a.toNat + 8 * b.toNat)) ∧
  Scalar3 .lea16B64 (fun a b => BitVec.ofNat 64 (a.toNat + 16 * b.toNat)) ∧
  Scalar3 .packB64 (fun a b => BitVec.ofNat 64 (a.toNat % 2 ^ 32 + 2 ^ 32 * (b.toNat % 2 ^ 32)))

/-- R89, R90, R92, R93: scalar words with an immediate, whichever of its two forms encodes it. R89, R90, R97: lane words
with an immediate. A lane shift amount above 31 does not decode (R90). -/
def Obligations.Immediates : Prop :=
  (
    (∀ i, Scalar2 (fun d a => .addI64Imm d a i) (fun a => BitVec.ofInt 64 (a.toInt + i.val64.toInt))) ∧
    (∀ i, Scalar2 (fun d a => .andB64Imm d a i) (fun a => a &&& i.val64)) ∧
    (∀ i, Scalar2 (fun d a => .orB64Imm d a i) (fun a => a ||| i.val64)) ∧
    (∀ i, Scalar2 (fun d a => .xorB64Imm d a i) (fun a => a ^^^ i.val64)) ∧
    (∀ n x, Scalar2 (fun d a => .sllB64Imm d a n x) (fun a => BitVec.ofNat 64 (a.toNat * 2 ^ n.toNat))) ∧
    (∀ n x, Scalar2 (fun d a => .srlB64Imm d a n x) (fun a => BitVec.ofNat 64 (a.toNat / 2 ^ n.toNat))) ∧
    (∀ n x, Scalar2 (fun d a => .sraB64Imm d a n x) (fun a => BitVec.ofInt 64 (a.toInt / 2 ^ n.toNat))) ∧
    (∀ n x, Scalar2 (fun d a => .rorB64Imm d a n x) (fun a => (a >>> n.toNat) ||| (a <<< (64 - n.toNat)))) ∧
    (∀ d i s, Ready (.movI64 d i) s → ∃ t, exec (.movI64 d i) s = .next t ∧ ScalarIs d.toNat i.val64 false s t)) ∧
  (
    (∀ i, Lane2 1 1 (fun d a => .addI32Imm d a i) (fun a => a + i.val32.toNat)) ∧
    (∀ i, Lane2 1 1 (fun d a => .andB32Imm d a i) (fun a => a &&& i.val32.toNat)) ∧
    (∀ i, Lane2 1 1 (fun d a => .orB32Imm d a i) (fun a => a ||| i.val32.toNat)) ∧
    (∀ i, Lane2 1 1 (fun d a => .xorB32Imm d a i) (fun a => a ^^^ i.val32.toNat)) ∧
    (∀ n x, n.toNat < 32 → Lane2 1 1 (fun d a => .sllB32Imm d a n x) (fun a => a * 2 ^ n.toNat)) ∧
    (∀ n x, n.toNat < 32 → Lane2 1 1 (fun d a => .srlB32Imm d a n x) (fun a => a / 2 ^ n.toNat)) ∧
    (∀ n x, n.toNat < 32 → Lane2 1 1 (fun d a => .sraB32Imm d a n x) (fun a => u32 (s32 a / 2 ^ n.toNat))) ∧
    (∀ n x, n.toNat < 32 →
      Lane2 1 1 (fun d a => .rorB32Imm d a n x) (fun a => a / 2 ^ n.toNat + a * 2 ^ (32 - n.toNat) % 2 ^ 32)) ∧
    (∀ d i s, Ready (.movB32Imm d i) s → ∃ t, exec (.movB32Imm d i) s = .next t ∧
      LanesAre s.iss.eff d.toNat 1 (fun _ _ => i.val32) (fun _ => false) s t))

/-- R95: division at both widths, signed and unsigned: by zero the quotient is all ones and the remainder the dividend,
the most negative value divided by −1 gives itself and 0, else the quotient is rounded toward zero. No case traps. -/
def Obligations.Division : Prop :=
  Scalar3 .divI64 (fun a b => if b = 0 then BitVec.allOnes 64 else if a.toInt = -2 ^ 63 ∧ b.toInt = -1 then a
    else BitVec.ofInt 64 (a.toInt.tdiv b.toInt)) ∧
  Scalar3 .divN64 (fun a b => if b = 0 then BitVec.allOnes 64 else BitVec.ofNat 64 (a.toNat / b.toNat)) ∧
  Scalar3 .remI64 (fun a b => if b = 0 then a else if a.toInt = -2 ^ 63 ∧ b.toInt = -1 then 0
    else BitVec.ofInt 64 (a.toInt - a.toInt.tdiv b.toInt * b.toInt)) ∧
  Scalar3 .remN64 (fun a b => if b = 0 then a else BitVec.ofNat 64 (a.toNat - a.toNat / b.toNat * b.toNat)) ∧
  Lane3 1 1 1 .divI32 (fun a b => if b = 0 then 2 ^ 32 - 1 else if s32 a = -2 ^ 31 ∧ s32 b = -1 then a
    else u32 ((s32 a).tdiv (s32 b))) ∧
  Lane3 1 1 1 .divN32 (fun a b => if b = 0 then 2 ^ 32 - 1 else a / b) ∧
  Lane3 1 1 1 .remI32 (fun a b => if b = 0 then a else if s32 a = -2 ^ 31 ∧ s32 b = -1 then 0
    else u32 (s32 a - (s32 a).tdiv (s32 b) * s32 b)) ∧
  Lane3 1 1 1 .remN32 (fun a b => if b = 0 then a else a - a / b * b)

/-- R96, R100: bit counts and bit fields at both widths. -/
def Obligations.BitFields : Prop :=
  Scalar2 .popcB64 (fun a => BitVec.ofNat 64 (onesOf 64 a.toNat)) ∧
  Scalar2 .clzB64 (fun a => a.clz) ∧
  Scalar2 .ctzB64 (fun a => a.reverse.clz) ∧
  Scalar2 .brevB64 (fun a => a.reverse) ∧
  Scalar2 .bswapB64 (fun a => a.extractLsb' 0 8 ++ a.extractLsb' 8 8 ++ a.extractLsb' 16 8 ++ a.extractLsb' 24 8 ++
    a.extractLsb' 32 8 ++ a.extractLsb' 40 8 ++ a.extractLsb' 48 8 ++ a.extractLsb' 56 8) ∧
  Scalar3 .bextN64 (fun a b => BitVec.ofNat 64 (fieldN 64 a.toNat (b.toNat % 64) (b.toNat / 256 % 128))) ∧
  Scalar3 .bextI64 (fun a b => BitVec.ofInt 64 (fieldI 64 a.toNat (b.toNat % 64) (b.toNat / 256 % 128))) ∧
  (∀ d a b s, Ready (.binsB64 d a b) s → ∃ t, exec (.binsB64 d a b) s = .next t ∧
    ScalarIs d.toNat (BitVec.ofNat 64 (fieldIns 64 (s.src.rdS d.toNat).toNat (s.src.rdS a.toNat).toNat
        ((s.src.rdS b.toNat).toNat % 64) ((s.src.rdS b.toNat).toNat / 256 % 128)))
      (s.src.poisS a.toNat || s.src.poisS b.toNat || s.src.poisS d.toNat) s t) ∧
  Lane2 1 1 .popcB32 (onesOf 32) ∧
  Lane2 1 1 .clzB32 (fun a => (BitVec.ofNat 32 a).clz.toNat) ∧
  Lane2 1 1 .ctzB32 (fun a => (BitVec.ofNat 32 a).reverse.clz.toNat) ∧
  Lane2 1 1 .brevB32 (fun a => (BitVec.ofNat 32 a).reverse.toNat) ∧
  Lane2 1 1 .bswapB32 (fun a => u8 a 0 * 2 ^ 24 + u8 a 1 * 2 ^ 16 + u8 a 2 * 2 ^ 8 + u8 a 3) ∧
  Lane3 1 1 1 .bextN32 (fun a b => fieldN 32 a (b % 32) (b / 256 % 64)) ∧
  Lane3 1 1 1 .bextI32 (fun a b => u32 (fieldI 32 a (b % 32) (b / 256 % 64))) ∧
  Lane4 1 1 1 .binsB32 (fun a b d => fieldIns 32 d a (b % 32) (b / 256 % 64))

/-- R97, R99: lane arithmetic, logic and products of two registers, in each lane with effect. R131: carry-less products,
whole or the half or window that the word names. -/
def Obligations.LaneArithmetic : Prop :=
  (
    Lane3 1 1 1 .addI32 (fun a b => a + b) ∧
    Lane3 1 1 1 .subI32 (fun a b => a + 2 ^ 32 - b) ∧
    Lane3 1 1 1 .andB32 (fun a b => a &&& b) ∧
    Lane3 1 1 1 .orB32 (fun a b => a ||| b) ∧
    Lane3 1 1 1 .xorB32 (fun a b => a ^^^ b) ∧
    Lane3 1 1 1 .andnB32 (fun a b => a &&& (b ^^^ (2 ^ 32 - 1))) ∧
    Lane3 1 1 1 .sllB32 (fun a b => a * 2 ^ (b % 32)) ∧
    Lane3 1 1 1 .srlB32 (fun a b => a / 2 ^ (b % 32)) ∧
    Lane3 1 1 1 .sraB32 (fun a b => u32 (s32 a / 2 ^ (b % 32))) ∧
    Lane3 1 1 1 .minI32 (fun a b => if s32 a ≤ s32 b then a else b) ∧
    Lane3 1 1 1 .maxI32 (fun a b => if s32 a ≤ s32 b then b else a) ∧
    Lane3 1 1 1 .minN32 (fun a b => min a b) ∧
    Lane3 1 1 1 .maxN32 (fun a b => max a b) ∧
    Lane3 1 1 1 .addsI32 (fun a b => u32 (max (-2 ^ 31) (min (2 ^ 31 - 1) (s32 a + s32 b)))) ∧
    Lane3 1 1 1 .subsI32 (fun a b => u32 (max (-2 ^ 31) (min (2 ^ 31 - 1) (s32 a - s32 b)))) ∧
    Lane3 1 1 1 .mulB32 (fun a b => a * b) ∧
    Lane3 1 1 1 .mulhI32 (fun a b => u32 (s32 a * s32 b / 2 ^ 32)) ∧
    Lane3 1 1 1 .mulhN32 (fun a b => a * b / 2 ^ 32) ∧
    Lane3 2 1 1 .mulwI32 (fun a b => (s32 a * s32 b % 2 ^ 64).toNat) ∧
    Lane3 2 1 1 .mulwN32 (fun a b => a * b) ∧
    Lane4 1 1 1 .madB32 (fun a b d => a * b + d) ∧
    Lane4 2 1 1 .madwN32 (fun a b d => (d + a * b) % 2 ^ 64) ∧
    Lane4 1 1 1 .dp4I8 (fun a b d => u32 (d + s8 a 0 * s8 b 0 + s8 a 1 * s8 b 1 + s8 a 2 * s8 b 2 + s8 a 3 * s8 b 3)) ∧
    Lane4 1 1 1 .dp4N8 (fun a b d => d + u8 a 0 * u8 b 0 + u8 a 1 * u8 b 1 + u8 a 2 * u8 b 2 + u8 a 3 * u8 b 3)) ∧
  (
    Lane3 1 1 1 .clmulB32 (fun a b => clmulNat a 32 b % 2 ^ 32) ∧
    Lane3 1 1 1 .clmulhB32 (fun a b => clmulNat a 32 b / 2 ^ 32 % 2 ^ 32) ∧
    Lane3 2 1 1 .clmulwB32 (fun a b => clmulNat a 32 b % 2 ^ 64) ∧
    Lane3 2 2 2 .clmulB64 (fun a b => clmulNat a 64 b % 2 ^ 64) ∧
    Lane3 2 2 2 .clmulhB64 (fun a b => clmulNat a 64 b / 2 ^ 64 % 2 ^ 64) ∧
    Lane3 4 2 2 .clmulwB64 (fun a b => clmulNat a 64 b % 2 ^ 128) ∧
    Lane3 1 1 1 .clmulrB32 (fun a b => clmulNat a 32 b / 2 ^ 31 % 2 ^ 32) ∧
    Lane3 2 2 2 .clmulrB64 (fun a b => clmulNat a 64 b / 2 ^ 63 % 2 ^ 64) ∧
    (∀ a b n k, b < 2 ^ n → (clmulNat a n b).testBit k =
      (((List.range n).filter (fun j => b.testBit j && decide (j ≤ k) && a.testBit (k - j))).length % 2 == 1)))

/-- R98, R105: select, moves within lanes and between scalars and lanes; lane x is `UInt(s[B][4:0]) mod W`. In a protected
launch `wrl` writes the shadow of an even lane x too (the model's reading of R410, log 12). -/
def Obligations.Moves : Prop :=
  Lane2 1 1 .movB32 id ∧ Lane2 2 2 .movB64 id ∧
  (∀ d p b s, Ready (.selB32 d p b) s → ∃ t, exec (.selB32 d p b) s = .next t ∧
    LanesAre (s.iss.eff &&& s.src.rdP p.toNat) d.toNat 1 (fun l _ => s.src.rdV b.toNat l)
      (fun l => (s.src.poisV b.toNat).getLsbD l) s t) ∧
  (∀ d a s, Ready (.bcastB32 d a) s → ∃ t, exec (.bcastB32 d a) s = .next t ∧
    LanesAre s.iss.eff d.toNat 1 (fun _ _ => (s.src.rdS a.toNat).extractLsb' 0 32) (fun _ => s.src.poisS a.toNat) s t) ∧
  (∀ d a s, Ready (.bcastB64 d a) s → ∃ t, exec (.bcastB64 d a) s = .next t ∧
    LanesAre s.iss.eff d.toNat 2 (fun _ j => (s.src.rdS a.toNat).extractLsb' (32 * j) 32)
      (fun _ => s.src.poisS a.toNat) s t) ∧
  (∀ d p s, Ready (.pgetB32 d p) s → ∃ t, exec (.pgetB32 d p) s = .next t ∧
    LanesAre s.iss.eff d.toNat 1 (fun l _ => if s.src.rdPL p.toNat l then 1 else 0)
      (fun l => (s.src.poisP p.toNat).getLsbD l) s t) ∧
  (∀ d a b s x, x = (s.src.rdS b.toNat).toNat % 32 % s.g.width →
    (Ready (.rdlN32 d a b) s → ∃ t, exec (.rdlN32 d a b) s = .next t ∧
      ScalarIs d.toNat ((s.src.rdV a.toNat x).zeroExtend 64)
        ((s.src.poisV a.toNat).getLsbD x || s.src.poisS b.toNat) s t) ∧
    (Ready (.rdlI32 d a b) s → ∃ t, exec (.rdlI32 d a b) s = .next t ∧
      ScalarIs d.toNat ((s.src.rdV a.toNat x).signExtend 64)
        ((s.src.poisV a.toNat).getLsbD x || s.src.poisS b.toNat) s t) ∧
    (Ready (.rdlB64 d a b) s → ∃ t, exec (.rdlB64 d a b) s = .next t ∧
      ScalarIs d.toNat (s.src.rdV (a.toNat + 1) x ++ s.src.rdV a.toNat x)
        (s.src.badV a.toNat 2 x || s.src.poisS b.toNat) s t) ∧
    (Ready (.wrlB32 d a b) s → ∃ t, exec (.wrlB32 d a b) s = .next t ∧
      LanesAre (s.iss.eff &&& if s.src.prot ∧ x % 2 = 0 then laneBit x ||| laneBit (x + 1) else laneBit x) d.toNat 1 (fun _ _ => (s.src.rdS a.toNat).extractLsb' 0 32)
        (fun _ => s.src.poisS a.toNat || s.src.poisS b.toNat) s t))

/-- R101 to R104: every compare writes its predicate in the lanes with effect, where the condition holds 1, else 0;
predicate logic works lane by lane; a write of `p7` is discarded. -/
def Obligations.ComparesAndPredicates : Prop :=
  (∀ p a b k s, k.toNat < 12 → Ready (.scalarCompare p a b k) s → ∃ t x, exec (.scalarCompare p a b k) s = .next t ∧
    (x = true ↔ condHolds 64 k.toNat (s.src.rdS a.toNat).toNat (s.src.rdS b.toNat).toNat) ∧
    PredIs s.iss.eff p.toNat (fun _ => x) (fun _ => s.src.poisS a.toNat || s.src.poisS b.toNat) s t) ∧
  (∀ k p a i s, k.toNat < 12 → Ready (.scalarCompareImm k p a i) s →
    ∃ t x, exec (.scalarCompareImm k p a i) s = .next t ∧
    (x = true ↔ condHolds 64 k.toNat (s.src.rdS a.toNat).toNat i.val64.toNat) ∧
    PredIs s.iss.eff p.toNat (fun _ => x) (fun _ => s.src.poisS a.toNat) s t) ∧
  (∀ p a b k s, k.toNat < 12 → Ready (.laneCompare p a b k) s → ∃ t x, exec (.laneCompare p a b k) s = .next t ∧
    (∀ l, x l = true ↔ condHolds 32 k.toNat (s.src.rdV a.toNat l).toNat (s.src.rdV b.toNat l).toNat) ∧
    PredIs s.iss.eff p.toNat x
      (fun l => (s.src.poisV a.toNat).getLsbD l || (s.src.poisV b.toNat).getLsbD l) s t) ∧
  (∀ k p a i s, k.toNat < 12 → Ready (.laneCompareImm k p a i) s → ∃ t x, exec (.laneCompareImm k p a i) s = .next t ∧
    (∀ l, x l = true ↔ condHolds 32 k.toNat (s.src.rdV a.toNat l).toNat i.val32.toNat) ∧
    PredIs s.iss.eff p.toNat x (fun l => (s.src.poisV a.toNat).getLsbD l) s t) ∧
  Pred3 .pand (fun a b => a && b) ∧ Pred3 .por (fun a b => a || b) ∧ Pred3 .pxor (fun a b => a != b) ∧
  Pred3 .pandn (fun a b => a && !b)

/-! ### Floating point (R67 to R87, R116 to R132) -/

/-- R117, R121, R124: add, subtract, multiply, divide, minimum and maximum of two operands, one element or two, in every
format; whether the results are written or the floating-point trap is taken is that of R26 and R118. R125: fused
multiply-add, one rounding, the destination the addend. -/
def Obligations.FloatOfTwoAndFused : Prop :=
  (
    Fp3 1 .addF32 (fAdd f32) ∧ Fp3 1 .subF32 (fSub f32) ∧ Fp3 1 .mulF32 (fMul f32) ∧ Fp3 1 .divF32 (fDiv f32) ∧
    Fp3 1 .minF32 (fun c => fMinMax f32 c false false) ∧ Fp3 1 .maxF32 (fun c => fMinMax f32 c true false) ∧
    Fp3 1 .minnF32 (fun c => fMinMax f32 c false true) ∧ Fp3 1 .maxnF32 (fun c => fMinMax f32 c true true) ∧
    Fp3 2 .addF64 (fAdd f64) ∧ Fp3 2 .subF64 (fSub f64) ∧ Fp3 2 .mulF64 (fMul f64) ∧ Fp3 2 .divF64 (fDiv f64) ∧
    Fp3 2 .minF64 (fun c => fMinMax f64 c false false) ∧ Fp3 2 .maxF64 (fun c => fMinMax f64 c true false) ∧
    Fp3 2 .minnF64 (fun c => fMinMax f64 c false true) ∧ Fp3 2 .maxnF64 (fun c => fMinMax f64 c true true) ∧
    Fp3 1 .addF16 (fAdd f16) ∧ Fp3 1 .subF16 (fSub f16) ∧ Fp3 1 .mulF16 (fMul f16) ∧
    Fp3 1 .minF16 (fun c => fMinMax f16 c false false) ∧ Fp3 1 .maxF16 (fun c => fMinMax f16 c true false) ∧
    Fp3 1 .addBf16 (fAdd bf16) ∧ Fp3 1 .subBf16 (fSub bf16) ∧ Fp3 1 .mulBf16 (fMul bf16) ∧
    Fp3 1 .minBf16 (fun c => fMinMax bf16 c false false) ∧ Fp3 1 .maxBf16 (fun c => fMinMax bf16 c true false) ∧
    Fp3 1 .add2F16 (fun c => packed2 (fAdd f16 c)) ∧ Fp3 1 .sub2F16 (fun c => packed2 (fSub f16 c)) ∧
    Fp3 1 .mul2F16 (fun c => packed2 (fMul f16 c)) ∧
    Fp3 1 .add2Bf16 (fun c => packed2 (fAdd bf16 c)) ∧ Fp3 1 .sub2Bf16 (fun c => packed2 (fSub bf16 c)) ∧
    Fp3 1 .mul2Bf16 (fun c => packed2 (fMul bf16 c))) ∧
  (
    Fp4 1 .fmaF32 (fun c => fFma f32 c false false) ∧ Fp4 1 .fmsF32 (fun c => fFma f32 c false true) ∧
    Fp4 1 .fnmaF32 (fun c => fFma f32 c true false) ∧ Fp4 1 .fnmsF32 (fun c => fFma f32 c true true) ∧
    Fp4 2 .fmaF64 (fun c => fFma f64 c false false) ∧ Fp4 2 .fmsF64 (fun c => fFma f64 c false true) ∧
    Fp4 2 .fnmaF64 (fun c => fFma f64 c true false) ∧ Fp4 2 .fnmsF64 (fun c => fFma f64 c true true) ∧
    Fp4 1 .fmaF16 (fun c => fFma f16 c false false) ∧ Fp4 1 .fnmaF16 (fun c => fFma f16 c true false) ∧
    Fp4 1 .fmaBf16 (fun c => fFma bf16 c false false) ∧ Fp4 1 .fnmaBf16 (fun c => fFma bf16 c true false) ∧
    Fp4 1 .fma2F16 (fun c => packed3 (fFma f16 c false false)) ∧ Fp4 1 .fnma2F16 (fun c => packed3 (fFma f16 c true false)) ∧
    Fp4 1 .fma2Bf16 (fun c => packed3 (fFma bf16 c false false)) ∧ Fp4 1 .fnma2Bf16 (fun c => packed3 (fFma bf16 c true false)))

/-- R120 to R123: roots, rounding to a whole number, scaling, the raw forms (sign bit cleared, inverted, copied), the
class mask, and the compares, which write a predicate. -/
def Obligations.FloatOfOneAndCompares : Prop :=
  Fp2 1 1 .sqrtF32 (fSqrt f32) ∧ Fp2 2 2 .sqrtF64 (fSqrt f64) ∧
  (∀ m, Fp2 1 1 (fun d a => .rintF32 d a m) (fun c => fRint f32 c (codeMode c.rm m))) ∧
  (∀ m, Fp2 2 2 (fun d a => .rintF64 d a m) (fun c => fRint f64 c (codeMode c.rm m))) ∧
  Lane2 1 1 .absF32 (fun a => a % 2 ^ 31) ∧ Lane2 2 2 .absF64 (fun a => a % 2 ^ 63) ∧
  Lane2 1 1 .negF32 (fun a => (a + 2 ^ 31) % 2 ^ 32) ∧ Lane2 2 2 .negF64 (fun a => (a + 2 ^ 63) % 2 ^ 64) ∧
  Lane3 1 1 1 .csgnF32 (fun a b => a % 2 ^ 31 + b / 2 ^ 31 * 2 ^ 31) ∧
  Lane3 2 2 2 .csgnF64 (fun a b => a % 2 ^ 63 + b / 2 ^ 63 * 2 ^ 63) ∧
  Lane2 1 1 .classF32 (fClass f32) ∧ Lane2 1 2 .classF64 (fClass f64) ∧
  (∀ d a b s, Ready (.sclF32 d a b) s → FpEnds (.sclF32 d a b) s d.toNat 1
    (fun l => fScl f32 s.src.fctl (s.src.rdV a.toNat l).toNat (s.src.rdV b.toNat l).toInt)
    (fun l => s.src.badV a.toNat 1 l || s.src.badV b.toNat 1 l)) ∧
  (∀ d a b s, Ready (.sclF64 d a b) s → FpEnds (.sclF64 d a b) s d.toNat 2
    (fun l => fScl f64 s.src.fctl (s.src.rdW 2 a.toNat l) (s.src.rdV b.toNat l).toInt)
    (fun l => s.src.badV a.toNat 2 l || s.src.badV b.toNat 1 l)) ∧
  (∀ k p a b s f w, ((f = f32 ∧ w = 1 ∧ Ready (.compareF32 k p a b) s) ∨ (f = f64 ∧ w = 2 ∧ Ready (.compareF64 k p a b) s)) →
    let r := fun l => fCompare f s.src.fctl k.toNat (s.src.rdW w a.toNat l) (s.src.rdW w b.toNat l)
    let x := fun l => s.src.badV a.toNat w l || s.src.badV b.toNat w l
    let u := flagsOf s.iss.eff (fun l => (0, (r l).2)) x
    let i := if w = 1 then Instr.compareF32 k p a b else Instr.compareF64 k p a b
    (u &&& s.src.fpEnables = 0 → ∃ t, exec i s = .next t ∧ PredIs s.iss.eff p.toNat (fun l => (r l).1) x (s.raise u) t) ∧
    (u &&& s.src.fpEnables ≠ 0 → ∃ l, exec i s = .next (s.trap (mkTrap 6 l (u.zeroExtend 64) 0 0 0))))

/-- R79 to R82, R126 to R130: conversions between formats, to and from integers, to and from codes with a scale, and the
shared scale of a group of lanes (in a protected launch, of the lanes of one parity, R410). -/
def Obligations.Conversions : Prop :=
  (∀ d a x m u v s, Ready (.cvt d a x m u v) s → FpEnds (.cvt d a x m u v) s d.toNat (cvtRegs v)
    (fun l => cvtVal { s.src.fctl with rm := codeMode s.src.rm m } (x == 1#1) u v (s.src.rdW (cvtRegs u) a.toNat l))
    (fun l => s.src.badV a.toNat (cvtRegs u) l)) ∧
  Fp4 1 .cvtE4m3F32 (fun c => narrow2 false (fConv e4m3 f32 c false)) ∧
  Fp4 1 .cvthiE4m3F32 (fun c => narrow2 true (fConv e4m3 f32 c false)) ∧
  Fp4 1 .cvtE5m2F32 (fun c => narrow2 false (fConv e5m2 f32 c false)) ∧
  Fp4 1 .cvthiE5m2F32 (fun c => narrow2 true (fConv e5m2 f32 c false)) ∧
  Fp4 1 .cvtE4m3F32Sat (fun c => narrow2 false (fConv e4m3 f32 c true)) ∧
  Fp4 1 .cvthiE4m3F32Sat (fun c => narrow2 true (fConv e4m3 f32 c true)) ∧
  Fp4 1 .cvtE5m2F32Sat (fun c => narrow2 false (fConv e5m2 f32 c true)) ∧
  Fp4 1 .cvthiE5m2F32Sat (fun c => narrow2 true (fConv e5m2 f32 c true)) ∧
  (∀ k, Fp2 1 1 (fun d a => .cvtF32E4m3 d a k) (fun c x => fConv f32 e4m3 c false (x / 2 ^ (8 * k.toNat) % 256))) ∧
  (∀ k, Fp2 1 1 (fun d a => .cvtF32E5m2 d a k) (fun c x => fConv f32 e5m2 c false (x / 2 ^ (8 * k.toNat) % 256))) ∧
  (∀ h f i, (f = e4m3 ∧ i = Instr.cvt2Bf16E4m3) ∨ (f = e5m2 ∧ i = Instr.cvt2Bf16E5m2) →
    Fp2 1 1 (fun d a => i d a h) (fun c x =>
      let lo := fConv bf16 f c false (x / 2 ^ (16 * h.toNat) % 256)
      let hi := fConv bf16 f c false (x / 2 ^ (16 * h.toNat + 8) % 256)
      (lo.1 + 2 ^ 16 * hi.1, lo.2 ||| hi.2))) ∧
  Fp3 1 .cvtW4F32 (fun c => toCode c 4) ∧ Fp3 1 .cvtW3F32 (fun c => toCode c 3) ∧ Fp3 1 .cvtF32W4 ofCode ∧
  (∀ d a k s, Ready (.qsc d a k) s → ∃ t, exec (.qsc d a k) s = .next t ∧
    LanesAre s.iss.eff d.toNat 1
      (fun l _ => BitVec.ofNat 32 (scaleByte s.src.daz k.toNat
        (((lanesOf s.iss.eff).filter (fun i => !s.src.prot || i % 2 == l % 2)).map (fun i => (s.src.rdV a.toNat i).toNat))))
      (fun l => ((lanesOf s.iss.eff).filter (fun i => !s.src.prot || i % 2 == l % 2)).any
        (fun i => (s.src.poisV a.toNat).getLsbD i)) s t)

/-- R132: the special-function unit: every function ends as R118 says; a NaN gives the NaN of R78; the special values
that the table lists are exact. Where the table gives a bound, the result is the device's own choice within it, a free
value (log 13). -/
def Obligations.SpecialFunctions : Prop :=
  Fp2 1 1 .rcp (sfu 0) ∧ Fp2 1 1 .rsqrt (sfu 1) ∧ Fp2 1 1 .sfsqrt (sfu 2) ∧ Fp2 1 1 .exp2 (sfu 3) ∧
  Fp2 1 1 .log2 (sfu 4) ∧ Fp2 1 1 .sinpi (sfu 5) ∧ Fp2 1 1 .cospi (sfu 6) ∧ Fp2 1 1 .exp (sfu 7) ∧
  Fp2 2 1 .sincospi (fun c x => ((sfu 9 c x).1 + 2 ^ 32 * (sfu 8 c x).1, (sfu 9 c x).2 ||| (sfu 8 c x).2)) ∧
  (∀ fn c x, (f32.dec (f32.daz c.daz x)).isNan = true →
    sfu fn c x = (f32.daz c.daz x ||| 2 ^ 22, if (f32.dec (f32.daz c.daz x)).isSnan then flagNV else 0)) ∧
  (∀ c, sfu 0 c 0 = (0x7F800000, flagDZ) ∧ sfu 0 c 0x80000000 = (0xFF800000, flagDZ) ∧ sfu 0 c 0x7F800000 = (0, 0) ∧
    sfu 1 c 0 = (0x7F800000, flagDZ) ∧ sfu 1 c 0x80000000 = (0xFF800000, flagDZ) ∧ sfu 1 c 0xBF800000 = (0x7FC00000, flagNV) ∧
    sfu 2 c 0x80000000 = (0x80000000, 0) ∧ sfu 2 c 0xBF800000 = (0x7FC00000, flagNV) ∧
    sfu 3 c 0xFF800000 = (0, 0) ∧ sfu 3 c 0x43000000 = (0x7F800000, flagOF) ∧
    sfu 4 c 0 = (0xFF800000, flagDZ) ∧ sfu 4 c 0x3F800000 = (0, 0) ∧ sfu 4 c 0xBF800000 = (0x7FC00000, flagNV) ∧
    sfu 5 c 0x3F000000 = (0x3F800000, 0) ∧ sfu 5 c 0x7F800000 = (0x7FC00000, flagNV) ∧
    sfu 6 c 0 = (0x3F800000, 0) ∧ sfu 6 c 0x3F000000 = (0, 0) ∧ sfu 7 c 0 = (0x3F800000, 0))

/-- R73: a rounded result that does not overflow is the nearest value of the format, the even one on a tie; the nearest
toward zero, toward −∞ or toward +∞ in the other modes; NX says whether it differs from the exact value. R122: the
compares order finite values as numbers, −0 equal to +0, and raise nothing on them. -/
def Obligations.RoundingAndOrder : Prop :=
  (
    ∀ f ∈ [f64, f32, f16, bf16, e5m2, e4m3], ∀ c sg m e, m ≠ 0 → (c.ftz = false ∨ f.flushable = false) →
      (roundTo f c false sg m e).2 &&& flagOF = 0 →
      let z := (roundTo f c false sg m e).1
      let x : Rat := (if sg then -1 else 1) * (m : Rat) * (2 : Rat) ^ e
      f.finite z ∧ ((roundTo f c false sg m e).2 &&& flagNX ≠ 0 ↔ f.val z ≠ x) ∧
      (c.rm = .rne → ∀ w, f.finite w → |f.val z - x| ≤ |f.val w - x| ∧
        (f.val w ≠ f.val z → |f.val z - x| = |f.val w - x| → z % 2 = 0)) ∧
      (c.rm = .rtz → |f.val z| ≤ |x| ∧ ∀ w, f.finite w → |f.val w| ≤ |x| → |f.val w| ≤ |f.val z|) ∧
      (c.rm = .rdn → f.val z ≤ x ∧ ∀ w, f.finite w → f.val w ≤ x → f.val w ≤ f.val z) ∧
      (c.rm = .rup → x ≤ f.val z ∧ ∀ w, f.finite w → x ≤ f.val w → f.val z ≤ f.val w)) ∧
  (
    ∀ f ∈ [f64, f32], ∀ rm ftz x y, f.finite x → f.finite y →
      let r := fun k => fCompare f ⟨rm, false, ftz⟩ k x y
      (∀ k, k < 8 → (r k).2 = 0) ∧
      ((r 0).1 = true ↔ f.val x = f.val y) ∧ ((r 1).1 = true ↔ f.val x ≠ f.val y) ∧
      ((r 2).1 = true ↔ f.val x < f.val y) ∧ ((r 3).1 = true ↔ f.val x ≥ f.val y) ∧
      ((r 4).1 = true ↔ f.val x ≤ f.val y) ∧ ((r 5).1 = true ↔ f.val x > f.val y) ∧
      (r 6).1 = true ∧ (r 7).1 = false)

/-- R78: a NaN among the inputs gives the first of them, made quiet, sign and payload kept; a signalling one raises NV. -/
def Obligations.NanOperands : Prop :=
  ∀ f ∈ [f64, f32, f16, bf16], ∀ c x y z,
    let a := f.dec (f.daz c.daz x)
    let b := f.dec (f.daz c.daz y)
    let d := f.dec (f.daz c.daz z)
    let q := fun x => f.daz c.daz x ||| 2 ^ (f.fb - 1)
    let nv := fun (s : Bool) => if s then flagNV else 0#5
    (∀ g ∈ [fAdd, fSub, fMul, fDiv], (a.isNan = true → g f c x y = (q x, nv (a.isSnan || b.isSnan))) ∧
      (a.isNan = false → b.isNan = true → g f c x y = (q y, nv b.isSnan))) ∧
    (∀ n k, (a.isNan = true → fFma f c n k x y z = (q x, nv (a.isSnan || b.isSnan || d.isSnan))) ∧
      (a.isNan = false → b.isNan = true → fFma f c n k x y z = (q y, nv (b.isSnan || d.isSnan))) ∧
      (a.isNan = false → b.isNan = false → d.isNan = true →
        fFma f c n k x y z = (q z, nv (d.isSnan || (mulExact a b).isNone))))

/-! ### Lanes together (R165 to R175, R85, R86) -/

/-- R168: each lane with effect receives the register that its source lane held before the chain; a source outside the
group gives the lane its own. In a protected launch the source is the lane of that pair with the receiver's parity. -/
def Obligations.Exchanges : Prop :=
  let src := fun (s : State) (x : Int) (l : Nat) =>
    let y := if x < 0 ∨ (s.g.width : Int) ≤ x then l else x.toNat
    if s.src.prot then y / 2 * 2 + l % 2 else y
  (∀ w c, (w = 1 ∧ c = Instr.xchAtB32) ∨ (w = 2 ∧ c = Instr.xchAtB64) → ∀ d a b s, Ready (c d a b) s →
    let k := fun l => src s ((s.src.rdV b.toNat l).toNat % 32 : Nat) l
    ∃ t, exec (c d a b) s = .next t ∧ LanesAre s.iss.eff d.toNat w (fun l j => s.src.rdV (a.toNat + j) (k l))
      (fun l => s.src.badV a.toNat w (k l) || (s.src.poisV b.toNat).getLsbD l) s t) ∧
  (∀ w c (f : Nat → Nat → Int),
    (w = 1 ∧ c = Instr.xchLoB32 ∧ f = fun (l n : Nat) => (l : Int) - (n : Int)) ∨ (w = 2 ∧ c = Instr.xchLoB64 ∧ f = fun (l n : Nat) => (l : Int) - (n : Int)) ∨
    (w = 1 ∧ c = Instr.xchHiB32 ∧ f = fun (l n : Nat) => (l : Int) + (n : Int)) ∨ (w = 2 ∧ c = Instr.xchHiB64 ∧ f = fun (l n : Nat) => (l : Int) + (n : Int)) ∨
    (w = 1 ∧ c = Instr.xchFlipB32 ∧ f = fun (l n : Nat) => ((l ^^^ n : Nat) : Int)) ∨
    (w = 2 ∧ c = Instr.xchFlipB64 ∧ f = fun (l n : Nat) => ((l ^^^ n : Nat) : Int)) →
    ∀ d a n s, Ready (c d a n) s →
    let k := fun l => src s (f l n.toNat) l
    ∃ t, exec (c d a n) s = .next t ∧ LanesAre s.iss.eff d.toNat w (fun l j => s.src.rdV (a.toNat + j) (k l))
      (fun l => s.src.badV a.toNat w (k l)) s t)

/-- R169: tests and the mask of the lanes with effect, written to each of them; in a protected launch each parity counts
for itself and the mask holds the even bit of the pair (R410). -/
def Obligations.LaneTests : Prop :=
  (∀ d a s, Ready (.lall d a) s → ∃ t, exec (.lall d a) s = .next t ∧
    PredIs s.iss.eff d.toNat (fun l => (s.mates l).all (fun k => s.src.rdPL a.toNat k))
      (fun l => (s.mates l).any (fun k => (s.src.poisP a.toNat).getLsbD k)) s t) ∧
  (∀ d a s, Ready (.lany d a) s → ∃ t, exec (.lany d a) s = .next t ∧
    PredIs s.iss.eff d.toNat (fun l => (s.mates l).any (fun k => s.src.rdPL a.toNat k))
      (fun l => (s.mates l).any (fun k => (s.src.poisP a.toNat).getLsbD k)) s t) ∧
  (∀ d a s, Ready (.lsameB32 d a) s → ∃ t, ∃ x : Nat → Bool, exec (.lsameB32 d a) s = .next t ∧
    (∀ l, x l = true ↔ ∀ j ∈ s.mates l, ∀ k ∈ s.mates l, s.src.rdV a.toNat j = s.src.rdV a.toNat k) ∧
    PredIs s.iss.eff d.toNat x (fun l => (s.mates l).any (fun k => (s.src.poisV a.toNat).getLsbD k)) s t) ∧
  (∀ d a s, Ready (.lmaskB32 d a) s → ∃ t, ∃ x : Nat → Word, exec (.lmaskB32 d a) s = .next t ∧
    (∀ l k, k < 32 → ((x l).getLsbD k = true ↔
      ∃ j ∈ s.mates l, s.src.rdPL a.toNat j = true ∧ k = if s.src.prot then j / 2 * 2 else j)) ∧
    LanesAre s.iss.eff d.toNat 1 (fun l _ => x l)
      (fun l => (s.mates l).any (fun k => (s.src.poisP a.toNat).getLsbD k)) s t)

/-- R86, R170, R171: scans run over the lanes that take part in ascending order, one rounding a step, the first delivered
unchanged; a lane that takes no part receives the value of the nearest lower lane that does, or zero of the format;
`scanx` gives each lane the value below it, or the identity of the operator. -/
def Obligations.Scans : Prop :=
  ∀ d a p o s, o.toNat < 14 →
    let w := opRegs o
    let x := fun k => s.src.rdW w a.toNat k
    let op := opFn s.src.fctl o
    let bad := fun (ls : List Nat) => ls.any (fun k => s.src.badV a.toNat w k)
    let f := fun l => if bad ((s.takers p l).filter (· ≤ l)) then 0 else combineFlags op x (s.takers p l) l
    (Ready (.scan d a p o) s → CombineEnds (.scan d a p o) s d.toNat w
      (fun l => (combine op x ((s.takers p l).filter (· ≤ l))).getD 0) f (fun l => bad ((s.takers p l).filter (· ≤ l)))) ∧
    (Ready (.scanx d a p o) s → CombineEnds (.scanx d a p o) s d.toNat w
      (fun l => (combine op x ((s.takers p l).filter (· < l))).getD (opIdentity o)) f
      (fun l => bad ((s.takers p l).filter (· < l))))

/-- R85, R172, R174: a reduction combines the values of the lanes that take part by the fixed tree over 32 slots, where a
slot of a lane that takes no part holds nothing; `tput` puts a group's value into its slot and flips its epoch, and
`tget` combines by the same tree the slots of its operator and epoch. -/
def Obligations.Reductions : Prop :=
  ∀ (o : BitVec 4) (s : State), o.toNat < 14 →
    let w := opRegs o
    let op := opFn s.src.fctl o
    let red := fun (a : BitVec 7) (p : BitVec 3) (l : Nat) =>
      treeFold op (fun i => if i ∈ s.takers p l then some (s.src.rdW w a.toNat i) else none) 5 0
    let bad : BitVec 7 → BitVec 3 → Nat → Bool := fun a p l => (s.takers p l).any (fun k => s.src.badV a.toNat w k)
    (∀ d a p, Ready (.red d a p o) s → CombineEnds (.red d a p o) s d.toNat w (fun l => (red a p l).1.getD 0)
      (fun l => if bad a p l = true then 0 else (red a p l).2) (bad a p)) ∧
    (∀ a p, Ready (.tput a p o) s → let u : BitVec 5 := if bad a p 0 = true then 0 else (red a p 0).2
      let slot := (red a p 0).1.map (fun v => FoldSlot.mk (BitVec.ofNat 64 v) o.toNat (!s.g.foldE))
      (u &&& s.src.fpEnables = 0 → exec (.tput a p o) s =
        .next (((s.setG (fun g => { g with foldE := !s.g.foldE })).setTeam s.g.team (fun t =>
          { t with fold := mapSet none t.fold s.g.grp slot })).raise u)) ∧
      (u &&& s.src.fpEnables ≠ 0 → ∃ l, exec (.tput a p o) s = .next (s.trap (mkTrap 6 l (u.zeroExtend 64) 0 0 0)))) ∧
    (∀ d, Ready (.tget d o) s →
      let slot := fun i => ((s.myTeam.bind (fun t => mapGet none t.fold i)).filter
        (fun x => x.op == o.toNat && x.tag == s.g.foldE)).map (fun x => x.val.toNat)
      CombineEnds (.tget d o) s d.toNat w (fun _ => (treeFold op slot 5 0).1.getD 0)
        (fun _ => (treeFold op slot 5 0).2) (fun _ => false))

/-! ### Control (R49, R52, R106 to R113, R175 to R179) -/

/-- R52, R111 to R113, R179: the words that only advance, wait or read a clock. `wait` stalls while a counter exceeds
its limit, `ifence` until no store is outstanding, then the packet is fetched anew; `yield` puts the group behind the
groups of its quarter. How far the clocks have moved is free (log 9). -/
def Obligations.WaitsAndClocks : Prop :=
  (∀ s, Ready .nop s → exec .nop s = .next s) ∧
  (∀ l x p m s, Ready (.wait l x p m) s → exec (.wait l x p m) s = .next
    (if s.opcnt.toNat % 64 ≤ l.toNat ∧ s.opcnt.toNat / 2 ^ 8 % 64 ≤ x.toNat ∧ s.opcnt.toNat / 2 ^ 16 % 16 ≤ p.toNat ∧
        s.opcnt.toNat / 2 ^ 24 % 16 ≤ m.toNat then s else s.stall)) ∧
  (∀ s, Ready .ifence s → exec .ifence s = .next
    (if s.opcnt.toNat / 2 ^ 8 % 64 = 0 then s.setG (fun g => { g with pkt := none }) else s.stall)) ∧
  (∀ s, Ready .yield s → exec .yield s = .next (s.setG (fun g => { g with owed := s.quarterMates }))) ∧
  (∀ d s, Ready (.rdcyc d) s → ∃ t, exec (.rdcyc d) s = .next t ∧
    ScalarIs d.toNat (BitVec.ofNat 64 ((s.coreSt s.core).cyc + s.g.cycOff)) false s t) ∧
  (∀ d s, Ready (.rdtime d) s → ∃ t, exec (.rdtime d) s = .next t ∧
    ScalarIs d.toNat (BitVec.ofNat 64 s.tick) false s t)

/-- R106: the relative branch. In the lanes with effect whose predicate says so, `pcv` takes the slot of the packet at
the displacement; a target outside 0 to 2^30 − 1 is the bad-PC trap; not taken anywhere, it changes nothing. In a
protected launch a pair whose two lanes differ is a mismatch (R411), and nothing moves. R107, R108: `jr`, `ret` and
`call` go to the `pcv` in a scalar, read before the link is written; a target above 32 bits is the bad-PC trap and
writes no link. -/
def Obligations.BranchesAndJumps : Prop :=
  (
    ∀ p n (d : BitVec 19) x s, Ready (.br p n d x) s →
      let taken := fun l => s.src.rdPL p.toNat l != (n == 1#1)
      let m := maskOf (fun l => s.iss.eff.getLsbD l && taken l)
      let z : Int := ((s.iss.pc.toNat / 4 : Nat) : Int) + d.toInt
      let alike := s.src.prot = false ∨ ∀ i, i < 16 → s.iss.eff.getLsbD (2 * i) = true → s.iss.eff.getLsbD (2 * i + 1) = true →
        taken (2 * i) = taken (2 * i + 1)
      (m = 0 → exec (.br p n d x) s = .next s) ∧
      (m ≠ 0 → alike → 0 ≤ z → z < 2 ^ 30 → ∃ t, exec (.br p n d x) s = .next t ∧
        MovedTo m (BitVec.ofNat 32 (4 * z.toNat + x.toNat)) s t) ∧
      (m ≠ 0 → alike → z < 0 ∨ 2 ^ 30 ≤ z → exec (.br p n d x) s = .next
        (s.trap (mkTrap 4 (lowestLane m) (s.iss.pc.zeroExtend 64) (BitVec.ofInt 64 z) 0 0))) ∧
      (m ≠ 0 → ¬ alike → ∃ l, exec (.br p n d x) s = .next (s.setIss (fun i => { i with mism := some (l, 0) })))) ∧
  (
    ∀ a s, let z := s.src.rdS a.toNat
      (∀ i, i = Instr.jr a ∨ i = Instr.ret a → Ready i s →
        (z.toNat < 2 ^ 32 → ∃ t, exec i s = .next t ∧ MovedTo s.iss.eff (z.extractLsb' 0 32) s t) ∧
        (2 ^ 32 ≤ z.toNat → exec i s = .next (s.trap (mkTrap 4 (lowestLane s.iss.eff) z (s.iss.pc.zeroExtend 64) 0 0)))) ∧
      (∀ d, Ready (.call d a) s →
        (z.toNat < 2 ^ 32 → ∃ u t, exec (.call d a) s = .next t ∧
          ScalarIs d.toNat (s.iss.next.zeroExtend 64) false s u ∧ MovedTo s.iss.eff (z.extractLsb' 0 32) u t) ∧
        (2 ^ 32 ≤ z.toNat → exec (.call d a) s = .next
          (s.trap (mkTrap 4 (lowestLane s.iss.eff) z (s.iss.pc.zeroExtend 64) 0 0)))))

/-- R49, R176, R178: `pblk` captures its predicate and pattern in every lane of the issue set; `exit` makes the lanes with
effect EXITED, `join` makes them JOINWAIT at the chain's own `pcv`, past it in block state, and notes where they go on. -/
def Obligations.BlocksExitsJoins : Prop :=
  (∀ p l pat s, Ready (.pblk p l pat) s → ∃ t, exec (.pblk p l pat) s = .next t ∧
    (∀ k, k < 32 → t.g.blkOf k = if s.iss.set.getLsbD k then ⟨s.src.rdPL p.toNat k, pat, l.toNat + 1⟩ else s.g.blkOf k) ∧
    t = { s with g := { s.g with blk := t.g.blk } }) ∧
  (∀ s, Ready .exit s → s.g.kind ≠ .mgmt → ∃ t, exec .exit s = .next t ∧
    (∀ k, t.g.lane k = if s.iss.eff.getLsbD k then .exited else s.g.lane k) ∧
    (∀ k, t.g.blkOf k = if s.iss.eff.getLsbD k then Blk.none else s.g.blkOf k) ∧
    t = { s with g := { s.g with lsv := t.g.lsv, blk := t.g.blk },
                 iss := { s.iss with moved := s.iss.moved ||| s.iss.eff } }) ∧
  (∀ s, Ready .exit s → s.g.kind = .mgmt → ∃ t, exec .exit s = .next t ∧
    (t.tile s.g.home).lastTimer = s.tick ∧ (∀ k, t.g.lane k = if s.iss.eff.getLsbD k then .exited else s.g.lane k)) ∧
  (∀ s, Ready .join s → ∃ t, exec .join s = .next t ∧
    (∀ k, t.g.lane k = if s.iss.eff.getLsbD k ∧ s.g.lane k ≠ .shadow then .joinWait else s.g.lane k) ∧
    (∀ k, t.g.pc k = if s.iss.eff.getLsbD k then s.iss.chainPc else s.g.pc k) ∧
    (∀ k, s.iss.eff.getLsbD k = true → mapGet none t.g.joinNext k = s.iss.skip) ∧
    t = { s with g := { s.g with lsv := t.g.lsv, blk := t.g.blk, pcv := t.g.pcv, joinNext := t.g.joinNext },
                 iss := { s.iss with moved := s.iss.moved ||| s.iss.eff } })

/-- R32, R109: `mrd` gives each machine register, as it stood before the chain, `OPCNT` before any word of it. R175,
R397: identity values by number; the handler's registers `k0` to `k7`, in trap mode alone. -/
def Obligations.MachineRegisterReads : Prop :=
  (
    ∀ d i s, Ready (.mrd d i) s → ∃ v, (∃ t, exec (.mrd d i) s = .next t ∧ ScalarIs d.toNat v false s t) ∧
      (i.unsigned = 0x000 → v = s.src.mstat.zeroExtend 64) ∧ (i.unsigned = 0x001 → v = s.src.fpctl.zeroExtend 64) ∧
      (i.unsigned = 0x002 → v = s.opcnt.zeroExtend 64) ∧ (i.unsigned = 0x003 → v = s.iss.pc.zeroExtend 64) ∧
      (i.unsigned = 0x004 → v = 1) ∧ (i.unsigned = 0x008 → v = s.src.codeBase) ∧
      (i.unsigned = 0x010 → v = s.src.trapCause.zeroExtend 64) ∧ (i.unsigned = 0x011 → v = s.src.info0) ∧
      (i.unsigned = 0x012 → v = s.src.info1) ∧ (i.unsigned = 0x013 → v = s.src.info2) ∧
      (i.unsigned = 0x014 → v = s.src.info3) ∧ (i.unsigned = 0x020 → v = (s.tile s.g.tile).errBase) ∧
      (i.unsigned = 0x021 → v = (s.tile s.g.tile).ctxBase ||| if (s.tile s.g.tile).ctxReady then 2 ^ 63 else 0) ∧
      (i.unsigned = 0x030 → ∀ k, s.myTeam = some k → v = k.mbox) ∧
      (i.unsigned = 0x040 → v = 0x3FF) ∧ (i.unsigned = 0x041 → v = s.dev.featAccept)) ∧
  (
    (∀ d a s t gr, s.myTeam = some t → s.myGrid = some gr →
      (Ready (.idrScalar d a) s → ∃ u, exec (.idrScalar d a) s = .next u ∧
        ScalarIs d.toNat (BitVec.ofNat 64 (identity s.g t gr a.toNat 0)) false s u) ∧
      (Ready (.idrLane d a) s → ∃ u, exec (.idrLane d a) s = .next u ∧
        LanesAre s.iss.eff d.toNat 1
          (fun l _ => BitVec.ofNat 32 (identity s.g t gr a.toNat (if s.src.prot then l / 2 * 2 else l))) (fun _ => false) s u)) ∧
    (∀ d a s, Ready (.kput d a) s → ∃ t, exec (.kput d a) s = .next t ∧ s.src.tm = true ∧
      (∀ n, t.g.r.rdK n = if n = d.toNat then s.src.rdS a.toNat else s.g.r.rdK n) ∧
      t = s.setR (fun r => { r with k := t.g.r.k, kPois := t.g.r.kPois })) ∧
    (∀ d a s, Ready (.kget d a) s → s.src.tm = true ∧ ∃ t, exec (.kget d a) s = .next t ∧
      ScalarIs d.toNat (s.src.rdK a.toNat) (s.src.poisK a.toNat) s t))

/-- R18, R23, R25, R109, R110: `mwr` writes the fields that software may write: `MSTAT.AEN` and `SSTEP`, `UNIF_FL` clearing
where 1 is written; the controls, enables and modes of `FPCTL`, its flags clearing where 1 is written; the trap
information whole; the packet-aligned base of the code. `pcv`, `lsv`, `OPCNT` and `TRAP_CAUSE` keep their values. -/
def Obligations.MachineWrites : Prop :=
  ∀ a i s, Ready (.mwr a i) s → let x := s.src.rdS a.toNat
    (i.unsigned = 0x000 → ∃ t, exec (.mwr a i) s = .next t ∧ t = s.setR (fun r => { r with mstat := t.g.r.mstat }) ∧
      ∀ n, n < 32 → t.g.r.mstat.getLsbD n =
        if n = 6 ∨ n = 7 then x.getLsbD n else if n = 15 then s.g.r.mstat.getLsbD 15 && !x.getLsbD 15 else s.g.r.mstat.getLsbD n) ∧
    (i.unsigned = 0x001 → ∃ t, exec (.mwr a i) s = .next t ∧ t = s.setR (fun r => { r with fpctl := t.g.r.fpctl }) ∧
      ∀ n, n < 32 → t.g.r.fpctl.getLsbD n =
        if (8 ≤ n ∧ n ≤ 12) ∨ n = 16 ∨ n = 17 ∨ n = 22 ∨ n = 23 then x.getLsbD n
        else if n ≤ 4 then s.g.r.fpctl.getLsbD n && !x.getLsbD n else s.g.r.fpctl.getLsbD n) ∧
    (i.unsigned = 0x002 ∨ i.unsigned = 0x003 ∨ i.unsigned = 0x004 ∨ i.unsigned = 0x010 ∨ i.unsigned = 0x040 →
      exec (.mwr a i) s = .next s) ∧
    (i.unsigned = 0x008 → ∃ t, exec (.mwr a i) s = .next t ∧ t.g.r = { s.g.r with codeBase := x &&& ~~~(0xFFF : DWord) } ∧
      t.g.pcv = s.g.pcv ∧ t.g.lsv = s.g.lsv) ∧
    (i.unsigned = 0x020 → exec (.mwr a i) s = .next
      (s.setTile s.g.tile (fun y => { y with errBase := x &&& 0x01FFFFFFFFFFF00F }))) ∧
    (i.unsigned = 0x021 → exec (.mwr a i) s = .next (s.ctxBaseWrite s.g.tile x)) ∧
    (i.unsigned = 0x030 → ∃ t, exec (.mwr a i) s = .next t ∧ ∀ y, s.team s.g.team = some y →
      ∃ z, t.team s.g.team = some z ∧ z.mbox = y.mbox &&& ~~~(x &&& 0xC000000000000000)) ∧
    (i.unsigned = 0x041 → exec (.mwr a i) s = .next (if s.g.kind = .mgmt ∧ s.g.home = 0 ∧ s.dev.run = false
      then s.setDev (fun y => { y with featAccept := x &&& 0x3FF }) else s)) ∧
    (i.unsigned = 0x011 → exec (.mwr a i) s = .next (s.setR (fun r => { r with info0 := x }))) ∧
    (i.unsigned = 0x012 → exec (.mwr a i) s = .next (s.setR (fun r => { r with info1 := x }))) ∧
    (i.unsigned = 0x013 → exec (.mwr a i) s = .next (s.setR (fun r => { r with info2 := x }))) ∧
    (i.unsigned = 0x014 → exec (.mwr a i) s = .next (s.setR (fun r => { r with info3 := x })))

/-! ### Traps (R55, R390 to R398) -/

/-- R2, R13, R16, R32, R55, R134, R152, R492: the traps that stand before any effect, for every encoded word: not
available on the core, the role or the register number, whatever lanes have effect; then an odd pair or a register
outside the allotment; then the mode. Each is taken with the word's `TRAP_INFO`. A word without lanes does nothing.
R28, R29, R167, R404: what comes after those checks, for every encoded word: a counter at its maximum or an operand
awaited puts the word off; then a uniform operand that differs traps with the mask of the lanes that differ; then a
poisoned operand that the word consumes traps. `INFO1` of a privileged word, and the register that `INFO2` names for
a differing operand, are the model's reading (log 11, 17). -/
def Obligations.TrapsAndStallsBeforeEffect : Prop :=
  (
    ∀ i s, (encodeFields i).isSome = true →
      let rs := (infoOf i).reads ++ (infoOf i).writes
      (∀ r, (infoOf i).unavailable s = some r → exec i s = .next (s.trap (mkTrap 1 (lowestLane s.iss.set)
        (s.iss.pc.zeroExtend 64) (s.iss.word.zeroExtend 64) (BitVec.ofNat 64 r) 0))) ∧
      ((infoOf i).unavailable s = none → s.iss.eff = 0 → exec i s = .next s) ∧
      ((infoOf i).unavailable s = none → s.iss.eff ≠ 0 → (∃ r ∈ rs, r.aligned = false) →
        exec i s = .next (s.trap (mkTrap 2 (lowestLane s.iss.eff) 0 0 0 0))) ∧
      ((infoOf i).unavailable s = none → s.iss.eff ≠ 0 → (∀ r ∈ rs, r.aligned = true) →
        (∃ r ∈ rs, (r.outside s.g.regsN).isSome = true) → ∃ n, s.g.regsN ≤ n ∧ (∃ r ∈ rs, r.outside s.g.regsN = some n) ∧
          (∀ r ∈ rs, ∀ k, r.outside s.g.regsN = some k → n ≤ k) ∧
          exec i s = .next (s.trap (mkTrap 2 (lowestLane s.iss.eff) 0 (BitVec.ofNat 64 n) 0 0))) ∧
      ((infoOf i).unavailable s = none → s.iss.eff ≠ 0 → (∀ r ∈ rs, r.aligned = true ∧ r.outside s.g.regsN = none) →
        (infoOf i).need.ok s.src = false → exec i s = .next (s.trap (mkTrap 3 (lowestLane s.iss.eff)
          (s.iss.pc.zeroExtend 64) (BitVec.ofNat 64 ((infoOf i).need.info1 s.iss.word)) 0 0)))) ∧
  (
    ∀ i s, (encodeFields i).isSome = true → (infoOf i).static s = none → s.iss.eff ≠ 0 →
      ((infoOf i).stalls s = true → exec i s = .next (s.setIss (fun x => { x with stalled := true }))) ∧
      ((infoOf i).stalls s = false → s.src.unifMode = false → ∀ t, (infoOf i).nonuniform s = some t →
        t.cause = 11 ∧ t.i0 = s.iss.pc.zeroExtend 64 ∧ t.i1 = s.iss.word.zeroExtend 64 ∧ exec i s = .next (s.trap t)) ∧
      ((infoOf i).stalls s = false → (s.src.unifMode = true ∨ (infoOf i).nonuniform s = none) →
        ∀ t, (infoOf i).poisoned s = some t →
        t.cause = 13 ∧ t.i0 = s.iss.pc.zeroExtend 64 ∧ t.i1 = s.iss.word.zeroExtend 64 ∧ exec i s = .next (s.trap t)))

/-- R391, R396: delivery to a handler. `TRAP_CAUSE` and `TRAP_INFO` are written, the `pcv`, state and block state of
every lane are saved, the handler lanes are LIVE (a shadow stays one) at the handler's `pcv` with no block state,
`MSTAT.TM` is 1 and its other bits stand; the group's cofferdams are breached (R286); scalars, lane registers,
predicates and every byte of memory are unchanged. R26, R396: a floating-point trap also sets the flags it reports. -/
def Obligations.HandlerEntry : Prop :=
  (
    ∀ (s : State) (t : TrapReq) (async : Bool) (h pc : Word), s.g.r.tm = false → s.g.handler = some pc → t.cause ≠ 6 → t.cause ≠ 13 → t.cause < 256 → t.lane < 32 →
      s.g.hold = .none → (∀ d ∈ s.dams, d.grp = s.gid → ∀ r ∈ s.reqs, r.state ≠ .onBlock d.blk) → (∀ r ∈ s.reqs, r.who ≠ .take s.gid) →
      let u := s.takeTrap t async h
      u.g.r.trapCause = BitVec.ofNat 32 (t.cause + 2 ^ 9 * t.lane + if async then 2 ^ 14 else 0) ∧
      u.g.r.info0 = t.i0 ∧ u.g.r.info1 = t.i1 ∧ u.g.r.info2 = t.i2 ∧ u.g.r.info3 = t.i3 ∧
      u.g.save = some ⟨s.g.pcv, s.g.lsv, s.g.blk, if async then none else s.iss.skip⟩ ∧ u.g.hlanes = h ∧
      (∀ l, u.g.pc l = if h.getLsbD l then pc else s.g.pc l) ∧
      (∀ l, u.g.lane l = if h.getLsbD l ∧ s.g.lane l ≠ .shadow then .live else s.g.lane l) ∧
      (∀ l, u.g.blkOf l = if h.getLsbD l then Blk.none else s.g.blkOf l) ∧
      u.g.r.tm = true ∧ (∀ n, 0 < n → n < 32 → u.g.r.mstat.getLsbD n = s.g.r.mstat.getLsbD n) ∧
      u.g.r.s = s.g.r.s ∧ u.g.r.v = s.g.r.v ∧ u.g.r.p = s.g.r.p ∧ u.g.r.k = s.g.r.k ∧ u.g.r.fpctl = s.g.r.fpctl ∧
      u.g.r.codeBase = s.g.r.codeBase ∧ (∀ d ∈ u.dams, d.grp = s.gid → d.breached = true) ∧ SameBytes s u) ∧
  (
    ∀ (s : State) (l : Nat) (f : BitVec 5) (pc : Word), s.g.r.tm = false → s.g.handler = some pc → s.g.hold = .none →
      (∀ d ∈ s.dams, d.grp = s.gid → ∀ r ∈ s.reqs, r.state ≠ .onBlock d.blk) → (∀ r ∈ s.reqs, r.who ≠ .take s.gid) →
      (s.fpTrap l f).g.r.fpctl = s.g.r.fpctl ||| f.zeroExtend 32 ∧ (s.fpTrap l f).g.r.info0 = f.zeroExtend 64 ∧
      (s.fpTrap l f).g.r.v = s.g.r.v ∧ (s.fpTrap l f).g.r.p = s.g.r.p)

/-- R395, R503: a trap in trap mode, or without a handler, fails the team of a compute group with its grid; it halts the
lane of a base-tile core, and raises the fatal interrupt where that is a pager core. -/
def Obligations.TrapToHost : Prop :=
  ∀ (s : State) (t : TrapReq) (async : Bool) (h : Word), (s.g.r.tm = true ∨ s.g.handler = none) → t.cause ≠ 6 → t.cause ≠ 13 →
    (s.g.isCompute = true → ∀ k, s.team s.g.team = some k → k.running = true →
      ∃ u, (s.takeTrap t async h).team s.g.team = some u ∧ u.place = .failed) ∧
    (s.g.isCompute = false → (s.takeTrap t async h).g.lane 0 = .halted) ∧
    (s.g.kind = .pager → (s.takeTrap t async h).dev.fatal = true ∧ 0 ∈ (s.takeTrap t async h).dev.msix)

/-- R398: the return from a handler: every lane takes its saved state; the lanes of H resume at their saved `pcv`,
past the trapping chain, EXITED, or at the scalar's `pcv` with no block state; a lane that exited in the handler stays
EXITED; `MSTAT.TM` becomes 0. Where the trap has no skip `pcv`, a lane keeps its saved one (log 14). -/
def Obligations.TrapReturns : Prop :=
  ∀ (s : State) (sv : LaneSave), s.g.save = some sv → s.g.haltPend = 0 → s.g.stepPend = 0 →
    let dead := fun l => s.g.hlanes.getLsbD l && s.g.lane l == .exited
    let h := fun l => s.g.hlanes.getLsbD l && !(s.g.lane l == .exited)
    let common := fun (t : State) => t.g.r.tm = false ∧ t.g.save = none ∧ t.g.r.s = s.g.r.s ∧ t.g.r.v = s.g.r.v ∧
      t.g.r.p = s.g.r.p ∧ t.g.r.k = s.g.r.k ∧ SameBytes s t ∧ (∀ l, l < 32 → dead l = true → t.g.lane l = .exited) ∧
      (∀ l, l < 32 → dead l = false → h l = false → t.g.lane l = mapGet .exited sv.lsv l ∧
        t.g.pc l = mapGet 0 sv.pcv l ∧ t.g.blkOf l = mapGet Blk.none sv.blk l)
    (Ready .tret s → ∃ t, exec .tret s = .next t ∧ common t ∧ ∀ l, l < 32 → h l = true →
      t.g.lane l = mapGet .exited sv.lsv l ∧ t.g.pc l = mapGet 0 sv.pcv l ∧ t.g.blkOf l = mapGet Blk.none sv.blk l) ∧
    (Ready .tretSkip s → ∃ t, exec .tretSkip s = .next t ∧ common t ∧ ∀ l, l < 32 → h l = true →
      t.g.lane l = mapGet .exited sv.lsv l ∧
      t.g.pc l = (sv.skip.map Past.pc).getD (mapGet 0 sv.pcv l)) ∧
    (Ready .tretExit s → ∃ t, exec .tretExit s = .next t ∧ common t ∧ ∀ l, l < 32 → h l = true → t.g.lane l = .exited) ∧
    (∀ a, Ready (.tretTo a) s → ∃ t, exec (.tretTo a) s = .next t ∧ common t ∧ ∀ l, l < 32 → h l = true →
      t.g.lane l = mapGet .exited sv.lsv l ∧ t.g.pc l = (s.src.rdS a.toNat).extractLsb' 0 32 ∧ t.g.blkOf l = Blk.none)

/-! ### Debug (R414 to R416) -/

/-- R410, R414: `brk` halts the lanes with effect (in a protected launch both lanes of their pairs, a shadow staying
one) at the chain's own `pcv` and posts its code in the mailbox, or the overflow bit where an event stands there.
R415, R416: the debug words. A group of the team that has not finished answers; any other target gives 2^63 + 1 and
nothing is done. `dbg.halt` halts the LIVE lanes named, `dbg.resume` and `dbg.step` make the HALTED lanes named
LIVE, `dbg.rdpc` gives state and `pcv` of a lane, `dbg.halted` the mask of HALTED lanes, `dbg.watch` sets a
watchpoint. What a waiting lane that is stepped keeps is the model's reading (log 17). -/
def Obligations.BreakpointsAndDebugWords : Prop :=
  (
    ∀ k s, Ready (.brk k) s → s.iss.probe = false → let m := s.pairMask s.iss.eff
      ∃ t, exec (.brk k) s = .next t ∧
      (∀ l, l < 32 → m.getLsbD l = true → t.g.lane l = (if s.g.lane l = .shadow then .shadow else .halted) ∧
        t.g.pc l = s.iss.chainPc) ∧
      (∀ l, l < 32 → m.getLsbD l = false → t.g.lane l = s.g.lane l ∧ t.g.pc l = s.g.pc l) ∧
      t.g.r = s.g.r ∧ t.iss.parked = s.iss.parked ||| m ∧ SameBytes s t ∧
      ∀ x, s.team s.g.team = some x → ∃ y, t.team s.g.team = some y ∧
        y.mbox = if x.mbox.getLsbD 63 then x.mbox ||| 2 ^ 62
          else BitVec.ofNat 64 (2 ^ 63 + 2 ^ 59 + s.g.grp * 2 ^ 54 + k.toNat * 2 ^ 46 + s.iss.eff.toNat)) ∧
  (
    ∀ d a s i, (i = Instr.dbgHalt d a ∨ i = Instr.dbgResume d a ∨ i = Instr.dbgStep d a ∨ i = Instr.dbgRdpc d a ∨
        i = Instr.dbgWatch d a ∨ i = Instr.dbgHalted d a) → Ready i s →
      let x := s.src.rdS a.toNat
      let m := x.extractLsb' 32 32
      (s.dbgTarget x = none → ∃ t, exec i s = .next t ∧ ScalarIs d.toNat (2 ^ 63 + 1) false s t) ∧
      (∀ k g, s.dbgTarget x = some (k, g) → g.save = none → ∃ t, exec i s = .next t ∧
        (i = .dbgHalt d a → t.g.r.rdS d.toNat = (maskOf (fun l => m.getLsbD l && g.lane l == .live)).zeroExtend 64 ∧
          ∃ u, t.getG k = some u ∧ ∀ l, l < 32 → u.lane l = if m.getLsbD l ∧ g.lane l = .live then .halted else g.lane l) ∧
        (i = .dbgResume d a ∨ i = .dbgStep d a →
          t.g.r.rdS d.toNat = (maskOf (fun l => m.getLsbD l && g.lane l == .halted)).zeroExtend 64 ∧
          ∃ u, t.getG k = some u ∧ (i = .dbgStep d a → u.stepArmed = true) ∧
            ∀ l, l < 32 → u.lane l = if m.getLsbD l ∧ g.lane l = .halted then .live else g.lane l) ∧
        (i = .dbgRdpc d a → ScalarIs d.toNat (BitVec.ofNat 64 ((g.lane (x.toNat / 2 ^ 32 % 32)).code * 2 ^ 32 +
          (g.pc (x.toNat / 2 ^ 32 % 32)).toNat)) false s t) ∧
        (i = .dbgHalted d a → ScalarIs d.toNat ((maskOf (fun l => g.lane l == .halted)).zeroExtend 64) false s t) ∧
        (i = .dbgWatch d a → (watchGood (s.src.rdS d.toNat) = true → t.g.r.rdS d.toNat = 0 ∧
            ∀ y, s.team s.g.team = some y → ∃ z, t.team s.g.team = some z ∧
              mapGet 0 z.watch (x.toNat % 4) = s.src.rdS d.toNat) ∧
          (watchGood (s.src.rdS d.toNat) = false → ScalarIs d.toNat 1 false s t))))

/-! ### Memory (R289 to R303) -/

/-- R290, R291, R296, R297, R299: the loads. Each lane's address is base, scaled index and displacement; once found,
the bytes are read and one load is outstanding, which will write them, extended to the register, with their poison, to
the lane and to its shadow. No register has changed yet, and where no other agent raced, no byte. When a load reads is
the model's choice within R261 to R264 (log 8). -/
def Obligations.Loads : Prop :=
  (∀ c w n f, (w = 1 ∧ n = 1 ∧ c = Instr.ldN8 ∧ f = fun x => x) ∨ (w = 1 ∧ n = 2 ∧ c = Instr.ldN16 ∧ f = fun x => x) ∨
      (w = 1 ∧ n = 1 ∧ c = Instr.ldI8 ∧ f = fun x => u32 (BitVec.ofNat 8 x).toInt) ∨
      (w = 1 ∧ n = 2 ∧ c = Instr.ldI16 ∧ f = fun x => u32 (BitVec.ofNat 16 x).toInt) ∨
      (w = 1 ∧ n = 4 ∧ c = Instr.ldB32 ∧ f = fun x => x) ∨ (w = 2 ∧ n = 8 ∧ c = Instr.ldB64 ∧ f = fun x => x) ∨
      (w = 4 ∧ n = 16 ∧ c = Instr.ldB128 ∧ f = fun x => x) →
    ∀ t b x y o h s u go, Ready (c t b x y o h) s →
    Served (kLoad n) none h.toNat n false ((lanesOf s.leadLanes).map (fun l => (l, eaOf s b x y o n l))) s u go →
    ∃ v, exec (c t b x y o h) s = .next v ∧
      LoadSent (go.flatMap (fun a => (u.withShadow a.1).flatMap (fun l =>
        laneWrites t.toNat w l (f (u.piecesRead a.2.2).1) (u.piecesRead a.2.2).2))) u v ∧
      (Alone u go false → KeptBut (fun _ => False) u v)) ∧
  (∀ t b (w : BitVec 3) d s u go, w.toNat < 7 → Ready (.ldScalar t b w d) s →
    let n := 2 ^ (w.toNat / 2)
    Served (kLoad n) none 0 n true [(s.lead, (s.src.rdS b.toNat + d.val).toNat)] s u go →
    ∃ v x, exec (.ldScalar t b w d) s = .next v ∧ go.map (fun a => a.2.2) = [x] ∧
      LoadSent [.scalar t.toNat (if w.toNat % 2 = 1 then BitVec.ofInt 64 (((u.piecesRead x).1 : Int).bmod (256 ^ n))
        else BitVec.ofNat 64 (u.piecesRead x).1) (u.piecesRead x).2] u v ∧
      (Alone u go false → KeptBut (fun _ => False) u v))

/-- R285, R290, R291, R298, R299: the stores. Lanes write in ascending order: a byte holds what the last part that
names it gives, wherever the parts are written where they lie; every other byte is as it was (but END_CAUSE of a lease
that a store revokes, and D of a leaf); a write of a device register falls due; bytes for a block under the group's
cofferdam stand in its buffer. That a store reaches its home when it issues is the model's choice (log 8). -/
def Obligations.Stores : Prop :=
  let effect := fun (n : Nat) (val : Nat → Nat) (go : List (Nat × Nat × List Piece)) (u v : State) =>
    StoreSent u v ∧
    (Alone u go true →
      KeptBut (fun c => u.stored (partsOf go) c ∨ sideByte c) u v ∧
      (∀ ps x qs, partsOf go = ps ++ x :: qs → u.direct x.2.2 → ∀ i, i < x.2.2.n →
        (∀ c, x.2.2.loc.cell i = some c → ¬ u.stored qs c ∧ ¬ sideByte c) →
        v.rdByte x.2.2.loc i = BitVec.ofNat 8 (val x.1 / 256 ^ (x.2.2.va - x.2.1 + i)) ∧ x.2.2.va - x.2.1 + i < n)) ∧
    (∀ x ∈ partsOf go, ∀ o, x.2.2.loc = .mgmt o → x.2.2.hold = false →
      .mgmtRegisterWrite o x.2.2.n
        (BitVec.ofNat 64 (val x.1 / 256 ^ (x.2.2.va - x.2.1) % 256 ^ x.2.2.n)) u.writer ∈ v.agenda) ∧
    (∀ ps x qs d, partsOf go = ps ++ x :: qs → x.2.2.hold = false → u.ownDam x.2.2.loc = some d →
      (∀ y ∈ qs, ∀ e, u.ownDam y.2.2.loc = some e → e.id ≠ d.id) → ∀ i, i < x.2.2.n → x.2.2.va % 64 + x.2.2.n ≤ 64 →
      ∃ e ∈ v.dams, e.id = d.id ∧ mapGet 0 e.buf ((x.2.2.va + i) % 64) =
        BitVec.ofNat 8 (val x.1 / 256 ^ (x.2.2.va - x.2.1 + i)))
  (∀ c w n, (w = 1 ∧ n = 1 ∧ c = Instr.stB8) ∨ (w = 1 ∧ n = 2 ∧ c = Instr.stB16) ∨ (w = 1 ∧ n = 4 ∧ c = Instr.stB32) ∨
      (w = 2 ∧ n = 8 ∧ c = Instr.stB64) ∨ (w = 4 ∧ n = 16 ∧ c = Instr.stB128) →
    ∀ t b x y o h s u go, Ready (c t b x y o h) s →
    s.alike (fun l => (eaOf s b x y o n l, s.src.rdW w t.toNat l % 256 ^ n)) →
    Served (kStore n) none h.toNat n false ((lanesOf s.leadLanes).map (fun l => (l, eaOf s b x y o n l))) s u go →
    ∃ v, exec (c t b x y o h) s = .next v ∧ effect n (fun l => s.src.rdW w t.toNat l % 256 ^ n) go u v) ∧
  (∀ t b (w : BitVec 2) d s u go, Ready (.stScalar t b w d) s → let n := 2 ^ w.toNat
    Served (kStore n) none 0 n true [(s.lead, (s.src.rdS b.toNat + d.val).toNat)] s u go →
    ∃ v, exec (.stScalar t b w d) s = .next v ∧ effect n (fun _ => (s.src.rdS t.toNat).toNat % 256 ^ n) go u v)

/-- R300 to R303: the atomics, `ldo` and `sto`. Lanes act in ascending order, each on what the lanes below it left:
the value read is the one the load will write to the lane and its shadow, and where the function gives a new value it
is written with the read, as one access; every other byte stands. A release that must wait for writes puts the word
off. That an atomic acts when it issues is the model's choice (log 8). -/
def Obligations.Atomics : Prop :=
  let turn := fun (x : Nat × Nat × List Piece) (new : Option Nat) (a b : State) =>
    (new = none → KeptBut (fun _ => False) a b) ∧
    (∀ z, new = some z → KeptBut (fun c => a.stored (partsOf [x]) c ∨ sideByte c) a b ∧
      ∀ p, x.2.2 = [p] → a.direct p → ∀ i, i < p.n → (∀ c, p.loc.cell i = some c → ¬ sideByte c) →
        b.rdByte p.loc i = BitVec.ofNat 8 (z / 256 ^ (p.va - x.2.1 + i)))
  let ea := fun (s : State) (a : BitVec 7) (l : Nat) => (s.src.rdV2 a.toNat l).toNat
  let i := fun (n x : Nat) => (BitVec.ofNat n x).toInt
  (∀ (c : BitVec 7 → BitVec 7 → BitVec 3 → BitVec 2 → BitVec 1 → Instr) (k : Nat) (new : Nat → Nat → Nat → Option Nat),
    (k = 1 ∧ c = .atomAdd ∧ new = fun n v m => some ((m + v) % 2 ^ n)) ∨
    (k = 1 ∧ c = .atomMinI ∧ new = fun n v m => some ((if i n m ≤ i n v then m else v) % 2 ^ n)) ∨
    (k = 1 ∧ c = .atomMaxI ∧ new = fun n v m => some ((if i n v ≤ i n m then m else v) % 2 ^ n)) ∨
    (k = 1 ∧ c = .atomMinN ∧ new = fun n v m => some (min (m % 2 ^ n) (v % 2 ^ n))) ∨
    (k = 1 ∧ c = .atomMaxN ∧ new = fun n v m => some (max (m % 2 ^ n) (v % 2 ^ n))) ∨
    (k = 1 ∧ c = .atomAnd ∧ new = fun n v m => some ((m &&& v) % 2 ^ n)) ∨
    (k = 1 ∧ c = .atomOr ∧ new = fun n v m => some ((m ||| v) % 2 ^ n)) ∨
    (k = 1 ∧ c = .atomXor ∧ new = fun n v m => some ((m ^^^ v) % 2 ^ n)) ∨
    (k = 1 ∧ c = .atomExch ∧ new = fun n v _ => some (v % 2 ^ n)) ∨
    (k = 2 ∧ c = .atomCas ∧ new = fun n v m => if m = v % 2 ^ n then some (v / 2 ^ n) else none) ∨
    (k = 1 ∧ c = .atomAddF ∧ new = fun n v m => some (fAdd (if n = 64 then f64 else f32) plainRne m v).1) →
    ∀ d a sc (o : BitVec 2) (w : BitVec 1) s u go, let n := 4 * (1 + w.toNat)
    let val := fun l => s.src.rdW (k * (1 + w.toNat)) d.toNat l
    Ready (c d a sc o w) s → s.alike (fun l => (ea s a l, val l)) →
    Served (kAtom n) none 0 n false ((lanesOf s.leadLanes).map (fun l => (l, ea s a l))) s u go →
    (o.getLsbD 1 = true → ∀ x ∈ go, ∀ p ∈ x.2.2, u.releaseWaits p.loc sc.toNat = false) →
    ∃ (f : Nat → State) (t : State), f 0 = u ∧ exec (c d a sc o w) s = .next t ∧
      (∀ j x, go[j]? = some x → turn x (new (8 * n) (val x.1) ((f j).piecesRead x.2.2).1) (f j) (f (j + 1))) ∧
      KeptBut (fun _ => False) (f go.length) t ∧ t.g.ldcnt = u.g.ldcnt + 1 ∧
      t.g.loads = u.g.loads ++ [⟨(List.range go.length).flatMap (fun j => match go[j]? with
        | none => []
        | some x => (u.withShadow x.1).flatMap (fun l =>
            laneWrites d.toNat (1 + w.toNat) l ((f j).piecesRead x.2.2).1 ((f j).piecesRead x.2.2).2)), none⟩]) ∧
  (∀ d a sc (o : BitVec 2) (w : BitVec 1) s u go, let n := 4 * (1 + w.toNat)
    Ready (.ldo d a sc o w) s →
    Served (kLdo n) none 0 n false ((lanesOf s.leadLanes).map (fun l => (l, ea s a l))) s u go →
    ∃ t, exec (.ldo d a sc o w) s = .next t ∧ KeptBut (fun _ => False) u t ∧ t.g.ldcnt = u.g.ldcnt + 1 ∧
      t.g.loads = u.g.loads ++ [⟨go.flatMap (fun x => (u.withShadow x.1).flatMap (fun l =>
        laneWrites d.toNat (1 + w.toNat) l (u.piecesRead x.2.2).1 (u.piecesRead x.2.2).2)), none⟩]) ∧
  (∀ d a sc (o : BitVec 2) (w : BitVec 1) s u go, let n := 4 * (1 + w.toNat)
    let val := fun l => s.src.rdW (1 + w.toNat) d.toNat l
    Ready (.sto d a sc o w) s → s.alike (fun l => (ea s a l, val l)) →
    Served (kSto n) none 0 n false ((lanesOf s.leadLanes).map (fun l => (l, ea s a l))) s u go →
    (o.getLsbD 1 = true → ∀ x ∈ go, ∀ p ∈ x.2.2, p.hold = true ∨ u.releaseWaits p.loc sc.toNat = false) →
    ∃ (f : Nat → State) (t : State), f 0 = u ∧ exec (.sto d a sc o w) s = .next t ∧
      (∀ j x, go[j]? = some x → turn x (some (val x.1)) (f j) (f (j + 1))) ∧
      KeptBut (fun _ => False) (f go.length) t ∧ StoreSent u t)

/-- R215, R228, R292 to R294: the checks of an access, in their order over the lanes: an address above 2^57; the windows of
the on-chip map; the table region at PRV 0; then alignment, region and view. A failed check traps with the lowest lane
that fails it, and the word has no effect. A pair of a protected launch whose writes differ makes none (R411). -/
def Obligations.AccessChecks : Prop :=
  (∀ kd pre n shared (s : State) ys l ea zs, let xs := ys ++ (l, ea) :: zs
    let low := ∀ x ∈ xs, x.2 < 2 ^ 57
    let win := ∀ x ∈ xs, s.windowReason x.2 n = none
    let tab := s.g.r.prv ≠ 0 ∨ ∀ x ∈ xs, inTable x.2 = false ∧ inTable (x.2 + n - 1) = false
    ((∀ y ∈ ys, y.2 < 2 ^ 57) → 2 ^ 57 ≤ ea → ∃ t, s.checkAccess kd pre n shared xs = some t ∧
      t.cause = 7 ∧ t.lane = l ∧ t.i0 = BitVec.ofNat 64 ea) ∧
    (low → (∀ y ∈ ys, s.windowReason y.2 n = none) → ∀ r, s.windowReason ea n = some r →
      ∃ t, s.checkAccess kd pre n shared xs = some t ∧ t.cause = 8 ∧ t.lane = l ∧ t.i0 = s.iss.pc.zeroExtend 64 ∧
        t.i1 = BitVec.ofNat 64 ea ∧ t.i2 = BitVec.ofNat 64 r) ∧
    (low → win → s.g.r.prv = 0 → (∀ y ∈ ys, inTable y.2 = false ∧ inTable (y.2 + n - 1) = false) →
      (inTable ea = true ∨ inTable (ea + n - 1) = true) →
      ∃ t, s.checkAccess kd pre n shared xs = some t ∧ t.cause = 9 ∧ t.lane = l ∧ t.i1 = BitVec.ofNat 64 ea) ∧
    (low → win → tab → (∀ y ∈ ys, s.kindReason kd pre y.2 n = none) → ∀ r, s.kindReason kd pre ea n = some r →
      ∃ t, s.checkAccess kd pre n shared xs = some t ∧ t.cause = 10 ∧ t.lane = l ∧ t.i0 = s.iss.pc.zeroExtend 64 ∧
        t.i1 = BitVec.ofNat 64 ea ∧ t.i2 = BitVec.ofNat 64 r) ∧
    (ea % (if onChip ea || onChip (ea + n - 1) then kd.inn else kd.out) ≠ 0 → s.kindReason kd pre ea n = some 1)) ∧
  (∀ (c : BitVec 7 → BitVec 7 → BitVec 7 → BitVec 1 → Option (BitVec 32) → BitVec 2 → Instr) n,
    (n = 1 ∧ (c = .ldN8 ∨ c = .ldI8)) ∨ (n = 2 ∧ (c = .ldN16 ∨ c = .ldI16)) ∨ (n = 4 ∧ c = .ldB32) ∨ (n = 8 ∧ c = .ldB64) ∨
      (n = 16 ∧ c = .ldB128) → ∀ t b x y o h s r, Ready (c t b x y o h) s →
    s.checkAccess (kLoad n) none n false ((lanesOf s.leadLanes).map (fun l => (l, eaOf s b x y o n l))) = some r →
    exec (c t b x y o h) s = .next (s.trap r)) ∧
  (∀ (c : BitVec 7 → BitVec 7 → BitVec 7 → BitVec 1 → Option (BitVec 32) → BitVec 2 → Instr) w n,
    (w = 1 ∧ n = 1 ∧ c = .stB8) ∨ (w = 1 ∧ n = 2 ∧ c = .stB16) ∨ (w = 1 ∧ n = 4 ∧ c = .stB32) ∨ (w = 2 ∧ n = 8 ∧ c = .stB64) ∨
      (w = 4 ∧ n = 16 ∧ c = .stB128) → ∀ t b x y o h s, Ready (c t b x y o h) s →
    let f := fun l => (eaOf s b x y o n l, s.src.rdW w t.toNat l % 256 ^ n)
    (¬ s.alike f → ∃ m, exec (c t b x y o h) s = .next (s.setIss (fun z => { z with mism := some m }))) ∧
    (s.alike f → ∀ r,
      s.checkAccess (kStore n) none n false ((lanesOf s.leadLanes).map (fun l => (l, eaOf s b x y o n l))) = some r →
      exec (c t b x y o h) s = .next (s.trap r)))

/-- R202, R318, R439: cache control. Operations 0 and 1 drop blocks of the core's level-1, the others answer a status as
a load does: 2 cleans the line, 3 writes the region's dirty sub-pages back, 4 frees its frame; the status of 3 and 4 comes
at the end of the write-back, which begins here. A frame that is filling or leaving is awaited, the word is put off. R219 to R221, R319: pins. A PIN window of the launch that holds the address has its
fade counter reloaded or its pin ended; `pin.set` and `pin.clr` add and take away a pin of the group's ASID on a
range of regions. That a core other than a compute core has no level-1, and the region records under a view, are the
model's readings (log 27). -/
def Obligations.CacheControlAndPins : Prop :=
  (
    ∀ a s, let ea := (s.src.rdS a.toNat).toNat
      let status := fun (d : BitVec 7) (x : Nat) => LoadWrite.scalar d.toNat (BitVec.ofNat 64 x) false
      let ok := fun (pre : Option Nat) => s.checkAccess { kBlock with k := .load } pre 1 true (s.oneAccess a) = none
      let pre := if s.g.view = 0 then none else some 5
      (Ready (.cctlL1b a) s → ok none → ∃ t, exec (.cctlL1b a) s = .next t ∧ t = { s with l1 := t.l1 } ∧
        ∀ b, b ∈ t.l1 ↔ b ∈ s.l1 ∧ ¬ (b.core = s.core ∧ b.blk = blkKey s.g.asid (s.viewOver s.g.asid ea 8 s.g.view) ea)) ∧
      (Ready .cctlL1all s → ∃ t, exec .cctlL1all s = .next t ∧ t = { s with l1 := t.l1 } ∧
        ∀ b, b ∈ t.l1 ↔ b ∈ s.l1 ∧ b.core ≠ s.core) ∧
      (∀ d, Ready (.cctlWbl d a) s → ok pre → let k := s.homeKey s.g.asid 0 ea
        let lk := lineKey k.1 k.2.1 k.2.2
        ∃ u t, exec (.cctlWbl d a) s = .next t ∧ t = { u with g := t.g } ∧ u = { s with l2 := u.l2 } ∧
        (∀ l, onChip ea = false → mapGet none s.l2 lk = some l → l.dirty = true →
          LoadSent [status d 0] u t ∧ mapGet none t.l2 lk = some { l with dirty := false } ∧
          ∀ q, q ≠ lk → mapGet none t.l2 q = mapGet none s.l2 q) ∧
        ((onChip ea = true ∨ mapGet none s.l2 lk = none ∨ ∃ l, mapGet none s.l2 lk = some l ∧ l.dirty = false) →
          LoadSent [status d 1] s t ∧ t.l2 = s.l2)) ∧
      (∀ d i (rel : Bool), i = (if rel then Instr.cctlRel d a else Instr.cctlWbf d a) → Ready i s → ok pre →
        let x := (s.src.rdS d.toNat).toNat
        let key := if 1 ≤ s.g.r.prv then (x % 2 ^ 10, x / 2 ^ 16 % 2 ^ 6) else (s.g.asid, s.g.view)
        let k := s.homeKey key.1 key.2 ea
        let st := s.stackOf k.1 k.2.2
        ((onChip ea = true ∨ s.findFrame st k.1 k.2.1 k.2.2 = none) → ∃ t, exec i s = .next t ∧ LoadSent [status d 1] s t ∧
          t = { s with g := t.g }) ∧
        (∀ f, onChip ea = false → s.findFrame st k.1 k.2.1 k.2.2 = some f → let e := s.frame (frameKey st f)
          let busy := e.state ≠ 1 ∨ ∃ x ∈ s.spills, x.fk = frameKey st f
          (busy → exec i s = .next s.stall) ∧
          (¬ busy → e.table = false → e.view = 0 → ∃ t n, exec i s = .next t ∧ t.g.ldcnt = s.g.ldcnt + 1 ∧
            t.g.loads = s.g.loads ++ [⟨[status d 0], some n⟩] ∧ t.g.r = s.g.r ∧
            ∃ x ∈ t.spills, x.id = n ∧ x.fk = frameKey st f ∧ x.free = rel ∧ x.tell = true) ∧
          (¬ busy → e.table = true ∨ e.view ≠ 0 →
            (rel = false → ∃ t, exec i s = .next t ∧ t = { s with g := t.g } ∧
              LoadSent [status d (if e.dirty = 0 then 0 else 3)] s t) ∧
            (rel = true → s.pinned e.asid e.vpn = true → ∃ t, exec i s = .next t ∧ t = { s with g := t.g } ∧
              LoadSent [status d 2] s t) ∧
            (rel = true → s.pinned e.asid e.vpn = false → e.dirty ≠ 0 → e.table = false → ∃ t, exec i s = .next t ∧
              t = { s with g := t.g } ∧ LoadSent [status d 3] s t) ∧
            (rel = true → s.pinned e.asid e.vpn = false → e.dirty = 0 ∨ e.table = true → ∃ t, exec i s = .next t ∧
              t.g.ldcnt = s.g.ldcnt + 1 ∧ t.g.loads = s.g.loads ++ [⟨[status d 0], none⟩] ∧ (t.frame (frameKey st f)).state = 0 ∧
              ∀ b ∈ t.l1, ¬ inRange b.home (blkKey e.asid e.view (e.vpn * 2 ^ 16)) 1024 = true))))) ∧
  (
    ∀ d a s, s.checkAccess { kBlock with k := .load } (if s.g.view = 0 then none else some 5) 1 true (s.oneAccess a) = none →
      let x := (s.src.rdS a.toNat).toNat
      let status := fun (y : Nat) => LoadWrite.scalar d.toNat (BitVec.ofNat 64 y) false
      let p : Pin := ⟨s.g.asid, x / 2 ^ 16, x % 2 ^ 16 + 1, .pinSet⟩
      let ended := fun (g k : Nat) => { s with pins := s.pins.filter (fun q => q.by_ != PinBy.window g k) }
      (∀ i, i = Instr.pinReload d a ∨ i = Instr.pinEnd d a → Ready i s → s.pinWindow x = none →
        ∃ t, exec i s = .next t ∧ LoadSent [status 1] s t ∧ t = { s with g := t.g }) ∧
      (∀ g k w, s.pinWindow x = some (g, k, w) →
        (Ready (.pinReload d a) s → w.lapsed = true → ∃ t, exec (.pinReload d a) s = .next t ∧ LoadSent [status 2] s t) ∧
        (Ready (.pinReload d a) s → w.lapsed = false → ∃ t, exec (.pinReload d a) s = .next t ∧
          LoadSent [status 0] (s.setWindow g k (fun w => { w with fade := w.fade0 })) t) ∧
        (Ready (.pinEnd d a) s → ∃ t, exec (.pinEnd d a) s = .next t ∧
          LoadSent [status 0] ((ended g k).setWindow g k (fun w => { w with lapsed := true })) t)) ∧
      (Ready (.pinSet d a) s → (s.pinFits p = true → ∃ t, exec (.pinSet d a) s = .next t ∧ LoadSent [status 0] s t ∧
          t.pins = s.pins ++ [p]) ∧
        (s.pinFits p = false → ∃ t, exec (.pinSet d a) s = .next t ∧ LoadSent [status 3] s t ∧ t.pins = s.pins)) ∧
      (Ready (.pinClr d a) s → (∀ xs ys, s.pins = xs ++ p :: ys → p ∉ xs → ∃ t, exec (.pinClr d a) s = .next t ∧
          LoadSent [status 0] s t ∧ t.pins = xs ++ ys) ∧
        (p ∉ s.pins → ∃ t, exec (.pinClr d a) s = .next t ∧ LoadSent [status 1] s t ∧ t.pins = s.pins)))

/-! ### Reductions at their homes, cofferdams, weirs, fences (R177, R266, R274, R284 to R287, R304 to R317) -/

/-- R305 to R308: a far reduction sends one contribution for each lane, with its function, value and key, into the
buffer of the quarter, and waits while 64 do not fit; `rep.open` opens the epoch, `rep.flush` flushes it, and `rep.close` flushes it and sends the
arrival that closes it. Log 29 names the model's readings. -/
def Obligations.FarReductions : Prop :=
  (∀ c k w, (k = 0 ∧ w = 1 ∧ c = Instr.rfarAddI32) ∨ (k = 1 ∧ w = 2 ∧ c = Instr.rfarAddI64) ∨ (k = 2 ∧ w = 1 ∧ c = Instr.rfarMinI32) ∨
      (k = 3 ∧ w = 1 ∧ c = Instr.rfarMaxI32) ∨ (k = 4 ∧ w = 1 ∧ c = Instr.rfarMinN32) ∨ (k = 5 ∧ w = 1 ∧ c = Instr.rfarMaxN32) ∨
      (k = 6 ∧ w = 1 ∧ c = Instr.rfarAndB32) ∨ (k = 7 ∧ w = 1 ∧ c = Instr.rfarOrB32) ∨ (k = 8 ∧ w = 1 ∧ c = Instr.rfarXorB32) ∨
      (k = 9 ∧ w = 1 ∧ c = Instr.rfarAddF32) ∨ (k = 10 ∧ w = 2 ∧ c = Instr.rfarAddF64) ∨ (k = 11 ∧ w = 1 ∧ c = Instr.rfarMinF32) ∨
      (k = 12 ∧ w = 1 ∧ c = Instr.rfarMaxF32) →
    ∀ a b s, Ready (c a b) s → let ea := fun l => (s.src.rdV2 a.toNat l).toNat
    let val := fun l => s.src.rdW w b.toNat l
    let xs := (lanesOf s.leadLanes).map (fun l => (l, ea l))
    let key := fun l => ((s.myTeam.map Team.lin).getD 0) % 2 ^ 32 * 2 ^ 32 + s.g.grp % 32 * 2 ^ 27 + l % 32 * 2 ^ 22
      + mapGet 0 s.g.lseq l
    s.alike (fun l => (ea l, val l)) →
    (∀ t, s.checkAccess ⟨.store, 4 * w, 4 * w, .far, .refused⟩ (if s.g.epa.isNone then some 3 else none) (4 * w) false xs = some t →
      exec (c a b) s = .next (s.trap t)) ∧
    (s.checkAccess ⟨.store, 4 * w, 4 * w, .far, .refused⟩ (if s.g.epa.isNone then some 3 else none) (4 * w) false xs = none →
      (64 < (s.buffered s.core s.g.quarter).length + xs.length → exec (c a b) s = .next s.stall) ∧
      ((s.buffered s.core s.g.quarter).length + xs.length ≤ 64 → ∃ t cs, exec (c a b) s = .next t ∧
        t.contribs = s.contribs ++ cs ∧
        cs.map (fun x => (x.va, x.fn, x.val, x.pois, x.key)) =
          xs.map (fun x => (x.2, k, BitVec.ofNat 64 (val x.1), s.src.poisW w b.toNat x.1, key x.1)) ∧
        (∀ x ∈ cs, x.place = .buffered ∧ x.grp = s.gid ∧ x.asid = s.g.asid ∧ x.epa = s.g.epa.getD 0) ∧
        StoreSent s t ∧ SameBytes s t ∧ t.g.r = s.g.r ∧
        ∀ l, l < 32 → mapGet 0 t.g.lseq l =
          if s.iss.eff.getLsbD l then (mapGet 0 s.g.lseq l + 1) % 2 ^ 22 else mapGet 0 s.g.lseq l))) ∧
  (∀ a s u go, Ready (.repOpen a) s → s.g.epa = none →
    Served ⟨.weir, 32, 32, .epoch, .refused⟩ none 0 32 true (s.oneAccess a) s u go →
    exec (.repOpen a) s = .next { u with g := { u.g with epa := some (s.src.rdS a.toNat).toNat, lseq := [] } }) ∧
  (∀ s, Ready .repFlush s → ∃ t, exec .repFlush s = .next t ∧ t = { s with contribs := t.contribs } ∧
    (s.g.epa = none → t = s) ∧ (s.g.epa ≠ none → t.contribs = s.contribs.map (fun c =>
      if c.grp = s.gid ∧ c.place = .buffered then { c with place := .inFlight } else c))) ∧
  (∀ s, Ready .repClose s → (s.g.epa = none → exec .repClose s = .next s) ∧
    (∀ e, s.g.epa = some e → ∃ t, exec .repClose s = .next t ∧ t.g.epa = some e ∧ t.g.stcnt = s.g.stcnt + 1 ∧
      t.g.r = s.g.r ∧ SameBytes s t ∧ t.contribs = s.contribs.map (fun c =>
        if c.grp = s.gid ∧ c.place = .buffered then { c with place := .inFlight } else c) ∧
      ∃ x v, t.stores = s.stores ++ [x] ∧ x.grp = some s.gid ∧ x.kind = .close s.g.asid v e))

/-- R284 to R286, R311: cofferdams. `dam.take` answers 3 in a region where a take is refused, 2 at two cofferdams of
the group, 1 where its second would have to wait, 1 or 2 where its second meets 16 of the core (R287, R311; log 30), else
the block is granted, or the group, at its first, asks for it and waits; `dam.chk` gives what is left of the lease, at most 512 cycles, 4 once breached, 5 where there is
none; `dam.end` makes the buffered bytes one write and releases the block. Log 30 names the model's readings. -/
def Obligations.Cofferdams : Prop :=
  (∀ d a (b : BitVec 7) s, Ready (.damTake d a b) s → let ea := (s.src.rdS a.toNat).toNat
    let mine := (s.damsOf (fun x => x.grp == s.gid)).length
    s.checkAccess kBlock none 1 true (s.oneAccess a) = none →
    (s.damRefused ea = true → ∃ t, exec (.damTake d a b) s = .next t ∧ ScalarIs d.toNat 3 false s t) ∧
    (s.damRefused ea = false → 2 ≤ mine → ∃ t, exec (.damTake d a b) s = .next t ∧ ScalarIs d.toNat 2 false s t) ∧
    (s.damRefused ea = false → ∀ u l p as v h, Served kBlock none 0 1 true (s.oneAccess a) s u [(l, ea, [p])] →
      p.loc = .home as v h →
      (mine = 0 → exec (.damTake d a b) s = .next
        ({ u with g := { u.g with hold := .dam d.toNat (ea / 64 * 64) (8 * b.toNat) s.iss.chainPc } }.due (.damGrant u.gid))) ∧
      (mine = 1 → (u.blkTaken (homeBlk as v h) = true → ∃ t, exec (.damTake d a b) s = .next t ∧ ScalarIs d.toNat 1 false u t) ∧
        (u.blkTaken (homeBlk as v h) = false → 16 ≤ (u.damsOf (fun x => x.core == u.core)).length →
          ∃ t x, (x = 1 ∨ x = 2) ∧ exec (.damTake d a b) s = .next t ∧
            ScalarIs d.toNat x false { u with free := u.free + 1 } t) ∧
        (u.blkTaken (homeBlk as v h) = false → (u.damsOf (fun x => x.core == u.core)).length < 16 →
          ∃ t x, exec (.damTake d a b) s = .next t ∧ t.g.r.rdS d.toNat = 0 ∧
            t.dams = u.dams.filter (fun y => !(y.breached && y.grp == u.gid && y.blk == homeBlk as v h)) ++ [x] ∧
            x.blk = homeBlk as v h ∧ x.grp = u.gid ∧ x.ends = (u.coreSt u.core).cyc + 8 * b.toNat ∧ x.buf = [] ∧
            x.breached = u.isPois x.blk ∧ SameBytes u t)))) ∧
  (∀ d a s, Ready (.damChk d a) s → s.checkAccess kBlock none 1 true (s.oneAccess a) = none →
    let ea := (s.src.rdS a.toNat).toNat
    ∃ t, exec (.damChk d a) s = .next t ∧
      (s.findDam ea = none → ScalarIs d.toNat 5 false s t) ∧
      (∀ x, s.findDam ea = some x → (x.breached = true → ScalarIs d.toNat 4 false s t) ∧
        (x.breached = false → ScalarIs d.toNat
          (BitVec.ofNat 64 (min 512 (x.ends - (s.coreSt s.core).cyc) * 2 ^ 32)) false s t))) ∧
  (∀ d a s, Ready (.damEnd d a) s → s.checkAccess kBlock none 1 true (s.oneAccess a) = none →
    let ea := (s.src.rdS a.toNat).toNat
    (s.findDam ea = none → ∃ t, exec (.damEnd d a) s = .next t ∧ ScalarIs d.toNat 5 false s t) ∧
    (∀ x, s.findDam ea = some x → ∃ t, exec (.damEnd d a) s = .next t ∧ (∀ y ∈ t.dams, y.id ≠ x.id) ∧
      (x.breached = true → t.g.r.rdS d.toNat = 4 ∧ SameBytes s t) ∧
      (x.breached = false → t.g.r.rdS d.toNat = 0 ∧
        KeptBut (fun c => (∃ e ∈ x.buf, c = (0, x.blk / 4 * 64 + e.1)) ∨ sideByte c) s t ∧
        ∀ es e fs, x.buf = es ++ e :: fs → (∀ y ∈ fs, y.1 ≠ e.1) → ¬ sideByte (0, x.blk / 4 * 64 + e.1) →
          mapGet 0 t.mem (x.blk / 4 * 64 + e.1) = e.2)))

/-- R313 to R316, R177: the weir words. `warm` sets the targets and clears the counts; `warr` makes n + 1 arrivals and
answers the phase before them; `wprobe` answers phase and bytes; `wwait` goes on once the phase has passed and else
holds the group; `tbar` makes one arrival on a weir of the team's scratchpad and holds the group until the phase
changes. A poisoned weir is the poison-consumed trap of the words that wait on it or read it. Log 30 names the model's
readings. -/
def Obligations.Weirs : Prop :=
  let step := fun (w : Weir) (n : Nat) =>
    let a := min (w.arr + n) 65535
    if ¬ (w.atgt = 0 ∧ w.btgt = 0) ∧ w.atgt ≤ a ∧ w.btgt ≤ w.bytes then
      { w with phase := (w.phase + 1) % 2 ^ 32, arr := 0, bytes := 0 } else { w with arr := a }
  let past := fun (q p : Nat) => 1 ≤ (q + 2 ^ 32 - p) % 2 ^ 32 ∧ (q + 2 ^ 32 - p) % 2 ^ 32 < 2 ^ 31
  let simple := fun (u : State) (l : Loc) => l.holdsWeir ∧
    u.closings.all (fun c => (Loc.home c.asid c.view c.epa).weirKey != l.weirKey) = true ∧ mapGet 0 u.closeArr l.weirKey = 0
  let got := fun (d : BitVec 7) (x : Nat) (b : Bool) (u t : State) => t.g.ldcnt = u.g.ldcnt + 1 ∧
    t.g.loads = u.g.loads ++ [⟨[.scalar d.toNat (BitVec.ofNat 64 x) b], none⟩]
  let poisoned := fun (i : Instr) (a : BitVec 7) (ea : Nat) (p : Piece) (s u : State) =>
    ((s.locPois p.loc 16 || u.locPois p.loc 16) = true) → ∃ t, t.cause = 13 ∧ t.i2 = BitVec.ofNat 64 (256 + a.toNat) ∧ t.addr = ea ∧ t.lane = lowestLane s.iss.eff ∧
      exec i s = .next ((if s.locPois p.loc 16 then s else u).trap t)
  let clean := fun (p : Piece) (s u : State) => s.locPois p.loc 16 = false ∧ u.locPois p.loc 16 = false
  (∀ a b s u l p, let x := (s.src.rdS b.toNat).toNat
    Ready (.warm a b) s → Served kWarm none 0 16 true (s.oneAccess a) s u [(l, (s.src.rdS a.toNat).toNat, [p])] →
    p.hold = false → p.loc.holdsWeir → ∃ t, exec (.warm a b) s = .next t ∧ StoreSent u t ∧
      t.rdWeir p.loc = ⟨x % 2 ^ 16, 0, x / 2 ^ 16 % 2 ^ 32, 0, (u.rdWeir p.loc).phase⟩ ∧
      KeptBut (fun c => (∃ i, i < 16 ∧ p.loc.cell i = some c) ∨ sideByte c) u t) ∧
  (∀ d a sc (n : BitVec 4) s u l p, Ready (.warr d a sc n) s →
    Served kWeir none 0 16 true (s.oneAccess a) s u [(l, (s.src.rdS a.toNat).toNat, [p])] →
    (u.releaseWaits p.loc sc.toNat = true → exec (.warr d a sc n) s = .next u.stall) ∧
    (u.releaseWaits p.loc sc.toNat = false → simple u p.loc → ∃ t, exec (.warr d a sc n) s = .next t ∧
      t.rdWeir p.loc = step (u.rdWeir p.loc) (n.toNat + 1) ∧ got d (u.rdWeir p.loc).phase (u.locPois p.loc 16) u t ∧
      KeptBut (fun c => (∃ i, i < 16 ∧ p.loc.cell i = some c) ∨ sideByte c) u t)) ∧
  (∀ d a sc s u l p, Ready (.wprobe d a sc) s →
    Served kWeirRead none 0 16 true (s.oneAccess a) s u [(l, (s.src.rdS a.toNat).toNat, [p])] →
    poisoned (.wprobe d a sc) a (s.src.rdS a.toNat).toNat p s u ∧
    (clean p s u → ∃ t, exec (.wprobe d a sc) s = .next t ∧ KeptBut (fun _ => False) u t ∧
      got d ((u.rdWeir p.loc).phase * 2 ^ 32 + (u.rdWeir p.loc).bytes) false u t)) ∧
  (∀ sc a b s u l p, Ready (.wwait sc a b) s → let ph := (s.src.rdS b.toNat).toNat % 2 ^ 32
    Served kWeirRead none 0 16 true (s.oneAccess a) s u [(l, (s.src.rdS a.toNat).toNat, [p])] →
    poisoned (.wwait sc a b) a (s.src.rdS a.toNat).toNat p s u ∧
    (clean p s u → past (u.rdWeir p.loc).phase ph → ∃ t, exec (.wwait sc a b) s = .next t ∧
      KeptBut (fun _ => False) u t ∧ t.g.r = u.g.r ∧ (t.g.hold = u.g.hold ∨ ∃ c k n, t.g.hold = .acquire c k n)) ∧
    (clean p s u → ¬ past (u.rdWeir p.loc).phase ph → exec (.wwait sc a b) s = .next
      { u with g := { u.g with hold := .wwait (s.src.rdS a.toNat).toNat (BitVec.ofNat 32 ph) sc.toNat s.iss.chainPc } })) ∧
  (∀ a s, Ready (.tbar a) s → let off := (s.src.rdS a.toNat).toNat
    (0x100000 ≤ off → ∃ t, t.cause = 8 ∧ t.i2 = 1 ∧ exec (.tbar a) s = .next (s.trap t)) ∧
    (off < 0x100000 → ∀ u l p, Served ⟨.weir, 16, 16, .weir, .read⟩ none 0 16 true [(s.lead, localBase + off)] s u
        [(l, localBase + off, [p])] →
      poisoned (.tbar a) a (localBase + off) p s u ∧
      (clean p s u → u.releaseWaits p.loc 1 = true → exec (.tbar a) s = .next u.stall) ∧
      (clean p s u → u.releaseWaits p.loc 1 = false → simple u p.loc → ∃ t, exec (.tbar a) s = .next t ∧
        t.rdWeir p.loc = step (u.rdWeir p.loc) 1 ∧ t.g.r = u.g.r ∧
        KeptBut (fun c => (∃ i, i < 16 ∧ p.loc.cell i = some c) ∨ sideByte c) u t ∧
        ((step (u.rdWeir p.loc) 1).phase = (u.rdWeir p.loc).phase →
          t.g.hold = .tbar off (BitVec.ofNat 32 (u.rdWeir p.loc).phase)) ∧
        ((step (u.rdWeir p.loc) 1).phase ≠ (u.rdWeir p.loc).phase → t.g.hold = u.g.hold ∨
          ∃ c k n, t.g.hold = .acquire c k n))))

/-- R266, R274, R317: the fences. An acquire fence empties the core's level-1 and takes in every known watermark; a
release fence ends the die's epoch and holds the group until the watermark covers it; a full fence does both, holds the
group until what it issued before is performed and the watermark covers the old epoch, and empties the level-1 then. On a base-tile core a release fence waits for its stores. Log 28
names the model's readings. -/
def Obligations.Fences : Prop :=
  let dropped := fun (s t : State) => ∀ b, b ∈ t.l1 ↔ b ∈ s.l1 ∧ b.core ≠ s.core
  let merged := fun (s t : State) => s.g.isCompute = true →
    (t.coreSt s.core).kclk = clkMerge (s.coreSt s.core).kclk (s.die s.g.die).known
  let bumped := fun (s t : State) => s.g.isCompute = true → (t.die s.g.die).epoch = ((s.die s.g.die).epoch + 1) % 2 ^ 32
  ∀ sc s, let full := 2 ^ 29 ≤ ((s.die s.g.die).epoch + 2 ^ 32 - s.watermark s.g.die) % 2 ^ 32
    (Ready (.fenceAcq sc) s → ∃ t, exec (.fenceAcq sc) s = .next t ∧ dropped s t ∧ merged s t ∧ t.g = s.g ∧ SameBytes s t) ∧
    (Ready (.fenceRel sc) s → s.g.isCompute = false →
      (s.g.stcnt ≠ 0 → exec (.fenceRel sc) s = .next s.stall) ∧
      (s.g.stcnt = 0 → ∃ t, exec (.fenceRel sc) s = .next t ∧ t = { s with race := t.race })) ∧
    (Ready (.fenceRel sc) s → s.g.isCompute = true →
      (full → exec (.fenceRel sc) s = .next s.stall) ∧
      (¬ full → ∃ t, exec (.fenceRel sc) s = .next t ∧ bumped s t ∧ SameBytes s t ∧ let e := (s.die s.g.die).epoch
        (t.marked s.g.die e = true → t.g = s.g) ∧
        (t.marked s.g.die e = false → t.g = { s.g with hold := .fenceRel s.g.die e }))) ∧
    (Ready (.fenceFull sc) s →
      (s.g.isCompute = true → full → exec (.fenceFull sc) s = .next s.stall) ∧
      (¬ (s.g.isCompute = true ∧ full) → ∃ t, exec (.fenceFull sc) s = .next t ∧ bumped s t ∧ SameBytes s t ∧
        let e := (s.die s.g.die).epoch
        let ended := s.g.ldcnt = 0 ∧ s.g.stcnt = 0 ∧ (s.g.isCompute = true → t.marked s.g.die e = true)
        (ended → t.g = s.g ∧ dropped s t ∧ (s.g.isCompute = true → (t.coreSt s.core).kclk =
          clkMerge (clkMerge (s.coreSt s.core).kclk (s.die s.g.die).known) (s.die s.g.die).known)) ∧
        (¬ ended → t.g = { s.g with hold := .fenceFull s.g.die e } ∧ t.l1 = s.l1 ∧ merged s t)))

/-! ### Engines and worlds (R325 to R386, R432 to R452) -/

/-- R327, R333 to R337: `cpt.copy` takes the lowest free context of the core for a command with one box for each lane,
which captures handles, control, weir and layout table, and waits while no context is free; `cpt.ltab` sets the
layout table. R341 to R344: plans. `cpt.bind` reads header, steps and the layout records they name, and binds them
in a free context under the lowest free number, with 2^63 + 1, + 2 or + 3 for a want of contexts, a bad header or
step, or bad layouts; `cpt.adv` issues the next stage; `cpt.rel` gives the plan up. R349: `cpt.res` resolves the
delivered fault of the context it names: the box runs again, is skipped with outcome 1, or takes the scalar for the
bytes of a source piece. Log 31 names the model's readings. -/
def Obligations.CopyCommands : Prop :=
  (
    (∀ d a b s, Ready (.cptCopy d a b) s → s.alike (fun l => s.src.rdW 4 a.toNat l) →
      (s.freeCtx s.core = [] → exec (.cptCopy d a b) s = .next ((s.noted (.cptCopy d a b)).stall)) ∧
      (∀ x xs, s.freeCtx s.core = x :: xs → ∃ t q, exec (.cptCopy d a b) s = .next t ∧
        t.ctx s.core x = some ⟨s.gid, s.g.team, none, [q]⟩ ∧ (∀ k, k ≠ 16 * s.core + x → mapGet none t.ctxs k = mapGet none s.ctxs k) ∧
        q.vd = some d.toNat ∧ q.pairs = [⟨(s.src.rdV b.toNat s.lead).toNat % 2 ^ 16, (s.src.rdV b.toNat s.lead).toNat / 2 ^ 16, none, none⟩] ∧
        q.ctl = s.src.rdV (b.toNat + 1) s.lead ∧ q.weirAddr = (s.src.rdV2 (b.toNat + 2) s.lead).toNat ∧ q.stage = none ∧
        q.asid = s.g.asid ∧ q.view = s.g.view ∧ q.ltabBase = s.g.ltabBase.toNat ∧ q.ltabCount = s.g.ltabCount ∧
        q.boxes.map (fun y => (y.lane, y.sr, y.sc, y.dr, y.dc, y.pos)) = (lanesOf s.leadLanes).map (fun l =>
          (l, (s.src.rdV a.toNat l).toNat, (s.src.rdV (a.toNat + 1) l).toNat, (s.src.rdV (a.toNat + 2) l).toNat,
            (s.src.rdV (a.toNat + 3) l).toNat, 0)) ∧
        (∀ y ∈ q.boxes, y.state = .fresh) ∧ t.g = { s.g with cpcnt := s.g.cpcnt + 1 } ∧ SameBytes s t)) ∧
    (∀ a b s, Ready (.cptLtab a b) s → exec (.cptLtab a b) s = .next
      { s with g := { s.g with ltabBase := s.src.rdS a.toNat, ltabCount := min (s.src.rdS b.toNat).toNat 65536 } })) ∧
  (
    let code := fun (k : Nat) => BitVec.ofNat 64 (2 ^ 63 + k)
    (∀ d a s, Ready (.cptBind d a) s → let va := (s.src.rdS a.toNat).toNat
      let nums := (List.range 4).filter (fun p => (mapGet none s.g.plans p).isNone)
      ((nums = [] ∨ (s.freeCtx s.core).length < 5) → ∃ t, exec (.cptBind d a) s = .next t ∧ ScalarIs d.toNat (code 1) false s t) ∧
      (∀ num ns x xs u h hp, nums = num :: ns → s.freeCtx s.core = x :: xs → 4 ≤ xs.length → s.groupRead va 32 = (u, some (h, hp)) →
        let n := recField h 0 1
        let hbad := hp = true ∨ va % 32 ≠ 0 ∨ headerBad h ((u.myTeam.map Team.scratch).getD 0) = true
        (hbad → ∃ t, exec (.cptBind d a) s = .next t ∧ ScalarIs d.toNat (code 2) false u t) ∧
        (¬ hbad → ∀ w st, u.groupReads ((List.range n).map (fun k => (va + 32 + 32 * k, 32))) = (w, some st) →
          let sbad := ∃ y ∈ st, y.2 = true ∨ recField y.1 0x1E 2 ≠ 0
          let hs := st.flatMap (fun y => [recField y.1 0 2, recField y.1 2 2])
          (sbad → ∃ t, exec (.cptBind d a) s = .next t ∧ ScalarIs d.toNat (code 2) false w t) ∧
          (¬ sbad → (w.g.ltabBase.toNat % 64 ≠ 0 ∨ ∃ k ∈ hs, w.g.ltabCount ≤ k) →
            ∃ t, exec (.cptBind d a) s = .next t ∧ ScalarIs d.toNat (code 3) false w t) ∧
          (¬ sbad → w.g.ltabBase.toNat % 64 = 0 → (∀ k ∈ hs, k < w.g.ltabCount) →
            ∀ z rs, w.groupReads (hs.map (fun k => (w.g.ltabBase.toNat + 64 * k, 64))) = (z, some rs) →
            let r := fun k => rs.getD k (0, true)
            let rbad := ∃ k, k < n ∧ ((r (2 * k)).2 = true ∨ (r (2 * k + 1)).2 = true ∨
              pairBad z.maint (r (2 * k)).1 (r (2 * k + 1)).1 = true)
            (rbad → ∃ t, exec (.cptBind d a) s = .next t ∧ ScalarIs d.toNat (code 3) false z t) ∧
            (¬ rbad → ∃ t, exec (.cptBind d a) s = .next t ∧ t.g.r.rdS d.toNat = BitVec.ofNat 64 num ∧
              mapGet none t.g.plans num = some x ∧ SameBytes z t ∧
              t.ctx z.core x = some ⟨z.gid, z.g.team, some ⟨h, (List.range n).map (fun k =>
                ((st.getD k (0, false)).1, (r (2 * k)).1, (r (2 * k + 1)).1)), 0, false⟩, []⟩))))) ∧
    (∀ d a s, Ready (.cptAdv d a) s → (s.planOf a = none → ∃ t, exec (.cptAdv d a) s = .next t ∧ ScalarIs d.toNat (code 1) false s t) ∧
      (∀ x c p, s.planOf a = some (x, c, p) → let n := recField p.header 8 4
        (n ≠ 0 → p.stage = n → ∃ t, exec (.cptAdv d a) s = .next t ∧ ScalarIs d.toNat (code 2) false s t) ∧
        (n = 0 ∨ p.stage ≠ n → ∃ t q, exec (.cptAdv d a) s = .next t ∧ t.g.r.rdS d.toNat = BitVec.ofNat 64 p.stage ∧
          t.g.cpcnt = s.g.cpcnt + 1 ∧ SameBytes s t ∧
          t.ctx s.core x = some { c with plan := some { p with stage := p.stage + 1 }, cmds := c.cmds ++ [q] } ∧
          q.stage = some p.stage ∧ q.boxes.length = p.steps.length ∧
          q.weirAddr = localBase + recField p.header 4 4 + 16 * (p.stage % recField p.header 1 1)))) ∧
    (∀ d a s, Ready (.cptRel d a) s → (s.planOf a = none → ∃ t, exec (.cptRel d a) s = .next t ∧ ScalarIs d.toNat 1 false s t) ∧
      (∀ x c p, s.planOf a = some (x, c, p) → ∃ t, exec (.cptRel d a) s = .next t ∧ t.g.r.rdS d.toNat = 0 ∧
        mapGet none t.g.plans ((s.src.rdS a.toNat).toNat % 4) = none ∧ SameBytes s t ∧ (c.cmds = [] → t.ctx s.core x = none) ∧
        (c.cmds ≠ [] → t.ctx s.core x = some { c with plan := some { p with released := true } })))) ∧
  (
    ∀ d a (x : BitVec 2) s, x.toNat < 3 → Ready (.cptRes d a x) s → let cx := (s.src.rdS a.toNat).toNat % 16
      ((∀ q k l f, s.copyPending s.core s.gid = some (cx, q, k, l, f) → f.delivered = false) →
        ∃ t, exec (.cptRes d a x) s = .next t ∧ ScalarIs d.toNat 1 false s t) ∧
      (∀ q k l f, s.copyPending s.core s.gid = some (cx, q, k, l, f) → f.delivered = true → k < 64 →
        (∀ c y, s.ctx s.core cx = some c → y ∈ c.cmds → y.id = q.id → y = q) →
        (x.toNat ≠ 2 → ∃ t, exec (.cptRes d a x) s = .next t ∧ t.g.r.rdS d.toNat = 0 ∧
          ∀ c y b e, t.ctx s.core cx = some c → y ∈ c.cmds → y.id = q.id → y.boxes[k]? = some b → f.resolve = false →
            b.state ≠ .faulted e) ∧
        (x.toNat = 2 → (f.side = 0 ∧ f.resolve = false ∧ f.weir = false ∧ (f.cause = 3 ∨ f.cause = 4 ∨ f.cause = 5 ∨ f.cause = 7)) →
          ∃ t, exec (.cptRes d a x) s = .next t ∧ t.g.r.rdS d.toNat = 0 ∧ SameBytes s t ∧
          ∀ c y b, t.ctx s.core cx = some c → y ∈ c.cmds → y.id = q.id → y.boxes[k]? = some b →
            b.state = .running ∧ b.patch = some (s.src.rdS d.toNat)) ∧
        (x.toNat = 2 → ¬ (f.side = 0 ∧ f.resolve = false ∧ f.weir = false ∧ (f.cause = 3 ∨ f.cause = 4 ∨ f.cause = 5 ∨ f.cause = 7)) →
          ∃ t, exec (.cptRes d a x) s = .next t ∧ ScalarIs d.toNat 2 false s t)))

/-- R351, R352, R361, R362, R366 to R371, R374: the matrix words. A command waits while its unit holds 16
commands (codebook loads issued to it among them) or a copy owns its tile, traps on bad operands, and else joins the queue
with what it captured; `mcb` joins the core's codebook loads; `mxst` reads the matrix status of the quarter, `mxst.clr` also clears its sticky bits. Log 32 names
the model's readings. -/
def Obligations.MatrixWords : Prop :=
  let books := fun (s : State) => ((mapGet [] s.cbq s.core).filter (fun x =>
    ((s.getG x.grp).map Group.quarter) == some s.g.quarter)).length
  let joins := fun (i : Instr) (s : State) (t : Nat) (waits : Bool) (bad : Option (Nat × Nat)) (good : MuOp → Prop) =>
    let busy := 16 ≤ (s.muq s.core s.g.quarter).length + books s ∨ s.tileOwned s.core s.g.quarter t none = true ∨ waits = true
    (busy → exec i s = .next ((s.noted i).stall)) ∧
    (¬ busy → ∀ r v, bad = some (r, v) → ∃ x, x.cause = 12 ∧ x.i2 = BitVec.ofNat 64 r ∧ x.i3 = BitVec.ofNat 64 v ∧
      exec i s = .next ((s.noted i).trap x)) ∧
    (¬ busy → bad = none → ∃ u op, exec i s = .next u ∧ good op ∧ (∃ k c, u.muq s.core s.g.quarter =
      s.muq s.core s.g.quarter ++ [⟨k, s.gid, op, c⟩]) ∧ u.g = { s.g with mxcnt := s.g.mxcnt + 1 } ∧ SameBytes s u)
  (∀ t z (b2 : BitVec 2) a b s, Ready (.mma t z b2 a b) s →
    let w := fun i => s.src.rdV (a.toNat + i) s.lead
    let p := MatPar.ofWords (fun i => (w i).toNat)
    joins (.mma t z b2 a b) s t.toNat (p.cb && s.loadsCodebook)
      (matBad (s.feat 0) (s.feat 1) s.padSize (fun i => (w i).toNat))
      (fun op => op = .mma t.toNat (z == 1#1) b2.toNat ((List.range 4).map w)
        ((List.range 128).map (fun k => s.src.rdV (b.toNat + k / 32) (k % 32)))
        (if p.cb then some ((s.coreSt s.core).act, (s.coreSt s.core).cbgen) else none))) ∧
  (∀ t a s, Ready (.mld t a) s → let o := (s.src.rdS a.toNat).toNat
    joins (.mld t a) s t.toNat false (offsetsBad s.padSize [(o, 256, 4096)]) (fun op => op = .mld t.toNat o)) ∧
  (∀ t (f : BitVec 1) a b s, let o := (s.src.rdS a.toNat).toNat
    let w := s.src.rdS b.toNat
    let weir := if 2 ^ 63 ≤ w.toNat then none else some w.toNat
    let ops := fun (al n : Nat) => (o, al, n) :: (if 2 ^ 63 ≤ w.toNat then [] else [(w.toNat, 16, 16)])
    (Ready (.mst t f a b) s → joins (.mst t f a b) s t.toNat false
      (offsetsBad s.padSize (ops 256 (if f = 1#1 then 2048 else 4096))) (fun op => op = .mst t.toNat o (f == 1#1) weir)) ∧
    (Ready (.mqst t f a b) s → joins (.mqst t f a b) s t.toNat false
      (offsetsBad s.padSize (ops 64 2112)) (fun op => op = .mqst t.toNat o (f == 1#1) weir))) ∧
  (∀ a s, Ready (.mcb a) s → let o := (s.src.rdS a.toNat).toNat
    let busy := 16 ≤ (s.muq s.core s.g.quarter).length + books s
    (busy → exec (.mcb a) s = .next s.stall) ∧
    (¬ busy → ∀ r v, offsetsBad s.padSize [(o, 64, 256)] = some (r, v) → ∃ x, x.cause = 12 ∧ x.i2 = BitVec.ofNat 64 r ∧
      exec (.mcb a) s = .next (s.trap x)) ∧
    (¬ busy → offsetsBad s.padSize [(o, 64, 256)] = none → ∃ t c, exec (.mcb a) s = .next t ∧
      mapGet [] t.cbq s.core = mapGet [] s.cbq s.core ++ [⟨s.gid, o, c⟩] ∧ t.g = { s.g with mxcnt := s.g.mxcnt + 1 } ∧
      SameBytes s t)) ∧
  (∀ d i s, i = Instr.mxst d ∨ i = Instr.mxstClr d → Ready i s → let c := s.coreSt s.core
    let st := (s.myTeam.map (fun t => (mapGet 0 t.mxstat s.g.quarter).toNat)).getD 0
    let v := BitVec.ofNat 64 (c.cbgen % 2 ^ 16 + c.act % 2 * 2 ^ 16 +
      (if mapGet [] s.cbq s.core = [] then 0 else 2 ^ 17) + st * 2 ^ 24)
    ∃ t, exec i s = .next t ∧ (i = .mxst d → ScalarIs d.toNat v false s t) ∧
      (i = .mxstClr d → t.g.r.rdS d.toNat = v ∧ SameBytes s t ∧ ∀ y, s.team s.g.team = some y →
        t.team s.g.team = some { y with mxstat := mapSet 0 y.mxstat s.g.quarter 0 }))

/-- R385, R386: the words of the flash queue engines. `fqe.pf` asks for the absent regions of its range and counts
them; `fqe.sync` waits for the group's stores and for frames that fill or leave, and then writes the dirty flash
sub-pages, answering 1 where there are none; `fqe.sub` submits the NVMe command that its record describes and answers
its pair. Log 33 names the model's readings. -/
def Obligations.FlashWords : Prop :=
  ∀ d a s, let x := (s.src.rdS a.toNat).toNat
    (Ready (.fqePf d a) s → s.checkAccess (kLoad 1) none 1 true (s.oneAccess a) = none →
      let want := ((List.range (x % 2 ^ 16 + 1)).map (fun i => x / 2 ^ 16 + i)).filter (fun r => r < 2 ^ 41 && !onChip (r * 2 ^ 16) &&
        (s.findFrame (s.stackOf s.g.asid (r * 2 ^ 16)) s.g.asid s.g.view (r * 2 ^ 16)).isNone)
      ∃ t, exec (.fqePf d a) s = .next t ∧ t.g.r.rdS d.toNat = BitVec.ofNat 64 want.length ∧
        t.agenda = s.agenda ++ want.map (fun r => .prefetch s.g.asid s.g.view r) ∧ SameBytes s t) ∧
    (Ready (.fqeSync d a) s → s.g.view = 0 → s.checkAccess { kStore 1 with out := 1, inn := 1 } none 1 true (s.oneAccess a) = none →
      let fks := (s.frames.filter (fun e => e.2.asid == s.g.asid && e.2.view == 0 && !e.2.table && 1 ≤ e.2.state && e.2.state ≤ 3
        && x / 2 ^ 16 ≤ e.2.vpn && e.2.vpn < x / 2 ^ 16 + (x % 2 ^ 16 + 1))).map (·.1)
      let busy := s.g.stcnt ≠ 0 ∨ ∃ f ∈ fks, (s.frame f).state ≠ 1 ∨ ∃ x ∈ s.spills, x.fk = f
      (busy → exec (.fqeSync d a) s = .next s.stall) ∧
      (¬ busy → ∃ t, exec (.fqeSync d a) s = .next t ∧
        ((t.g.r.rdS d.toNat = 1 ∧ t.g.hold = s.g.hold) ∨
          (t.g.r = s.g.r ∧ ∃ c dr, c ≠ [] ∧ t.g.hold = .sync d.toNat c dr false)) ∧
        ((∀ f ∈ fks, (s.frame f).dirty = 0) → t.g.r.rdS d.toNat = 1 ∧ t.g.hold = s.g.hold ∧ t.mem = s.mem))) ∧
    (Ready (.fqeSub d a) s → s.g.view = 0 → ∀ u ps,
      s.checkAccess { kLoad 64 with out := 64, inn := 64 } none 64 true (s.oneAccess a) = none →
      s.resolve { kLoad 64 with out := 64, inn := 64 } 0 x 64 = (u, .ok ps) → ∀ w r b, w = u.noteParts u.lead ps →
      w.piecesRead ps = (r, b) →
      ((b = true ∨ subBad r = true) → ∃ t, exec (.fqeSub d a) s = .next t ∧
        LoadSent [.scalar d.toNat (BitVec.ofNat 64 (2 ^ 63 + 1)) false] w t) ∧
      (b = false → subBad r = false → ∃ t c v, exec (.fqeSub d a) s = .next t ∧ LoadSent [.scalar d.toNat v false] w t ∧
        t.nvme.map Nvme.id = w.nvme.map Nvme.id ++ [c.id] ∧ c ∈ t.nvme ∧ c.op = recField r 0 1 ∧
        c.drive = recField r 1 2 % 2 ^ 5 ∧ c.lba = recField r 8 8 ∧ c.count = recField r 4 4 ∧ c.fqe = c.drive % 16 ∧
        c.parts = (if c.op = 1 ∨ c.op = 2 then (List.range c.count).map (fun j => (recField r 0x10 8 + 4096 * j, 0)) else []) ∧
        c.what = .sub x (recField r 0x18 8) (recField r 0x10 8) ∧
        48 ≤ c.pair ∧ c.pair < 64 ∧ ((∀ y ∈ w.nvme, y.id ≠ w.ids) → v = BitVec.ofNat 64 (c.fqe * 64 + c.pair))))

/-- R432 to R435, R446 to R448: the world words. `wfork` opens a fork of n worlds whose tags take the WORLD windows of
its mask, `wenter` and `wleave` move the group into a world and back, `wchoose` closes the fork and commits a world
unless it is occupied or spoiled, `wstat` and `wwho` report. Log 34 names the model's readings. -/
def Obligations.Worlds : Prop :=
  ∀ d a s, let x := (s.src.rdS a.toNat).toNat
    let h := x / 2 ^ 4 % 2 ^ 3
    let k := x % 2 ^ 4
    let gives := fun (i : Instr) (n : Nat) => ∃ t, exec i s = .next t ∧ ScalarIs d.toNat (BitVec.ofNat 64 n) false s t
    (Ready (.wfork d a) s →
      (∀ c, s.forkRefusal x = some c → gives (.wfork d a) c) ∧
      (s.forkRefusal x = none → ∀ y, s.myTeam = some y → ∃ t z j f, exec (.wfork d a) s = .next t ∧ j < 8 ∧
        y.fork j = none ∧ (∀ l, l < j → y.fork l ≠ none) ∧
        t.team s.g.team = some z ∧ z = { y with forks := mapSet none y.forks j (some f) } ∧
        f.parent = s.g.view ∧ f.tags.length = x % 2 ^ 3 + 1 ∧ f.mask = x / 2 ^ 4 % 2 ^ 4 ∧ f.spoiled = 0 ∧
        f.depth = s.depthOf s.g.asid s.g.view + 1 ∧
        (∀ v ∈ f.tags, 1 ≤ v ∧ v < 64 ∧ (s.tag s.g.asid v).state = .free ∧ (t.tag s.g.asid v).state = .live ∧
          (t.tag s.g.asid v).parent = s.g.view ∧ (t.tag s.g.asid v).windows =
            (s.worldWindows.filter (fun w => f.mask.testBit w.1)).map (fun w => w.2)) ∧
        t.g.r.rdS d.toNat = BitVec.ofNat 64 (j * 2 ^ 8 + f.depth * 2 ^ 12) ∧ SameBytes s t)) ∧
    (Ready (.wenter d a) s → (2 ^ 7 ≤ x → gives (.wenter d a) 1) ∧ (x < 2 ^ 7 → s.myFork h = none → gives (.wenter d a) 6) ∧
      (x < 2 ^ 7 → ∀ f, s.myFork h = some f → (f.tags.length ≤ k → gives (.wenter d a) 1) ∧
        (k < f.tags.length → s.g.view ≠ f.parent → gives (.wenter d a) 5) ∧
        (k < f.tags.length → s.g.view = f.parent → ∃ t, exec (.wenter d a) s = .next t ∧
          ScalarIs d.toNat 0 false (s.setG (fun g => { g with view := f.tags.getD k 0, world := some (h, k) })) t))) ∧
    (Ready (.wleave d) s → (s.g.world = none → gives (.wleave d) 8) ∧
      (s.g.world ≠ none → ∃ t, exec (.wleave d) s = .next t ∧ let u := s.flushFar s.gid
        t.contribs = u.contribs ∧ SameBytes s t ∧
        ((s.g.stcnt ≠ 0 ∨ s.g.cpcnt ≠ 0 ∨ u.farLeft s.gid = true ∨ s.team s.g.team = none) →
          t.g = { s.g with hold := .leave d.toNat s.iss.chainPc }) ∧
        (s.g.stcnt = 0 → s.g.cpcnt = 0 → u.farLeft s.gid = false → ∀ y, s.team s.g.team = some y →
          t.g.view = (s.tag s.g.asid s.g.view).parent ∧ t.g.world = y.worldOf (s.tag s.g.asid s.g.view).parent ∧
          t.g.hold = .none ∧ t.g.r.rdS d.toNat = 0))) ∧
    (Ready (.wchoose d a) s → (2 ^ 7 ≤ x → gives (.wchoose d a) 1) ∧ (x < 2 ^ 7 → s.myFork h = none → gives (.wchoose d a) 6) ∧
      (x < 2 ^ 7 → ∀ f, s.myFork h = some f → (f.tags.length ≤ k → k ≠ 15 → gives (.wchoose d a) 1) ∧
        let named := k < f.tags.length ∨ k = 15
        (named → s.g.view ≠ f.parent → gives (.wchoose d a) 5) ∧
        (named → s.g.view = f.parent → s.occupied h f = true → gives (.wchoose d a) 9) ∧
        (named → s.g.view = f.parent → s.occupied h f = false → k = 15 ∨ f.spoiled.getLsbD k = true → ∃ t y,
          exec (.wchoose d a) s = .next t ∧ t.g.r.rdS d.toNat = (if k = 15 then 0 else 7) ∧
          t.team s.g.team = some y ∧ y.fork h = none ∧ ∀ v ∈ f.tags, (t.tag s.g.asid v).state ≠ .live) ∧
        (named → s.g.view = f.parent → s.occupied h f = false → k ≠ 15 → f.spoiled.getLsbD k = false →
          exec (.wchoose d a) s = .next
            ((s.setG (fun g => { g with hold := .commit d.toNat h (f.tags.getD k 0) f.parent 0 [] })).commitStep s.gid)))) ∧
    (Ready (.wstat d a) s → (2 ^ 7 ≤ x → gives (.wstat d a) 1) ∧ (x < 2 ^ 7 → s.myFork h = none → gives (.wstat d a) 6) ∧
      (x < 2 ^ 7 → ∀ f y, s.myTeam = some y → y.fork h = some f → ∃ occ, gives (.wstat d a)
        (2 ^ 8 * (2 ^ f.tags.length - 1) + 2 ^ 16 * (f.spoiled.toNat % 2 ^ 8) + 2 ^ 24 * occ +
          2 ^ 32 * (y.held.length % 256) + 2 ^ 40 * f.depth) ∧
        ∀ l, occ.testBit l = true ↔ l < f.tags.length ∧
          ∃ e ∈ s.teamGroups s.g.team, e.2.finished = false ∧ e.2.world = some (h, l))) ∧
    (Ready (.wwho d) s → gives (.wwho d) (s.g.view + (match s.g.world with
      | some (h, k) => 2 ^ 6 + h * 2 ^ 7 + k * 2 ^ 10
      | none => 0) + s.depthOf s.g.asid s.g.view * 2 ^ 13 + if s.g.r.replay then 2 ^ 16 else 0))

/-- R160, R161, R180: `launch`. Only group 0 launches; each lane in ascending order answers 4 for a misaligned record,
1 at nesting depth 10, 2 with 64 children, and else copies the record it finds, whose grid is a child in the lowest
free slot, and answers the slot times 256. Log 35 names the model's readings. -/
def Obligations.Launches : Prop :=
  ∀ d a s, Ready (.launch d a) s → let ea := fun l => (s.src.rdV2 a.toNat l).toNat
    let xs := (lanesOf s.leadLanes).map (fun l => (l, ea l))
    let m := fun (l : Nat) => maskOf (fun k => (s.withShadow l).contains k)
    let gives := fun (l n : Nat) (u t : State) => LanesAre (m l) d.toNat 1 (fun _ _ => BitVec.ofNat 32 n) (fun _ => false) u t
    s.alike ea →
    ∃ (f : Nat → State) (t : State), f 0 = s ∧
      ((s.g.grp ≠ 0 → exec (.launch d a) s = .next t ∧ f xs.length = t ∧
        ∀ j l r, xs[j]? = some (l, r) → gives l 3 (f j) (f (j + 1))) ∧
      (s.g.grp = 0 → s.checkAccess kLaunch (if s.g.view = 0 then none else some 5) 256 false xs = none →
        s.watched false 256 xs = none → exec (.launch d a) s = .next t ∧ f xs.length = t ∧
        ∀ j l r g, xs[j]? = some (l, r) → (f j).myGrid = some g →
        (r % 256 ≠ 0 → gives l 4 (f j) (f (j + 1))) ∧
        (r % 256 = 0 → g.depth = 10 → gives l 1 (f j) (f (j + 1))) ∧
        (r % 256 = 0 → g.depth ≠ 10 → 64 ≤ (f j).childSlots.length → gives l 2 (f j) (f (j + 1))) ∧
        (r % 256 = 0 → g.depth ≠ 10 → (f j).childSlots.length < 64 → ∀ u ps, (f j).resolve kLaunch 0 r 256 = (u, .ok ps) →
          ∃ k id y z c, k < 64 ∧ k ∉ u.childSlots ∧ (∀ i, i < k → i ∈ u.childSlots) ∧ u.team u.g.team = some y ∧
            (f (j + 1)).team u.g.team = some z ∧ z.children = mapSet none y.children k (some id) ∧
            (f (j + 1)).grid id = some c ∧ c.record = ((u.noteParts l ps).piecesRead ps).1 ∧
            c.parent = some (u.g.team, k) ∧ c.depth = g.depth + 1 ∧ c.asid = u.g.asid ∧ c.level = g.level ∧ c.polder = g.polder ∧
            (∀ q, (m l).getLsbD q = true → (f (j + 1)).g.r.rdV d.toNat q = BitVec.ofNat 32 (256 * k)))))

/-! ### Start-up and housekeeping (R33, R221, R462, R493 to R503) -/

/-- R33, R493 to R495, R497, R409: start-up. Each tile verifies its image and starts its cores, or stops in STAGE 15; the
lead core makes RUN 1 or stops with its FAILCODE; a core that is reset holds its reset registers at packet 0 with nothing
outstanding; a device reset puts every register back and keeps what lies outside the device and the reference timer; a
core that is woken is LIVE at packet 0 with the item's address or the cause in `s4`; an attestation writes its report.
What the image is and whether it passes, and that the report goes to port 0, are the model's (log 4, 20, 21, 22). -/
def Obligations.StartUp : Prop :=
  (∀ s, s.dev.poweredOn = false → s.dev.failcode = 0 → (∀ k, k < 8 → (s.tile k).stage ≠ 15) →
    ∃ t, exec .powerOnBoot s = .next t ∧ t.dev.poweredOn = true ∧ t.dev.run = s.dev.run ∧
      ∀ k, k < 8 → if Config.startUp k % 3 = 0 then
          (t.tile k).stage = 2 ∧ (t.tile k).meas = Config.shake512 0 (Config.imageDigest k)
        else (t.tile k).stage = 15 ∧ (t.tile k).failcode = Config.startUp k % 3) ∧
  (∀ s, s.dev.poweredOn = true → s.dev.run = false → s.dev.failcode = 0 → ∃ t, exec .run s = .next t ∧
    if Config.startUpEnd % 3 = 0 then t.dev.run = true ∧ (t.tile 0).stage = 3 ∧ t.dev.fatal = s.dev.fatal
    else t.dev.run = false ∧ (t.tile 0).stage = 15 ∧ t.dev.failcode = Config.startUpEnd % 3 + 2 ∧ t.dev.fatal = true) ∧
  (∀ u s, u < 16 → (s.tile (u % 8)).stage ≠ 15 → (8 ≤ u → s.coreTaken (u - 8) = false) → (s.getG u).isSome = true →
    (∀ x, s.getG u = some x → x.laneAt 0 ≠ .halted) →
    ∃ t g, exec (.coreReset u) s = .next t ∧ t.getG u = some g ∧
      g.r = Regs.zero (if u < 8 then 0x01000010#32 else 0x02000020#32) (if u < 8 then 0x200000#64 else 0x100000#64) ∧
      g.lane 0 = .live ∧ g.pc 0 = 0 ∧ g.blkOf 0 = Blk.none ∧ g.save = none ∧ g.pkt = none ∧
      g.loads = [] ∧ g.ldcnt = 0 ∧ g.stcnt = 0 ∧ g.faults = []) ∧
  (∀ s, ∃ t, exec .deviceReset s = .next t ∧ t.g = State.reset.g ∧ t.others = State.reset.others ∧
    t.dev = State.reset.dev ∧ t.tiles = State.reset.tiles ∧ t.polders = State.reset.polders ∧ t.teams = [] ∧
    t.grids = [] ∧ t.mem = State.reset.mem ∧ t.iss = Issue.none ∧ t.tick = s.tick ∧ t.host = s.host ∧
    t.pool = s.pool ∧ t.flash = s.flash ∧ t.peer = s.peer) ∧
  (∀ a s, s.dev.attestBusy = some a → ∃ t, exec (.attestation a) s = .next t ∧
    t.dev.attestBusy = none ∧ t.dev.attest = 1 ∧
    (∀ i, i < 1856 → mapGet 0 t.host (hostKey 0 a.toNat + i) = (s.report s.free).getD i 0) ∧ t.mem = s.mem) ∧
  (∀ k s, k < 8 → s.asleep k = true → (s.tile k).prProd ≠ (s.tile k).prCons → ∃ t g, exec (.pagerWake k) s = .next t ∧
    t.getG k = some g ∧ g.lane 0 = .live ∧ g.pc 0 = 0 ∧
    let x := s.tile k
    g.r.rdS 4 = BitVec.ofNat 64 (ringBase x.pagerRing + 64 * (x.prCons % ringSize x.pagerRing))) ∧
  (∀ k c s, k < 8 → s.asleep (8 + (s.tile k).owner) = true → s.wakeDue k c = true → ∃ t g,
    exec (.tmcWake k c) s = .next t ∧ t.getG (8 + (s.tile k).owner) = some g ∧ g.lane 0 = .live ∧ g.pc 0 = 0 ∧
    g.r.rdS 4 = BitVec.ofNat 64 c)

/-- R221, R420, R462, R498 to R503: heartbeats, rates, take-overs, throttling, clock steps, refresh, counters cleared,
fade counters, and the base of a save area. Sensor readings and whether the power limit is passed are free (log 4). -/
def Obligations.Housekeeping : Prop :=
  (∀ k w s, s.byOwner k (.mgmt w) = true → ∃ t, exec (.tileHeartbeat k w) s = .next t ∧ (t.tile k).lastHb = s.tick ∧
    (t.tile k).missAt = none ∧ (t.tile k).orphan = false ∧ (t.tile k).rate = (s.tile k).rate) ∧
  (∀ k w s, s.byOwner k (.mgmt w) = false → exec (.tileHeartbeat k w) s = .next s) ∧
  (∀ k w r s, s.byOwner k (.mgmt w) = true → ∃ t, exec (.tileRateSet k w r) s = .next t ∧
    (t.tile k).rate = r % 4 ∧ (t.tile k).rateEff = min 2 (r % 4)) ∧
  (∀ k w s, (s.tile k).missAt.isSome = true → (w = k ^^^ 1 ∨ w = (s.tile (k ^^^ 1)).owner) → s.coreTaken w = false →
    ∃ t, exec (.tileTake k w) s = .next t ∧ (t.tile k).owner = w ∧ (t.tile k).orphan = false ∧
      (t.tile k).missAt = none ∧ t.coreTaken (s.tile k).owner = true ∧
      ∀ g, t.getG (8 + (s.tile k).owner) = some g → ∀ l, g.lane l = .exited) ∧
  (∀ k s, k < 8 → 2 ≤ (s.tile k).stage → (s.tile k).stage ≠ 15 → (s.tile k).lost = false → (s.tile k).missAt = none →
    (s.tile k).lastHb + 125000 ≤ s.tick → ∃ t, exec (.heartbeatMiss k) s = .next t ∧ (t.tile k).missAt = some s.tick ∧
      (t.tile k).orphan = true ∧ (t.tile k).rateEff = max (min 2 (s.tile k).rate) 1 ∧ 4 ∈ (t.tile (k ^^^ 1)).wake) ∧
  (∀ k m s, (s.tile k).missAt = some m → (s.tile k).overdue = false → m + 1250000 ≤ s.tick → ∃ t,
    exec (.takeoverTimeout k) s = .next t ∧ t.dev.fatal = true ∧ (t.tile k).overdue = true) ∧
  (∀ d s, d < 32 → (s.die d).throttled = false → (s.die d).lost = false → s.thermAt d 1 ≤ s.dieTemp d → ∃ t,
    exec (.throttle d) s = .next t ∧ (t.die d).throttled = true ∧ (t.die d).mhz = 600) ∧
  (∀ d s, d < 32 → (s.die d).throttled = true → s.dieTemp d ≤ s.thermAt d 1 - 40 → ∃ t,
    exec (.throttleEnd d) s = .next t ∧ (t.die d).throttled = false ∧ (t.die d).mhz = s.dev.mhz) ∧
  (∀ up s, ∃ t, exec (.powerClockStep up) s = .next t ∧
    (Config.overPower s.free = up → t.dev = s.dev ∧ t.dies = s.dies) ∧
    (Config.overPower s.free ≠ up →
      t.dev.mhz = (if up then min 1500 (s.dev.mhz + 50) else max 600 (s.dev.mhz - 50)) ∧
      ∀ d, d < 32 → (t.die d).mhz = if (s.die d).throttled then (s.die d).mhz else t.dev.mhz)) ∧
  (∀ k s, k < 8 → ∃ t, exec (.refresh k) s = .next t ∧ SameBytes s t ∧
    ∀ i, i < 9 → (t.tile k).sensor i = (Config.temperature k i s.free).toNat) ∧
  (∀ d s, ∃ t, exec (.dieClkClear d) s = .next t ∧ (t.die d).sweeps = 0 ∧ (t.die d).fullDrops = 0 ∧
    (t.die d).waitTicks = 0 ∧ (t.die d).epoch = (s.die d).epoch) ∧
  (∀ c s, ∃ t, exec (.shadowBankDrainDone c) s = .next t ∧ (t.coreSt c).draining = false ∧ t.acc = s.acc) ∧
  (∀ s, (s.grids.map (·.1)).Nodup → ∃ t, exec .fadeTick s = .next t ∧
    ∀ k g i w, s.grid k = some g → g.started = true → g.done = false → g.windows[i]? = some w → w.kind = 1 → w.lapsed = false →
      w.fade ≠ 0 →
      ∃ g' w', t.grid k = some g' ∧ g'.windows[i]? = some w' ∧ w'.fade = w.fade - 1 ∧
        (w.fade = 1 → w'.lapsed = true ∧ ∀ p ∈ t.pins, p.by_ ≠ PinBy.window k i)) ∧
  (∀ k v s, (s.tile k).slots = [] → ∃ t, exec (.ctxBaseWrite k v) s = .next t ∧
    (t.tile k).ctxBase = v &&& 0x01FFFFFFFFE003FF#64 ∧ (t.tile k).ctxReady = false ∧ (t.tile k).slots = [])

/-! ### The management space (R208, R483 to R491, R497) -/

/-- R208, R483, R485, R487 to R491, R497: writes of management registers. What a register that the spec does not
describe in full does is the model's reading (log 20). -/
def Obligations.ManagementWrites : Prop :=
  let within := fun (x : Nat) (f n : Nat) => f ≤ x ∧ x < f + n
  -- R483, R487, R496: a plain register takes its defined bits; an event register makes its event due
  (∀ v s, ∃ t, exec (.mgmtRegisterWrite 0x200 4 v .host) s = .next t ∧
    t.dev.pwrLimit.toNat = max 3000 (min 12000 (v.toNat % 2 ^ 32))) ∧
  (∀ p v s, p < 256 → ∃ t, exec (.mgmtRegisterWrite ((16 + p) * 0x10000) 8 v .host) s = .next t ∧
    (t.polder p).tune = v &&& 0x0007FFFFFFFF000F#64) ∧
  (∀ p q v s, p < 256 → q < 16 → exec (.mgmtRegisterWrite ((16 + p) * 0x10000 + 0x10C + 0x20 * q) 4 v .host) s =
    .next { s with agenda := s.agenda ++ [.queueDoorbell p q (v.setWidth 32)] }) ∧
  (∀ off n v w s, ¬ ((n = 4 ∨ n = 8) ∧ off % n = 0) → exec (.mgmtRegisterWrite off n v w) s = .next s) ∧
  -- R485
  (∀ p v s, let c := v &&& 0x8000FFFFFFFFFFFF#64
    (∀ e ∈ (s.polder p).queues, e.2.ctl.getLsbD 0 = false) → (∀ e ∈ s.grids, ∀ g, e.2 = some g → g.polder = p → g.done = true) →
    cfgAsidFirst c + cfgAsidCount c ≤ 1024 → (cfgAsidCount c ≠ 0 → cfgAsidFirst c ≠ 0) →
    cfgKeyFirst c + cfgKeyCount c ≤ 1024 → (cfgKeyCount c ≠ 0 → cfgKeyFirst c ≠ 0) →
    (∀ e ∈ s.polders, e.1 ≠ p → cfgEnabled e.2.cfg = true →
      (∀ x, ¬ (within x (cfgAsidFirst c) (cfgAsidCount c) ∧ within x (cfgAsidFirst e.2.cfg) (cfgAsidCount e.2.cfg))) ∧
      ∀ x, ¬ (within x (cfgKeyFirst c) (cfgKeyCount c) ∧ within x (cfgKeyFirst e.2.cfg) (cfgKeyCount e.2.cfg))) →
    ∃ t, exec (.polderConfigWrite p v) s = .next t ∧ (t.polder p).cfg = c ∧ t.dev.cfgStatus = 0) ∧
  (∀ p v s, (∃ e ∈ (s.polder p).queues, e.2.ctl.getLsbD 0 = true) →
    ∃ t, exec (.polderConfigWrite p v) s = .next t ∧ t.polders = s.polders ∧ t.dev.cfgStatus = 1) ∧
  -- R488, R495
  (∀ p q (v : BitVec 32) s, s.dev.run = true → ((s.polder p).queue q).ctl.getLsbD 0 = false → v.getLsbD 0 = true →
    let c := (s.polder p).cfg
    let n := v.toNat
    n < 2 ^ 23 → 4 ≤ bitsOf n 1 5 → bitsOf n 1 5 ≤ 16 → bitsOf n 6 6 ≤ cfgPrio c →
    within (bitsOf n 12 10) (cfgAsidFirst c) (cfgAsidCount c) → (v.getLsbD 22 = true → p = 0) → cfgEnabled c = true →
    ∃ t, exec (.queueControlWrite p q v) s = .next t ∧ ((t.polder p).queue q).ctl = v ∧ (t.polder p).status = 0) ∧
  (∀ p q v s, s.dev.run = false → ∃ t, exec (.queueControlWrite p q v) s = .next t ∧ (t.polder p).status = 1 ∧
    (t.polder p).queues = (s.polder p).queues) ∧
  (∀ p q v s, let qu := (s.polder p).queue q
    (v - qu.prod).toNat < 2 ^ 31 → (v - qu.cons).toNat ≤ 2 ^ bitsOf qu.ctl.toNat 1 5 →
    ∃ t, exec (.queueDoorbell p q v) s = .next t ∧ ((t.polder p).queue q).prod = v ∧ (t.polder p).status = 0 ∧
      t.agenda = s.agenda ++ if qu.ctl.getLsbD 0 then [.recordAccept p q] else []) ∧
  -- R208
  (∀ p (v : BitVec 32) s, let po := s.polder p
    let i := bitsOf v.toNat 0 6
    let old := pwinOf (mapGet 0 po.windows i)
    let new := pwinOf po.stage
    pwinGood po.stage = true → old.base + 2 ^ 21 * old.size ≤ onChipBase → new.base + 2 ^ 21 * new.size ≤ onChipBase →
    s.rangeHeld po.cfg old.base (2 ^ 21 * old.size) = false → s.rangeHeld po.cfg new.base (2 ^ 21 * new.size) = false →
    ∃ t, exec (.placementWindowInstall p v) s = .next t ∧ mapGet 0 (t.polder p).windows i = po.stage ∧
      (t.polder p).status = 0) ∧
  -- R489, R491
  (∀ k s, k ≠ 0 → s.dev.keyPending = [] → s.slotBusy k = false →
    (∃ t, exec (.keyLoad k) s = .next t ∧ t.slotVal k = some s.dev.keyData) ∧
    ∃ t, exec (.keyClear k) s = .next t ∧ t.slotVal k = none) ∧
  (∀ k s, k ≠ 0 → s.slotBusy k = true →
    ∃ t, exec (.keyLoad k) s = .next t ∧ t.dev.keys = s.dev.keys ∧
      t.dev.keyPending = s.dev.keyPending ++ [(k, some s.dev.keyData)]) ∧
  (∀ k x r s, k ≠ 0 → s.dev.keyPending = (k, x) :: r → s.slotBusy k = false →
    ∃ t, exec (.keyUpdateDone k) s = .next t ∧ t.dev.keyPending = r ∧ t.slotVal k = x) ∧
  -- R250, R497
  (∀ k v s, ∃ t, exec (.prConsWrite k v) s = .next t ∧ (t.tile k).prCons = v.toNat) ∧
  (∀ k st (v : BitVec 32) s, s.cowCount st = min 4096 (v.toNat % 2 ^ 13) → ∃ t, exec (.cowResvWrite k st v) s = .next t ∧
    mapGet 0 (t.tile k).cowTarget st = min 4096 (v.toNat % 2 ^ 13) ∧ t.frames = s.frames)

/-! ### What words have started comes to its end (R27, R135, R145, R176, R267, R271, R275, R284 to R286, R306 to R316) -/

/-- R27, R135, R143, R145, R176, R197, R267, R271: an issue begins; a rotation quantum begins; loads write what they
brought and stores are acknowledged; lanes of a join go on; groups finish; watermarks are published, signatures swept.
Which event comes next is free (log 3); log 28 names the readings on watermarks. -/
def Obligations.Completions : Prop :=
  -- R135, R197: the first group of the unit forms its issue set, and its packet is at hand
  (∀ u k ks s, s.candidates u = k :: ks →
    let a := (((s.passCycle u).focusOn k).setG Group.turn)
    let pc := a.g.pc (lowestLane a.g.issueSet)
    let b := { a with iss := { Issue.none with unit := u, set := a.g.issueSet, eff := a.g.issueSet, pc := pc, chainPc := pc } }
    a.g.issueSet ≠ 0 → b.asyncTrap = none → pcSlot pc ≠ 3 → a.g.r.codeBase.toNat + 12 * pcPacket pc + 12 ≤ 2 ^ 57 →
    (∃ p, a.g.pkt = some p ∧ p.idx = pcPacket pc) → exec (.quarterIssue u) s = .next b) ∧
  (∀ u s, s.candidates u = [] → exec (.quarterIssue u) s = .next s) ∧
  -- R145: the quantum is for the LIVE lane outside the last issue set that has waited longest (in a handler, of its own)
  (∀ k x s, let cand := fun l => l < 32 ∧ x.lane l = .live ∧ (x.save.isSome = true → x.hlanes.getLsbD l = true) ∧
      x.lastSet.getLsbD l = false
    s.getG k = some x → 64 ≤ x.btc → x.quantum = 0 → (∃ l, cand l) →
    ∃ t y l, exec (.rotationQuantum k) s = .next t ∧ t.getG k = some y ∧ y.btc = 0 ∧ y.quantum = 64 ∧ cand l ∧
      y.qmask.getLsbD l = true ∧ (∀ j, cand j → mapGet 0 x.lastIssue l ≤ mapGet 0 x.lastIssue j) ∧
      ∀ j, j < 32 → (y.qmask.getLsbD j = true ↔ cand j ∧ x.pc j = x.pc l ∧ x.blkOf j = x.blkOf l)) ∧
  -- R27
  (∀ k i x ld s, s.getG k = some x → x.loads[i]? = some ld → ld.late = none → ∃ (u : State) (y : Group), exec (.loadComplete k i) s = .next u.settleHolds ∧
    u.getG k = some y ∧ y.ldcnt = x.ldcnt - 1 ∧ y.loads = x.loads.eraseIdx i ∧ y.pcv = x.pcv ∧ y.lsv = x.lsv ∧
    (∀ n v p, ld.writes = [.scalar n v p] → y.r.rdS n = v ∧ y.r.poisS n = p ∧ y.r.v = x.r.v) ∧
    (∀ n l v p, l < 32 → ld.writes = [.lane n l v p] → y.r.rdV n l = v ∧ (y.r.poisV n).getLsbD l = p ∧ y.r.s = x.r.s)) ∧
  (∀ x k g s, s.stores.find? (fun y => y.id == x.id) = some x → x.kind = .write [] → x.grp = some k → s.getG k = some g →
    ∃ (u : State) (y : Group), exec (.storeAck x.id) s = .next u.settleHolds ∧ u.stores.map (·.id) = (s.stores.filter (fun y => y.id != x.id)).map (·.id) ∧
      u.getG k = some y ∧ y = { g with stcnt := g.stcnt - 1 }) ∧
  (∀ x i is s, s.stores.find? (fun y => y.id == x.id) = some x → x.kind = .write (i :: is) →
    exec (.storeAck x.id) s = .next s) ∧
  -- R176
  (∀ k x s, s.getG k = some x → x.save = none →
    (∀ l p, mapGet none x.joinNext l = some p → p.ends = false) → ∃ (u : State) (y : Group), exec (.joinRelease k) s = .next (u.settleHalts k) ∧
    u.getG k = some y ∧ ∀ l, l < 32 → x.lane l = .joinWait →
      let blocked := ∃ j, j < 32 ∧ (x.lane j = .live ∨ x.lane j = .parked) ∧ (x.pc j).toNat ≤ (x.pc l).toNat
      (blocked → y.lane l = .joinWait) ∧ (¬ blocked → y.lane l = .live ∧ y.pc l = ((mapGet none x.joinNext l).map Past.pc).getD (x.pc l))) ∧
  -- R143: the group has finished; its team has once every group has
  (∀ k x tm i s, s.getG k = some x → x.isCompute = true → x.finished = false → x.over_ = true → x.epa = none → x.faults = [] →
    s.closePending k = false → x.plans = [] → s.team x.team = some tm → tm.running = true → (∀ d ∈ s.dams, d.grp ≠ k) → i < tm.nGroups →
    (∃ y, s.getG (gidOf x.team i) = some y ∧ gidOf x.team i ≠ k ∧ y.finished = false) →
    ∃ t y, exec (.groupFinish k) s = .next t ∧ t.getG k = some y ∧ y.finished = true ∧ (∀ l, y.lane l = .exited) ∧
      t.team x.team = some tm) ∧
  (∀ k x tm s, s.getG k = some x → x.isCompute = true → x.finished = false → x.over_ = true → x.epa = none → x.faults = [] →
    s.closePending k = false → x.plans = [] → s.team x.team = some tm → tm.running = true → (∀ d ∈ s.dams, d.grp ≠ k) → tm.forks = [] →
    (∀ i y, i < tm.nGroups → s.getG (gidOf x.team i) = some y → gidOf x.team i = k ∨ y.finished = true) →
    ∃ t, exec (.groupFinish k) s = .next t ∧ (t.team x.team).map Team.place = some .finished ∧
      Instr.teamRetire x.team ∈ t.agenda) ∧
  -- R267, R271
  (∀ d s, d < 32 → ∃ u : State, exec (.watermarkPublish d) s = .next u.settleHolds ∧ (u.die d).mark = s.watermark d ∧
    ∀ e, e < 32 → mapGet 0 (u.die e).known d = s.watermark d) ∧
  (∀ d s, (s.die d).sweep = none → (∃ i, i < 32 ∧ 1024 ≤ sigCount (s.coreSt (32 * d + i)).sig) →
    ((s.die d).epoch + 2 ^ 32 - s.watermark d) % 2 ^ 32 < 2 ^ 29 → ∃ t, exec (.signatureSweep d) s = .next t ∧
      (t.die d).epoch = ((s.die d).epoch + 1) % 2 ^ 32 ∧ (t.die d).sweep = some (s.die d).epoch ∧ t.l1 = s.l1) ∧
  (∀ d e s, (s.die d).sweep = some e → (s.marked d e = false → exec (.signatureSweep d) s = .next s) ∧
    (s.marked d e = true → ∃ u : State, exec (.signatureSweep d) s = .next u.settleHolds ∧ (u.die d).sweep = none ∧
      ∀ i, i < 32 → (u.coreSt (32 * d + i)).sig = 0 ∧ ∀ b ∈ u.l1, b.core ≠ 32 * d + i))

/-- R284, R286, R306 to R310, R316: a cofferdam is granted to the take at the head of its queue, and breached when its
lease runs out; contributions travel, are staged and are folded; an epoch closes; a wait on a weir ends. Which event
comes next is free (log 3); log 29 and 30 name the readings. -/
def Obligations.SynchronizationEvents : Prop :=
  -- R284
  (∀ k g d addr lease pc s, s.getG k = some g → g.hold = .dam d addr lease pc → g.view = 0 →
    (s.damsOf (fun y => y.core == coreOf k g)).length < 16 → let b := homeBlk g.asid 0 addr
    Stands s g.asid addr 1 → s.blkTaken b = false → (∀ r ∈ s.reqs, r.state ≠ .onBlock b) →
    ∃ t y, exec (.damGrant k) s = .next t ∧ t.getG k = some y ∧ y.hold = .none ∧ y.r.rdS d = 0 ∧
      ∃ x ∈ t.dams, x.blk = b ∧ x.grp = k ∧ x.ends = (s.coreSt (coreOf k g)).cyc + lease ∧ x.breached = s.isPois b) ∧
  -- R286
  (∀ x s, x ∈ s.dams → x.ends ≤ (s.coreSt x.core).cyc → ∃ t, exec (.damLeaseExpiry x.id) s = .next t ∧
    ∃ y ∈ t.dams, y.id = x.id ∧ y.breached = true ∧ (x.breached = false → y.buf = [])) ∧
  -- R308
  (∀ c q s, ∃ t, exec (.rfarDrain c q) s = .next t ∧ t.contribs.length = s.contribs.length ∧
    ∀ (i : Nat) (x : Contrib), s.contribs[i]? = some x → t.contribs[i]? = some (if x.place = .buffered ∧ x.core = c ∧ x.quarter = q
      then { x with place := .inFlight } else x)) ∧
  (∀ (c : Contrib) s, s.contribs.find? (fun x => x.id == c.id && x.place == .inFlight) = some c → c.view = 0 →
    s.waitsFor (.far c.id) = false → s.peerOf c.asid c.va = none → Stands s c.asid c.va (farBytes c.fn) →
    (let u := s.reloadFade c.asid c.va
     ∀ x ∈ s.contribs, x.place = .staged → u.contribSlice x ≠ u.contribSlice c) →
    ∃ t, exec (.rfarStage c.id) s = .next t ∧ { c with place := .staged } ∈ t.contribs) ∧
  -- R307, R309, R310: a slice folds one contribution of those it staged at a time, and acknowledges with none left
  (∀ e x sl s, s.closings[e]? = some x → sl ∈ x.slices → s.foldHeads x sl = [] → ∃ t, exec (.sliceFold e sl) s = .next t ∧
    t.closings[e]? = some { x with slices := x.slices.filter (· != sl) } ∧ t.contribs = s.contribs ∧ SameBytes s t) ∧
  (∀ e x sl c s, s.closings[e]? = some x → sl ∈ x.slices → s.foldHeads x sl = [c] → c.view = 0 →
    s.waitsFor (.far c.id) = false → let l : Loc := .home c.asid 0 c.va
    let n := farBytes c.fn
    c.va + n ≤ tableBase → Stands s c.asid c.va n → c.pois = false → s.locPois l n = false →
    ∃ t, exec (.sliceFold e sl) s = .next t ∧
      t.rdLoc l n = farFold c.fn (s.rdLoc l n) (c.val.toNat % 256 ^ n) % 256 ^ n ∧
      (∀ y ∈ t.contribs, y.id ≠ c.id) ∧ t.closings = s.closings) ∧
  (∀ e x s, s.closings[e]? = some x → x.slices = [] → x.waits = [] → x.view = 0 →
    s.waitsFor (.round x.asid 0 x.epa) = false → Stands s x.asid x.epa 16 → let l : Loc := .home x.asid 0 x.epa
    l.holdsWeir → ∃ t, exec (.epochClose e) s = .next t ∧ t.closings = s.closings.eraseIdx e ∧
      (t.rdWeir l).phase = ((s.rdWeir l).phase + 1) % 2 ^ 32 ∧ (t.rdWeir l).arr = 0) ∧
  -- R177, R316
  (∀ k g tm off ph s, s.getG k = some g → g.hold = .tbar off ph → s.away k = false → s.team g.team = some tm →
    s.heldBlk (some k) (tm.spad off) 16 = none → let gone := passed (s.rdWeir (tm.spad off)).phase ph.toNat
    (gone = false → exec (.weirWaitEnd k) s = .next s) ∧
    (gone = true → ∃ t y, exec (.weirWaitEnd k) s = .next t ∧ t.getG k = some y ∧
      (y.hold = .none ∨ ∃ c sg n, y.hold = .acquire c sg n))) ∧
  (∀ k g addr ph sc pc s, s.getG k = some g → g.hold = .wwait addr ph sc pc → onChip addr = false → g.view = 0 →
    let l : Loc := .home g.asid 0 addr
    Stands s g.asid addr 16 → s.locPois l 16 = false → let gone := passed (s.rdWeir l).phase ph.toNat
    (gone = false → exec (.weirWaitEnd k) s = .next (s.reloadFade g.asid addr)) ∧
    (gone = true → ∃ t y, exec (.weirWaitEnd k) s = .next t ∧ t.getG k = some y ∧
      (y.hold = .none ∨ ∃ c sg n, y.hold = .acquire c sg n)))

/-! ### Grids, teams and the scheduler (R147 to R163, R180 to R199, R382, R417 to R432, R455, R464 to R466) -/

/-- R147, R150, R156, R162, R181, R187, R188, R191, R199, R382: records are accepted and grids formed, gangs placed,
teams retire and grids complete, dependences pass, hot dies shed a gang, and a team waiting on flash leaves its core.
Which event comes next, and what R8 leaves to the device, are free (log 3, 10); log 35 and 36 name the readings. -/
def Obligations.Scheduling : Prop :=
  -- R181, R187
  (∀ p q s, let qu := (s.polder p).queue q
    let c := qu.ctl.toNat
    let a := bitsOf c 12 10
    let va := qu.base.toNat + 256 * (qu.acc.toNat % 2 ^ bitsOf c 1 5)
    let l : Nat → Loc := fun i => .home a 0 (va + 64 * i)
    qu.ctl.getLsbD 0 = true → qu.acc ≠ qu.prod → s.recordWaits (16 * p + q) = false → va + 256 ≤ tableBase →
    (∀ i, i < 4 → Stands s a (va + 64 * i) 64 ∧ s.locPois (l i) 64 = false) → s.waitsFor (.table s.ids) = false →
    let r := joinParts ((List.range 4).map (fun i => (s.rdLoc (l i) 64, false)))
    ((∀ y, recordReason r = some y → ∃ t g, exec (.recordAccept p q) s = .next t ∧ t.grid s.ids = some g ∧
        g.record = r ∧ g.status = 2 ∧ g.reason = y ∧ ((t.polder p).queue q).acc = qu.acc + 1) ∧
      (recordReason r = none → recField r 0xB8 8 = 0 → bitsOf (recField r 0 4) 8 2 = 0 →
        ∃ t g, exec (.recordAccept p q) s = .next t ∧ t.grid s.ids = some g ∧ g.record = r ∧ g.status = 0 ∧
          g.queue = some (p, q, qu.acc.toNat) ∧ g.asid = a ∧ g.polder = p ∧ g.next = 0 ∧ g.done = false ∧
          g.level = min (bitsOf (recField r 0 4) 22 6) (bitsOf c 6 6) ∧ ((t.polder p).queue q).acc = qu.acc + 1))) ∧
  (∀ p q s, ((s.polder p).queue q).acc = ((s.polder p).queue q).prod → exec (.recordAccept p q) s = .next s) ∧
  -- R147, R150, R156: a gang of one
  (∀ gr c g s, s.grid gr = some g → g.isReplay = false → s.schedule = some (.place gr [c]) →
    ∃ t g' x, exec (.teamPlace gr) s = .next t ∧ t.grid gr = some g' ∧ g'.next = g.next + 1 ∧ t.team s.ids = some x ∧
      x.grid = gr ∧ x.lin = g.next ∧ x.place = .resident c ∧ x.nGroups = g.groupCount ∧ x.scratch = 4096 * g.scratchUnits) ∧
  -- R193
  (∀ gr k g s, s.grid gr = some g → g.isReplay = false → s.schedule = some (.save gr k) →
    ∃ t, exec (.teamPlace gr) s = .next t ∧ t.agenda = s.agenda ++ [.teamSave k]) ∧
  -- R162: then every grid goes on
  (∀ k x s, s.team k = some x → x.place = .finished → x.children = [] → ∃ u : State,
    exec (.teamRetire k) s = .next (u.grids.foldl (fun s e => s.gridStep e.1) u) ∧
    (u.team k).map Team.place = some .retired ∧
    (u.grid x.grid).map Grid.retiredTeams = (s.grid x.grid).map (fun g => g.retiredTeams ++ [x.lin])) ∧
  -- R162, R188: a grid with no team left, no completion address and no parent
  (∀ gr g k s, s.grids = [(gr, some g)] → s.team k = none → g.done = false → s.completionWaits gr = false → g.status = 0 →
    g.tableDue = false → g.wantReplay = false → g.teamCount ≤ g.next → g.teamCount ≤ g.retiredTeams.length → g.view = 0 → g.completion = 0 →
    g.parent = none → ∃ t g', exec (.teamRetire k) s = .next t ∧ t.grid gr = some g' ∧ g'.done = true ∧ g'.status = 1 ∧
      ∀ p q i, g.queue = some (p, q, i) → ((t.polder p).queue q).cons = ((s.polder p).queue q).acc) ∧
  -- R191
  (∀ gr g s, s.grid gr = some g → g.hasDep = true → g.depPassed = false → g.done = false → g.status = 0 →
    s.completionWaits gr = false → let va := g.field 0x30 8
    let l : Loc := .home g.asid 0 va
    va + 16 ≤ tableBase → Stands s g.asid va 16 → s.locPois l 16 = false → let gone := passed (s.rdWeir l).phase (g.field 0x38 4)
    (gone = false → exec (.depWeirObserve gr) s = .next (s.reloadFade g.asid va)) ∧
    (gone = true → ∃ t g', exec (.depWeirObserve gr) s = .next t ∧ t.grid gr = some g' ∧
      g' = { g with depPassed := true, windows := g'.windows })) ∧
  -- R199
  (∀ d s, s.dieTemp d < s.thermAt d 0 → exec (.thermalMigration d) s = .next s) ∧
  (∀ d k x c s, s.thermAt d 0 ≤ s.dieTemp d → (k, some x) ∈ s.teams → x.place = .resident c → c / 32 = d →
    let good := fun ts : List Nat => (∀ j ∈ ts, s.placedAt j + 250000 ≤ s.tick) ∧ s.available ts = true ∧ (s.coolDie d ts).isSome = true
    good (s.gangOf k) → ∃ ts t, good ts ∧ exec (.thermalMigration d) s = .next t ∧
      t.agenda = s.agenda ++ [.teamSave (ts.headD 0)] ∧
      ∀ j ∈ ts, ∀ y, s.team j = some y → t.team j = some { y with dest := s.coolDie d ts }) ∧
  -- R382
  (∀ k x c gs rs s, s.team k = some x → x.place = .resident c → s.teamGroups k = gs → gs ≠ [] →
    (∀ e ∈ gs, e.2.waitsAlone = true) → gs.flatMap (fun e => s.readsOf e.1) = rs →
    (∃ r ∈ rs, r.sent = true ∧ s.swapThreshold ((gs.head?.map (fun e => e.2.asid)).getD 0) ≤ r.expected) → ∃ t,
    exec (.flashSwapOut k) s = .next t ∧ t.agenda = s.agenda ++ [.teamSave k] ∧
    ∀ u ∈ s.gangOf k, ∀ y, s.team u = some y → t.team u = some { y with waits := s.teamReads u })

/-- R157, R395, R418, R420, R427, R430 to R432, R455, R464 to R466: teams are saved and resumed, a save area becomes
ready, a gang moves to another map, a replay starts again, a view tag is freed, and a die or a base tile is lost.
Which event comes next is free (log 3); log 36 to 39 name the readings. -/
def Obligations.TeamsMove : Prop :=
  -- R418: the groups stop between two issues; the context goes to a slot of the tile's area and the core is free
  (∀ k x s, s.team k = some x → x.busy = 0 → s.available (s.gangOf k) = true → s.gangOf k = [k] →
    ∃ t, exec (.teamSave k) s = .next t ∧ (t.team k).map Team.busy = some 1) ∧
  (∀ k x c j js s, s.team k = some x → x.place = .resident c → x.busy = 1 → s.gangOf k = [k] →
    (s.gridOf x).map (fun g => g.status != 0 || g.wantReplay) = some false →
    s.saveReady k = true → (s.tile (x.core / 128)).freeSlots = j :: js →
    ∃ t y, exec (.teamSave k) s = .next t ∧ t.team k = some y ∧ y.place = .saved (x.core / 128) j ∧ y.busy = 0 ∧
      y.pieces = [] ∧ mapGet 0 (t.tile (x.core / 128)).slots j = k) ∧
  -- R427: the parts are read back, and issue begins once the saved clock is covered
  (∀ k x gr tl j c s, s.team k = some x → x.busy = 0 → x.place = .saved tl j → s.schedule = some (.resume gr [k] [c]) →
    s.slotBad k = false → ∃ t y, exec (.teamResume k) s = .next t ∧ t.team k = some y ∧ y.place = .resident c ∧
      y.busy = 2 ∧ y.lin = x.lin) ∧
  (∀ k x s, s.team k = some x → x.busy = 2 → (s.gangOf k).filter (fun j => ((s.team j).map (fun y => y.busy == 2)).getD false) = [k] →
    (s.resumeReady k = false → exec (.teamResume k) s = .next s) ∧
    (s.resumeReady k = true → ∃ t y, exec (.teamResume k) s = .next t ∧ t.team k = some y ∧ y.busy = 0 ∧ y.dest = none ∧
      y.imgs = [] ∧ y.placedAt = s.tick)) ∧
  -- R420
  (∀ k s, let tl := s.tile k
    let first := ctxAreaBase tl.ctxBase / 2 ^ 16
    let n := 32 * ctxSlots tl.ctxBase
    n ≠ 0 → (∃ p ∈ s.pins, p.by_ = PinBy.ctxArea k ∧ p.first = first ∧ p.count = n) →
    ((∀ i, i < n → s.regionReady (first + i) = true) → ∃ t, exec (.ctxAreaReady k) s = .next t ∧ (t.tile k).ctxReady = true) ∧
    ((∃ i, i < n ∧ s.regionReady (first + i) = false) → exec (.ctxAreaReady k) s = .next s)) ∧
  -- R157, R431
  (∀ gr gg g ks s, s.grid gr = some g → g.gangSize ≠ 1 → ks ≠ [] → ks.Nodup →
    (s.teamsOf gr).filter (fun k => ((s.team k).map (fun x => x.lin / g.gangSize == gg)).getD false) = ks →
    s.available ks = true → ∃ t, exec (.gangMapChange gr gg) s = .next t ∧ ∀ k ∈ ks, (t.team k).map Team.busy = some 1) ∧
  -- R455: a child that has no team left starts again from the record that its launch copied
  (∀ gr g s, s.grid gr = some g → g.wantReplay = true → g.done = false → g.status = 0 → s.completionWaits gr = false →
    s.replayWaits gr = false → g.queue = none → g.view = 0 → s.teams = [] → recordReason g.record = none →
    bitsOf (recField g.record 0 4) 8 2 = 0 → ∃ t g', exec (.replayRestart gr) s = .next t ∧ t.grid gr = some g' ∧
      g'.record = g.record ∧ g'.replays = g.replays + 1 ∧ g'.replayed = true ∧ g'.next = 0 ∧ g'.wantReplay = false ∧
      g'.retiredTeams = [] ∧ g'.accepted = g.accepted ∧ g'.level = g.level) ∧
  -- R432
  (∀ a w s, (s.tag a w).state = .draining → (∀ c ∈ s.contribs, ¬ (c.asid = a ∧ c.view = w)) →
    (∀ e ∈ s.ctxs, ∀ c, e.2 = some c → ∀ q ∈ c.cmds, ¬ (q.asid = a ∧ q.view = w)) →
    ∃ t, exec (.viewTagFree a w) s = .next t ∧ t.tag a w = ViewTag.reset) ∧
  (∀ a w s, (∃ c ∈ s.contribs, c.asid = a ∧ c.view = w) → exec (.viewTagFree a w) s = .next s) ∧
  -- R464, R466
  (∀ d s, d < 32 → (s.die d).lost = false → (∀ e ∈ s.grids, s.onDie d e.1 = false) → ∃ t : State, exec (.dieLoss d) s = .next t.settleHolds ∧
    (t.die d).lost = true ∧ ∀ i, i < 32 → (t.coreSt (32 * d + i)).retired = true) ∧
  (∀ k s, k < 8 → (s.tile k).lost = false → (∀ e ∈ s.grids, ∀ g, e.2 = some g → g.done = true) → ∃ t,
    exec (.baseTileLoss k) s = .next t ∧ (t.tile k).lost = true ∧ t.dev.fatal = true ∧
    ∀ u g, (u = k ∨ u = 8 + k) → t.getG u = some g → g.lane 0 = .halted)

/-! ### Translation, write-back and the pager's replies (R202, R240 to R254, R393, R440) -/

/-- R202, R240, R241, R243 to R245, R247, R252, R383, R440: a miss is served, or becomes a work item; fills land;
write-backs end; an invalidation is acted on; a line leaves level-2. Which event comes next is free (log 3); log 26 and 27
name the readings. -/
def Obligations.Translation : Prop :=
  -- R240, R241, R252: a page that no leaf maps, or an entry that is malformed, is a work item on which the request waits
  (∀ (r : Req) w c s, let st := s.stackOf r.asid r.va
    s.reqs.find? (fun x => x.id == r.id) = some r → r.state = .fresh → r.view = 0 → r.who.quiet = false → inTable r.va = false →
    Absent s r.asid r.va → Walks s st r.asid r.va w → (w.kind = .notMapped ∧ c = 1 ∨ w.kind = .malformed ∧ c = 4) →
    ∃ t : State, exec (.l2Miss r.id) s = .next t.settleHolds ∧
      (∃ i ∈ t.items, i.id = s.ids ∧ i.tile = tileOfStack st ∧ i.cause = c ∧ i.level = w.level ∧ i.entry = w.addr ∧
        i.asid = r.asid ∧ i.view = 0 ∧ i.va = r.va ∧ i.access = r.kind.code) ∧
      t.reqs.find? (fun x => x.id == r.id) = some { r with state := .onItem s.ids }) ∧
  -- R240: a request whose page stands in level-2 lets its lanes go on
  (∀ (r : Req) g m s, s.reqs.find? (fun x => x.id == r.id) = some r → r.state = .fresh → r.view = 0 → r.who = .lanes g m →
    r.hint ≠ 2 → Stands s r.asid r.va 1 → let u := s.reloadFade r.asid r.va
    exec (.l2Miss r.id) s =
      .next (({ u with reqs := u.reqs.filter (fun x => x.id != r.id) }.wakeLanes g m).countServed r.stamp).settleHolds) ∧
  -- R244, R245
  (∀ f k (fl : Fill) s, s.fills.find? (fun x => x.fk == frameKey k f && x.cmds.isEmpty) = some fl →
    s.gensMatch fl.lines = true → f < 2 ^ 20 → (∀ r ∈ s.reqs, ∀ j, r.who ≠ .handler j) →
    ∃ t : State, exec (.fillDataLand k f) s = .next t.settleHolds ∧
      (t.frame (frameKey k f)).state = 1 ∧
      (t.frame (frameKey k f)).sub = (s.frame (frameKey k f)).sub ||| fl.subs ∧ (∀ y ∈ t.fills, y.fk ≠ frameKey k f) ∧
      ∀ y ∈ t.reqs, y.state ≠ .onFrame (frameKey k f)) ∧
  -- R247, R383: what was written is clean; after a failure DIRTYMASK stands and BACKING is posted
  (∀ (sp : Spill) s, s.spills.find? (fun x => x.id == sp.id && x.cmds.isEmpty) = some sp → sp.failed = none → sp.tell = false →
    sp.resv = false → (∀ r ∈ s.reqs, ∀ j, r.who ≠ .handler j) → let left := (s.frame sp.fk).dirty &&& ~~~sp.subs
    (left = 0 → sp.free = true → ∃ t : State, exec (.spillwayWriteBackDone sp.id true) s = .next t.settleHolds ∧
      (t.frame sp.fk).state = 0) ∧
    (sp.free = false → ∃ t : State, exec (.spillwayWriteBackDone sp.id true) s = .next t.settleHolds ∧
      t.frame sp.fk = { s.frame sp.fk with dirty := left, state := 1 }) ∧
    (∃ t : State, exec (.spillwayWriteBackDone sp.id false) s = .next t.settleHolds ∧ (t.frame sp.fk).state = 1 ∧
      (t.frame sp.fk).dirty = (s.frame sp.fk).dirty ∧
      ∃ i ∈ t.items, i.cause = 10 ∧ i.asid = (s.frame sp.fk).asid ∧ i.va = (s.frame sp.fk).vpn * 2 ^ 16)) ∧
  -- R243
  (∀ (i : Inval) st s, s.invals.find? (fun x => x.id == i.id) = some i → st < 32 → i.toStacks.getLsbD st = true →
    ∃ t, exec (.tableInvalidation i.id st) s = .next t ∧
      (∀ w ∈ t.walk, w.stack = st → ∀ l ∈ w.lines, l.1 ≠ i.line) ∧ (∀ b ∈ t.l1, b.fetch = true → b.blk / 2 ^ 57 ∉ i.asids) ∧
      (∀ e ∈ t.frames, e.1 / 2 ^ 20 = st → e.2.asid ∈ i.asids → e.2.table = false → e.2.w = false ∧ e.2.x = false) ∧
      (i.toStacks &&& ~~~(laneBit st) = 0 → (∀ x ∈ t.invals, x.id ≠ i.id) ∧
        ∀ x ∈ t.stores, ∀ ids, x.kind = .write ids → i.id ∉ ids)) ∧
  -- R202, R242, R244, R440: a line of view 0 goes unless a walk holds it, a clean line of a view goes
  (∀ a ln s, ln < 2 ^ 49 → let lk := lineKey a 0 (256 * ln)
    (s.heldBy lk = none → ∃ t, exec (.l2LineEvict a 0 ln) s = .next t ∧ SameBytes s t ∧ mapGet none t.l2 lk = none) ∧
    (s.heldBy lk ≠ none → exec (.l2LineEvict a 0 ln) s = .next s)) ∧
  (∀ a w ln s, 0 < w → w < 64 → ln < 2 ^ 49 → let lk := lineKey a w (256 * ln)
    (∀ l, mapGet none s.l2 lk = some l → l.dirty = false) →
    ∃ t, exec (.l2LineEvict a w ln) s = .next t ∧ mapGet none t.l2 lk = none)

/-- R250, R252, R254, R385, R393: a shared page is broken into a private one; regions are prefetched; replies to work
items are acted on. Which event comes next is free (log 3); log 26 and 27 name the readings. -/
def Obligations.BreaksPrefetchesReplies : Prop :=
  -- R250, R252: a break without a frame to take is a work item of cause 5; else the page is the writer's own
  (∀ (r : Req) w s, let st := s.stackOf r.asid r.va
    s.reqs.find? (fun x => x.id == r.id) = some r → r.state = .onCow → r.breaks = true → 0 < r.asid →
    (∃ g m, r.who = .lanes g m) → Walks s st r.asid r.va w → w.kind = .aliasTo → entCow w.entry = true → entW w.entry = true →
    (∀ x ∈ s.fills, x.holds = false) → s.findFrame st r.asid 0 r.va = none →
    ((∀ e ∈ s.frames, e.1 / 2 ^ 20 = st → e.2.state ≠ 5) →
      ∃ t, exec (.cowBreak r.id) s = .next t ∧ ∃ i ∈ t.items, i.cause = 5 ∧ i.asid = r.asid ∧ i.va = r.va) ∧
    (∀ f e tgt, f < 2 ^ 20 → s.frames.find? (fun e => e.1 / 2 ^ 20 == st && e.2.state == 5) = some (frameKey st f, e) →
      s.runOf w = 1 → let ta := aliasVa w (alignDown r.va 4096)
      Walks s (s.stackOf 0 ta) 0 ta tgt → tgt.kind = .leaf → entKind tgt.entry = 0 →
      (mapGet none s.l2 (lineKey 0 0 ta)).isSome = true → ∃ t : State, exec (.cowBreak r.id) s = .next t.settleHolds ∧
        (t.frame (frameKey st f)).sub.getLsbD (subOf r.va) = true ∧
        (t.frame (frameKey st f)).dirty.getLsbD (subOf r.va) = true ∧ ∀ x ∈ t.reqs, x.id ≠ r.id)) ∧
  -- R254: the fill of a region begins in a free frame; a region that has a frame is not asked for
  (∀ a rg f s, let va := rg * 2 ^ 16
    let st := s.stackOf a va
    let outs := (List.range 16).map (fun i => (va + 4096 * i, s.walkRaw a (va + 4096 * i)))
    va + 2 ^ 16 ≤ tableBase → s.findFrame st a 0 va = none →
    (∀ x ∈ outs, s.fetchable x.2 a x.1 = true ∧ entNpf x.2.entry = false ∧ x.2.kind = .leaf) →
    s.lowestFree st = some f → (s.frame (frameKey st f)).state = 0 → ∃ t, exec (.prefetch a 0 rg) s = .next t ∧
      (t.frame (frameKey st f)).state = 2 ∧ ∃ x ∈ t.fills, x.fk = frameKey st f ∧ x.pf = true) ∧
  (∀ a rg s, (s.findFrame (s.stackOf a (rg * 2 ^ 16)) a 0 (rg * 2 ^ 16)).isSome = true →
    ∃ t, exec (.prefetch a 0 rg) s = .next t ∧ t = { s with pfStamps := t.pfStamps }) ∧
  -- R393
  (∀ (i : Item) s, s.items.find? (fun x => x.id == i.id && x.slot.isSome) = some i → i.cause ≠ 7 → i.cause ≠ 8 →
    (s.replyOf i = 0 → exec (.pagerReply i.id) s = .next s) ∧
    (s.replyOf i = 1 → ∃ t : State, exec (.pagerReply i.id) s = .next t.settleHolds ∧ (∀ x ∈ t.items, x.id ≠ i.id) ∧
      ∀ (j : Nat) (r : Req), s.reqs[j]? = some r → t.reqs[j]?.map Req.id = some r.id ∧
        (r.state = .onItem i.id → t.reqs[j]? = some { r with state := .fresh })) ∧
    (s.replyOf i = 0 → i.time + 2 ^ 25 ≤ s.tick → (∀ r ∈ s.reqs, r.state ≠ .onItem i.id) →
      ∃ t : State, exec (.pagerReplyTimeout i.id) s = .next t.settleHolds ∧ t.reqs = s.reqs ∧ ∀ x ∈ t.items, x.id ≠ i.id) ∧
    (s.tick < i.time + 2 ^ 25 → exec (.pagerReplyTimeout i.id) s = .next s))

/-! ### Engines (R275, R335 to R338, R351, R352, R367, R370, R379, R380, R383) -/

/-- R275, R335, R336, R338, R351, R352, R367, R379, R380, R383: ownership takes hold, copy commands are resolved and
move their pieces, matrix units perform their queues, a codebook switches, and drives end their commands. Which event
comes next is free (log 3); log 31 to 33 name the readings. -/
def Obligations.Engines : Prop :=
  -- R275, R338: the oldest request of a block that no cofferdam holds; the block is kept as it stood before the command
  (∀ (o : Own) s, s.owns.find? (fun x => x.id == o.id) = some o → o.held = false →
    ((∃ x ∈ s.owns, x.blk = o.blk ∧ x.id < o.id) → exec (.ownershipRequest o.id) s = .next s) ∧
    ((∃ x ∈ s.dams, x.breached = false ∧ x.blk = o.blk) → exec (.ownershipRequest o.id) s = .next s) ∧
    (s.tileBusy o.cmd (locOfBlk o.blk) = true → exec (.ownershipRequest o.id) s = .next s) ∧
    ((∀ x ∈ s.owns, x.blk = o.blk → o.id ≤ x.id) → (∀ x ∈ s.dams, x.breached = false → x.blk ≠ o.blk) →
      s.tileBusy o.cmd (locOfBlk o.blk) = false →
      ∃ t, exec (.ownershipRequest o.id) s = .next t ∧ { o with held := true } ∈ t.owns ∧
        (∀ a v x, locOfBlk o.blk = .home a v x → ∀ b ∈ t.l1, ¬ (b.core = o.core ∧ b.home = blkKey a v x)) ∧
        ∀ x c q, x < 16 → s.ctx o.core x = some c → q ∈ c.cmds → q.id = o.cmd → (∀ y ∈ q.before, y.1 ≠ o.blk) →
          ∃ c', t.ctx o.core x = some c' ∧ ∃ q' ∈ c'.cmds, q'.id = q.id ∧
            (o.blk, (s.blockOf (locOfBlk o.blk)).1, (s.blockOf (locOfBlk o.blk)).2) ∈ q'.before)) ∧
  -- R335: a stage of a plan has its records; its one box requests its destination
  (∀ c x cx q b r p k s, s.ctx c x = some cx → cx.cmds = [q] → q.fault = none → q.stage.isSome = true → q.boxes = [b] →
    b.state = .fresh → b.pos = 0 → (∀ y ∈ s.ctxsOf c, ∀ z ∈ y.2.cmds, z.pending = true → q.id ≤ z.id) →
    (∀ y ∈ s.reqs, ∀ w a, y.who ≠ .copy c x (64 * q.id + 63) w a) → (q.pair b).dstRec = some r → let l := Layout.ofNat r
    (l.ty = 2 ∨ l.fixed = true) → l.boxR = 1 → l.boxC = 1 →
    (l.addr none b.dr b.dc).bind (s.engOwns (engOf c x cx q)) = some p → p.ownKey 0 = some k →
    ∃ t, exec (.copyResolve c x) s = .next t ∧
      t.owns = s.owns ++ [Own.mk s.ids k c q.id (64 * q.id) cx.grp false l.esz] ∧
      t.ctx c x = some { cx with cmds := [{ q with resolved := true, boxes := [{ b with state := .running }] }] }) ∧
  -- R336, R352: a box that has moved every element and has no weir is complete, and with the last one its command
  (∀ c x cx q b g ls ld s, s.ctx c x = some cx → cx.cmds = [q] → q.boxes = [b] → q.fault = none → b.state = .running →
    (q.pair b).srcRec.map Layout.ofNat = some ls → (q.pair b).dstRec.map Layout.ofNat = some ld →
    (∀ o ∈ s.owns, o.box ≠ 64 * q.id) → (∀ y ∈ s.owns, y.cmd ≠ q.id) → ls.boxR * ls.boxC ≤ b.pos → b.outcome = 0 →
    (∀ y ∈ s.stores, y.id ∉ b.sts) → q.weirAddr = 0 → cx.plan = none → q.vd = none → s.getG cx.grp = some g →
    ∃ t, exec (.copyPiece c x (64 * q.id)) s = .next t ∧ t.ctx c x = none ∧
      t.getG cx.grp = some { g with cpcnt := g.cpcnt - 1 }) ∧
  (∀ c x cx q b o s, s.ctx c x = some cx → cx.cmds = [q] → q.boxes = [b] → q.fault = none → b.state = .running →
    ((q.pair b).srcRec.map Layout.ofNat).isSome = true → ((q.pair b).dstRec.map Layout.ofNat).isSome = true →
    o ∈ s.owns → o.box = 64 * q.id → o.held = false → exec (.copyPiece c x (64 * q.id)) s = .next s) ∧
  -- R351, R352, R366: a tile load
  (∀ c q m rest g tm i o s, s.muq c q = m :: rest → m.op = .mld i o → s.getG m.grp = some g → s.team g.team = some tm →
    (s.muReady tm c q m = false → exec (.muCommandPerform c q) s = .next s) ∧
    (s.muReady tm c q m = true → ∃ t y, exec (.muCommandPerform c q) s = .next t ∧ t.muq c q = rest ∧
      t.getG m.grp = some y ∧ y.mxcnt = g.mxcnt - 1 ∧
      ∀ k, k < 4096 → t.rdByte (s.tileLoc c q i k) 0 = s.rdByte (tm.spad (o + k)) 0)) ∧
  -- R367
  (∀ c k o clk rest g tm s, mapGet [] s.cbq c = ⟨k, o, clk⟩ :: rest → s.getG k = some g → s.team g.team = some tm →
    (∀ q, q < 4 → ∀ m ∈ s.muq c q, ∀ i z w a b n, m.op = .mma i z w a b (some (1 - (s.coreSt c).act % 2, n)) → False) →
    s.padHeld tm o 256 = false → ∃ t y, exec (.codebookSwitch c) s = .next t ∧
      (t.coreSt c).act = 1 - (s.coreSt c).act % 2 ∧ (t.coreSt c).cbgen = ((s.coreSt c).cbgen + 1) % 65536 ∧
      mapGet [] t.cbq c = rest ∧ t.getG k = some y ∧ y.mxcnt = g.mxcnt - 1 ∧
      ∀ e, e < 128 → mapGet 0 t.codebook ((c * 2 + (1 - (s.coreSt c).act % 2)) * 128 + e) =
        BitVec.ofNat 16 (s.padLd tm (o + 2 * e) 2)) ∧
  -- R379, R380, R383, R495
  (∀ (n : Nvme) (v : BitVec 16) s, s.nvme.find? (fun x => x.id == n.id) = some n → n.ended = none → s.driveOk n.drive = true →
    (n.sent = false → exec (.nvmeCompletion n.id v) s = .next s.nvmeSend) ∧
    (n.sent = true → v.toNat % 2 ^ 15 ≠ 0 → v.toNat % 2 ^ 15 < 2 ^ 14 → n.tries < 3 →
      ∃ t, exec (.nvmeCompletion n.id v) s = .next t ∧
        t.nvme.find? (fun x => x.id == n.id) = some { n with tries := n.tries + 1 } ∧ t.mem = s.mem)) ∧
  (∀ (n : Nvme) (v : BitVec 16) k sp s, s.nvme.find? (fun x => x.id == n.id) = some n → n.ended = none → n.what = .spill k →
    s.spills.find? (fun x => x.id == k) = some sp →
    let ends := fun (e : Instr) (st o : Nat) => ∃ t sp', exec e s = .next t ∧ (∀ x ∈ t.nvme, x.id ≠ n.id) ∧
      t.spills.find? (fun x => x.id == k) = some sp' ∧ n.id ∉ sp'.cmds ∧
      sp'.failed = if o = 1 then sp.failed else some (st, o)
    (s.driveOk n.drive = false → ends (.nvmeCompletion n.id v) 0 4) ∧
    (n.sent = true → s.driveOk n.drive = true → v.toNat % 2 ^ 15 = 0 → ends (.nvmeCompletion n.id v) 0 1) ∧
    (n.sent = true → s.driveOk n.drive = true → v.toNat % 2 ^ 15 ≠ 0 → (2 ^ 14 ≤ v.toNat % 2 ^ 15 ∨ 3 ≤ n.tries) →
      ends (.nvmeCompletion n.id v) (v.toNat % 2 ^ 15) 2) ∧
    (n.sent = true → n.time + 2 ^ ((s.bind n.drive).extractLsb' 5 5).toNat ≤ s.tick → ends (.nvmeTimeout n.id) 0 3)) ∧
  (∀ (n : Nvme) s, s.nvme.find? (fun x => x.id == n.id) = some n →
    s.tick < n.time + 2 ^ ((s.bind n.drive).extractLsb' 5 5).toNat → exec (.nvmeTimeout n.id) s = .next s)

/-! ### The host, the pool and peers (R468 to R482) -/

/-- R468 to R480: the host takes blocks back or shares them; fills land in a port's cache; a link goes down; leases
end; a pool device takes back the clean copies of a range; peers load and store through export windows. What the
outside does and when is free (log 3, 40, 41). -/
def Obligations.OutsideAgents : Prop :=
  -- R469, R470
  (∀ p a inv s, s.portUp p = true → ∃ t, exec (.hostSnoop p a inv) s = .next t ∧
    (t.port p).tags = ((s.port p).tags + 1) % 2 ^ 16 ∧ SameBytes s t ∧
    (inv = true → (∀ x ∈ t.portCache, ¬ (x.port = p ∧ x.blk = a / 64)) ∧
      mapGet none (t.port p).snoops (a / 64) = some (t.port p).tags) ∧
    (inv = false → ∀ x ∈ t.portCache, x.port = p → x.blk = a / 64 → x.state = 1)) ∧
  (∀ p a inv s, s.portUp p = false → exec (.hostSnoop p a inv) s = .next s) ∧
  -- R470
  (∀ p a g s, s.portUp p = true → (∃ r ∈ s.reqs, r.state = .onPort p (a / 64)) →
    tagLater g (((s.port p).tags + 1) % 2 ^ 16) = false → mapGet none (s.port p).snoops (a / 64) = none →
    (∀ r ∈ s.reqs, ∀ k, r.who ≠ .handler k) → ∃ t : State, exec (.portFill p a g) s = .next t.settleHolds ∧
      (t.port p).tags = ((s.port p).tags + 1) % 2 ^ 16 ∧ (∀ r ∈ t.reqs, r.state ≠ .onPort p (a / 64)) ∧
      ∃ x ∈ t.portCache, x.port = p ∧ x.blk = a / 64 ∧ (x.state = 1 ∨ x.state = 2)) ∧
  (∀ p a g s, (∀ r ∈ s.reqs, r.state ≠ .onPort p (a / 64)) → exec (.portFill p a g) s = .next s) ∧
  -- R468
  (∀ p a s, ∃ t, exec (.portCacheEvict p a) s = .next t ∧ SameBytes s t ∧
    ∀ x, x ∈ t.portCache ↔ x ∈ s.portCache ∧ ¬ (x.port = p ∧ x.blk = a / 64)) ∧
  (∀ p s, ∃ t, exec (.portLinkDown p) s = .next t ∧ t.portUp p = false ∧ (∀ x ∈ t.portCache, x.port ≠ p) ∧
    ∀ r ∈ t.reqs, ∀ b, r.state ≠ .onPort p b) ∧
  -- R472
  (∀ k s, k < 4096 → (s.lease k).state = 1 →
    ((s.lease k).expiry ≠ 0 → (s.lease k).expiry ≤ s.tick → ∃ t, exec (.leaseExpiry k) s = .next t ∧
      (t.lease k).state = 2 ∧ (t.lease k).endCause = 5) ∧
    (((s.lease k).expiry = 0 ∨ s.tick < (s.lease k).expiry) → exec (.leaseExpiry k) s = .next s) ∧
    ∃ t, exec (.leaseRevoke k) s = .next t ∧ (t.lease k).state = 2 ∧ (t.lease k).endCause = 6) ∧
  (∀ k s, k < 4096 → (s.lease k).state = 2 →
    (s.leaseFrames k = [] → ∃ t, exec (.leaseDrainDone k) s = .next t ∧ (t.lease k).state = 3 ∧
      ∀ r ∈ t.reqs, r.state ≠ .onLease k) ∧
    (∀ e, s.leaseFrames k = [e] → e.2.state = 1 → ∃ t, exec (.leaseDrainDone k) s = .next t ∧
      ∃ sp ∈ t.spills, sp.fk = e.1 ∧ sp.free = true)) ∧
  (∀ k s, k < 4096 → (s.lease k).state = 1 ∨ (s.lease k).state = 2 → ∃ t, exec (.leaseFail k) s = .next t ∧
    (t.lease k).state = 4 ∧ ∀ r ∈ t.reqs, r.state ≠ .onLease k) ∧
  -- R476: one frame stands, and no fill is under way
  (∀ dev a n fk e s, s.frames = [(fk, e)] → s.fills = [] → e.table = false → e.view = 0 → 1 ≤ e.state → e.state ≤ 3 →
    ∃ t, exec (.bisnp dev a n) s = .next t ∧ ∀ x ∈ s.sharedSubs e dev a n, (t.frame fk).sub.getLsbD x.1 = false) ∧
  -- R478, R479
  (∀ imp x off op s, (s.exportOf (x % 1024)).admits imp off op = false → exec (.peerAccess imp x off op) s = .next s) ∧
  (∀ imp x off n s, let e := s.exportOf (x % 1024)
    let va := e.base + off
    e.admits imp off (.load n false) = true → va + n ≤ tableBase → va % 64 + n ≤ 64 →
    s.waitsFor (.peer imp (x % 1024)) = false → Stands s e.asid va n →
    ∃ t : State, exec (.peerAccess imp x off (.load n false)) s = .next t.settleHolds ∧ SameBytes s t) ∧
  (∀ imp x off n val s, let e := s.exportOf (x % 1024)
    let va := e.base + off
    let l : Loc := .home e.asid 0 va
    e.admits imp off (.store n val false false) = true → va + n ≤ tableBase → va % 64 + n ≤ 64 →
    s.waitsFor (.peer imp (x % 1024)) = false → Stands s e.asid va n →
    ∃ t : State, exec (.peerAccess imp x off (.store n val false false)) s = .next t.settleHolds ∧
      t.rdLoc l n = val % 256 ^ n ∧ KeptBut (fun c => (∃ i, i < n ∧ Loc.cell l i = some c) ∨ sideByte c) s t) ∧
  (∀ imp x off fn val key ep s, let e := s.exportOf (x % 1024)
    let va := e.base + off
    e.admits imp off (.reduce fn val key ep false) = true → va + farBytes fn ≤ tableBase → va % 64 + farBytes fn ≤ 64 →
    ∃ t : State, exec (.peerAccess imp x off (.reduce fn val key ep false)) s = .next t.settleHolds ∧ SameBytes s t ∧
      ∃ c ∈ t.contribs, c.place = .inFlight ∧ c.asid = e.asid ∧ c.va = va ∧ c.fn = fn ∧ c.val = val ∧ c.key = key) ∧
  (∀ imp x off op s, let e := s.exportOf (x % 1024)
    let va := e.base + off
    e.admits imp off op = true → (∀ fn val key ep b, op ≠ .reduce fn val key ep b) → va + peerSize op ≤ tableBase →
    va % 64 + peerSize op ≤ 64 → s.waitsFor (.peer imp (x % 1024)) = false → Absent s e.asid va →
    ∃ t r, exec (.peerAccess imp x off op) s = .next t ∧ r ∈ t.reqs ∧ r.who = .peer imp (x % 1024) ∧ r.state = .fresh ∧
      r.asid = e.asid ∧ r.va = va ∧ r.kind = peerKind op) ∧
  -- R479: the request is made again, or no path remains and the pager core is told
  (∀ (r : Req) n s, s.reqs.find? (fun x => x.id == r.id && (match x.state with
      | .onPeer _ => true
      | _ => false)) = some r → r.state = .onPeer n → r.kind.isWrite = false → r.who.quiet = false →
    ∃ t, exec (.peerRetry r.id) s = .next t ∧
    ((∃ u : State, t = u.settleHolds ∧ u = { s with free := s.free + 1 }.wakeReq r) ∨
      ∃ i ∈ t.items, i.cause = 10 ∧ i.asid = r.asid ∧ i.va = r.va ∧ i.id = s.ids))

/-! ### Encodings, fetch, the step, reset (R33, R37 to R56, R135, R197) -/

/-- R38 to R42, R53, R54: whatever the chain bit and the word after it, the decoder reads from the words of a well-formed
instruction that instruction, its chain bit and whether it has a literal; `decode` reads it from `encode`. -/
def Obligations.DecodeOfEncode : Prop :=
  (∀ (i : Instr) (f : Fields) (l n : Option Word) (c : BitVec 1), i.wf = true → encodeFields i = some (f, l) → (l.isSome = true → n = l) →
    decodeWord (pack c f) n = .ok ⟨c == 1#1, i, l.isSome⟩) ∧
  (∀ (i : Instr) (rest : List Word), i.wf = true → encode i ≠ [] →
    decode (encode i ++ rest) = .ok ⟨false, i, i.usesLit⟩)

/-- R38 to R42, R53, R54: what decodes is well formed, and its fields and its literal are those of the word: no bit is
read twice or left unread. -/
def Obligations.EncodeOfDecode : Prop :=
  ∀ (w : Word) (n : Option Word) (d : Decoded), decodeWord w n = .ok d →
    d.instr.wf = true ∧ d.chain = w.getLsbD 31 ∧ d.hasLit = d.instr.usesLit ∧
    ∃ l, encodeFields d.instr = some (unpack w, l) ∧ (l.isSome = true → l = n) ∧ pack (w.extractLsb' 31 1) (unpack w) = w

/-- R38 to R43, R53 to R55: words written out from their formats, one for each format, a chain bit, a literal, and words
that no entry assigns, with the reason of each. -/
def Obligations.DecodesWords : Prop :=
  let is := fun (w : Word) (i : Instr) => ∀ n, decodeWord w n = .ok ⟨false, i, false⟩
  let bad := fun (w : Word) (r : Nat) => ∀ n, decodeWord w n = .error r
  is 0x1E000000#32 .nop ∧ is 0x02041030#32 (.addI64 1#7 2#7 3#7) ∧
  (∀ n, decodeWord 0x82041030#32 n = .ok ⟨true, .addI64 1#7 2#7 3#7, false⟩) ∧
  is 0x080417FF#32 (.addI64Imm 1#7 2#7 (.short 0x7FF#11)) ∧
  (∀ l, decodeWord 0x08041400#32 (some l) = .ok ⟨false, .addI64Imm 1#7 2#7 (.lit l), true⟩) ∧
  decodeWord 0x08041400#32 none = .error 7 ∧
  is 0x16FFFFF9#32 (.br 3#3 1#1 0x7FFFE#19 1#2) ∧ is 0x58041039#32 (.ldB32 1#7 2#7 3#7 1#1 none 1#2) ∧
  is 0x68543408#32 (.ldScalar 21#7 6#7 4#3 (.short 8#8)) ∧ is 0x78902800#32 (.pblk 2#3 2#3 5#8) ∧
  is 0x76041004#32 (.wfork 1#7 2#7) ∧
  (∀ m : BitVec 6, m ∈ [0x00#6, 0x26#6, 0x27#6, 0x3D#6, 0x3E#6, 0x3F#6] → ∀ (c : BitVec 1) (x : BitVec 25), bad (c ++ m ++ x) 1) ∧
  bad 0x1E000005#32 2 ∧ bad 0x1E000010#32 3 ∧ bad 0x78000001#32 8

/-- R18 to R20, R37, R136, R142, R404, R405: the fetch of the issue set. A packet at hand is used; slot 3 and an
address outside 2^57 trap (past 2^57 by addition: the model's reading, log 23); otherwise the packet's three words are
the little-endian words of the 12 bytes read, a poisoned packet traps, and a packet that is not resident parks the
set. Log 15 names the model's readings. -/
def Obligations.Fetches : Prop :=
  ∀ (s : State) (a : Nat), a = packetAddr s.g.r.codeBase (pcPacket s.iss.pc) →
    let l : Loc := .home s.g.asid 0 a
    let put := fun (u : State) (x : Nat) => let w := fun (i : Nat) => BitVec.ofNat 32 (x / 2 ^ (32 * i))
      u.setG (fun g => { g with pkt := some ⟨pcPacket s.iss.pc, w 0, w 1, w 2⟩ })
    (pcSlot s.iss.pc = 3 → s.fetchPacket = ((s.trap (s.trapOf 4 s.iss.pc.toNat 0 0 0)).touch).endIssue) ∧
    (pcSlot s.iss.pc ≠ 3 → s.g.r.codeBase.toNat / 2 ^ 57 ≠ 0 ∨ 2 ^ 57 < a + 12 →
      s.fetchPacket = ((s.trap (s.trapOf 5 0 0 0 0)).touch).endIssue) ∧
    (pcSlot s.iss.pc ≠ 3 → s.g.r.codeBase.toNat < 2 ^ 57 → a + 12 ≤ 2 ^ 57 →
      (∀ p, s.g.pkt = some p → p.idx = pcPacket s.iss.pc → s.fetchPacket = s) ∧
      ((∀ p, s.g.pkt = some p → p.idx ≠ pcPacket s.iss.pc) → a % 64 ≤ 52 → onChip a = false →
        -- view 0, the packet in one 64-byte block: a base-tile core, which has no level-1 cache; a compute core that hits
        (inTable a = false → s.g.view = 0 → s.g.isCompute = false → Stands s s.g.asid a 12 → s.ownDam l = none →
          let v := s.reloadFade s.g.asid a
          let u := (v.countNow none s.g.asid a).settleUndo l 12
          (s.locPois l 12 = false → s.fetchPacket = put u (s.rdLoc l 12)) ∧
          (s.locPois l 12 = true →
            s.fetchPacket = ((u.trap { u.trapOf 13 u.iss.pc.toNat a 384 u.iss.set.toNat with addr := a }).touch).endIssue)) ∧
        (∀ b, inTable a = false → s.g.view = 0 → s.g.isCompute = true → s.ownDam l = none →
          s.l1Find s.gid s.core (blkKey s.g.asid 0 a) (a % 64) 12 = some b → b.x = true →
          -- whether the level-1 has evicted the block is free (log 10)
          (∃ u, s.l1Serve s.g.asid 0 a 12 = (u, none) ∧ ∀ c ∈ u.l1, ¬ (c.core = s.core ∧ c.blk = blkKey s.g.asid 0 a)) ∨
          ∃ u : State, SameBytes s u ∧ s.fetchPacket = put u (b.data / 2 ^ (8 * (a % 64)))) ∧
        (inTable a = false → s.g.view = 0 → s.g.isCompute = false → Absent s s.g.asid a →
          let u := s.reloadFade s.g.asid a
          s.fetchPacket = ((u.addReq s.g.asid 0 a .fetch 0 (.lanes s.gid s.iss.set) .fresh).leaveChain s.iss.set .parked).endIssue) ∧
        (inTable a = true → s.g.r.prv = 0 → s.fetchPacket = ((s.trap (s.trapOf 9 0 a 9 0)).touch).endIssue)))

/-- R20, R43, R45 to R49, R56, R135, R197, R401: the step runs the decoded instruction. Where the unit's first group
has a packet at hand whose word at the issue set's `pcv` stands alone and decodes, the step is `exec` of that
instruction at the state at that word, and then the end of the chain (`retire`: the lanes advance past the word and
its literal) and the second chain of the cycle; a word that fails a check, or traps in its effect, takes the trap. Any
other event is `exec` of that event. The second chain of a cycle and its choice are the model's (log 16), the event
that is taken is free (log 3). -/
def Obligations.StepRunsWord : Prop :=
  (∀ (s s0 t : State) (e : Instr), s.passTick.pickStep = (e, s0) → (∀ u, e ≠ .quarterIssue u) → exec e s0 = .next t →
    step s = .next t.endIssue) ∧
  (∀ (s s0 s1 : State) (u k : Nat) (ks : List Nat) (p : Packet),
    s.passTick.pickStep = (.quarterIssue u, s0) → s0.candidates u = k :: ks → (s0.passCycle u).beginIssue u k = s1 →
    s1.iss.set ≠ 0 → s1.g.pkt = some p → p.isLit (pcSlot s1.iss.pc) = false →
    (p.word (pcSlot s1.iss.pc)).getLsbD 31 = false →
    let c := p.chainWord (pcSlot s1.iss.pc)
    let j := p.after (pcSlot s1.iss.pc)
    let b := s1.setBlkOf
    let next := if j ≤ 2 then mkPc p.idx j else mkPc (p.idx + 1) 0
    let n := if isPblk c.word then 0 else 1
    let ps := ([pipeOf c.word]).filter (fun x => x != .none && x != .v)
    let ends := 2 < j && p.idx + 1 == 2 ^ 30
    let s2 := s1.setIss (fun i => { i with next := next, skip := some ⟨if ends then c.pc else next, n, ends⟩ })
    (∀ x t, s2.checkChain [c] false b = some (x, t) →
      step s = (((s2.setIss (fun i => { i with pc := c.pc, word := c.word })).trap t).touch.endIssue).secondChain exec u s1.gid ps) ∧
    (s2.checkChain [c] false b = none → s2.chainStalls [c] b = false → s2.guardMismatch = none →
      ∀ (i : Instr) (t : State), c.d = .ok i → exec i (((s2.payDebts s2.gid).touch).atWord b 0 c) = .next t → t.iss.stalled = false →
      t.iss.mism = none →
      (t.iss.trap = none →
        step s = (t.retire (s2.payDebts s2.gid).touch n next c.pc ends
          (if (infoOf i).control then some c.pc else none)).secondChain exec u s1.gid ps) ∧
      (t.iss.trap ≠ none →
        step s = ((t.setG (fun g => { g with pkt := none })).endIssue).secondChain exec u s1.gid ps))) ∧
  -- the chain word is the decoder's reading of the word and of the word after it
  (∀ (p : Packet) (i : Nat), i < 3 → (p.chainWord i).word = p.word i ∧ (p.chainWord i).pc = mkPc p.idx i ∧
    (∀ d, decodeWord (p.word i) (p.lit i) = .ok d → (p.chainWord i).d = .ok d.instr) ∧
    (∀ r, decodeWord (p.word i) (p.lit i) = .error r → (p.chainWord i).d = .error r)) ∧
  -- what the end of a chain does to the lanes that the word did not move
  (∀ (t s : State) (n : Nat) (next last : Word) (ctl : Option Word) (l : Nat), t.iss.set &&& ~~~t.iss.parked ≠ 0 →
    s.g.r.sstep = false → s.g.stepArmed = false → t.iss.late = none → l < 32 →
    let u := t.retire s n next last false ctl
    (t.iss.set.getLsbD l = true → t.iss.moved.getLsbD l = false → u.g.pc l = next) ∧
    (¬ (t.iss.set.getLsbD l = true ∧ t.iss.moved.getLsbD l = false) → u.g.pc l = t.g.pc l) ∧
    u.g.issueNo = s.g.issueNo + 1 ∧ u.g.r.s = t.g.r.s ∧ u.g.r.v = t.g.r.v ∧ u.g.r.p = t.g.r.p ∧ u.mem = t.mem)

/-- R2, R56: no state of the machine stops it: every step goes on, and every instruction and event of the table has an
outcome that is a state. -/
def Obligations.NoStepStops : Prop :=
  (∀ (i : Instr) (s : State), ∃ t, exec i s = .next t) ∧ (∀ s : State, ∃ t, step s = .next t)

/-- R45 to R47, R141: a chain is one unit: between steps nothing of an issue is under way, whatever the step was. -/
def Obligations.NothingInFlight : Prop :=
  (∀ s t : State, s.iss = Issue.none → step s = .next t → t.iss = Issue.none) ∧
  (∀ s t : State, step s = .next t → t.iss.set = 0 ∧ t.iss.trap = none ∧ t.iss.stalled = false ∧ t.iss.parked = 0)

/-- R23, R24, R33, R493: at reset every pager and tile management core has its registers 0, its `MSTAT` and `CODE_BASE`,
its lane LIVE at slot 0 of packet 0, and nothing outstanding; no team and no grid exists, no memory is written, each
memory is in its canonical form, and no issue is under way (`NothingInFlight` at its start). That the core has the one
lane 0 and lanes 1 to 31 are EXITED, and the registers that R33 leaves open, are the model's (log 1, 2, 5). -/
def Obligations.ResetValues : Prop :=
  let s := State.reset
  (∀ u, u < 16 → ∃ g, s.getG u = some g ∧
    (∀ n, g.r.rdS n = 0) ∧ (∀ n l, g.r.rdV n l = 0) ∧ (∀ n, n ≠ 7 → g.r.rdP n = 0) ∧ g.r.rdP 7 = 0xFFFFFFFF#32 ∧
    (∀ n, g.r.rdK n = 0) ∧ g.r.fpctl = 0 ∧ g.opcnt = 0 ∧
    g.r.mstat = (if u < 8 then 0x01000010#32 else 0x02000020#32) ∧ g.r.prv = (if u < 8 then 1 else 2) ∧
    g.r.codeBase = (if u < 8 then 0x200000#64 else 0x100000#64) ∧
    g.lane 0 = .live ∧ (∀ l, 0 < l → l < 32 → g.lane l = .exited) ∧ g.pc 0 = 0 ∧ g.save = none ∧
    g.ldcnt = 0 ∧ g.stcnt = 0 ∧ g.cpcnt = 0 ∧ g.mxcnt = 0) ∧
  s.teams = [] ∧ s.grids = [] ∧ (∀ a v x i, s.rdByte (.home a v x) i = 0) ∧
  Memory.wf s.mem = true ∧ Memory.wf s.scratch = true ∧ Memory.wf s.host = true ∧ Memory.wf s.pool = true ∧
  Memory.wf s.flash = true ∧ Memory.wf s.peer = true ∧ s.iss = Issue.none
end

