-- ==== Sys2Proof/Laws/Store.lean ====
section
/-! SUPPORT. Laws of the sparse tables: what a write makes a read give, and that every operation over a memory keeps the
canonical form. -/

namespace Sys2Proof.Machine

variable {α : Type} [DecidableEq α] {d v : α} {m : Map α} {k q n : Nat}

/-- Wherever the bound of a canonical table lies, it is canonical above every lower bound. -/
theorem mapWfFrom_mono {b c : Nat} (h : mapWfFrom d (some b) m = true) (hc : c ≤ b) : mapWfFrom d (some c) m = true := by
  cases m with
  | nil => rfl
  | cons e m =>
    obtain ⟨k, v⟩ := e
    simp only [mapWfFrom, Bool.and_eq_true, decide_eq_true_eq] at h ⊢
    exact ⟨⟨by omega, h.1.2⟩, h.2⟩

theorem mapWf_of_from {b : Nat} (h : mapWfFrom d (some b) m = true) : mapWf d m = true := by
  cases m with
  | nil => rfl
  | cons e m =>
    simp only [mapWf, mapWfFrom, Bool.and_eq_true, decide_eq_true_eq] at h ⊢
    exact ⟨h.1.2, h.2⟩

theorem mapWf_tail {e : Nat × α} (h : mapWf d (e :: m) = true) : mapWfFrom d (some e.1) m = true := by
  simp only [mapWf, mapWfFrom, Bool.and_eq_true] at h
  exact h.2

/-- A key at or below the bound of a canonical table is not listed. -/
theorem mapGet_below {b : Nat} (h : mapWfFrom d (some b) m = true) (hq : q ≤ b) : mapGet d m q = d := by
  induction m generalizing b with
  | nil => rfl
  | cons e m ih =>
    obtain ⟨k, v⟩ := e
    simp only [mapWfFrom, Bool.and_eq_true, decide_eq_true_eq] at h
    have hk : k ≠ q := by omega
    simpa [mapGet, hk] using ih h.2 (by omega)

theorem mapWfFrom_filter {b : Nat} {p : Nat × α → Bool} (h : mapWfFrom d (some b) m = true) :
    mapWfFrom d (some b) (m.filter p) = true := by
  induction m generalizing b with
  | nil => rfl
  | cons e m ih =>
    obtain ⟨k, v⟩ := e
    simp only [mapWfFrom, Bool.and_eq_true, decide_eq_true_eq] at h
    cases hp : p (k, v) with
    | true =>
      simp only [List.filter_cons, hp, if_true, mapWfFrom, Bool.and_eq_true, decide_eq_true_eq]
      exact ⟨h.1, ih h.2⟩
    | false =>
      simp only [List.filter_cons, hp, Bool.false_eq_true, if_false]
      exact ih (mapWfFrom_mono h.2 (by omega))

/-- Dropping entries keeps the canonical form. -/
theorem mapWf_filter {p : Nat × α → Bool} (h : mapWf d m = true) : mapWf d (m.filter p) = true := by
  cases m with
  | nil => rfl
  | cons e m =>
    have ht := mapWf_tail h
    simp only [mapWf, mapWfFrom, Bool.and_eq_true, decide_eq_true_eq] at h
    cases hp : p e with
    | true =>
      simp only [List.filter_cons, hp, if_true, mapWf, mapWfFrom, Bool.and_eq_true, decide_eq_true_eq]
      exact ⟨h.1, mapWfFrom_filter ht⟩
    | false =>
      simp only [List.filter_cons, hp, Bool.false_eq_true, if_false]
      exact mapWf_of_from (mapWfFrom_filter ht)

theorem mapWfFrom_mapPut {b : Nat} (h : mapWfFrom d (some b) m = true) (hk : b < k) (hv : v ≠ d) :
    mapWfFrom d (some b) (mapPut m k v) = true := by
  induction m generalizing b with
  | nil => simp [mapPut, mapWfFrom, hv, hk]
  | cons e m ih =>
    obtain ⟨k', v'⟩ := e
    simp only [mapWfFrom, Bool.and_eq_true, decide_eq_true_eq] at h
    simp only [mapPut]
    split
    · simp [mapWfFrom, *]
    · split
      · subst k'
        simp [mapWfFrom, *]
      · simp only [mapWfFrom, Bool.and_eq_true, decide_eq_true_eq]
        exact ⟨h.1, ih h.2 (by omega)⟩

/-- A write keeps the canonical form. -/
theorem mapWf_mapSet (h : mapWf d m = true) : mapWf d (mapSet d m k v) = true := by
  unfold mapSet
  split
  · exact mapWf_filter h
  · rename_i hv
    cases m with
    | nil => simp [mapPut, mapWf, mapWfFrom, hv]
    | cons e m =>
      obtain ⟨k', v'⟩ := e
      have ht := mapWf_tail h
      simp only [mapWf, mapWfFrom, Bool.and_eq_true, decide_eq_true_eq] at h
      simp only [mapPut]
      split
      · simp [mapWf, mapWfFrom, *]
      · split
        · subst k'
          simp [mapWf, mapWfFrom, *]
        · simp only [mapWf, mapWfFrom, Bool.and_eq_true, decide_eq_true_eq]
          exact ⟨h.1, mapWfFrom_mapPut ht (by omega) hv⟩

omit [DecidableEq α] in
theorem mapGet_mapPut : mapGet d (mapPut m k v) q = if q = k then v else mapGet d m q := by
  induction m with
  | nil => simp [mapPut, mapGet, eq_comm]
  | cons e m ih =>
    obtain ⟨k', v'⟩ := e
    simp only [mapPut]
    split
    · simp [mapGet, eq_comm (a := k)]
    · split
      · rename_i hk
        subst hk
        by_cases hq : q = k
        · simp [mapGet, hq]
        · simp [mapGet, hq, Ne.symm hq]
      · by_cases hk' : k' = q
        · have hq : ¬ q = k := by omega
          simp [mapGet, hk', hq]
        · simpa [mapGet, hk'] using ih

omit [DecidableEq α] in
theorem mapGet_filter : mapGet d (m.filter (fun e => e.1 != k)) q = if q = k then d else mapGet d m q := by
  induction m with
  | nil => simp [mapGet]
  | cons e m ih =>
    obtain ⟨k', v'⟩ := e
    by_cases hk : k' = k
    · simp only [List.filter_cons, hk, bne_self_eq_false, Bool.false_eq_true, if_false, ih, mapGet]
      by_cases hq : q = k
      · simp [hq]
      · simp [hq, Ne.symm hq]
    · have : (k' != k) = true := by simpa using hk
      simp only [List.filter_cons, this, if_true, mapGet, ih]
      by_cases hq : k' = q
      · have : ¬ q = k := by omega
        simp [hq, this]
      · simp [hq]

/-- A read after a write, of any table: the value written at its key, and every other key as before. -/
theorem mapGet_mapSet : mapGet d (mapSet d m k v) q = if q = k then v else mapGet d m q := by
  unfold mapSet
  split
  · rename_i hv
    rw [mapGet_filter, hv]
  · exact mapGet_mapPut

@[simp] theorem mapGet_mapSet_same : mapGet d (mapSet d m k v) k = v := by
  rw [mapGet_mapSet, if_pos rfl]

theorem mapGet_mapSet_other (hq : q ≠ k) : mapGet d (mapSet d m k v) q = mapGet d m q := by
  rw [mapGet_mapSet, if_neg hq]

theorem mapWf_mapMod {f : α → α} (h : mapWf d m = true) : mapWf d (mapMod d m k f) = true := mapWf_mapSet h

theorem mapWf_mapDrop (h : mapWf d m = true) : mapWf d (mapDrop m k n) = true := mapWf_filter h

/-! ### Memories -/

/-- A write of bytes keeps the canonical form. -/
theorem wf_mapSetBytes {m : Map Byte} {bs : List Byte} (h : Memory.wf m = true) : Memory.wf (mapSetBytes m k bs) = true := by
  induction bs generalizing m k with
  | nil => exact h
  | cons b bs ih => exact ih (mapWf_mapSet h)

/-- A read of a byte after a write of bytes. -/
theorem mapGet_mapSetBytes {m : Map Byte} {bs : List Byte} :
    mapGet 0 (mapSetBytes m k bs) q = if k ≤ q ∧ q < k + bs.length then bs.getD (q - k) 0 else mapGet 0 m q := by
  induction bs generalizing m k with
  | nil =>
    simp [mapSetBytes]
  | cons b bs ih =>
    simp only [mapSetBytes]
    rw [ih, mapGet_mapSet]
    by_cases h0 : q = k
    · subst h0
      simp
    · by_cases h1 : k + 1 ≤ q ∧ q < k + 1 + bs.length
      · have h2 : k ≤ q ∧ q < k + (b :: bs).length := by simp; omega
        obtain ⟨j, hj⟩ : ∃ j, q - k = j + 1 := ⟨q - k - 1, by omega⟩
        have hj' : q - (k + 1) = j := by omega
        rw [if_pos h1, if_pos h2, hj, hj']
        simp
      · have h2 : ¬ (k ≤ q ∧ q < k + (b :: bs).length) := by simp; omega
        rw [if_neg h1, if_neg h2, if_neg h0]

/-- The tables of a state that hold bytes are canonical. -/
def State.memWf (s : State) : Bool :=
  Memory.wf s.mem && Memory.wf s.scratch && Memory.wf s.host && Memory.wf s.pool && Memory.wf s.flash && Memory.wf s.peer
    && mapWf 0 s.acc

/-- The memories at reset are canonical. -/
theorem reset_memWf : State.reset.memWf = true := rfl

/-- A write of a byte to any place keeps every memory canonical. -/
theorem memWf_wrByte {s : State} {l : Loc} {i : Nat} {b : Byte} (h : s.memWf = true) : (s.wrByte l i b).memWf = true := by
  have keep : ∀ (k : Nat) (f : Group → Group), (s.modG k f).memWf = s.memWf := fun k f => by
    unfold State.modG State.memWf
    split
    · rfl
    · rfl
  have h' := h
  simp only [State.memWf, Bool.and_eq_true, Memory.wf] at h'
  obtain ⟨⟨⟨⟨⟨⟨h1, h2⟩, h3⟩, h4⟩, h5⟩, h6⟩, h7⟩ := h'
  cases l <;> simp only [State.wrByte, keep, h] <;> simp only [State.memWf, Bool.and_eq_true, Memory.wf] <;>
    exact ⟨⟨⟨⟨⟨⟨by first | assumption | exact mapWf_mapSet h1, by first | assumption | exact mapWf_mapSet h2⟩,
      by first | assumption | exact mapWf_mapSet h3⟩, h4⟩, h5⟩, by first | assumption | exact mapWf_mapSet h6⟩,
      by first | assumption | exact mapWf_mapMod h7⟩

/-- A write of bytes to any place keeps every memory canonical. -/
theorem memWf_wrBytesFrom {bs : List Byte} {s : State} {l : Loc} {i : Nat} (h : s.memWf = true) :
    (s.wrBytesFrom l i bs).memWf = true := by
  induction bs generalizing s i with
  | nil => exact h
  | cons b bs ih => exact ih (memWf_wrByte h)

theorem memWf_wrLoc {s : State} {l : Loc} {n x : Nat} (h : s.memWf = true) : (s.wrLoc l n x).memWf = true :=
  memWf_wrBytesFrom h

end Sys2Proof.Machine
end

