-- ==== Sys2Proof/Laws/State.lean ====
section
/-! SUPPORT. What each field holds after an update of the executing group, of its registers, of the chain at hand, of another
group, and what a table holds after one of its entries is changed. -/

namespace Sys2Proof.Machine

@[simp] theorem setG_gid (s : State) (f : Group → Group) : (s.setG f).gid = s.gid := rfl
@[simp] theorem setG_others (s : State) (f : Group → Group) : (s.setG f).others = s.others := rfl
@[simp] theorem setG_iss (s : State) (f : Group → Group) : (s.setG f).iss = s.iss := rfl
@[simp] theorem setG_agenda (s : State) (f : Group → Group) : (s.setG f).agenda = s.agenda := rfl
@[simp] theorem setG_free (s : State) (f : Group → Group) : (s.setG f).free = s.free := rfl
@[simp] theorem setG_ids (s : State) (f : Group → Group) : (s.setG f).ids = s.ids := rfl
@[simp] theorem setG_tick (s : State) (f : Group → Group) : (s.setG f).tick = s.tick := rfl
@[simp] theorem setG_teams (s : State) (f : Group → Group) : (s.setG f).teams = s.teams := rfl
@[simp] theorem setG_grids (s : State) (f : Group → Group) : (s.setG f).grids = s.grids := rfl
@[simp] theorem setG_cores (s : State) (f : Group → Group) : (s.setG f).cores = s.cores := rfl
@[simp] theorem setG_dies (s : State) (f : Group → Group) : (s.setG f).dies = s.dies := rfl
@[simp] theorem setG_tiles (s : State) (f : Group → Group) : (s.setG f).tiles = s.tiles := rfl
@[simp] theorem setG_polders (s : State) (f : Group → Group) : (s.setG f).polders = s.polders := rfl
@[simp] theorem setG_dev (s : State) (f : Group → Group) : (s.setG f).dev = s.dev := rfl
@[simp] theorem setG_ports (s : State) (f : Group → Group) : (s.setG f).ports = s.ports := rfl
@[simp] theorem setG_mem (s : State) (f : Group → Group) : (s.setG f).mem = s.mem := rfl
@[simp] theorem setG_scratch (s : State) (f : Group → Group) : (s.setG f).scratch = s.scratch := rfl
@[simp] theorem setG_rows (s : State) (f : Group → Group) : (s.setG f).rows = s.rows := rfl
@[simp] theorem setG_acc (s : State) (f : Group → Group) : (s.setG f).acc = s.acc := rfl
@[simp] theorem setG_codebook (s : State) (f : Group → Group) : (s.setG f).codebook = s.codebook := rfl
@[simp] theorem setG_host (s : State) (f : Group → Group) : (s.setG f).host = s.host := rfl
@[simp] theorem setG_pool (s : State) (f : Group → Group) : (s.setG f).pool = s.pool := rfl
@[simp] theorem setG_flash (s : State) (f : Group → Group) : (s.setG f).flash = s.flash := rfl
@[simp] theorem setG_peer (s : State) (f : Group → Group) : (s.setG f).peer = s.peer := rfl
@[simp] theorem setG_pois (s : State) (f : Group → Group) : (s.setG f).pois = s.pois := rfl
@[simp] theorem setG_viewBlk (s : State) (f : Group → Group) : (s.setG f).viewBlk = s.viewBlk := rfl
@[simp] theorem setG_tags (s : State) (f : Group → Group) : (s.setG f).tags = s.tags := rfl
@[simp] theorem setG_l1 (s : State) (f : Group → Group) : (s.setG f).l1 = s.l1 := rfl
@[simp] theorem setG_l2 (s : State) (f : Group → Group) : (s.setG f).l2 = s.l2 := rfl
@[simp] theorem setG_lostDir (s : State) (f : Group → Group) : (s.setG f).lostDir = s.lostDir := rfl
@[simp] theorem setG_rel (s : State) (f : Group → Group) : (s.setG f).rel = s.rel := rfl
@[simp] theorem setG_stamps (s : State) (f : Group → Group) : (s.setG f).stamps = s.stamps := rfl
@[simp] theorem setG_lostClk (s : State) (f : Group → Group) : (s.setG f).lostClk = s.lostClk := rfl
@[simp] theorem setG_frames (s : State) (f : Group → Group) : (s.setG f).frames = s.frames := rfl
@[simp] theorem setG_anchors (s : State) (f : Group → Group) : (s.setG f).anchors = s.anchors := rfl
@[simp] theorem setG_hand (s : State) (f : Group → Group) : (s.setG f).hand = s.hand := rfl
@[simp] theorem setG_pins (s : State) (f : Group → Group) : (s.setG f).pins = s.pins := rfl
@[simp] theorem setG_walk (s : State) (f : Group → Group) : (s.setG f).walk = s.walk := rfl
@[simp] theorem setG_tu (s : State) (f : Group → Group) : (s.setG f).tu = s.tu := rfl
@[simp] theorem setG_reqs (s : State) (f : Group → Group) : (s.setG f).reqs = s.reqs := rfl
@[simp] theorem setG_items (s : State) (f : Group → Group) : (s.setG f).items = s.items := rfl
@[simp] theorem setG_fills (s : State) (f : Group → Group) : (s.setG f).fills = s.fills := rfl
@[simp] theorem setG_spills (s : State) (f : Group → Group) : (s.setG f).spills = s.spills := rfl
@[simp] theorem setG_invals (s : State) (f : Group → Group) : (s.setG f).invals = s.invals := rfl
@[simp] theorem setG_stores (s : State) (f : Group → Group) : (s.setG f).stores = s.stores := rfl
@[simp] theorem setG_dams (s : State) (f : Group → Group) : (s.setG f).dams = s.dams := rfl
@[simp] theorem setG_owns (s : State) (f : Group → Group) : (s.setG f).owns = s.owns := rfl
@[simp] theorem setG_contribs (s : State) (f : Group → Group) : (s.setG f).contribs = s.contribs := rfl
@[simp] theorem setG_closings (s : State) (f : Group → Group) : (s.setG f).closings = s.closings := rfl
@[simp] theorem setG_closeArr (s : State) (f : Group → Group) : (s.setG f).closeArr = s.closeArr := rfl
@[simp] theorem setG_ctxs (s : State) (f : Group → Group) : (s.setG f).ctxs = s.ctxs := rfl
@[simp] theorem setG_mu (s : State) (f : Group → Group) : (s.setG f).mu = s.mu := rfl
@[simp] theorem setG_cbq (s : State) (f : Group → Group) : (s.setG f).cbq = s.cbq := rfl
@[simp] theorem setG_nvme (s : State) (f : Group → Group) : (s.setG f).nvme = s.nvme := rfl
@[simp] theorem setG_readTimes (s : State) (f : Group → Group) : (s.setG f).readTimes = s.readTimes := rfl
@[simp] theorem setG_portCache (s : State) (f : Group → Group) : (s.setG f).portCache = s.portCache := rfl
@[simp] theorem setG_fillLog (s : State) (f : Group → Group) : (s.setG f).fillLog = s.fillLog := rfl
@[simp] theorem setG_pfStamps (s : State) (f : Group → Group) : (s.setG f).pfStamps = s.pfStamps := rfl
@[simp] theorem setG_errDue (s : State) (f : Group → Group) : (s.setG f).errDue = s.errDue := rfl
@[simp] theorem setG_race (s : State) (f : Group → Group) : (s.setG f).race = s.race := rfl
@[simp] theorem setR_gid (s : State) (f : Regs → Regs) : (s.setR f).gid = s.gid := rfl
@[simp] theorem setR_others (s : State) (f : Regs → Regs) : (s.setR f).others = s.others := rfl
@[simp] theorem setR_iss (s : State) (f : Regs → Regs) : (s.setR f).iss = s.iss := rfl
@[simp] theorem setR_agenda (s : State) (f : Regs → Regs) : (s.setR f).agenda = s.agenda := rfl
@[simp] theorem setR_free (s : State) (f : Regs → Regs) : (s.setR f).free = s.free := rfl
@[simp] theorem setR_ids (s : State) (f : Regs → Regs) : (s.setR f).ids = s.ids := rfl
@[simp] theorem setR_tick (s : State) (f : Regs → Regs) : (s.setR f).tick = s.tick := rfl
@[simp] theorem setR_teams (s : State) (f : Regs → Regs) : (s.setR f).teams = s.teams := rfl
@[simp] theorem setR_grids (s : State) (f : Regs → Regs) : (s.setR f).grids = s.grids := rfl
@[simp] theorem setR_cores (s : State) (f : Regs → Regs) : (s.setR f).cores = s.cores := rfl
@[simp] theorem setR_dies (s : State) (f : Regs → Regs) : (s.setR f).dies = s.dies := rfl
@[simp] theorem setR_tiles (s : State) (f : Regs → Regs) : (s.setR f).tiles = s.tiles := rfl
@[simp] theorem setR_polders (s : State) (f : Regs → Regs) : (s.setR f).polders = s.polders := rfl
@[simp] theorem setR_dev (s : State) (f : Regs → Regs) : (s.setR f).dev = s.dev := rfl
@[simp] theorem setR_ports (s : State) (f : Regs → Regs) : (s.setR f).ports = s.ports := rfl
@[simp] theorem setR_mem (s : State) (f : Regs → Regs) : (s.setR f).mem = s.mem := rfl
@[simp] theorem setR_scratch (s : State) (f : Regs → Regs) : (s.setR f).scratch = s.scratch := rfl
@[simp] theorem setR_rows (s : State) (f : Regs → Regs) : (s.setR f).rows = s.rows := rfl
@[simp] theorem setR_acc (s : State) (f : Regs → Regs) : (s.setR f).acc = s.acc := rfl
@[simp] theorem setR_codebook (s : State) (f : Regs → Regs) : (s.setR f).codebook = s.codebook := rfl
@[simp] theorem setR_host (s : State) (f : Regs → Regs) : (s.setR f).host = s.host := rfl
@[simp] theorem setR_pool (s : State) (f : Regs → Regs) : (s.setR f).pool = s.pool := rfl
@[simp] theorem setR_flash (s : State) (f : Regs → Regs) : (s.setR f).flash = s.flash := rfl
@[simp] theorem setR_peer (s : State) (f : Regs → Regs) : (s.setR f).peer = s.peer := rfl
@[simp] theorem setR_pois (s : State) (f : Regs → Regs) : (s.setR f).pois = s.pois := rfl
@[simp] theorem setR_viewBlk (s : State) (f : Regs → Regs) : (s.setR f).viewBlk = s.viewBlk := rfl
@[simp] theorem setR_tags (s : State) (f : Regs → Regs) : (s.setR f).tags = s.tags := rfl
@[simp] theorem setR_l1 (s : State) (f : Regs → Regs) : (s.setR f).l1 = s.l1 := rfl
@[simp] theorem setR_l2 (s : State) (f : Regs → Regs) : (s.setR f).l2 = s.l2 := rfl
@[simp] theorem setR_lostDir (s : State) (f : Regs → Regs) : (s.setR f).lostDir = s.lostDir := rfl
@[simp] theorem setR_rel (s : State) (f : Regs → Regs) : (s.setR f).rel = s.rel := rfl
@[simp] theorem setR_stamps (s : State) (f : Regs → Regs) : (s.setR f).stamps = s.stamps := rfl
@[simp] theorem setR_lostClk (s : State) (f : Regs → Regs) : (s.setR f).lostClk = s.lostClk := rfl
@[simp] theorem setR_frames (s : State) (f : Regs → Regs) : (s.setR f).frames = s.frames := rfl
@[simp] theorem setR_anchors (s : State) (f : Regs → Regs) : (s.setR f).anchors = s.anchors := rfl
@[simp] theorem setR_hand (s : State) (f : Regs → Regs) : (s.setR f).hand = s.hand := rfl
@[simp] theorem setR_pins (s : State) (f : Regs → Regs) : (s.setR f).pins = s.pins := rfl
@[simp] theorem setR_walk (s : State) (f : Regs → Regs) : (s.setR f).walk = s.walk := rfl
@[simp] theorem setR_tu (s : State) (f : Regs → Regs) : (s.setR f).tu = s.tu := rfl
@[simp] theorem setR_reqs (s : State) (f : Regs → Regs) : (s.setR f).reqs = s.reqs := rfl
@[simp] theorem setR_items (s : State) (f : Regs → Regs) : (s.setR f).items = s.items := rfl
@[simp] theorem setR_fills (s : State) (f : Regs → Regs) : (s.setR f).fills = s.fills := rfl
@[simp] theorem setR_spills (s : State) (f : Regs → Regs) : (s.setR f).spills = s.spills := rfl
@[simp] theorem setR_invals (s : State) (f : Regs → Regs) : (s.setR f).invals = s.invals := rfl
@[simp] theorem setR_stores (s : State) (f : Regs → Regs) : (s.setR f).stores = s.stores := rfl
@[simp] theorem setR_dams (s : State) (f : Regs → Regs) : (s.setR f).dams = s.dams := rfl
@[simp] theorem setR_owns (s : State) (f : Regs → Regs) : (s.setR f).owns = s.owns := rfl
@[simp] theorem setR_contribs (s : State) (f : Regs → Regs) : (s.setR f).contribs = s.contribs := rfl
@[simp] theorem setR_closings (s : State) (f : Regs → Regs) : (s.setR f).closings = s.closings := rfl
@[simp] theorem setR_closeArr (s : State) (f : Regs → Regs) : (s.setR f).closeArr = s.closeArr := rfl
@[simp] theorem setR_ctxs (s : State) (f : Regs → Regs) : (s.setR f).ctxs = s.ctxs := rfl
@[simp] theorem setR_mu (s : State) (f : Regs → Regs) : (s.setR f).mu = s.mu := rfl
@[simp] theorem setR_cbq (s : State) (f : Regs → Regs) : (s.setR f).cbq = s.cbq := rfl
@[simp] theorem setR_nvme (s : State) (f : Regs → Regs) : (s.setR f).nvme = s.nvme := rfl
@[simp] theorem setR_readTimes (s : State) (f : Regs → Regs) : (s.setR f).readTimes = s.readTimes := rfl
@[simp] theorem setR_portCache (s : State) (f : Regs → Regs) : (s.setR f).portCache = s.portCache := rfl
@[simp] theorem setR_fillLog (s : State) (f : Regs → Regs) : (s.setR f).fillLog = s.fillLog := rfl
@[simp] theorem setR_pfStamps (s : State) (f : Regs → Regs) : (s.setR f).pfStamps = s.pfStamps := rfl
@[simp] theorem setR_errDue (s : State) (f : Regs → Regs) : (s.setR f).errDue = s.errDue := rfl
@[simp] theorem setR_race (s : State) (f : Regs → Regs) : (s.setR f).race = s.race := rfl
@[simp] theorem setIss_g (s : State) (f : Issue → Issue) : (s.setIss f).g = s.g := rfl
@[simp] theorem setIss_gid (s : State) (f : Issue → Issue) : (s.setIss f).gid = s.gid := rfl
@[simp] theorem setIss_others (s : State) (f : Issue → Issue) : (s.setIss f).others = s.others := rfl
@[simp] theorem setIss_agenda (s : State) (f : Issue → Issue) : (s.setIss f).agenda = s.agenda := rfl
@[simp] theorem setIss_free (s : State) (f : Issue → Issue) : (s.setIss f).free = s.free := rfl
@[simp] theorem setIss_ids (s : State) (f : Issue → Issue) : (s.setIss f).ids = s.ids := rfl
@[simp] theorem setIss_tick (s : State) (f : Issue → Issue) : (s.setIss f).tick = s.tick := rfl
@[simp] theorem setIss_teams (s : State) (f : Issue → Issue) : (s.setIss f).teams = s.teams := rfl
@[simp] theorem setIss_grids (s : State) (f : Issue → Issue) : (s.setIss f).grids = s.grids := rfl
@[simp] theorem setIss_cores (s : State) (f : Issue → Issue) : (s.setIss f).cores = s.cores := rfl
@[simp] theorem setIss_dies (s : State) (f : Issue → Issue) : (s.setIss f).dies = s.dies := rfl
@[simp] theorem setIss_tiles (s : State) (f : Issue → Issue) : (s.setIss f).tiles = s.tiles := rfl
@[simp] theorem setIss_polders (s : State) (f : Issue → Issue) : (s.setIss f).polders = s.polders := rfl
@[simp] theorem setIss_dev (s : State) (f : Issue → Issue) : (s.setIss f).dev = s.dev := rfl
@[simp] theorem setIss_ports (s : State) (f : Issue → Issue) : (s.setIss f).ports = s.ports := rfl
@[simp] theorem setIss_mem (s : State) (f : Issue → Issue) : (s.setIss f).mem = s.mem := rfl
@[simp] theorem setIss_scratch (s : State) (f : Issue → Issue) : (s.setIss f).scratch = s.scratch := rfl
@[simp] theorem setIss_rows (s : State) (f : Issue → Issue) : (s.setIss f).rows = s.rows := rfl
@[simp] theorem setIss_acc (s : State) (f : Issue → Issue) : (s.setIss f).acc = s.acc := rfl
@[simp] theorem setIss_codebook (s : State) (f : Issue → Issue) : (s.setIss f).codebook = s.codebook := rfl
@[simp] theorem setIss_host (s : State) (f : Issue → Issue) : (s.setIss f).host = s.host := rfl
@[simp] theorem setIss_pool (s : State) (f : Issue → Issue) : (s.setIss f).pool = s.pool := rfl
@[simp] theorem setIss_flash (s : State) (f : Issue → Issue) : (s.setIss f).flash = s.flash := rfl
@[simp] theorem setIss_peer (s : State) (f : Issue → Issue) : (s.setIss f).peer = s.peer := rfl
@[simp] theorem setIss_pois (s : State) (f : Issue → Issue) : (s.setIss f).pois = s.pois := rfl
@[simp] theorem setIss_viewBlk (s : State) (f : Issue → Issue) : (s.setIss f).viewBlk = s.viewBlk := rfl
@[simp] theorem setIss_tags (s : State) (f : Issue → Issue) : (s.setIss f).tags = s.tags := rfl
@[simp] theorem setIss_l1 (s : State) (f : Issue → Issue) : (s.setIss f).l1 = s.l1 := rfl
@[simp] theorem setIss_l2 (s : State) (f : Issue → Issue) : (s.setIss f).l2 = s.l2 := rfl
@[simp] theorem setIss_lostDir (s : State) (f : Issue → Issue) : (s.setIss f).lostDir = s.lostDir := rfl
@[simp] theorem setIss_rel (s : State) (f : Issue → Issue) : (s.setIss f).rel = s.rel := rfl
@[simp] theorem setIss_stamps (s : State) (f : Issue → Issue) : (s.setIss f).stamps = s.stamps := rfl
@[simp] theorem setIss_lostClk (s : State) (f : Issue → Issue) : (s.setIss f).lostClk = s.lostClk := rfl
@[simp] theorem setIss_frames (s : State) (f : Issue → Issue) : (s.setIss f).frames = s.frames := rfl
@[simp] theorem setIss_anchors (s : State) (f : Issue → Issue) : (s.setIss f).anchors = s.anchors := rfl
@[simp] theorem setIss_hand (s : State) (f : Issue → Issue) : (s.setIss f).hand = s.hand := rfl
@[simp] theorem setIss_pins (s : State) (f : Issue → Issue) : (s.setIss f).pins = s.pins := rfl
@[simp] theorem setIss_walk (s : State) (f : Issue → Issue) : (s.setIss f).walk = s.walk := rfl
@[simp] theorem setIss_tu (s : State) (f : Issue → Issue) : (s.setIss f).tu = s.tu := rfl
@[simp] theorem setIss_reqs (s : State) (f : Issue → Issue) : (s.setIss f).reqs = s.reqs := rfl
@[simp] theorem setIss_items (s : State) (f : Issue → Issue) : (s.setIss f).items = s.items := rfl
@[simp] theorem setIss_fills (s : State) (f : Issue → Issue) : (s.setIss f).fills = s.fills := rfl
@[simp] theorem setIss_spills (s : State) (f : Issue → Issue) : (s.setIss f).spills = s.spills := rfl
@[simp] theorem setIss_invals (s : State) (f : Issue → Issue) : (s.setIss f).invals = s.invals := rfl
@[simp] theorem setIss_stores (s : State) (f : Issue → Issue) : (s.setIss f).stores = s.stores := rfl
@[simp] theorem setIss_dams (s : State) (f : Issue → Issue) : (s.setIss f).dams = s.dams := rfl
@[simp] theorem setIss_owns (s : State) (f : Issue → Issue) : (s.setIss f).owns = s.owns := rfl
@[simp] theorem setIss_contribs (s : State) (f : Issue → Issue) : (s.setIss f).contribs = s.contribs := rfl
@[simp] theorem setIss_closings (s : State) (f : Issue → Issue) : (s.setIss f).closings = s.closings := rfl
@[simp] theorem setIss_closeArr (s : State) (f : Issue → Issue) : (s.setIss f).closeArr = s.closeArr := rfl
@[simp] theorem setIss_ctxs (s : State) (f : Issue → Issue) : (s.setIss f).ctxs = s.ctxs := rfl
@[simp] theorem setIss_mu (s : State) (f : Issue → Issue) : (s.setIss f).mu = s.mu := rfl
@[simp] theorem setIss_cbq (s : State) (f : Issue → Issue) : (s.setIss f).cbq = s.cbq := rfl
@[simp] theorem setIss_nvme (s : State) (f : Issue → Issue) : (s.setIss f).nvme = s.nvme := rfl
@[simp] theorem setIss_readTimes (s : State) (f : Issue → Issue) : (s.setIss f).readTimes = s.readTimes := rfl
@[simp] theorem setIss_portCache (s : State) (f : Issue → Issue) : (s.setIss f).portCache = s.portCache := rfl
@[simp] theorem setIss_fillLog (s : State) (f : Issue → Issue) : (s.setIss f).fillLog = s.fillLog := rfl
@[simp] theorem setIss_pfStamps (s : State) (f : Issue → Issue) : (s.setIss f).pfStamps = s.pfStamps := rfl
@[simp] theorem setIss_errDue (s : State) (f : Issue → Issue) : (s.setIss f).errDue = s.errDue := rfl
@[simp] theorem setIss_race (s : State) (f : Issue → Issue) : (s.setIss f).race = s.race := rfl
@[simp] theorem setG_g (s : State) (f : Group → Group) : (s.setG f).g = f s.g := rfl
@[simp] theorem setIss_iss (s : State) (f : Issue → Issue) : (s.setIss f).iss = f s.iss := rfl
@[simp] theorem setR_g_kind (s : State) (f : Regs → Regs) : (s.setR f).g.kind = s.g.kind := rfl
@[simp] theorem setR_g_home (s : State) (f : Regs → Regs) : (s.setR f).g.home = s.g.home := rfl
@[simp] theorem setR_g_team (s : State) (f : Regs → Regs) : (s.setR f).g.team = s.g.team := rfl
@[simp] theorem setR_g_grp (s : State) (f : Regs → Regs) : (s.setR f).g.grp = s.g.grp := rfl
@[simp] theorem setR_g_role (s : State) (f : Regs → Regs) : (s.setR f).g.role = s.g.role := rfl
@[simp] theorem setR_g_roleKind (s : State) (f : Regs → Regs) : (s.setR f).g.roleKind = s.g.roleKind := rfl
@[simp] theorem setR_g_roleGroup (s : State) (f : Regs → Regs) : (s.setR f).g.roleGroup = s.g.roleGroup := rfl
@[simp] theorem setR_g_regsN (s : State) (f : Regs → Regs) : (s.setR f).g.regsN = s.g.regsN := rfl
@[simp] theorem setR_g_slot (s : State) (f : Regs → Regs) : (s.setR f).g.slot = s.g.slot := rfl
@[simp] theorem setR_g_asid (s : State) (f : Regs → Regs) : (s.setR f).g.asid = s.g.asid := rfl
@[simp] theorem setR_g_r (s : State) (f : Regs → Regs) : (s.setR f).g.r = f s.g.r := rfl
@[simp] theorem setR_g_pcv (s : State) (f : Regs → Regs) : (s.setR f).g.pcv = s.g.pcv := rfl
@[simp] theorem setR_g_lsv (s : State) (f : Regs → Regs) : (s.setR f).g.lsv = s.g.lsv := rfl
@[simp] theorem setR_g_blk (s : State) (f : Regs → Regs) : (s.setR f).g.blk = s.g.blk := rfl
@[simp] theorem setR_g_joinNext (s : State) (f : Regs → Regs) : (s.setR f).g.joinNext = s.g.joinNext := rfl
@[simp] theorem setR_g_parkEnd (s : State) (f : Regs → Regs) : (s.setR f).g.parkEnd = s.g.parkEnd := rfl
@[simp] theorem setR_g_preBlk (s : State) (f : Regs → Regs) : (s.setR f).g.preBlk = s.g.preBlk := rfl
@[simp] theorem setR_g_save (s : State) (f : Regs → Regs) : (s.setR f).g.save = s.g.save := rfl
@[simp] theorem setR_g_hlanes (s : State) (f : Regs → Regs) : (s.setR f).g.hlanes = s.g.hlanes := rfl
@[simp] theorem setR_g_handler (s : State) (f : Regs → Regs) : (s.setR f).g.handler = s.g.handler := rfl
@[simp] theorem setR_g_btc (s : State) (f : Regs → Regs) : (s.setR f).g.btc = s.g.btc := rfl
@[simp] theorem setR_g_quantum (s : State) (f : Regs → Regs) : (s.setR f).g.quantum = s.g.quantum := rfl
@[simp] theorem setR_g_qmask (s : State) (f : Regs → Regs) : (s.setR f).g.qmask = s.g.qmask := rfl
@[simp] theorem setR_g_issueNo (s : State) (f : Regs → Regs) : (s.setR f).g.issueNo = s.g.issueNo := rfl
@[simp] theorem setR_g_lastIssue (s : State) (f : Regs → Regs) : (s.setR f).g.lastIssue = s.g.lastIssue := rfl
@[simp] theorem setR_g_lastSet (s : State) (f : Regs → Regs) : (s.setR f).g.lastSet = s.g.lastSet := rfl
@[simp] theorem setR_g_ldcnt (s : State) (f : Regs → Regs) : (s.setR f).g.ldcnt = s.g.ldcnt := rfl
@[simp] theorem setR_g_stcnt (s : State) (f : Regs → Regs) : (s.setR f).g.stcnt = s.g.stcnt := rfl
@[simp] theorem setR_g_cpcnt (s : State) (f : Regs → Regs) : (s.setR f).g.cpcnt = s.g.cpcnt := rfl
@[simp] theorem setR_g_mxcnt (s : State) (f : Regs → Regs) : (s.setR f).g.mxcnt = s.g.mxcnt := rfl
@[simp] theorem setR_g_loads (s : State) (f : Regs → Regs) : (s.setR f).g.loads = s.g.loads := rfl
@[simp] theorem setR_g_epa (s : State) (f : Regs → Regs) : (s.setR f).g.epa = s.g.epa := rfl
@[simp] theorem setR_g_lseq (s : State) (f : Regs → Regs) : (s.setR f).g.lseq = s.g.lseq := rfl
@[simp] theorem setR_g_ltabBase (s : State) (f : Regs → Regs) : (s.setR f).g.ltabBase = s.g.ltabBase := rfl
@[simp] theorem setR_g_ltabCount (s : State) (f : Regs → Regs) : (s.setR f).g.ltabCount = s.g.ltabCount := rfl
@[simp] theorem setR_g_plans (s : State) (f : Regs → Regs) : (s.setR f).g.plans = s.g.plans := rfl
@[simp] theorem setR_g_foldE (s : State) (f : Regs → Regs) : (s.setR f).g.foldE = s.g.foldE := rfl
@[simp] theorem setR_g_view (s : State) (f : Regs → Regs) : (s.setR f).g.view = s.g.view := rfl
@[simp] theorem setR_g_world (s : State) (f : Regs → Regs) : (s.setR f).g.world = s.g.world := rfl
@[simp] theorem setR_g_hold (s : State) (f : Regs → Regs) : (s.setR f).g.hold = s.g.hold := rfl
@[simp] theorem setR_g_haltPend (s : State) (f : Regs → Regs) : (s.setR f).g.haltPend = s.g.haltPend := rfl
@[simp] theorem setR_g_stepPend (s : State) (f : Regs → Regs) : (s.setR f).g.stepPend = s.g.stepPend := rfl
@[simp] theorem setR_g_stepArmed (s : State) (f : Regs → Regs) : (s.setR f).g.stepArmed = s.g.stepArmed := rfl
@[simp] theorem setR_g_watchPass (s : State) (f : Regs → Regs) : (s.setR f).g.watchPass = s.g.watchPass := rfl
@[simp] theorem setR_g_faults (s : State) (f : Regs → Regs) : (s.setR f).g.faults = s.g.faults := rfl
@[simp] theorem setR_g_pkt (s : State) (f : Regs → Regs) : (s.setR f).g.pkt = s.g.pkt := rfl
@[simp] theorem setR_g_cycOff (s : State) (f : Regs → Regs) : (s.setR f).g.cycOff = s.g.cycOff := rfl
@[simp] theorem setR_g_rowBase (s : State) (f : Regs → Regs) : (s.setR f).g.rowBase = s.g.rowBase := rfl
@[simp] theorem setR_g_lastCyc (s : State) (f : Regs → Regs) : (s.setR f).g.lastCyc = s.g.lastCyc := rfl
@[simp] theorem setR_g_owed (s : State) (f : Regs → Regs) : (s.setR f).g.owed = s.g.owed := rfl
@[simp] theorem setR_g_finished (s : State) (f : Regs → Regs) : (s.setR f).g.finished = s.g.finished := rfl
@[simp] theorem wrS_v (r : Regs) (n : Nat) (x : DWord) (b : Bool) : (r.wrS n x b).v = r.v := rfl
@[simp] theorem wrS_p (r : Regs) (n : Nat) (x : DWord) (b : Bool) : (r.wrS n x b).p = r.p := rfl
@[simp] theorem wrS_k (r : Regs) (n : Nat) (x : DWord) (b : Bool) : (r.wrS n x b).k = r.k := rfl
@[simp] theorem wrS_vPois (r : Regs) (n : Nat) (x : DWord) (b : Bool) : (r.wrS n x b).vPois = r.vPois := rfl
@[simp] theorem wrS_pPois (r : Regs) (n : Nat) (x : DWord) (b : Bool) : (r.wrS n x b).pPois = r.pPois := rfl
@[simp] theorem wrS_kPois (r : Regs) (n : Nat) (x : DWord) (b : Bool) : (r.wrS n x b).kPois = r.kPois := rfl
@[simp] theorem wrS_mstat (r : Regs) (n : Nat) (x : DWord) (b : Bool) : (r.wrS n x b).mstat = r.mstat := rfl
@[simp] theorem wrS_fpctl (r : Regs) (n : Nat) (x : DWord) (b : Bool) : (r.wrS n x b).fpctl = r.fpctl := rfl
@[simp] theorem wrS_codeBase (r : Regs) (n : Nat) (x : DWord) (b : Bool) : (r.wrS n x b).codeBase = r.codeBase := rfl
@[simp] theorem wrS_trapCause (r : Regs) (n : Nat) (x : DWord) (b : Bool) : (r.wrS n x b).trapCause = r.trapCause := rfl
@[simp] theorem wrS_info0 (r : Regs) (n : Nat) (x : DWord) (b : Bool) : (r.wrS n x b).info0 = r.info0 := rfl
@[simp] theorem wrS_info1 (r : Regs) (n : Nat) (x : DWord) (b : Bool) : (r.wrS n x b).info1 = r.info1 := rfl
@[simp] theorem wrS_info2 (r : Regs) (n : Nat) (x : DWord) (b : Bool) : (r.wrS n x b).info2 = r.info2 := rfl
@[simp] theorem wrS_info3 (r : Regs) (n : Nat) (x : DWord) (b : Bool) : (r.wrS n x b).info3 = r.info3 := rfl
@[simp] theorem wrK_v (r : Regs) (n : Nat) (x : DWord) (b : Bool) : (r.wrK n x b).v = r.v := rfl
@[simp] theorem wrK_s (r : Regs) (n : Nat) (x : DWord) (b : Bool) : (r.wrK n x b).s = r.s := rfl
@[simp] theorem wrK_p (r : Regs) (n : Nat) (x : DWord) (b : Bool) : (r.wrK n x b).p = r.p := rfl
@[simp] theorem wrK_vPois (r : Regs) (n : Nat) (x : DWord) (b : Bool) : (r.wrK n x b).vPois = r.vPois := rfl
@[simp] theorem wrK_sPois (r : Regs) (n : Nat) (x : DWord) (b : Bool) : (r.wrK n x b).sPois = r.sPois := rfl
@[simp] theorem wrK_pPois (r : Regs) (n : Nat) (x : DWord) (b : Bool) : (r.wrK n x b).pPois = r.pPois := rfl
@[simp] theorem wrK_mstat (r : Regs) (n : Nat) (x : DWord) (b : Bool) : (r.wrK n x b).mstat = r.mstat := rfl
@[simp] theorem wrK_fpctl (r : Regs) (n : Nat) (x : DWord) (b : Bool) : (r.wrK n x b).fpctl = r.fpctl := rfl
@[simp] theorem wrK_codeBase (r : Regs) (n : Nat) (x : DWord) (b : Bool) : (r.wrK n x b).codeBase = r.codeBase := rfl
@[simp] theorem wrK_trapCause (r : Regs) (n : Nat) (x : DWord) (b : Bool) : (r.wrK n x b).trapCause = r.trapCause := rfl
@[simp] theorem wrK_info0 (r : Regs) (n : Nat) (x : DWord) (b : Bool) : (r.wrK n x b).info0 = r.info0 := rfl
@[simp] theorem wrK_info1 (r : Regs) (n : Nat) (x : DWord) (b : Bool) : (r.wrK n x b).info1 = r.info1 := rfl
@[simp] theorem wrK_info2 (r : Regs) (n : Nat) (x : DWord) (b : Bool) : (r.wrK n x b).info2 = r.info2 := rfl
@[simp] theorem wrK_info3 (r : Regs) (n : Nat) (x : DWord) (b : Bool) : (r.wrK n x b).info3 = r.info3 := rfl
@[simp] theorem wrV_s (r : Regs) (n l : Nat) (x : Word) (b : Bool) : (r.wrV n l x b).s = r.s := rfl
@[simp] theorem wrV_p (r : Regs) (n l : Nat) (x : Word) (b : Bool) : (r.wrV n l x b).p = r.p := rfl
@[simp] theorem wrV_k (r : Regs) (n l : Nat) (x : Word) (b : Bool) : (r.wrV n l x b).k = r.k := rfl
@[simp] theorem wrV_sPois (r : Regs) (n l : Nat) (x : Word) (b : Bool) : (r.wrV n l x b).sPois = r.sPois := rfl
@[simp] theorem wrV_pPois (r : Regs) (n l : Nat) (x : Word) (b : Bool) : (r.wrV n l x b).pPois = r.pPois := rfl
@[simp] theorem wrV_kPois (r : Regs) (n l : Nat) (x : Word) (b : Bool) : (r.wrV n l x b).kPois = r.kPois := rfl
@[simp] theorem wrV_mstat (r : Regs) (n l : Nat) (x : Word) (b : Bool) : (r.wrV n l x b).mstat = r.mstat := rfl
@[simp] theorem wrV_fpctl (r : Regs) (n l : Nat) (x : Word) (b : Bool) : (r.wrV n l x b).fpctl = r.fpctl := rfl
@[simp] theorem wrV_codeBase (r : Regs) (n l : Nat) (x : Word) (b : Bool) : (r.wrV n l x b).codeBase = r.codeBase := rfl
@[simp] theorem wrV_trapCause (r : Regs) (n l : Nat) (x : Word) (b : Bool) : (r.wrV n l x b).trapCause = r.trapCause := rfl
@[simp] theorem wrV_info0 (r : Regs) (n l : Nat) (x : Word) (b : Bool) : (r.wrV n l x b).info0 = r.info0 := rfl
@[simp] theorem wrV_info1 (r : Regs) (n l : Nat) (x : Word) (b : Bool) : (r.wrV n l x b).info1 = r.info1 := rfl
@[simp] theorem wrV_info2 (r : Regs) (n l : Nat) (x : Word) (b : Bool) : (r.wrV n l x b).info2 = r.info2 := rfl
@[simp] theorem wrV_info3 (r : Regs) (n l : Nat) (x : Word) (b : Bool) : (r.wrV n l x b).info3 = r.info3 := rfl
@[simp] theorem modG_gid (s : State) (k : Nat) (f : Group → Group) : (s.modG k f).gid = s.gid := by unfold State.modG; split <;> rfl
@[simp] theorem modG_iss (s : State) (k : Nat) (f : Group → Group) : (s.modG k f).iss = s.iss := by unfold State.modG; split <;> rfl
@[simp] theorem modG_agenda (s : State) (k : Nat) (f : Group → Group) : (s.modG k f).agenda = s.agenda := by unfold State.modG; split <;> rfl
@[simp] theorem modG_free (s : State) (k : Nat) (f : Group → Group) : (s.modG k f).free = s.free := by unfold State.modG; split <;> rfl
@[simp] theorem modG_ids (s : State) (k : Nat) (f : Group → Group) : (s.modG k f).ids = s.ids := by unfold State.modG; split <;> rfl
@[simp] theorem modG_tick (s : State) (k : Nat) (f : Group → Group) : (s.modG k f).tick = s.tick := by unfold State.modG; split <;> rfl
@[simp] theorem modG_teams (s : State) (k : Nat) (f : Group → Group) : (s.modG k f).teams = s.teams := by unfold State.modG; split <;> rfl
@[simp] theorem modG_grids (s : State) (k : Nat) (f : Group → Group) : (s.modG k f).grids = s.grids := by unfold State.modG; split <;> rfl
@[simp] theorem modG_cores (s : State) (k : Nat) (f : Group → Group) : (s.modG k f).cores = s.cores := by unfold State.modG; split <;> rfl
@[simp] theorem modG_dies (s : State) (k : Nat) (f : Group → Group) : (s.modG k f).dies = s.dies := by unfold State.modG; split <;> rfl
@[simp] theorem modG_tiles (s : State) (k : Nat) (f : Group → Group) : (s.modG k f).tiles = s.tiles := by unfold State.modG; split <;> rfl
@[simp] theorem modG_polders (s : State) (k : Nat) (f : Group → Group) : (s.modG k f).polders = s.polders := by unfold State.modG; split <;> rfl
@[simp] theorem modG_dev (s : State) (k : Nat) (f : Group → Group) : (s.modG k f).dev = s.dev := by unfold State.modG; split <;> rfl
@[simp] theorem modG_ports (s : State) (k : Nat) (f : Group → Group) : (s.modG k f).ports = s.ports := by unfold State.modG; split <;> rfl
@[simp] theorem modG_mem (s : State) (k : Nat) (f : Group → Group) : (s.modG k f).mem = s.mem := by unfold State.modG; split <;> rfl
@[simp] theorem modG_scratch (s : State) (k : Nat) (f : Group → Group) : (s.modG k f).scratch = s.scratch := by unfold State.modG; split <;> rfl
@[simp] theorem modG_rows (s : State) (k : Nat) (f : Group → Group) : (s.modG k f).rows = s.rows := by unfold State.modG; split <;> rfl
@[simp] theorem modG_acc (s : State) (k : Nat) (f : Group → Group) : (s.modG k f).acc = s.acc := by unfold State.modG; split <;> rfl
@[simp] theorem modG_codebook (s : State) (k : Nat) (f : Group → Group) : (s.modG k f).codebook = s.codebook := by unfold State.modG; split <;> rfl
@[simp] theorem modG_host (s : State) (k : Nat) (f : Group → Group) : (s.modG k f).host = s.host := by unfold State.modG; split <;> rfl
@[simp] theorem modG_pool (s : State) (k : Nat) (f : Group → Group) : (s.modG k f).pool = s.pool := by unfold State.modG; split <;> rfl
@[simp] theorem modG_flash (s : State) (k : Nat) (f : Group → Group) : (s.modG k f).flash = s.flash := by unfold State.modG; split <;> rfl
@[simp] theorem modG_peer (s : State) (k : Nat) (f : Group → Group) : (s.modG k f).peer = s.peer := by unfold State.modG; split <;> rfl
@[simp] theorem modG_pois (s : State) (k : Nat) (f : Group → Group) : (s.modG k f).pois = s.pois := by unfold State.modG; split <;> rfl
@[simp] theorem modG_viewBlk (s : State) (k : Nat) (f : Group → Group) : (s.modG k f).viewBlk = s.viewBlk := by unfold State.modG; split <;> rfl
@[simp] theorem modG_tags (s : State) (k : Nat) (f : Group → Group) : (s.modG k f).tags = s.tags := by unfold State.modG; split <;> rfl
@[simp] theorem modG_l1 (s : State) (k : Nat) (f : Group → Group) : (s.modG k f).l1 = s.l1 := by unfold State.modG; split <;> rfl
@[simp] theorem modG_l2 (s : State) (k : Nat) (f : Group → Group) : (s.modG k f).l2 = s.l2 := by unfold State.modG; split <;> rfl
@[simp] theorem modG_lostDir (s : State) (k : Nat) (f : Group → Group) : (s.modG k f).lostDir = s.lostDir := by unfold State.modG; split <;> rfl
@[simp] theorem modG_rel (s : State) (k : Nat) (f : Group → Group) : (s.modG k f).rel = s.rel := by unfold State.modG; split <;> rfl
@[simp] theorem modG_stamps (s : State) (k : Nat) (f : Group → Group) : (s.modG k f).stamps = s.stamps := by unfold State.modG; split <;> rfl
@[simp] theorem modG_lostClk (s : State) (k : Nat) (f : Group → Group) : (s.modG k f).lostClk = s.lostClk := by unfold State.modG; split <;> rfl
@[simp] theorem modG_frames (s : State) (k : Nat) (f : Group → Group) : (s.modG k f).frames = s.frames := by unfold State.modG; split <;> rfl
@[simp] theorem modG_anchors (s : State) (k : Nat) (f : Group → Group) : (s.modG k f).anchors = s.anchors := by unfold State.modG; split <;> rfl
@[simp] theorem modG_hand (s : State) (k : Nat) (f : Group → Group) : (s.modG k f).hand = s.hand := by unfold State.modG; split <;> rfl
@[simp] theorem modG_pins (s : State) (k : Nat) (f : Group → Group) : (s.modG k f).pins = s.pins := by unfold State.modG; split <;> rfl
@[simp] theorem modG_walk (s : State) (k : Nat) (f : Group → Group) : (s.modG k f).walk = s.walk := by unfold State.modG; split <;> rfl
@[simp] theorem modG_tu (s : State) (k : Nat) (f : Group → Group) : (s.modG k f).tu = s.tu := by unfold State.modG; split <;> rfl
@[simp] theorem modG_reqs (s : State) (k : Nat) (f : Group → Group) : (s.modG k f).reqs = s.reqs := by unfold State.modG; split <;> rfl
@[simp] theorem modG_items (s : State) (k : Nat) (f : Group → Group) : (s.modG k f).items = s.items := by unfold State.modG; split <;> rfl
@[simp] theorem modG_fills (s : State) (k : Nat) (f : Group → Group) : (s.modG k f).fills = s.fills := by unfold State.modG; split <;> rfl
@[simp] theorem modG_spills (s : State) (k : Nat) (f : Group → Group) : (s.modG k f).spills = s.spills := by unfold State.modG; split <;> rfl
@[simp] theorem modG_invals (s : State) (k : Nat) (f : Group → Group) : (s.modG k f).invals = s.invals := by unfold State.modG; split <;> rfl
@[simp] theorem modG_stores (s : State) (k : Nat) (f : Group → Group) : (s.modG k f).stores = s.stores := by unfold State.modG; split <;> rfl
@[simp] theorem modG_dams (s : State) (k : Nat) (f : Group → Group) : (s.modG k f).dams = s.dams := by unfold State.modG; split <;> rfl
@[simp] theorem modG_owns (s : State) (k : Nat) (f : Group → Group) : (s.modG k f).owns = s.owns := by unfold State.modG; split <;> rfl
@[simp] theorem modG_contribs (s : State) (k : Nat) (f : Group → Group) : (s.modG k f).contribs = s.contribs := by unfold State.modG; split <;> rfl
@[simp] theorem modG_closings (s : State) (k : Nat) (f : Group → Group) : (s.modG k f).closings = s.closings := by unfold State.modG; split <;> rfl
@[simp] theorem modG_closeArr (s : State) (k : Nat) (f : Group → Group) : (s.modG k f).closeArr = s.closeArr := by unfold State.modG; split <;> rfl
@[simp] theorem modG_ctxs (s : State) (k : Nat) (f : Group → Group) : (s.modG k f).ctxs = s.ctxs := by unfold State.modG; split <;> rfl
@[simp] theorem modG_mu (s : State) (k : Nat) (f : Group → Group) : (s.modG k f).mu = s.mu := by unfold State.modG; split <;> rfl
@[simp] theorem modG_cbq (s : State) (k : Nat) (f : Group → Group) : (s.modG k f).cbq = s.cbq := by unfold State.modG; split <;> rfl
@[simp] theorem modG_nvme (s : State) (k : Nat) (f : Group → Group) : (s.modG k f).nvme = s.nvme := by unfold State.modG; split <;> rfl
@[simp] theorem modG_readTimes (s : State) (k : Nat) (f : Group → Group) : (s.modG k f).readTimes = s.readTimes := by unfold State.modG; split <;> rfl
@[simp] theorem modG_portCache (s : State) (k : Nat) (f : Group → Group) : (s.modG k f).portCache = s.portCache := by unfold State.modG; split <;> rfl
@[simp] theorem modG_fillLog (s : State) (k : Nat) (f : Group → Group) : (s.modG k f).fillLog = s.fillLog := by unfold State.modG; split <;> rfl
@[simp] theorem modG_pfStamps (s : State) (k : Nat) (f : Group → Group) : (s.modG k f).pfStamps = s.pfStamps := by unfold State.modG; split <;> rfl
@[simp] theorem modG_errDue (s : State) (k : Nat) (f : Group → Group) : (s.modG k f).errDue = s.errDue := by unfold State.modG; split <;> rfl
@[simp] theorem modG_race (s : State) (k : Nat) (f : Group → Group) : (s.modG k f).race = s.race := by unfold State.modG; split <;> rfl
@[simp] theorem setTile_tile (s : State) (k q : Nat) (f : Tile → Tile) :
    (s.setTile k f).tile q = if q = k then f (s.tile k) else s.tile q := by simp [State.setTile, State.tile, mapMod, mapGet_mapSet]
@[simp] theorem setDie_die (s : State) (k q : Nat) (f : Die → Die) :
    (s.setDie k f).die q = if q = k then f (s.die k) else s.die q := by simp [State.setDie, State.die, mapMod, mapGet_mapSet]
@[simp] theorem setCore_coreSt (s : State) (k q : Nat) (f : CoreSt → CoreSt) :
    (s.setCore k f).coreSt q = if q = k then f (s.coreSt k) else s.coreSt q := by simp [State.setCore, State.coreSt, mapMod, mapGet_mapSet]
@[simp] theorem setPolder_polder (s : State) (k q : Nat) (f : Polder → Polder) :
    (s.setPolder k f).polder q = if q = k then f (s.polder k) else s.polder q := by simp [State.setPolder, State.polder, mapMod, mapGet_mapSet]
@[simp] theorem setPort_port (s : State) (k q : Nat) (f : Port → Port) :
    (s.setPort k f).port q = if q = k then f (s.port k) else s.port q := by simp [State.setPort, State.port, mapMod, mapGet_mapSet]
@[simp] theorem setFrame_frame (s : State) (k q : Nat) (f : Frame → Frame) :
    (s.setFrame k f).frame q = if q = k then f (s.frame k) else s.frame q := by simp [State.setFrame, State.frame, mapMod, mapGet_mapSet]
@[simp] theorem setTeam_team (s : State) (k q : Nat) (f : Team → Team) :
    (s.setTeam k f).team q = if q = k then (s.team k).map f else s.team q := by simp [State.setTeam, State.team, mapMod, mapGet_mapSet]
@[simp] theorem setGrid_grid (s : State) (k q : Nat) (f : Grid → Grid) :
    (s.setGrid k f).grid q = if q = k then (s.grid k).map f else s.grid q := by simp [State.setGrid, State.grid, mapMod, mapGet_mapSet]

end Sys2Proof.Machine
end

