-- ==== Sys2Proof/Laws/Regs.lean ====
section
/-! SUPPORT. Laws of registers and masks: what a read of a register gives after a write, lane by lane, and what each
shared form of a result (`scalarOut`, `lane1`, `lane2`, `lanePred`) leaves. -/

namespace Sys2Proof.Machine

theorem mapGet_mapMod {α : Type} [DecidableEq α] {d : α} {m : Map α} {k q : Nat} {f : α → α} :
    mapGet d (mapMod d m k f) q = if q = k then f (mapGet d m k) else mapGet d m q := by
  rw [mapMod, mapGet_mapSet]

/-! ### Masks -/

theorem mem_lanesOf {m : Word} {l : Nat} : l ∈ lanesOf m ↔ m.getLsbD l = true := by
  constructor
  · intro h; exact (List.mem_filter.1 h).2
  · intro h
    refine List.mem_filter.2 ⟨List.mem_range.2 ?_, h⟩
    by_contra hl
    rw [BitVec.getLsbD_of_ge _ _ (by omega)] at h
    exact absurd h (by simp)

theorem lt_of_mem_lanesOf {m : Word} {l : Nat} (h : l ∈ lanesOf m) : l < 32 :=
  List.mem_range.1 (List.mem_filter.1 h).1

theorem getLsbD_laneBit {l k : Nat} (hk : k < 32) : (laneBit l).getLsbD k = (k == l) := by
  rw [laneBit, BitVec.getLsbD_ofNat, Nat.testBit_two_pow, beq_eq_decide]
  simp [hk, eq_comm]

theorem getLsbD_setBit {w : Word} {n k : Nat} {b : Bool} (hk : k < 32) :
    (setBit w n b).getLsbD k = if k = n then b else w.getLsbD k := by
  have h : (BitVec.ofNat 32 (2 ^ n)).getLsbD k = (k == n) := getLsbD_laneBit hk
  cases b
  · simp only [setBit, Bool.false_eq_true, if_false, BitVec.getLsbD_and, BitVec.getLsbD_not, h, hk]
    by_cases e : k = n <;> simp [e]
  · simp only [setBit, if_true, BitVec.getLsbD_or, h]
    by_cases e : k = n <;> simp [e]

theorem getLsbD_and_laneBit {m : Word} {l : Nat} (hl : l < 32) :
    (m &&& laneBit l != 0#32) = m.getLsbD l := by
  rw [Bool.eq_iff_iff, bne_iff_ne]
  constructor
  · intro h
    by_contra hm
    apply h
    apply BitVec.eq_of_getLsbD_eq
    intro k hk
    rw [BitVec.getLsbD_and, getLsbD_laneBit hk]
    by_cases e : k = l <;> simp_all
  · intro h e
    have := congrArg (fun x => x.getLsbD l) e
    simp [getLsbD_laneBit hl, h] at this

/-! ### Registers -/

@[simp] theorem rdS_wrS {r : Regs} {n q : Nat} {x : DWord} {b : Bool} :
    (r.wrS n x b).rdS q = if q = n then x else r.rdS q := mapGet_mapSet ..
@[simp] theorem poisS_wrS {r : Regs} {n q : Nat} {x : DWord} {b : Bool} :
    (r.wrS n x b).poisS q = if q = n then b else r.poisS q := mapGet_mapSet ..
@[simp] theorem rdK_wrK {r : Regs} {n q : Nat} {x : DWord} {b : Bool} :
    (r.wrK n x b).rdK q = if q = n then x else r.rdK q := mapGet_mapSet ..
@[simp] theorem poisK_wrK {r : Regs} {n q : Nat} {x : DWord} {b : Bool} :
    (r.wrK n x b).poisK q = if q = n then b else r.poisK q := mapGet_mapSet ..

theorem rdV_wrV {r : Regs} {n q l k : Nat} {x : Word} {b : Bool} (hl : l < 32) (hk : k < 32) :
    (r.wrV n l x b).rdV q k = if q = n ∧ k = l then x else r.rdV q k := by
  simp only [Regs.rdV, Regs.wrV, mapGet_mapSet]
  have : (32 * q + k = 32 * n + l) ↔ (q = n ∧ k = l) := by omega
  simp only [this]

theorem poisV_wrV {r : Regs} {n q l k : Nat} {x : Word} {b : Bool} (hk : k < 32) :
    ((r.wrV n l x b).poisV q).getLsbD k = if q = n ∧ k = l then b else (r.poisV q).getLsbD k := by
  simp only [Regs.poisV, Regs.wrV, mapGet_mapMod]
  by_cases h : q = n
  · subst h
    rw [if_pos rfl, getLsbD_setBit hk]
    simp
  · simp [h]

theorem rdPL_wrP {r : Regs} {n q l k : Nat} {x b : Bool} (hk : k < 32) :
    (r.wrP n l x b).rdPL q k = if q = n ∧ k = l ∧ n ≠ 7 then x else r.rdPL q k := by
  by_cases h7 : n = 7
  · simp [Regs.wrP, h7]
  · by_cases hq : q = 7
    · have : q ≠ n := by omega
      simp [Regs.rdPL, Regs.rdP, hq, Ne.symm h7]
    · simp only [Regs.wrP, h7, if_false, Regs.rdPL, Regs.rdP, hq, mapGet_mapMod]
      by_cases h : q = n
      · subst h; simp [getLsbD_setBit hk, h7]
      · simp [h]

theorem poisP_wrP {r : Regs} {n q l k : Nat} {x b : Bool} (hk : k < 32) :
    ((r.wrP n l x b).poisP q).getLsbD k = if q = n ∧ k = l ∧ n ≠ 7 then b else (r.poisP q).getLsbD k := by
  by_cases h7 : n = 7
  · simp [Regs.wrP, h7]
  · by_cases hq : q = 7
    · have : q ≠ n := by omega
      simp [Regs.poisP, hq, Ne.symm h7]
    · simp only [Regs.wrP, h7, if_false, Regs.poisP, hq, mapGet_mapMod]
      by_cases h : q = n
      · subst h; simp [getLsbD_setBit hk, h7]
      · simp [h]

/-! ### A write in every lane with effect -/

/-- What a fold over lanes leaves in a lane, when each step writes at most its own lane. -/
theorem foldl_lane {β : Type} (get : Regs → Nat → β) (f : Regs → Nat → Regs) (g : Nat → β)
    (hs : ∀ r l, l < 32 → get (f r l) l = g l) (ho : ∀ r l k, l < 32 → k < 32 → k ≠ l → get (f r l) k = get r k)
    (ls : List Nat) (hls : ∀ l ∈ ls, l < 32) (r : Regs) (k : Nat) (hk : k < 32) :
    get (ls.foldl f r) k = if k ∈ ls then g k else get r k := by
  induction ls generalizing r with
  | nil => simp
  | cons l ls ih =>
    have hl := hls l (by simp)
    rw [List.foldl_cons, ih (fun x hx => hls x (by simp [hx]))]
    by_cases h : k ∈ ls
    · simp [h]
    · by_cases e : k = l
      · subst e; simp [h, hs _ _ hl]
      · simp [h, e, ho _ _ _ hl hk e]

/-- What a fold keeps, when each step keeps it. -/
theorem foldl_keep {β : Type} (get : Regs → β) (f : Regs → Nat → Regs) (ls : List Nat) (r : Regs)
    (h : ∀ r, ∀ l ∈ ls, get (f r l) = get r) : get (ls.foldl f r) = get r := by
  induction ls generalizing r with
  | nil => rfl
  | cons l ls ih =>
    rw [List.foldl_cons, ih _ (fun r x hx => h r x (by simp [hx])), h r l (by simp)]

/-- A fold of lane writes changes the lane registers alone. -/
theorem foldl_wr {f : Regs → Nat → Regs} (ls : List Nat) (r : Regs)
    (h : ∀ r l, ∃ v p, f r l = { r with v := v, vPois := p }) :
    ls.foldl f r = { r with v := (ls.foldl f r).v, vPois := (ls.foldl f r).vPois } := by
  induction ls generalizing r with
  | nil => rfl
  | cons l ls ih =>
    obtain ⟨v, p, e⟩ := h r l
    rw [List.foldl_cons, ih (f r l), e]

/-- A fold of predicate writes changes the predicates alone. -/
theorem foldl_wrP {f : Regs → Nat → Regs} (ls : List Nat) (r : Regs)
    (h : ∀ r l, ∃ v p, f r l = { r with p := v, pPois := p }) :
    ls.foldl f r = { r with p := (ls.foldl f r).p, pPois := (ls.foldl f r).pPois } := by
  induction ls generalizing r with
  | nil => rfl
  | cons l ls ih =>
    obtain ⟨v, p, e⟩ := h r l
    rw [List.foldl_cons, ih (f r l), e]

theorem wrP_only (r : Regs) (n l : Nat) (x b : Bool) : ∃ v p, r.wrP n l x b = { r with p := v, pPois := p } := by
  unfold Regs.wrP
  split
  · exact ⟨r.p, r.pPois, rfl⟩
  · exact ⟨_, _, rfl⟩

end Sys2Proof.Machine
end

