-- ==== Sys2Proof/Laws/Access.lean ====
section
/-! SUPPORT. Accesses to memory: what a word does whose accesses are all found, and which bytes a write changes. -/

namespace Sys2Proof.Machine

/-- A word whose accesses are served goes on with the parts found, in the state after the look-up. -/
theorem accesses_served {kd : Kind} {pre : Option Nat} {hint n : Nat} {shared : Bool} {xs : List (Nat × Nat)} {s u : State}
    {go : List (Nat × Nat × List Piece)} {f : State → List (Nat × Nat × List Piece) → State}
    (h : Served kd pre hint n shared xs s u go) : s.accesses kd pre hint n shared xs f = f u go := by
  have hne := h.some_
  have hf := h.found
  unfold State.lookUps at hf
  unfold State.accesses
  simp only [h.checks, h.unwatched]
  have hx : xs.filter (fun x => !(0#32).getLsbD x.1) = xs := by simp
  simp only [hx]
  erw [hf]
  have hid : ∀ (l : List (Nat × Nat × List Piece)) (v : State), l.foldl (fun v _ => v) v = v := by
    intro l; induction l with
    | nil => simp
    | cons a l ih => simp
  have hn : ∀ (l : List (Nat × Nat × List Piece)), l.find? (fun _ => false) = none := by
    intro l; induction l with
    | nil => rfl
    | cons a l ih => simp
  simp [List.find?_map, List.foldl_map, List.filterMap_map, hne, hid, hn]

/-! ### Bytes by cell -/

theorem testBit_mul256 (x i n : Nat) : (x * 256 ^ i).testBit n = (decide (8 * i ≤ n) && x.testBit (n - 8 * i)) := by
  rw [show (256:Nat) ^ i = 2 ^ (8 * i) by rw [pow_mul]; norm_num, Nat.testBit_mul_two_pow]

theorem byteOf_patchByte {w : Word} {i k : Nat} {b : Byte} (hi : i < 4) (hk : k < 4) :
    byteOf (patchByte w i b) k = if k = i then b else byteOf w k := by
  ext j hj
  simp only [byteOf, patchByte, BitVec.getElem_extractLsb', BitVec.getLsbD_or, BitVec.getLsbD_and, BitVec.getLsbD_not, BitVec.getLsbD_ofNat, testBit_mul256]
  have hb : ∀ n, 8 ≤ n → b.toNat.testBit n = false := fun n hn => Nat.testBit_lt_two_pow (lt_of_lt_of_le b.isLt (Nat.pow_le_pow_right (by norm_num) hn))
  have h255 : ∀ n, (255:Nat).testBit n = decide (n < 8) := by
    intro n
    have := Nat.testBit_two_pow_sub_one 8 n
    simpa using this
  rw [h255]
  have h1 : 8 * k + j < 32 := by omega
  by_cases hki : k = i
  · subst hki
    have : 8 * k + j - 8 * k = j := by omega
    simp [this, hj, h1, BitVec.getElem_eq_testBit_toNat]
  · rcases lt_or_gt_of_ne hki with h | h
    · have : ¬ 8 * i ≤ 8 * k + j := by omega
      simp [this, hki, h1]
    · have h3 : 8 * i ≤ 8 * k + j := by omega
      have h4 : ¬ 8 * k + j - 8 * i < 8 := by omega
      simp [h4, hki, h1, hb _ (not_lt.mp h4)]

theorem getG_modG {s : State} {k q : Nat} {f : Group → Group} :
    (s.modG k f).getG q = if q = k then (s.getG k).map f else s.getG q := by
  unfold State.modG State.getG
  by_cases hk : k = s.gid
  · by_cases hq : q = s.gid
    · simp [hk, hq]
    · simp [hk, hq]
  · by_cases hq : q = s.gid
    · subst hq; simp [hk, Ne.symm hk]
    · simp only [hk, hq, if_false, mapGet_mapMod]

theorem rdByte_wrByte {s : State} {l m : Loc} {i j : Nat} {b : Byte} {c d : Nat × Nat} (hc : l.cell i = some c)
    (hd : m.cell j = some d) (hr : ∀ k x, l = .reg k x → (s.getG k).isSome = true) :
    (s.wrByte l i b).rdByte m j = if d = c then b else s.rdByte m j := by
  cases l with
  | gone => simp [Loc.cell] at hc
  | mgmt => simp [Loc.cell] at hc
  | reg k x =>
    obtain rfl : c = (6 + k, x + i) := by simpa [Loc.cell] using hc.symm
    obtain ⟨g, hg⟩ := Option.isSome_iff_exists.mp (hr k x rfl)
    cases m with
    | gone => simp [Loc.cell] at hd
    | mgmt => simp [Loc.cell] at hd
    | reg q y =>
      obtain rfl : d = (6 + q, y + j) := by simpa [Loc.cell] using hd.symm
      simp only [State.wrByte, State.rdByte, getG_modG]
      by_cases hq : q = k
      · subst hq
        have h4 : (y + j) % 4 < 4 := Nat.mod_lt _ (by norm_num)
        have h5 : (x + i) % 4 < 4 := Nat.mod_lt _ (by norm_num)
        simp only [hg, Option.map_some, if_true]
        rw [rdV_wrV (by omega) (by omega)]
        by_cases hb : y + j = x + i
        · simp [hb, byteOf_patchByte h5 h5]
        · have hne : ¬ ((6 + q, y + j) = (6 + q, x + i)) := by simp [hb]
          rw [if_neg hne]
          by_cases hw : (y + j) / 128 = (x + i) / 128 ∧ (y + j) % 128 / 4 = (x + i) % 128 / 4
          · have : (y + j) % 4 ≠ (x + i) % 4 := by omega
            simp [hw.1, hw.2, byteOf_patchByte h5 h4, this]
          · rw [if_neg hw]
      · have hne : ¬ ((6 + q, y + j) = (6 + k, x + i)) := by simp [hq]
        rw [if_neg hne, if_neg hq]
    | _ =>
      simp [Loc.cell] at hd; subst hd
      rw [if_neg (by simp only [Prod.mk.injEq]; omega)]
      simp only [State.wrByte, State.rdByte, State.modG]
      split <;> rfl
  | acc k bk o =>
    obtain rfl : c = (2, 4 * accKey k bk (o + i) + (o + i) % 4) := by simpa [Loc.cell] using hc.symm
    cases m with
    | gone => simp [Loc.cell] at hd
    | mgmt => simp [Loc.cell] at hd
    | acc q bq p =>
      obtain rfl : d = (2, 4 * accKey q bq (p + j) + (p + j) % 4) := by simpa [Loc.cell] using hd.symm
      have h4 : (p + j) % 4 < 4 := Nat.mod_lt _ (by norm_num)
      have h5 : (o + i) % 4 < 4 := Nat.mod_lt _ (by norm_num)
      simp only [State.wrByte, State.rdByte, mapGet_mapMod]
      by_cases hk : accKey q bq (p + j) = accKey k bk (o + i)
      · rw [if_pos hk, byteOf_patchByte h5 h4, hk]
        by_cases hm : (p + j) % 4 = (o + i) % 4 <;> simp [hm]
      · rw [if_neg hk, if_neg]
        simp only [Prod.mk.injEq, true_and]; omega
    | reg q y => simp [Loc.cell] at hd; subst hd; rw [if_neg (by simp only [Prod.mk.injEq]; omega)]; rfl
    | row q y => simp [Loc.cell] at hd; subst hd; rfl
    | _ => simp [Loc.cell] at hd; subst hd; simp [State.wrByte, State.rdByte]
  | row k o =>
    obtain rfl : c = (5, 4 * rowKey k ((o + i) / 4) + (o + i) % 4) := by simpa [Loc.cell] using hc.symm
    cases m with
    | gone => simp [Loc.cell] at hd
    | mgmt => simp [Loc.cell] at hd
    | row q p =>
      obtain rfl : d = (5, 4 * rowKey q ((p + j) / 4) + (p + j) % 4) := by simpa [Loc.cell] using hd.symm
      have h4 : (p + j) % 4 < 4 := Nat.mod_lt _ (by norm_num)
      have h5 : (o + i) % 4 < 4 := Nat.mod_lt _ (by norm_num)
      simp only [State.wrByte, State.rdByte, mapGet_mapMod]
      by_cases hk : rowKey q ((p + j) / 4) = rowKey k ((o + i) / 4)
      · rw [if_pos hk, byteOf_patchByte h5 h4, hk]
        by_cases hm : (p + j) % 4 = (o + i) % 4 <;> simp [hm]
      · rw [if_neg hk, if_neg]
        simp only [Prod.mk.injEq, true_and]; omega
    | reg q y => simp [Loc.cell] at hd; subst hd; rw [if_neg (by simp only [Prod.mk.injEq]; omega)]; rfl
    | _ => simp [Loc.cell] at hd; subst hd; rfl
  | _ =>
    simp [Loc.cell] at hc; subst hc
    cases m with
    | gone => simp [Loc.cell] at hd
    | mgmt => simp [Loc.cell] at hd
    | reg q y => simp [Loc.cell] at hd; subst hd; rw [if_neg (by simp only [Prod.mk.injEq]; omega)]; rfl
    | acc q y z => simp [Loc.cell] at hd; subst hd; rfl
    | row q y => simp [Loc.cell] at hd; subst hd; rfl
    | _ => simp [Loc.cell] at hd; subst hd; simp [State.wrByte, State.rdByte, mapGet_mapSet]

theorem getG_wrByte {s : State} {l : Loc} {i k : Nat} {b : Byte} : ((s.wrByte l i b).getG k).isSome = (s.getG k).isSome := by
  cases l with
  | reg q x =>
    simp only [State.wrByte, getG_modG]
    split
    · next h => subst h; simp
    · rfl
  | _ => rfl

theorem cell_isSome {l : Loc} {i : Nat} (j : Nat) (h : (l.cell i).isSome = true) : (l.cell j).isSome = true := by
  cases l <;> simp_all [Loc.cell]

theorem cell_inj {l : Loc} {i j : Nat} {c : Nat × Nat} (hi : l.cell i = some c) (hj : l.cell j = some c) : i = j := by
  cases l <;> simp only [Loc.cell, Option.some.injEq, reduceCtorEq] at hi hj <;> rw [← hj] at hi <;>
    simp only [accKey, rowKey, Prod.mk.injEq, true_and] at hi <;> omega

/-- A write of bytes changes no other byte. -/
theorem wrBytesFrom_kept {bs : List Byte} : ∀ {s : State} {l : Loc} {i : Nat} (_ : ∀ k x, l = .reg k x → (s.getG k).isSome = true),
    KeptBut (fun c => ∃ k, k < bs.length ∧ l.cell (i + k) = some c) s (s.wrBytesFrom l i bs) := by
  induction bs with
  | nil => intro s l i _ m j d _ _; rfl
  | cons b bs ih =>
    intro s l i hr m j d hd hn
    have hr' : ∀ k x, l = .reg k x → ((s.wrByte l i b).getG k).isSome = true := fun k x h => by
      rw [getG_wrByte]; exact hr k x h
    rw [State.wrBytesFrom, ih hr' m j d hd (by
      rintro ⟨k, hk, hc⟩
      exact hn ⟨k + 1, by simpa using hk, by rw [← hc]; congr 1; omega⟩)]
    cases hc : l.cell i with
    | none => cases l <;> simp_all [Loc.cell, State.wrByte]
    | some c =>
      rw [rdByte_wrByte hc hd hr, if_neg]
      rintro rfl
      exact hn ⟨0, by simp, by simpa using hc⟩

/-- The bytes written read back. -/
theorem rdByte_wrBytesFrom {bs : List Byte} : ∀ {s : State} {l : Loc} {i k : Nat}
    (_ : ∀ k x, l = .reg k x → (s.getG k).isSome = true) (_ : (l.cell 0).isSome = true) (hk : k < bs.length),
    (s.wrBytesFrom l i bs).rdByte l (i + k) = bs[k] := by
  induction bs with
  | nil => intro s l i k _ _ hk; simp at hk
  | cons b bs ih =>
    intro s l i k hr hl hk
    have hr' : ∀ k x, l = .reg k x → ((s.wrByte l i b).getG k).isSome = true := fun k x h => by
      rw [getG_wrByte]; exact hr k x h
    rw [State.wrBytesFrom]
    cases k with
    | zero =>
      obtain ⟨c, hc⟩ := Option.isSome_iff_exists.mp (cell_isSome i hl)
      rw [wrBytesFrom_kept hr' l (i + 0) c (by simpa using hc) (by
        rintro ⟨k, _, h⟩
        have := cell_inj hc h
        omega), rdByte_wrByte hc (by simpa using hc) hr]
      simp
    | succ k =>
      have := ih (i := i + 1) (k := k) hr' hl (by simpa using hk)
      simpa [Nat.add_assoc, Nat.add_comm 1 k] using this

/-! ### The race detector where no other agent conflicts -/

/-- Only what an access leaves behind beside the bytes has changed: the detector's record, what level-1 copies lack, which
writes may yet be undone; other agents' accesses in the record stand as they did. -/
structure Noted (agent : Nat) (s t : State) : Prop where
  only : t = { s with race := t.race, l1 := t.l1, stores := t.stores }
  sect : ∀ k, ∀ y ∈ mapGet [] t.race.sect k, y.agent = agent ∨ y ∈ mapGet [] s.race.sect k

theorem Noted.refl (a : Nat) (s : State) : Noted a s s := ⟨rfl, fun _ _ h => .inr h⟩

theorem Noted.trans {a : Nat} {s t u : State} (h : Noted a s t) (k : Noted a t u) : Noted a s u :=
  ⟨by rw [k.only, h.only], fun q y hy => (k.sect q y hy).elim .inl (h.sect q y)⟩

theorem Noted.race {a : Nat} {s : State} {r : Race} (h : r.sect = s.race.sect) : Noted a s { s with race := r } :=
  ⟨rfl, fun k y hy => .inr (by simpa [h] using hy)⟩

theorem Noted.l1 {a : Nat} {s : State} {x : List L1Block} : Noted a s { s with l1 := x } := ⟨rfl, fun _ _ h => .inr h⟩

theorem Noted.stores {a : Nat} {s : State} {x : List PendStore} : Noted a s { s with stores := x } :=
  ⟨rfl, fun _ _ h => .inr h⟩

theorem Noted.foldl {α : Type} {a : Nat} {f : State → α → State} (hf : ∀ s x, Noted a s (f s x)) :
    ∀ (xs : List α) (s : State), Noted a s (xs.foldl f s)
  | [], s => .refl a s
  | x :: xs, s => (hf s x).trans (Noted.foldl hf xs (f s x))

theorem noteSector_alone {s : State} {a : Accessor} {l : Loc} {va n : Nat} {write : Bool} {c : List (Nat × Nat)}
    {k : Nat} (h : ∀ y ∈ mapGet [] s.race.sect k, y.agent = a.agent ∨ (y.write = false ∧ write = false)) :
    Noted a.agent s (s.noteSector a l va n write c k) := by
  have hnone : (mapGet [] s.race.sect k).filter (fun x => x.conflicts a (l.sectorMask n k) write
      && decide (mapGet 0 c x.agent < x.time)) = [] := by
    rw [List.filter_eq_nil_iff]
    intro y hy
    rcases h y hy with h1 | ⟨h2, h3⟩
    · simp [SectAcc.conflicts, h1]
    · simp [SectAcc.conflicts, h2, h3]
  simp only [State.noteSector, hnone, List.foldl_nil]
  refine ⟨rfl, fun q y hy => ?_⟩
  simp only [mapGet_mapSet] at hy
  split at hy
  · next hq =>
    subst hq
    rcases List.mem_append.mp hy with h1 | h1
    · exact .inr (List.mem_filter.mp h1).1
    · left; simp at h1; simp [h1]
  · exact .inr hy

theorem orderRead_noted (s : State) (a : Nat) (got : List SyncRec) : Noted a s (s.orderRead a got) := by
  unfold State.orderRead
  split
  · exact .refl _ _
  · exact .race rfl

theorem orderWrite_noted (s : State) (a : Nat) (ws : List Nat) (cont : Bool) : Noted a s (s.orderWrite a ws cont) := by
  simp only [State.orderWrite]
  split
  · exact .refl _ _
  · refine Noted.foldl (fun s w => ?_) _ _
    exact .race rfl

theorem noteOrder_noted (s : State) (a : Nat) (l : Loc) (n : Nat) (j : Joins) : Noted a s (s.noteOrder a l n j) := by
  cases j with
  | read => exact orderRead_noted ..
  | write => exact orderWrite_noted ..
  | both => exact (orderRead_noted ..).trans (orderWrite_noted ..)

theorem settleUndo_noted (s : State) (a : Nat) (l : Loc) (n : Nat) : Noted a s (s.settleUndo l n) := by
  cases l with
  | home a v x =>
    simp only [State.settleUndo, State.settleKeys]
    split
    · exact .refl _ _
    · exact .stores
  | _ => exact .refl _ _

theorem seeBytes_noted (s : State) (a : Nat) (l : Loc) (n : Nat) : Noted a s (s.seeBytes a l n) := by
  unfold State.seeBytes
  split
  · exact .refl _ _
  · cases l with
    | home as v x =>
      refine Noted.foldl (fun s p => ?_) _ _
      dsimp only
      split
      · exact .l1
      · exact .refl _ _
    | _ => exact .refl _ _

theorem seeHome_noted (s : State) (a : Nat) (l : Loc) (n : Nat) : Noted a s (s.seeHome a l n) :=
  (settleUndo_noted s a l n).trans (seeBytes_noted ..)

theorem seeCopy_noted (s : State) (a : Nat) (b : L1Block) (o n : Nat) : Noted a s (s.seeCopy a b o n) := .l1

/-- An access that conflicts with no other agent's leaves every byte as it is (R281). -/
theorem noteAccess_alone {s : State} {a : Accessor} {l : Loc} {va n : Nat} {write : Bool}
    (h : ∀ i, i < n → ∀ k, l.sector i = some k → ∀ y ∈ mapGet [] s.race.sect k,
      y.agent = a.agent ∨ (y.write = false ∧ write = false)) :
    Noted a.agent s (s.noteAccess a l va n write) := by
  have hsec : ∀ k ∈ ((List.range n).filterMap l.sector).dedup, ∃ i, i < n ∧ l.sector i = some k := by
    intro k hk
    simpa using hk
  have key : ∀ (c : List (Nat × Nat)) (ks : List Nat) (t : State), (∀ k ∈ ks, ∃ i, i < n ∧ l.sector i = some k) →
      Noted a.agent s t → Noted a.agent s (ks.foldl (fun s sec => s.noteSector a l va n write c sec) t) := by
    intro c ks
    induction ks with
    | nil => intro t _ ht; exact ht
    | cons k ks ih =>
      intro t hk ht
      rw [List.foldl_cons]
      refine ih _ (fun q hq => hk q (List.mem_cons_of_mem _ hq)) (ht.trans (noteSector_alone fun y hy => ?_))
      obtain ⟨i, hi, hs⟩ := hk k (List.mem_cons_self ..)
      rcases ht.sect k y hy with h1 | h1
      · exact .inl h1
      · exact h i hi k hs y h1
  unfold State.noteAccess
  dsimp only
  have hk := (key (s.accClock a) _ s hsec (.refl _ s)).trans (noteOrder_noted _ a.agent l n (if write then .write else .read))
  split
  · exact hk.trans (seeBytes_noted ..)
  · exact hk.trans (seeHome_noted ..)

/-- What the parts of a read leave behind where they conflict with no other agent's (R281). -/
theorem noteParts_alone {s u : State} {go : List (Nat × Nat × List Piece)} {l : Nat} (hg : u.gid = s.gid)
    (h : Alone s go false) (hs : Noted s.gid s u) : ∀ ps : List Piece, (∀ p ∈ ps, ∃ x ∈ partsOf go, x.2.2 = p) →
    Noted s.gid s (u.noteParts l ps) := by
  intro ps
  induction ps generalizing u with
  | nil => intro _; exact hs
  | cons p ps ih =>
    intro hp
    obtain ⟨x, hx, rfl⟩ := hp p (List.mem_cons_self ..)
    have key : ∀ v : State, Noted u.gid u v → Noted s.gid s (v.noteParts l ps) := fun v hv => by
      rw [hg] at hv
      exact ih (u := v) (by rw [hv.only]; exact hg) (hs.trans hv) (fun q hq => hp q (List.mem_cons_of_mem _ hq))
    unfold State.noteParts at key ⊢
    rw [List.foldl_cons]
    refine key _ ?_
    split
    · exact (orderRead_noted ..).trans (seeCopy_noted ..)
    · split
      · exact (noteOrder_noted ..).trans (seeHome_noted ..)
      · refine noteAccess_alone (a := u.accessor l) fun i hi k hk y hy => ?_
        rcases hs.sect k y hy with h1 | h1
        · left; simpa [State.accessor, hg] using h1
        · simpa [State.accessor, hg] using h x hx i hi k hk y h1

end Sys2Proof.Machine
end

