-- ==== Sys2Proof/Laws/PerInstr.lean ====
section
/-! SUPPORT. Instruction by instruction: the meaning of an encoded word is its record, as `infoOf` gives it, followed by
its effect. A step of another agent has no encoding. -/

namespace Sys2Proof.Laws.Issued

open Sys2Proof.Machine

/-- The form of the meaning of an encoded instruction. -/
def Statement (i : Instr) : Prop :=
  (encodeFields i).isSome = true → ∀ s, ∃ body : State → State, exec i s = issued (infoOf i) s body

theorem powerOnBoot : Statement (.powerOnBoot) := fun h => nomatch h
theorem coreReset (u : Nat) : Statement (.coreReset u) := fun h => nomatch h
theorem run : Statement (.run) := fun h => nomatch h
theorem quarterIssue (u : Nat) : Statement (.quarterIssue u) := fun h => nomatch h
theorem rotationQuantum (g : Nat) : Statement (.rotationQuantum g) := fun h => nomatch h
theorem loadComplete (g : Nat) (k : Nat) : Statement (.loadComplete g k) := fun h => nomatch h
theorem storeAck (k : Nat) : Statement (.storeAck k) := fun h => nomatch h
theorem joinRelease (g : Nat) : Statement (.joinRelease g) := fun h => nomatch h
theorem groupFinish (g : Nat) : Statement (.groupFinish g) := fun h => nomatch h
theorem teamRetire (t : Nat) : Statement (.teamRetire t) := fun h => nomatch h
theorem queueDoorbell (p : Nat) (q : Nat) (v : BitVec 32) : Statement (.queueDoorbell p q v) := fun h => nomatch h
theorem recordAccept (p : Nat) (q : Nat) : Statement (.recordAccept p q) := fun h => nomatch h
theorem teamPlace (gr : Nat) : Statement (.teamPlace gr) := fun h => nomatch h
theorem depWeirObserve (gr : Nat) : Statement (.depWeirObserve gr) := fun h => nomatch h
theorem thermalMigration (d : Nat) : Statement (.thermalMigration d) := fun h => nomatch h
theorem placementWindowInstall (p : Nat) (v : BitVec 32) : Statement (.placementWindowInstall p v) := fun h => nomatch h
theorem l2LineEvict (a : Nat) (w : Nat) (ln : Nat) : Statement (.l2LineEvict a w ln) := fun h => nomatch h
theorem fadeTick : Statement (.fadeTick) := fun h => nomatch h
theorem l2Miss (r : Nat) : Statement (.l2Miss r) := fun h => nomatch h
theorem fillDataLand (st : Nat) (f : Nat) : Statement (.fillDataLand st f) := fun h => nomatch h
theorem tableInvalidation (k : Nat) (st : Nat) : Statement (.tableInvalidation k st) := fun h => nomatch h
theorem cowBreak (r : Nat) : Statement (.cowBreak r) := fun h => nomatch h
theorem prefetch (a : Nat) (w : Nat) (rg : Nat) : Statement (.prefetch a w rg) := fun h => nomatch h
theorem watermarkPublish (d : Nat) : Statement (.watermarkPublish d) := fun h => nomatch h
theorem signatureSweep (d : Nat) : Statement (.signatureSweep d) := fun h => nomatch h
theorem ownershipRequest (k : Nat) : Statement (.ownershipRequest k) := fun h => nomatch h
theorem damGrant (g : Nat) : Statement (.damGrant g) := fun h => nomatch h
theorem damLeaseExpiry (k : Nat) : Statement (.damLeaseExpiry k) := fun h => nomatch h
theorem rfarDrain (c : Nat) (q : Nat) : Statement (.rfarDrain c q) := fun h => nomatch h
theorem rfarStage (k : Nat) : Statement (.rfarStage k) := fun h => nomatch h
theorem epochClose (e : Nat) : Statement (.epochClose e) := fun h => nomatch h
theorem sliceFold (e : Nat) (sl : Nat) : Statement (.sliceFold e sl) := fun h => nomatch h
theorem weirWaitEnd (g : Nat) : Statement (.weirWaitEnd g) := fun h => nomatch h
theorem copyResolve (c : Nat) (x : Nat) : Statement (.copyResolve c x) := fun h => nomatch h
theorem copyPiece (c : Nat) (x : Nat) (b : Nat) : Statement (.copyPiece c x b) := fun h => nomatch h
theorem muCommandPerform (c : Nat) (q : Nat) : Statement (.muCommandPerform c q) := fun h => nomatch h
theorem codebookSwitch (c : Nat) : Statement (.codebookSwitch c) := fun h => nomatch h
theorem nvmeCompletion (k : Nat) (st : BitVec 16) : Statement (.nvmeCompletion k st) := fun h => nomatch h
theorem nvmeTimeout (k : Nat) : Statement (.nvmeTimeout k) := fun h => nomatch h
theorem flashSwapOut (t : Nat) : Statement (.flashSwapOut t) := fun h => nomatch h
theorem pagerReply (k : Nat) : Statement (.pagerReply k) := fun h => nomatch h
theorem pagerReplyTimeout (k : Nat) : Statement (.pagerReplyTimeout k) := fun h => nomatch h
theorem replayRestart (gr : Nat) : Statement (.replayRestart gr) := fun h => nomatch h
theorem teamSave (t : Nat) : Statement (.teamSave t) := fun h => nomatch h
theorem teamResume (t : Nat) : Statement (.teamResume t) := fun h => nomatch h
theorem ctxBaseWrite (t : Nat) (v : BitVec 64) : Statement (.ctxBaseWrite t v) := fun h => nomatch h
theorem ctxAreaReady (t : Nat) : Statement (.ctxAreaReady t) := fun h => nomatch h
theorem gangMapChange (gr : Nat) (gg : Nat) : Statement (.gangMapChange gr gg) := fun h => nomatch h
theorem viewTagFree (a : Nat) (w : Nat) : Statement (.viewTagFree a w) := fun h => nomatch h
theorem dieLoss (d : Nat) : Statement (.dieLoss d) := fun h => nomatch h
theorem baseTileLoss (t : Nat) : Statement (.baseTileLoss t) := fun h => nomatch h
theorem dieClkClear (d : Nat) : Statement (.dieClkClear d) := fun h => nomatch h
theorem hostSnoop (p : Nat) (a : Nat) (inv : Bool) : Statement (.hostSnoop p a inv) := fun h => nomatch h
theorem portFill (p : Nat) (a : Nat) (tag : Nat) : Statement (.portFill p a tag) := fun h => nomatch h
theorem portCacheEvict (p : Nat) (a : Nat) : Statement (.portCacheEvict p a) := fun h => nomatch h
theorem leaseExpiry (i : Nat) : Statement (.leaseExpiry i) := fun h => nomatch h
theorem leaseRevoke (i : Nat) : Statement (.leaseRevoke i) := fun h => nomatch h
theorem leaseDrainDone (i : Nat) : Statement (.leaseDrainDone i) := fun h => nomatch h
theorem leaseFail (i : Nat) : Statement (.leaseFail i) := fun h => nomatch h
theorem bisnp (dev : Nat) (a : Nat) (n : Nat) : Statement (.bisnp dev a n) := fun h => nomatch h
theorem peerAccess (imp : Nat) (x : Nat) (off : Nat) (op : PeerOp) : Statement (.peerAccess imp x off op) := fun h => nomatch h
theorem peerRetry (k : Nat) : Statement (.peerRetry k) := fun h => nomatch h
theorem polderConfigWrite (p : Nat) (v : BitVec 64) : Statement (.polderConfigWrite p v) := fun h => nomatch h
theorem queueControlWrite (p : Nat) (q : Nat) (v : BitVec 32) : Statement (.queueControlWrite p q v) := fun h => nomatch h
theorem keyLoad (k : Nat) : Statement (.keyLoad k) := fun h => nomatch h
theorem keyClear (k : Nat) : Statement (.keyClear k) := fun h => nomatch h
theorem keyUpdateDone (k : Nat) : Statement (.keyUpdateDone k) := fun h => nomatch h
theorem attestation (a : BitVec 64) : Statement (.attestation a) := fun h => nomatch h
theorem pagerWake (t : Nat) : Statement (.pagerWake t) := fun h => nomatch h
theorem tmcWake (t : Nat) (cause : Nat) : Statement (.tmcWake t cause) := fun h => nomatch h
theorem tileHeartbeat (t : Nat) (wr : Nat) : Statement (.tileHeartbeat t wr) := fun h => nomatch h
theorem tileRateSet (t : Nat) (wr : Nat) (rate : Nat) : Statement (.tileRateSet t wr rate) := fun h => nomatch h
theorem tileTake (t : Nat) (wr : Nat) : Statement (.tileTake t wr) := fun h => nomatch h
theorem heartbeatMiss (t : Nat) : Statement (.heartbeatMiss t) := fun h => nomatch h
theorem takeoverTimeout (t : Nat) : Statement (.takeoverTimeout t) := fun h => nomatch h
theorem throttle (d : Nat) : Statement (.throttle d) := fun h => nomatch h
theorem throttleEnd (d : Nat) : Statement (.throttleEnd d) := fun h => nomatch h
theorem powerClockStep (up : Bool) : Statement (.powerClockStep up) := fun h => nomatch h
theorem refresh (t : Nat) : Statement (.refresh t) := fun h => nomatch h
theorem mgmtRegisterWrite (off : Nat) (n : Nat) (v : BitVec 64) (w : Writer) : Statement (.mgmtRegisterWrite off n v w) := fun h => nomatch h
theorem deviceReset : Statement (.deviceReset) := fun h => nomatch h
theorem portLinkDown (p : Nat) : Statement (.portLinkDown p) := fun h => nomatch h
theorem spillwayWriteBackDone (k : Nat) (ok : Bool) : Statement (.spillwayWriteBackDone k ok) := fun h => nomatch h
theorem shadowBankDrainDone (c : Nat) : Statement (.shadowBankDrainDone c) := fun h => nomatch h
theorem prConsWrite (t : Nat) (v : BitVec 32) : Statement (.prConsWrite t v) := fun h => nomatch h
theorem cowResvWrite (t : Nat) (st : Nat) (v : BitVec 32) : Statement (.cowResvWrite t st v) := fun h => nomatch h
theorem nop : Statement (.nop) :=
  fun _ s => ⟨_, (show execNop s = issued (inf0 .s) s _ from rfl)⟩
theorem pblk (p : BitVec 3) (l : BitVec 3) (t : BitVec 8) : Statement (.pblk p l t) :=
  fun _ s => ⟨_, (show execPblk p l t s = issued (infPblk p) s _ from rfl)⟩
theorem addI64 (d : BitVec 7) (a : BitVec 7) (b : BitVec 7) : Statement (.addI64 d a b) :=
  fun _ s => ⟨_, (show execAddI64 d a b s = issued (infS3 d a b) s _ from rfl)⟩
theorem subI64 (d : BitVec 7) (a : BitVec 7) (b : BitVec 7) : Statement (.subI64 d a b) :=
  fun _ s => ⟨_, (show execSubI64 d a b s = issued (infS3 d a b) s _ from rfl)⟩
theorem andB64 (d : BitVec 7) (a : BitVec 7) (b : BitVec 7) : Statement (.andB64 d a b) :=
  fun _ s => ⟨_, (show execAndB64 d a b s = issued (infS3 d a b) s _ from rfl)⟩
theorem orB64 (d : BitVec 7) (a : BitVec 7) (b : BitVec 7) : Statement (.orB64 d a b) :=
  fun _ s => ⟨_, (show execOrB64 d a b s = issued (infS3 d a b) s _ from rfl)⟩
theorem xorB64 (d : BitVec 7) (a : BitVec 7) (b : BitVec 7) : Statement (.xorB64 d a b) :=
  fun _ s => ⟨_, (show execXorB64 d a b s = issued (infS3 d a b) s _ from rfl)⟩
theorem andnB64 (d : BitVec 7) (a : BitVec 7) (b : BitVec 7) : Statement (.andnB64 d a b) :=
  fun _ s => ⟨_, (show execAndnB64 d a b s = issued (infS3 d a b) s _ from rfl)⟩
theorem sllB64 (d : BitVec 7) (a : BitVec 7) (b : BitVec 7) : Statement (.sllB64 d a b) :=
  fun _ s => ⟨_, (show execSllB64 d a b s = issued (infS3 d a b) s _ from rfl)⟩
theorem srlB64 (d : BitVec 7) (a : BitVec 7) (b : BitVec 7) : Statement (.srlB64 d a b) :=
  fun _ s => ⟨_, (show execSrlB64 d a b s = issued (infS3 d a b) s _ from rfl)⟩
theorem sraB64 (d : BitVec 7) (a : BitVec 7) (b : BitVec 7) : Statement (.sraB64 d a b) :=
  fun _ s => ⟨_, (show execSraB64 d a b s = issued (infS3 d a b) s _ from rfl)⟩
theorem rorB64 (d : BitVec 7) (a : BitVec 7) (b : BitVec 7) : Statement (.rorB64 d a b) :=
  fun _ s => ⟨_, (show execRorB64 d a b s = issued (infS3 d a b) s _ from rfl)⟩
theorem minI64 (d : BitVec 7) (a : BitVec 7) (b : BitVec 7) : Statement (.minI64 d a b) :=
  fun _ s => ⟨_, (show execMinI64 d a b s = issued (infS3 d a b) s _ from rfl)⟩
theorem maxI64 (d : BitVec 7) (a : BitVec 7) (b : BitVec 7) : Statement (.maxI64 d a b) :=
  fun _ s => ⟨_, (show execMaxI64 d a b s = issued (infS3 d a b) s _ from rfl)⟩
theorem minN64 (d : BitVec 7) (a : BitVec 7) (b : BitVec 7) : Statement (.minN64 d a b) :=
  fun _ s => ⟨_, (show execMinN64 d a b s = issued (infS3 d a b) s _ from rfl)⟩
theorem maxN64 (d : BitVec 7) (a : BitVec 7) (b : BitVec 7) : Statement (.maxN64 d a b) :=
  fun _ s => ⟨_, (show execMaxN64 d a b s = issued (infS3 d a b) s _ from rfl)⟩
theorem addI32Scalar (d : BitVec 7) (a : BitVec 7) (b : BitVec 7) : Statement (.addI32Scalar d a b) :=
  fun _ s => ⟨_, (show execAddI32Scalar d a b s = issued (infS3 d a b) s _ from rfl)⟩
theorem subI32Scalar (d : BitVec 7) (a : BitVec 7) (b : BitVec 7) : Statement (.subI32Scalar d a b) :=
  fun _ s => ⟨_, (show execSubI32Scalar d a b s = issued (infS3 d a b) s _ from rfl)⟩
theorem addI64Imm (d : BitVec 7) (a : BitVec 7) (i : Imm) : Statement (.addI64Imm d a i) :=
  fun _ s => ⟨_, (show execAddI64Imm d a i s = issued (infS2 d a) s _ from rfl)⟩
theorem andB64Imm (d : BitVec 7) (a : BitVec 7) (i : Imm) : Statement (.andB64Imm d a i) :=
  fun _ s => ⟨_, (show execAndB64Imm d a i s = issued (infS2 d a) s _ from rfl)⟩
theorem orB64Imm (d : BitVec 7) (a : BitVec 7) (i : Imm) : Statement (.orB64Imm d a i) :=
  fun _ s => ⟨_, (show execOrB64Imm d a i s = issued (infS2 d a) s _ from rfl)⟩
theorem xorB64Imm (d : BitVec 7) (a : BitVec 7) (i : Imm) : Statement (.xorB64Imm d a i) :=
  fun _ s => ⟨_, (show execXorB64Imm d a i s = issued (infS2 d a) s _ from rfl)⟩
theorem sllB64Imm (d : BitVec 7) (a : BitVec 7) (n : BitVec 6) (_lit : Bool) : Statement (.sllB64Imm d a n _lit) :=
  fun _ s => ⟨_, (show execSllB64Imm d a n _lit s = issued (infS2 d a) s _ from rfl)⟩
theorem srlB64Imm (d : BitVec 7) (a : BitVec 7) (n : BitVec 6) (_lit : Bool) : Statement (.srlB64Imm d a n _lit) :=
  fun _ s => ⟨_, (show execSrlB64Imm d a n _lit s = issued (infS2 d a) s _ from rfl)⟩
theorem sraB64Imm (d : BitVec 7) (a : BitVec 7) (n : BitVec 6) (_lit : Bool) : Statement (.sraB64Imm d a n _lit) :=
  fun _ s => ⟨_, (show execSraB64Imm d a n _lit s = issued (infS2 d a) s _ from rfl)⟩
theorem rorB64Imm (d : BitVec 7) (a : BitVec 7) (n : BitVec 6) (_lit : Bool) : Statement (.rorB64Imm d a n _lit) :=
  fun _ s => ⟨_, (show execRorB64Imm d a n _lit s = issued (infS2 d a) s _ from rfl)⟩
theorem scalarCompare (p : BitVec 3) (a : BitVec 7) (b : BitVec 7) (k : BitVec 4) : Statement (.scalarCompare p a b k) :=
  fun _ s => ⟨_, (show execScalarCompare p a b k s = issued (infSP p a b) s _ from rfl)⟩
theorem scalarCompareImm (k : BitVec 4) (p : BitVec 3) (a : BitVec 7) (i : Imm) : Statement (.scalarCompareImm k p a i) :=
  fun _ s => ⟨_, (show execScalarCompareImm k p a i s = issued (infSPI p a) s _ from rfl)⟩
theorem pand (d : BitVec 3) (a : BitVec 3) (b : BitVec 3) : Statement (.pand d a b) :=
  fun _ s => ⟨_, (show execPand d a b s = issued (infP3 d a b) s _ from rfl)⟩
theorem por (d : BitVec 3) (a : BitVec 3) (b : BitVec 3) : Statement (.por d a b) :=
  fun _ s => ⟨_, (show execPor d a b s = issued (infP3 d a b) s _ from rfl)⟩
theorem pxor (d : BitVec 3) (a : BitVec 3) (b : BitVec 3) : Statement (.pxor d a b) :=
  fun _ s => ⟨_, (show execPxor d a b s = issued (infP3 d a b) s _ from rfl)⟩
theorem pandn (d : BitVec 3) (a : BitVec 3) (b : BitVec 3) : Statement (.pandn d a b) :=
  fun _ s => ⟨_, (show execPandn d a b s = issued (infP3 d a b) s _ from rfl)⟩
theorem mulI64 (d : BitVec 7) (a : BitVec 7) (b : BitVec 7) : Statement (.mulI64 d a b) :=
  fun _ s => ⟨_, (show execMulI64 d a b s = issued (infS3 d a b) s _ from rfl)⟩
theorem mulhI64 (d : BitVec 7) (a : BitVec 7) (b : BitVec 7) : Statement (.mulhI64 d a b) :=
  fun _ s => ⟨_, (show execMulhI64 d a b s = issued (infS3 d a b) s _ from rfl)⟩
theorem mulhN64 (d : BitVec 7) (a : BitVec 7) (b : BitVec 7) : Statement (.mulhN64 d a b) :=
  fun _ s => ⟨_, (show execMulhN64 d a b s = issued (infS3 d a b) s _ from rfl)⟩
theorem divI64 (d : BitVec 7) (a : BitVec 7) (b : BitVec 7) : Statement (.divI64 d a b) :=
  fun _ s => ⟨_, (show execDivI64 d a b s = issued (infS3 d a b) s _ from rfl)⟩
theorem divN64 (d : BitVec 7) (a : BitVec 7) (b : BitVec 7) : Statement (.divN64 d a b) :=
  fun _ s => ⟨_, (show execDivN64 d a b s = issued (infS3 d a b) s _ from rfl)⟩
theorem remI64 (d : BitVec 7) (a : BitVec 7) (b : BitVec 7) : Statement (.remI64 d a b) :=
  fun _ s => ⟨_, (show execRemI64 d a b s = issued (infS3 d a b) s _ from rfl)⟩
theorem remN64 (d : BitVec 7) (a : BitVec 7) (b : BitVec 7) : Statement (.remN64 d a b) :=
  fun _ s => ⟨_, (show execRemN64 d a b s = issued (infS3 d a b) s _ from rfl)⟩
theorem lea2B64 (d : BitVec 7) (a : BitVec 7) (b : BitVec 7) : Statement (.lea2B64 d a b) :=
  fun _ s => ⟨_, (show execLea2B64 d a b s = issued (infS3 d a b) s _ from rfl)⟩
theorem lea4B64 (d : BitVec 7) (a : BitVec 7) (b : BitVec 7) : Statement (.lea4B64 d a b) :=
  fun _ s => ⟨_, (show execLea4B64 d a b s = issued (infS3 d a b) s _ from rfl)⟩
theorem lea8B64 (d : BitVec 7) (a : BitVec 7) (b : BitVec 7) : Statement (.lea8B64 d a b) :=
  fun _ s => ⟨_, (show execLea8B64 d a b s = issued (infS3 d a b) s _ from rfl)⟩
theorem lea16B64 (d : BitVec 7) (a : BitVec 7) (b : BitVec 7) : Statement (.lea16B64 d a b) :=
  fun _ s => ⟨_, (show execLea16B64 d a b s = issued (infS3 d a b) s _ from rfl)⟩
theorem packB64 (d : BitVec 7) (a : BitVec 7) (b : BitVec 7) : Statement (.packB64 d a b) :=
  fun _ s => ⟨_, (show execPackB64 d a b s = issued (infS3 d a b) s _ from rfl)⟩
theorem popcB64 (d : BitVec 7) (a : BitVec 7) : Statement (.popcB64 d a) :=
  fun _ s => ⟨_, (show execPopcB64 d a s = issued (infS2 d a) s _ from rfl)⟩
theorem clzB64 (d : BitVec 7) (a : BitVec 7) : Statement (.clzB64 d a) :=
  fun _ s => ⟨_, (show execClzB64 d a s = issued (infS2 d a) s _ from rfl)⟩
theorem ctzB64 (d : BitVec 7) (a : BitVec 7) : Statement (.ctzB64 d a) :=
  fun _ s => ⟨_, (show execCtzB64 d a s = issued (infS2 d a) s _ from rfl)⟩
theorem brevB64 (d : BitVec 7) (a : BitVec 7) : Statement (.brevB64 d a) :=
  fun _ s => ⟨_, (show execBrevB64 d a s = issued (infS2 d a) s _ from rfl)⟩
theorem bswapB64 (d : BitVec 7) (a : BitVec 7) : Statement (.bswapB64 d a) :=
  fun _ s => ⟨_, (show execBswapB64 d a s = issued (infS2 d a) s _ from rfl)⟩
theorem bextN64 (d : BitVec 7) (a : BitVec 7) (b : BitVec 7) : Statement (.bextN64 d a b) :=
  fun _ s => ⟨_, (show execBextN64 d a b s = issued (infS3 d a b) s _ from rfl)⟩
theorem bextI64 (d : BitVec 7) (a : BitVec 7) (b : BitVec 7) : Statement (.bextI64 d a b) :=
  fun _ s => ⟨_, (show execBextI64 d a b s = issued (infS3 d a b) s _ from rfl)⟩
theorem binsB64 (d : BitVec 7) (a : BitVec 7) (b : BitVec 7) : Statement (.binsB64 d a b) :=
  fun _ s => ⟨_, (show execBinsB64 d a b s = issued (infS4 d a b) s _ from rfl)⟩
theorem movI64 (d : BitVec 7) (i : Imm) : Statement (.movI64 d i) :=
  fun _ s => ⟨_, (show execMovI64 d i s = issued (infSD d) s _ from rfl)⟩
theorem br (p : BitVec 3) (n : BitVec 1) (d : BitVec 19) (x : BitVec 2) : Statement (.br p n d x) :=
  fun _ s => ⟨_, (show execBr p n d x s = issued (infBr p) s _ from rfl)⟩
theorem jr (a : BitVec 7) : Statement (.jr a) :=
  fun _ s => ⟨_, (show execJr a s = issued (infJr a) s _ from rfl)⟩
theorem call (d : BitVec 7) (a : BitVec 7) : Statement (.call d a) :=
  fun _ s => ⟨_, (show execCall d a s = issued (infCall d a) s _ from rfl)⟩
theorem ret (a : BitVec 7) : Statement (.ret a) :=
  fun _ s => ⟨_, (show execRet a s = issued (infJr a) s _ from rfl)⟩
theorem mrd (d : BitVec 7) (i : Imm) : Statement (.mrd d i) :=
  fun _ s => ⟨_, (show execMrd d i s = issued (infMrd d i) s _ from rfl)⟩
theorem mwr (a : BitVec 7) (i : Imm) : Statement (.mwr a i) :=
  fun _ s => ⟨_, (show execMwr a i s = issued (infMwr a i) s _ from rfl)⟩
theorem wait (l : BitVec 6) (x : BitVec 6) (p : BitVec 4) (m : BitVec 4) : Statement (.wait l x p m) :=
  fun _ s => ⟨_, (show execWait l x p m s = issued (inf0 .s) s _ from rfl)⟩
theorem ifence : Statement (.ifence) :=
  fun _ s => ⟨_, (show execIfence s = issued (inf0 .s) s _ from rfl)⟩
theorem rdcyc (d : BitVec 7) : Statement (.rdcyc d) :=
  fun _ s => ⟨_, (show execRdcyc d s = issued (infClock d) s _ from rfl)⟩
theorem rdtime (d : BitVec 7) : Statement (.rdtime d) :=
  fun _ s => ⟨_, (show execRdtime d s = issued (infClock d) s _ from rfl)⟩
theorem exit : Statement (.exit) :=
  fun _ s => ⟨_, (show execExit s = issued { pipe := .s, control := true } s _ from rfl)⟩
theorem yield : Statement (.yield) :=
  fun _ s => ⟨_, (show execYield s = issued { pipe := .s, base := false } s _ from rfl)⟩
theorem tbar (a : BitVec 7) : Statement (.tbar a) :=
  fun _ s => ⟨_, (show execTbar a s = issued (infTbar a) s _ from rfl)⟩
theorem join : Statement (.join) :=
  fun _ s => ⟨_, (show execJoin s = issued { pipe := .s, base := false } s _ from rfl)⟩
theorem idrScalar (d : BitVec 7) (a : BitVec 7) : Statement (.idrScalar d a) :=
  fun _ s => ⟨_, (show execIdrScalar d a s = issued (infIdrS d) s _ from rfl)⟩
theorem idrLane (d : BitVec 7) (a : BitVec 7) : Statement (.idrLane d a) :=
  fun _ s => ⟨_, (show execIdrLane d a s = issued (infIdrV d) s _ from rfl)⟩
theorem launch (d : BitVec 7) (a : BitVec 7) : Statement (.launch d a) :=
  fun _ s => ⟨_, (show execLaunch d a s = issued (infLaunch d a) s _ from rfl)⟩
theorem kput (d : BitVec 3) (a : BitVec 7) : Statement (.kput d a) :=
  fun _ s => ⟨_, (show execKput d a s = issued (infKput d a) s _ from rfl)⟩
theorem kget (d : BitVec 7) (a : BitVec 3) : Statement (.kget d a) :=
  fun _ s => ⟨_, (show execKget d a s = issued (infKget d a) s _ from rfl)⟩
theorem brk (k : BitVec 6) : Statement (.brk k) :=
  fun _ s => ⟨_, (show execBrk k s = issued { pipe := .s, base := false } s _ from rfl)⟩
theorem dbgHalt (d : BitVec 7) (a : BitVec 7) : Statement (.dbgHalt d a) :=
  fun _ s => ⟨_, (show execDbgHalt d a s = issued (infDbg d a false) s _ from rfl)⟩
theorem dbgResume (d : BitVec 7) (a : BitVec 7) : Statement (.dbgResume d a) :=
  fun _ s => ⟨_, (show execDbgResume d a s = issued (infDbg d a false) s _ from rfl)⟩
theorem dbgStep (d : BitVec 7) (a : BitVec 7) : Statement (.dbgStep d a) :=
  fun _ s => ⟨_, (show execDbgStep d a s = issued (infDbg d a false) s _ from rfl)⟩
theorem dbgRdpc (d : BitVec 7) (a : BitVec 7) : Statement (.dbgRdpc d a) :=
  fun _ s => ⟨_, (show execDbgRdpc d a s = issued (infDbg d a false) s _ from rfl)⟩
theorem dbgWatch (d : BitVec 7) (a : BitVec 7) : Statement (.dbgWatch d a) :=
  fun _ s => ⟨_, (show execDbgWatch d a s = issued (infDbg d a true) s _ from rfl)⟩
theorem dbgHalted (d : BitVec 7) (a : BitVec 7) : Statement (.dbgHalted d a) :=
  fun _ s => ⟨_, (show execDbgHalted d a s = issued (infDbg d a false) s _ from rfl)⟩
theorem tret : Statement (.tret) :=
  fun _ s => ⟨_, (show execTret s = issued infTret s _ from rfl)⟩
theorem tretSkip : Statement (.tretSkip) :=
  fun _ s => ⟨_, (show execTretSkip s = issued infTret s _ from rfl)⟩
theorem tretExit : Statement (.tretExit) :=
  fun _ s => ⟨_, (show execTretExit s = issued infTret s _ from rfl)⟩
theorem tretTo (a : BitVec 7) : Statement (.tretTo a) :=
  fun _ s => ⟨_, (show execTretTo a s = issued (infTretTo a) s _ from rfl)⟩
theorem addI32 (d : BitVec 7) (a : BitVec 7) (b : BitVec 7) : Statement (.addI32 d a b) :=
  fun _ s => ⟨_, (show execAddI32 d a b s = issued (infV3 .v 1 1 1 d a b) s _ from rfl)⟩
theorem subI32 (d : BitVec 7) (a : BitVec 7) (b : BitVec 7) : Statement (.subI32 d a b) :=
  fun _ s => ⟨_, (show execSubI32 d a b s = issued (infV3 .v 1 1 1 d a b) s _ from rfl)⟩
theorem andB32 (d : BitVec 7) (a : BitVec 7) (b : BitVec 7) : Statement (.andB32 d a b) :=
  fun _ s => ⟨_, (show execAndB32 d a b s = issued (infV3 .v 1 1 1 d a b) s _ from rfl)⟩
theorem orB32 (d : BitVec 7) (a : BitVec 7) (b : BitVec 7) : Statement (.orB32 d a b) :=
  fun _ s => ⟨_, (show execOrB32 d a b s = issued (infV3 .v 1 1 1 d a b) s _ from rfl)⟩
theorem xorB32 (d : BitVec 7) (a : BitVec 7) (b : BitVec 7) : Statement (.xorB32 d a b) :=
  fun _ s => ⟨_, (show execXorB32 d a b s = issued (infV3 .v 1 1 1 d a b) s _ from rfl)⟩
theorem andnB32 (d : BitVec 7) (a : BitVec 7) (b : BitVec 7) : Statement (.andnB32 d a b) :=
  fun _ s => ⟨_, (show execAndnB32 d a b s = issued (infV3 .v 1 1 1 d a b) s _ from rfl)⟩
theorem sllB32 (d : BitVec 7) (a : BitVec 7) (b : BitVec 7) : Statement (.sllB32 d a b) :=
  fun _ s => ⟨_, (show execSllB32 d a b s = issued (infV3 .v 1 1 1 d a b) s _ from rfl)⟩
theorem srlB32 (d : BitVec 7) (a : BitVec 7) (b : BitVec 7) : Statement (.srlB32 d a b) :=
  fun _ s => ⟨_, (show execSrlB32 d a b s = issued (infV3 .v 1 1 1 d a b) s _ from rfl)⟩
theorem sraB32 (d : BitVec 7) (a : BitVec 7) (b : BitVec 7) : Statement (.sraB32 d a b) :=
  fun _ s => ⟨_, (show execSraB32 d a b s = issued (infV3 .v 1 1 1 d a b) s _ from rfl)⟩
theorem minI32 (d : BitVec 7) (a : BitVec 7) (b : BitVec 7) : Statement (.minI32 d a b) :=
  fun _ s => ⟨_, (show execMinI32 d a b s = issued (infV3 .v 1 1 1 d a b) s _ from rfl)⟩
theorem maxI32 (d : BitVec 7) (a : BitVec 7) (b : BitVec 7) : Statement (.maxI32 d a b) :=
  fun _ s => ⟨_, (show execMaxI32 d a b s = issued (infV3 .v 1 1 1 d a b) s _ from rfl)⟩
theorem minN32 (d : BitVec 7) (a : BitVec 7) (b : BitVec 7) : Statement (.minN32 d a b) :=
  fun _ s => ⟨_, (show execMinN32 d a b s = issued (infV3 .v 1 1 1 d a b) s _ from rfl)⟩
theorem maxN32 (d : BitVec 7) (a : BitVec 7) (b : BitVec 7) : Statement (.maxN32 d a b) :=
  fun _ s => ⟨_, (show execMaxN32 d a b s = issued (infV3 .v 1 1 1 d a b) s _ from rfl)⟩
theorem addsI32 (d : BitVec 7) (a : BitVec 7) (b : BitVec 7) : Statement (.addsI32 d a b) :=
  fun _ s => ⟨_, (show execAddsI32 d a b s = issued (infV3 .v 1 1 1 d a b) s _ from rfl)⟩
theorem subsI32 (d : BitVec 7) (a : BitVec 7) (b : BitVec 7) : Statement (.subsI32 d a b) :=
  fun _ s => ⟨_, (show execSubsI32 d a b s = issued (infV3 .v 1 1 1 d a b) s _ from rfl)⟩
theorem selB32 (d : BitVec 7) (p : BitVec 3) (b : BitVec 7) : Statement (.selB32 d p b) :=
  fun _ s => ⟨_, (show execSelB32 d p b s = issued (infSel d p b) s _ from rfl)⟩
theorem addI32Imm (d : BitVec 7) (a : BitVec 7) (i : Imm) : Statement (.addI32Imm d a i) :=
  fun _ s => ⟨_, (show execAddI32Imm d a i s = issued (infV2 .v 1 1 d a) s _ from rfl)⟩
theorem andB32Imm (d : BitVec 7) (a : BitVec 7) (i : Imm) : Statement (.andB32Imm d a i) :=
  fun _ s => ⟨_, (show execAndB32Imm d a i s = issued (infV2 .v 1 1 d a) s _ from rfl)⟩
theorem orB32Imm (d : BitVec 7) (a : BitVec 7) (i : Imm) : Statement (.orB32Imm d a i) :=
  fun _ s => ⟨_, (show execOrB32Imm d a i s = issued (infV2 .v 1 1 d a) s _ from rfl)⟩
theorem xorB32Imm (d : BitVec 7) (a : BitVec 7) (i : Imm) : Statement (.xorB32Imm d a i) :=
  fun _ s => ⟨_, (show execXorB32Imm d a i s = issued (infV2 .v 1 1 d a) s _ from rfl)⟩
theorem sllB32Imm (d : BitVec 7) (a : BitVec 7) (n : BitVec 6) (_lit : Bool) : Statement (.sllB32Imm d a n _lit) :=
  fun _ s => ⟨_, (show execSllB32Imm d a n _lit s = issued (infV2 .v 1 1 d a) s _ from rfl)⟩
theorem srlB32Imm (d : BitVec 7) (a : BitVec 7) (n : BitVec 6) (_lit : Bool) : Statement (.srlB32Imm d a n _lit) :=
  fun _ s => ⟨_, (show execSrlB32Imm d a n _lit s = issued (infV2 .v 1 1 d a) s _ from rfl)⟩
theorem sraB32Imm (d : BitVec 7) (a : BitVec 7) (n : BitVec 6) (_lit : Bool) : Statement (.sraB32Imm d a n _lit) :=
  fun _ s => ⟨_, (show execSraB32Imm d a n _lit s = issued (infV2 .v 1 1 d a) s _ from rfl)⟩
theorem rorB32Imm (d : BitVec 7) (a : BitVec 7) (n : BitVec 6) (_lit : Bool) : Statement (.rorB32Imm d a n _lit) :=
  fun _ s => ⟨_, (show execRorB32Imm d a n _lit s = issued (infV2 .v 1 1 d a) s _ from rfl)⟩
theorem movB32Imm (d : BitVec 7) (i : Imm) : Statement (.movB32Imm d i) :=
  fun _ s => ⟨_, (show execMovB32Imm d i s = issued (infVD d) s _ from rfl)⟩
theorem mulB32 (d : BitVec 7) (a : BitVec 7) (b : BitVec 7) : Statement (.mulB32 d a b) :=
  fun _ s => ⟨_, (show execMulB32 d a b s = issued (infV3 .v 1 1 1 d a b) s _ from rfl)⟩
theorem mulhI32 (d : BitVec 7) (a : BitVec 7) (b : BitVec 7) : Statement (.mulhI32 d a b) :=
  fun _ s => ⟨_, (show execMulhI32 d a b s = issued (infV3 .v 1 1 1 d a b) s _ from rfl)⟩
theorem mulhN32 (d : BitVec 7) (a : BitVec 7) (b : BitVec 7) : Statement (.mulhN32 d a b) :=
  fun _ s => ⟨_, (show execMulhN32 d a b s = issued (infV3 .v 1 1 1 d a b) s _ from rfl)⟩
theorem madB32 (d : BitVec 7) (a : BitVec 7) (b : BitVec 7) : Statement (.madB32 d a b) :=
  fun _ s => ⟨_, (show execMadB32 d a b s = issued (infV4 .v 1 1 1 d a b) s _ from rfl)⟩
theorem divI32 (d : BitVec 7) (a : BitVec 7) (b : BitVec 7) : Statement (.divI32 d a b) :=
  fun _ s => ⟨_, (show execDivI32 d a b s = issued (infV3 .v 1 1 1 d a b) s _ from rfl)⟩
theorem divN32 (d : BitVec 7) (a : BitVec 7) (b : BitVec 7) : Statement (.divN32 d a b) :=
  fun _ s => ⟨_, (show execDivN32 d a b s = issued (infV3 .v 1 1 1 d a b) s _ from rfl)⟩
theorem remI32 (d : BitVec 7) (a : BitVec 7) (b : BitVec 7) : Statement (.remI32 d a b) :=
  fun _ s => ⟨_, (show execRemI32 d a b s = issued (infV3 .v 1 1 1 d a b) s _ from rfl)⟩
theorem remN32 (d : BitVec 7) (a : BitVec 7) (b : BitVec 7) : Statement (.remN32 d a b) :=
  fun _ s => ⟨_, (show execRemN32 d a b s = issued (infV3 .v 1 1 1 d a b) s _ from rfl)⟩
theorem mulwI32 (d : BitVec 7) (a : BitVec 7) (b : BitVec 7) : Statement (.mulwI32 d a b) :=
  fun _ s => ⟨_, (show execMulwI32 d a b s = issued (infV3 .v 2 1 1 d a b) s _ from rfl)⟩
theorem mulwN32 (d : BitVec 7) (a : BitVec 7) (b : BitVec 7) : Statement (.mulwN32 d a b) :=
  fun _ s => ⟨_, (show execMulwN32 d a b s = issued (infV3 .v 2 1 1 d a b) s _ from rfl)⟩
theorem madwN32 (d : BitVec 7) (a : BitVec 7) (b : BitVec 7) : Statement (.madwN32 d a b) :=
  fun _ s => ⟨_, (show execMadwN32 d a b s = issued (infV4 .v 2 1 1 d a b) s _ from rfl)⟩
theorem dp4I8 (d : BitVec 7) (a : BitVec 7) (b : BitVec 7) : Statement (.dp4I8 d a b) :=
  fun _ s => ⟨_, (show execDp4I8 d a b s = issued (infV4 .v 1 1 1 d a b) s _ from rfl)⟩
theorem dp4N8 (d : BitVec 7) (a : BitVec 7) (b : BitVec 7) : Statement (.dp4N8 d a b) :=
  fun _ s => ⟨_, (show execDp4N8 d a b s = issued (infV4 .v 1 1 1 d a b) s _ from rfl)⟩
theorem laneCompare (p : BitVec 3) (a : BitVec 7) (b : BitVec 7) (k : BitVec 4) : Statement (.laneCompare p a b k) :=
  fun _ s => ⟨_, (show execLaneCompare p a b k s = issued (infVP 1 p a b) s _ from rfl)⟩
theorem laneCompareImm (k : BitVec 4) (p : BitVec 3) (a : BitVec 7) (i : Imm) : Statement (.laneCompareImm k p a i) :=
  fun _ s => ⟨_, (show execLaneCompareImm k p a i s = issued (infVPI p a) s _ from rfl)⟩
theorem bcastB32 (d : BitVec 7) (a : BitVec 7) : Statement (.bcastB32 d a) :=
  fun _ s => ⟨_, (show execBcastB32 d a s = issued (infBcast 1 d a) s _ from rfl)⟩
theorem bcastB64 (d : BitVec 7) (a : BitVec 7) : Statement (.bcastB64 d a) :=
  fun _ s => ⟨_, (show execBcastB64 d a s = issued (infBcast 2 d a) s _ from rfl)⟩
theorem rdlN32 (d : BitVec 7) (a : BitVec 7) (b : BitVec 7) : Statement (.rdlN32 d a b) :=
  fun _ s => ⟨_, (show execRdlN32 d a b s = issued (infRdl 1 d a b) s _ from rfl)⟩
theorem rdlI32 (d : BitVec 7) (a : BitVec 7) (b : BitVec 7) : Statement (.rdlI32 d a b) :=
  fun _ s => ⟨_, (show execRdlI32 d a b s = issued (infRdl 1 d a b) s _ from rfl)⟩
theorem rdlB64 (d : BitVec 7) (a : BitVec 7) (b : BitVec 7) : Statement (.rdlB64 d a b) :=
  fun _ s => ⟨_, (show execRdlB64 d a b s = issued (infRdl 2 d a b) s _ from rfl)⟩
theorem wrlB32 (d : BitVec 7) (a : BitVec 7) (b : BitVec 7) : Statement (.wrlB32 d a b) :=
  fun _ s => ⟨_, (show execWrlB32 d a b s = issued (infWrl d a b) s _ from rfl)⟩
theorem movB32 (d : BitVec 7) (a : BitVec 7) : Statement (.movB32 d a) :=
  fun _ s => ⟨_, (show execMovB32 d a s = issued (infV2 .v 1 1 d a) s _ from rfl)⟩
theorem movB64 (d : BitVec 7) (a : BitVec 7) : Statement (.movB64 d a) :=
  fun _ s => ⟨_, (show execMovB64 d a s = issued (infV2 .v 2 2 d a) s _ from rfl)⟩
theorem pgetB32 (d : BitVec 7) (p : BitVec 3) : Statement (.pgetB32 d p) :=
  fun _ s => ⟨_, (show execPgetB32 d p s = issued (infPget d p) s _ from rfl)⟩
theorem popcB32 (d : BitVec 7) (a : BitVec 7) : Statement (.popcB32 d a) :=
  fun _ s => ⟨_, (show execPopcB32 d a s = issued (infV2 .v 1 1 d a) s _ from rfl)⟩
theorem clzB32 (d : BitVec 7) (a : BitVec 7) : Statement (.clzB32 d a) :=
  fun _ s => ⟨_, (show execClzB32 d a s = issued (infV2 .v 1 1 d a) s _ from rfl)⟩
theorem ctzB32 (d : BitVec 7) (a : BitVec 7) : Statement (.ctzB32 d a) :=
  fun _ s => ⟨_, (show execCtzB32 d a s = issued (infV2 .v 1 1 d a) s _ from rfl)⟩
theorem brevB32 (d : BitVec 7) (a : BitVec 7) : Statement (.brevB32 d a) :=
  fun _ s => ⟨_, (show execBrevB32 d a s = issued (infV2 .v 1 1 d a) s _ from rfl)⟩
theorem bswapB32 (d : BitVec 7) (a : BitVec 7) : Statement (.bswapB32 d a) :=
  fun _ s => ⟨_, (show execBswapB32 d a s = issued (infV2 .v 1 1 d a) s _ from rfl)⟩
theorem bextN32 (d : BitVec 7) (a : BitVec 7) (b : BitVec 7) : Statement (.bextN32 d a b) :=
  fun _ s => ⟨_, (show execBextN32 d a b s = issued (infV3 .v 1 1 1 d a b) s _ from rfl)⟩
theorem bextI32 (d : BitVec 7) (a : BitVec 7) (b : BitVec 7) : Statement (.bextI32 d a b) :=
  fun _ s => ⟨_, (show execBextI32 d a b s = issued (infV3 .v 1 1 1 d a b) s _ from rfl)⟩
theorem binsB32 (d : BitVec 7) (a : BitVec 7) (b : BitVec 7) : Statement (.binsB32 d a b) :=
  fun _ s => ⟨_, (show execBinsB32 d a b s = issued (infV4 .v 1 1 1 d a b) s _ from rfl)⟩
theorem addF32 (d : BitVec 7) (a : BitVec 7) (b : BitVec 7) : Statement (.addF32 d a b) :=
  fun _ s => ⟨_, (show execAddF32 d a b s = issued (infV3 .v 1 1 1 d a b) s _ from rfl)⟩
theorem subF32 (d : BitVec 7) (a : BitVec 7) (b : BitVec 7) : Statement (.subF32 d a b) :=
  fun _ s => ⟨_, (show execSubF32 d a b s = issued (infV3 .v 1 1 1 d a b) s _ from rfl)⟩
theorem mulF32 (d : BitVec 7) (a : BitVec 7) (b : BitVec 7) : Statement (.mulF32 d a b) :=
  fun _ s => ⟨_, (show execMulF32 d a b s = issued (infV3 .v 1 1 1 d a b) s _ from rfl)⟩
theorem divF32 (d : BitVec 7) (a : BitVec 7) (b : BitVec 7) : Statement (.divF32 d a b) :=
  fun _ s => ⟨_, (show execDivF32 d a b s = issued (infV3 .v 1 1 1 d a b) s _ from rfl)⟩
theorem sqrtF32 (d : BitVec 7) (a : BitVec 7) : Statement (.sqrtF32 d a) :=
  fun _ s => ⟨_, (show execSqrtF32 d a s = issued (infV2 .v 1 1 d a) s _ from rfl)⟩
theorem minF32 (d : BitVec 7) (a : BitVec 7) (b : BitVec 7) : Statement (.minF32 d a b) :=
  fun _ s => ⟨_, (show execMinF32 d a b s = issued (infV3 .v 1 1 1 d a b) s _ from rfl)⟩
theorem maxF32 (d : BitVec 7) (a : BitVec 7) (b : BitVec 7) : Statement (.maxF32 d a b) :=
  fun _ s => ⟨_, (show execMaxF32 d a b s = issued (infV3 .v 1 1 1 d a b) s _ from rfl)⟩
theorem minnF32 (d : BitVec 7) (a : BitVec 7) (b : BitVec 7) : Statement (.minnF32 d a b) :=
  fun _ s => ⟨_, (show execMinnF32 d a b s = issued (infV3 .v 1 1 1 d a b) s _ from rfl)⟩
theorem maxnF32 (d : BitVec 7) (a : BitVec 7) (b : BitVec 7) : Statement (.maxnF32 d a b) :=
  fun _ s => ⟨_, (show execMaxnF32 d a b s = issued (infV3 .v 1 1 1 d a b) s _ from rfl)⟩
theorem absF32 (d : BitVec 7) (a : BitVec 7) : Statement (.absF32 d a) :=
  fun _ s => ⟨_, (show execAbsF32 d a s = issued (infV2 .v 1 1 d a) s _ from rfl)⟩
theorem negF32 (d : BitVec 7) (a : BitVec 7) : Statement (.negF32 d a) :=
  fun _ s => ⟨_, (show execNegF32 d a s = issued (infV2 .v 1 1 d a) s _ from rfl)⟩
theorem csgnF32 (d : BitVec 7) (a : BitVec 7) (b : BitVec 7) : Statement (.csgnF32 d a b) :=
  fun _ s => ⟨_, (show execCsgnF32 d a b s = issued (infV3 .v 1 1 1 d a b) s _ from rfl)⟩
theorem classF32 (d : BitVec 7) (a : BitVec 7) : Statement (.classF32 d a) :=
  fun _ s => ⟨_, (show execClassF32 d a s = issued (infV2 .v 1 1 d a) s _ from rfl)⟩
theorem compareF32 (k : BitVec 4) (p : BitVec 3) (a : BitVec 7) (b : BitVec 7) : Statement (.compareF32 k p a b) :=
  fun _ s => ⟨_, (show execCompareF32 k p a b s = issued (infVP 1 p a b) s _ from rfl)⟩
theorem rintF32 (d : BitVec 7) (a : BitVec 7) (m : BitVec 3) : Statement (.rintF32 d a m) :=
  fun _ s => ⟨_, (show execRintF32 d a m s = issued (infV2 .v 1 1 d a) s _ from rfl)⟩
theorem sclF32 (d : BitVec 7) (a : BitVec 7) (b : BitVec 7) : Statement (.sclF32 d a b) :=
  fun _ s => ⟨_, (show execSclF32 d a b s = issued (infV3 .v 1 1 1 d a b) s _ from rfl)⟩
theorem addF64 (d : BitVec 7) (a : BitVec 7) (b : BitVec 7) : Statement (.addF64 d a b) :=
  fun _ s => ⟨_, (show execAddF64 d a b s = issued (infV3 .v 2 2 2 d a b) s _ from rfl)⟩
theorem subF64 (d : BitVec 7) (a : BitVec 7) (b : BitVec 7) : Statement (.subF64 d a b) :=
  fun _ s => ⟨_, (show execSubF64 d a b s = issued (infV3 .v 2 2 2 d a b) s _ from rfl)⟩
theorem mulF64 (d : BitVec 7) (a : BitVec 7) (b : BitVec 7) : Statement (.mulF64 d a b) :=
  fun _ s => ⟨_, (show execMulF64 d a b s = issued (infV3 .v 2 2 2 d a b) s _ from rfl)⟩
theorem divF64 (d : BitVec 7) (a : BitVec 7) (b : BitVec 7) : Statement (.divF64 d a b) :=
  fun _ s => ⟨_, (show execDivF64 d a b s = issued (infV3 .v 2 2 2 d a b) s _ from rfl)⟩
theorem sqrtF64 (d : BitVec 7) (a : BitVec 7) : Statement (.sqrtF64 d a) :=
  fun _ s => ⟨_, (show execSqrtF64 d a s = issued (infV2 .v 2 2 d a) s _ from rfl)⟩
theorem minF64 (d : BitVec 7) (a : BitVec 7) (b : BitVec 7) : Statement (.minF64 d a b) :=
  fun _ s => ⟨_, (show execMinF64 d a b s = issued (infV3 .v 2 2 2 d a b) s _ from rfl)⟩
theorem maxF64 (d : BitVec 7) (a : BitVec 7) (b : BitVec 7) : Statement (.maxF64 d a b) :=
  fun _ s => ⟨_, (show execMaxF64 d a b s = issued (infV3 .v 2 2 2 d a b) s _ from rfl)⟩
theorem minnF64 (d : BitVec 7) (a : BitVec 7) (b : BitVec 7) : Statement (.minnF64 d a b) :=
  fun _ s => ⟨_, (show execMinnF64 d a b s = issued (infV3 .v 2 2 2 d a b) s _ from rfl)⟩
theorem maxnF64 (d : BitVec 7) (a : BitVec 7) (b : BitVec 7) : Statement (.maxnF64 d a b) :=
  fun _ s => ⟨_, (show execMaxnF64 d a b s = issued (infV3 .v 2 2 2 d a b) s _ from rfl)⟩
theorem absF64 (d : BitVec 7) (a : BitVec 7) : Statement (.absF64 d a) :=
  fun _ s => ⟨_, (show execAbsF64 d a s = issued (infV2 .v 2 2 d a) s _ from rfl)⟩
theorem negF64 (d : BitVec 7) (a : BitVec 7) : Statement (.negF64 d a) :=
  fun _ s => ⟨_, (show execNegF64 d a s = issued (infV2 .v 2 2 d a) s _ from rfl)⟩
theorem csgnF64 (d : BitVec 7) (a : BitVec 7) (b : BitVec 7) : Statement (.csgnF64 d a b) :=
  fun _ s => ⟨_, (show execCsgnF64 d a b s = issued (infV3 .v 2 2 2 d a b) s _ from rfl)⟩
theorem classF64 (d : BitVec 7) (a : BitVec 7) : Statement (.classF64 d a) :=
  fun _ s => ⟨_, (show execClassF64 d a s = issued (infV2 .v 1 2 d a) s _ from rfl)⟩
theorem compareF64 (k : BitVec 4) (p : BitVec 3) (a : BitVec 7) (b : BitVec 7) : Statement (.compareF64 k p a b) :=
  fun _ s => ⟨_, (show execCompareF64 k p a b s = issued (infVP 2 p a b) s _ from rfl)⟩
theorem rintF64 (d : BitVec 7) (a : BitVec 7) (m : BitVec 3) : Statement (.rintF64 d a m) :=
  fun _ s => ⟨_, (show execRintF64 d a m s = issued (infV2 .v 2 2 d a) s _ from rfl)⟩
theorem sclF64 (d : BitVec 7) (a : BitVec 7) (b : BitVec 7) : Statement (.sclF64 d a b) :=
  fun _ s => ⟨_, (show execSclF64 d a b s = issued (infV3 .v 2 2 1 d a b) s _ from rfl)⟩
theorem addF16 (d : BitVec 7) (a : BitVec 7) (b : BitVec 7) : Statement (.addF16 d a b) :=
  fun _ s => ⟨_, (show execAddF16 d a b s = issued (infV3 .v 1 1 1 d a b) s _ from rfl)⟩
theorem subF16 (d : BitVec 7) (a : BitVec 7) (b : BitVec 7) : Statement (.subF16 d a b) :=
  fun _ s => ⟨_, (show execSubF16 d a b s = issued (infV3 .v 1 1 1 d a b) s _ from rfl)⟩
theorem mulF16 (d : BitVec 7) (a : BitVec 7) (b : BitVec 7) : Statement (.mulF16 d a b) :=
  fun _ s => ⟨_, (show execMulF16 d a b s = issued (infV3 .v 1 1 1 d a b) s _ from rfl)⟩
theorem minF16 (d : BitVec 7) (a : BitVec 7) (b : BitVec 7) : Statement (.minF16 d a b) :=
  fun _ s => ⟨_, (show execMinF16 d a b s = issued (infV3 .v 1 1 1 d a b) s _ from rfl)⟩
theorem maxF16 (d : BitVec 7) (a : BitVec 7) (b : BitVec 7) : Statement (.maxF16 d a b) :=
  fun _ s => ⟨_, (show execMaxF16 d a b s = issued (infV3 .v 1 1 1 d a b) s _ from rfl)⟩
theorem add2F16 (d : BitVec 7) (a : BitVec 7) (b : BitVec 7) : Statement (.add2F16 d a b) :=
  fun _ s => ⟨_, (show execAdd2F16 d a b s = issued (infV3 .v 1 1 1 d a b) s _ from rfl)⟩
theorem sub2F16 (d : BitVec 7) (a : BitVec 7) (b : BitVec 7) : Statement (.sub2F16 d a b) :=
  fun _ s => ⟨_, (show execSub2F16 d a b s = issued (infV3 .v 1 1 1 d a b) s _ from rfl)⟩
theorem mul2F16 (d : BitVec 7) (a : BitVec 7) (b : BitVec 7) : Statement (.mul2F16 d a b) :=
  fun _ s => ⟨_, (show execMul2F16 d a b s = issued (infV3 .v 1 1 1 d a b) s _ from rfl)⟩
theorem addBf16 (d : BitVec 7) (a : BitVec 7) (b : BitVec 7) : Statement (.addBf16 d a b) :=
  fun _ s => ⟨_, (show execAddBf16 d a b s = issued (infV3 .v 1 1 1 d a b) s _ from rfl)⟩
theorem subBf16 (d : BitVec 7) (a : BitVec 7) (b : BitVec 7) : Statement (.subBf16 d a b) :=
  fun _ s => ⟨_, (show execSubBf16 d a b s = issued (infV3 .v 1 1 1 d a b) s _ from rfl)⟩
theorem mulBf16 (d : BitVec 7) (a : BitVec 7) (b : BitVec 7) : Statement (.mulBf16 d a b) :=
  fun _ s => ⟨_, (show execMulBf16 d a b s = issued (infV3 .v 1 1 1 d a b) s _ from rfl)⟩
theorem minBf16 (d : BitVec 7) (a : BitVec 7) (b : BitVec 7) : Statement (.minBf16 d a b) :=
  fun _ s => ⟨_, (show execMinBf16 d a b s = issued (infV3 .v 1 1 1 d a b) s _ from rfl)⟩
theorem maxBf16 (d : BitVec 7) (a : BitVec 7) (b : BitVec 7) : Statement (.maxBf16 d a b) :=
  fun _ s => ⟨_, (show execMaxBf16 d a b s = issued (infV3 .v 1 1 1 d a b) s _ from rfl)⟩
theorem add2Bf16 (d : BitVec 7) (a : BitVec 7) (b : BitVec 7) : Statement (.add2Bf16 d a b) :=
  fun _ s => ⟨_, (show execAdd2Bf16 d a b s = issued (infV3 .v 1 1 1 d a b) s _ from rfl)⟩
theorem sub2Bf16 (d : BitVec 7) (a : BitVec 7) (b : BitVec 7) : Statement (.sub2Bf16 d a b) :=
  fun _ s => ⟨_, (show execSub2Bf16 d a b s = issued (infV3 .v 1 1 1 d a b) s _ from rfl)⟩
theorem mul2Bf16 (d : BitVec 7) (a : BitVec 7) (b : BitVec 7) : Statement (.mul2Bf16 d a b) :=
  fun _ s => ⟨_, (show execMul2Bf16 d a b s = issued (infV3 .v 1 1 1 d a b) s _ from rfl)⟩
theorem fmaF32 (d : BitVec 7) (a : BitVec 7) (b : BitVec 7) : Statement (.fmaF32 d a b) :=
  fun _ s => ⟨_, (show execFmaF32 d a b s = issued (infV4 .v 1 1 1 d a b) s _ from rfl)⟩
theorem fmsF32 (d : BitVec 7) (a : BitVec 7) (b : BitVec 7) : Statement (.fmsF32 d a b) :=
  fun _ s => ⟨_, (show execFmsF32 d a b s = issued (infV4 .v 1 1 1 d a b) s _ from rfl)⟩
theorem fnmaF32 (d : BitVec 7) (a : BitVec 7) (b : BitVec 7) : Statement (.fnmaF32 d a b) :=
  fun _ s => ⟨_, (show execFnmaF32 d a b s = issued (infV4 .v 1 1 1 d a b) s _ from rfl)⟩
theorem fnmsF32 (d : BitVec 7) (a : BitVec 7) (b : BitVec 7) : Statement (.fnmsF32 d a b) :=
  fun _ s => ⟨_, (show execFnmsF32 d a b s = issued (infV4 .v 1 1 1 d a b) s _ from rfl)⟩
theorem fmaF64 (d : BitVec 7) (a : BitVec 7) (b : BitVec 7) : Statement (.fmaF64 d a b) :=
  fun _ s => ⟨_, (show execFmaF64 d a b s = issued (infV4 .v 2 2 2 d a b) s _ from rfl)⟩
theorem fmsF64 (d : BitVec 7) (a : BitVec 7) (b : BitVec 7) : Statement (.fmsF64 d a b) :=
  fun _ s => ⟨_, (show execFmsF64 d a b s = issued (infV4 .v 2 2 2 d a b) s _ from rfl)⟩
theorem fnmaF64 (d : BitVec 7) (a : BitVec 7) (b : BitVec 7) : Statement (.fnmaF64 d a b) :=
  fun _ s => ⟨_, (show execFnmaF64 d a b s = issued (infV4 .v 2 2 2 d a b) s _ from rfl)⟩
theorem fnmsF64 (d : BitVec 7) (a : BitVec 7) (b : BitVec 7) : Statement (.fnmsF64 d a b) :=
  fun _ s => ⟨_, (show execFnmsF64 d a b s = issued (infV4 .v 2 2 2 d a b) s _ from rfl)⟩
theorem fmaF16 (d : BitVec 7) (a : BitVec 7) (b : BitVec 7) : Statement (.fmaF16 d a b) :=
  fun _ s => ⟨_, (show execFmaF16 d a b s = issued (infV4 .v 1 1 1 d a b) s _ from rfl)⟩
theorem fnmaF16 (d : BitVec 7) (a : BitVec 7) (b : BitVec 7) : Statement (.fnmaF16 d a b) :=
  fun _ s => ⟨_, (show execFnmaF16 d a b s = issued (infV4 .v 1 1 1 d a b) s _ from rfl)⟩
theorem fma2F16 (d : BitVec 7) (a : BitVec 7) (b : BitVec 7) : Statement (.fma2F16 d a b) :=
  fun _ s => ⟨_, (show execFma2F16 d a b s = issued (infV4 .v 1 1 1 d a b) s _ from rfl)⟩
theorem fnma2F16 (d : BitVec 7) (a : BitVec 7) (b : BitVec 7) : Statement (.fnma2F16 d a b) :=
  fun _ s => ⟨_, (show execFnma2F16 d a b s = issued (infV4 .v 1 1 1 d a b) s _ from rfl)⟩
theorem fmaBf16 (d : BitVec 7) (a : BitVec 7) (b : BitVec 7) : Statement (.fmaBf16 d a b) :=
  fun _ s => ⟨_, (show execFmaBf16 d a b s = issued (infV4 .v 1 1 1 d a b) s _ from rfl)⟩
theorem fnmaBf16 (d : BitVec 7) (a : BitVec 7) (b : BitVec 7) : Statement (.fnmaBf16 d a b) :=
  fun _ s => ⟨_, (show execFnmaBf16 d a b s = issued (infV4 .v 1 1 1 d a b) s _ from rfl)⟩
theorem fma2Bf16 (d : BitVec 7) (a : BitVec 7) (b : BitVec 7) : Statement (.fma2Bf16 d a b) :=
  fun _ s => ⟨_, (show execFma2Bf16 d a b s = issued (infV4 .v 1 1 1 d a b) s _ from rfl)⟩
theorem fnma2Bf16 (d : BitVec 7) (a : BitVec 7) (b : BitVec 7) : Statement (.fnma2Bf16 d a b) :=
  fun _ s => ⟨_, (show execFnma2Bf16 d a b s = issued (infV4 .v 1 1 1 d a b) s _ from rfl)⟩
theorem cvt (d : BitVec 7) (a : BitVec 7) (x : BitVec 1) (m : BitVec 3) (t : BitVec 3) (u : BitVec 3) : Statement (.cvt d a x m t u) :=
  fun _ s => ⟨_, (show execCvt d a x m t u s = issued (infV2 .t (cvtRegs u) (cvtRegs t) d a) s _ from rfl)⟩
theorem cvtE4m3F32 (d : BitVec 7) (a : BitVec 7) (b : BitVec 7) : Statement (.cvtE4m3F32 d a b) :=
  fun _ s => ⟨_, (show execCvtE4m3F32 d a b s = issued (infV4 .t 1 1 1 d a b) s _ from rfl)⟩
theorem cvthiE4m3F32 (d : BitVec 7) (a : BitVec 7) (b : BitVec 7) : Statement (.cvthiE4m3F32 d a b) :=
  fun _ s => ⟨_, (show execCvthiE4m3F32 d a b s = issued (infV4 .t 1 1 1 d a b) s _ from rfl)⟩
theorem cvtE5m2F32 (d : BitVec 7) (a : BitVec 7) (b : BitVec 7) : Statement (.cvtE5m2F32 d a b) :=
  fun _ s => ⟨_, (show execCvtE5m2F32 d a b s = issued (infV4 .t 1 1 1 d a b) s _ from rfl)⟩
theorem cvthiE5m2F32 (d : BitVec 7) (a : BitVec 7) (b : BitVec 7) : Statement (.cvthiE5m2F32 d a b) :=
  fun _ s => ⟨_, (show execCvthiE5m2F32 d a b s = issued (infV4 .t 1 1 1 d a b) s _ from rfl)⟩
theorem cvtE4m3F32Sat (d : BitVec 7) (a : BitVec 7) (b : BitVec 7) : Statement (.cvtE4m3F32Sat d a b) :=
  fun _ s => ⟨_, (show execCvtE4m3F32Sat d a b s = issued (infV4 .t 1 1 1 d a b) s _ from rfl)⟩
theorem cvthiE4m3F32Sat (d : BitVec 7) (a : BitVec 7) (b : BitVec 7) : Statement (.cvthiE4m3F32Sat d a b) :=
  fun _ s => ⟨_, (show execCvthiE4m3F32Sat d a b s = issued (infV4 .t 1 1 1 d a b) s _ from rfl)⟩
theorem cvtE5m2F32Sat (d : BitVec 7) (a : BitVec 7) (b : BitVec 7) : Statement (.cvtE5m2F32Sat d a b) :=
  fun _ s => ⟨_, (show execCvtE5m2F32Sat d a b s = issued (infV4 .t 1 1 1 d a b) s _ from rfl)⟩
theorem cvthiE5m2F32Sat (d : BitVec 7) (a : BitVec 7) (b : BitVec 7) : Statement (.cvthiE5m2F32Sat d a b) :=
  fun _ s => ⟨_, (show execCvthiE5m2F32Sat d a b s = issued (infV4 .t 1 1 1 d a b) s _ from rfl)⟩
theorem cvtF32E4m3 (d : BitVec 7) (a : BitVec 7) (k : BitVec 2) : Statement (.cvtF32E4m3 d a k) :=
  fun _ s => ⟨_, (show execCvtF32E4m3 d a k s = issued (infV2 .t 1 1 d a) s _ from rfl)⟩
theorem cvtF32E5m2 (d : BitVec 7) (a : BitVec 7) (k : BitVec 2) : Statement (.cvtF32E5m2 d a k) :=
  fun _ s => ⟨_, (show execCvtF32E5m2 d a k s = issued (infV2 .t 1 1 d a) s _ from rfl)⟩
theorem cvt2Bf16E4m3 (d : BitVec 7) (a : BitVec 7) (h : BitVec 1) : Statement (.cvt2Bf16E4m3 d a h) :=
  fun _ s => ⟨_, (show execCvt2Bf16E4m3 d a h s = issued (infV2 .t 1 1 d a) s _ from rfl)⟩
theorem cvt2Bf16E5m2 (d : BitVec 7) (a : BitVec 7) (h : BitVec 1) : Statement (.cvt2Bf16E5m2 d a h) :=
  fun _ s => ⟨_, (show execCvt2Bf16E5m2 d a h s = issued (infV2 .t 1 1 d a) s _ from rfl)⟩
theorem qsc (d : BitVec 7) (a : BitVec 7) (t : BitVec 2) : Statement (.qsc d a t) :=
  fun _ s => ⟨_, (show execQsc d a t s = issued (if t = 3#2 then infW3 (infV2 .t 1 1 d a) else infV2 .t 1 1 d a) s _ from rfl)⟩
theorem cvtW4F32 (d : BitVec 7) (a : BitVec 7) (b : BitVec 7) : Statement (.cvtW4F32 d a b) :=
  fun _ s => ⟨_, (show execCvtW4F32 d a b s = issued (infV3 .t 1 1 1 d a b) s _ from rfl)⟩
theorem cvtW3F32 (d : BitVec 7) (a : BitVec 7) (b : BitVec 7) : Statement (.cvtW3F32 d a b) :=
  fun _ s => ⟨_, (show execCvtW3F32 d a b s = issued (infW3 (infV3 .t 1 1 1 d a b)) s _ from rfl)⟩
theorem cvtF32W4 (d : BitVec 7) (a : BitVec 7) (b : BitVec 7) : Statement (.cvtF32W4 d a b) :=
  fun _ s => ⟨_, (show execCvtF32W4 d a b s = issued (infV3 .t 1 1 1 d a b) s _ from rfl)⟩
theorem rcp (d : BitVec 7) (a : BitVec 7) : Statement (.rcp d a) :=
  fun _ s => ⟨_, (show execRcp d a s = issued (infV2 .t 1 1 d a) s _ from rfl)⟩
theorem rsqrt (d : BitVec 7) (a : BitVec 7) : Statement (.rsqrt d a) :=
  fun _ s => ⟨_, (show execRsqrt d a s = issued (infV2 .t 1 1 d a) s _ from rfl)⟩
theorem sfsqrt (d : BitVec 7) (a : BitVec 7) : Statement (.sfsqrt d a) :=
  fun _ s => ⟨_, (show execSfsqrt d a s = issued (infV2 .t 1 1 d a) s _ from rfl)⟩
theorem exp2 (d : BitVec 7) (a : BitVec 7) : Statement (.exp2 d a) :=
  fun _ s => ⟨_, (show execExp2 d a s = issued (infV2 .t 1 1 d a) s _ from rfl)⟩
theorem log2 (d : BitVec 7) (a : BitVec 7) : Statement (.log2 d a) :=
  fun _ s => ⟨_, (show execLog2 d a s = issued (infV2 .t 1 1 d a) s _ from rfl)⟩
theorem sinpi (d : BitVec 7) (a : BitVec 7) : Statement (.sinpi d a) :=
  fun _ s => ⟨_, (show execSinpi d a s = issued (infV2 .t 1 1 d a) s _ from rfl)⟩
theorem cospi (d : BitVec 7) (a : BitVec 7) : Statement (.cospi d a) :=
  fun _ s => ⟨_, (show execCospi d a s = issued (infV2 .t 1 1 d a) s _ from rfl)⟩
theorem exp (d : BitVec 7) (a : BitVec 7) : Statement (.exp d a) :=
  fun _ s => ⟨_, (show execExp d a s = issued (infV2 .t 1 1 d a) s _ from rfl)⟩
theorem sincospi (d : BitVec 7) (a : BitVec 7) : Statement (.sincospi d a) :=
  fun _ s => ⟨_, (show execSincospi d a s = issued (infV2 .t 2 1 d a) s _ from rfl)⟩
theorem clmulB32 (d : BitVec 7) (a : BitVec 7) (b : BitVec 7) : Statement (.clmulB32 d a b) :=
  fun _ s => ⟨_, (show execClmulB32 d a b s = issued (infV3 .t 1 1 1 d a b) s _ from rfl)⟩
theorem clmulhB32 (d : BitVec 7) (a : BitVec 7) (b : BitVec 7) : Statement (.clmulhB32 d a b) :=
  fun _ s => ⟨_, (show execClmulhB32 d a b s = issued (infV3 .t 1 1 1 d a b) s _ from rfl)⟩
theorem clmulwB32 (d : BitVec 7) (a : BitVec 7) (b : BitVec 7) : Statement (.clmulwB32 d a b) :=
  fun _ s => ⟨_, (show execClmulwB32 d a b s = issued (infV3 .t 2 1 1 d a b) s _ from rfl)⟩
theorem clmulB64 (d : BitVec 7) (a : BitVec 7) (b : BitVec 7) : Statement (.clmulB64 d a b) :=
  fun _ s => ⟨_, (show execClmulB64 d a b s = issued (infV3 .t 2 2 2 d a b) s _ from rfl)⟩
theorem clmulhB64 (d : BitVec 7) (a : BitVec 7) (b : BitVec 7) : Statement (.clmulhB64 d a b) :=
  fun _ s => ⟨_, (show execClmulhB64 d a b s = issued (infV3 .t 2 2 2 d a b) s _ from rfl)⟩
theorem clmulwB64 (d : BitVec 7) (a : BitVec 7) (b : BitVec 7) : Statement (.clmulwB64 d a b) :=
  fun _ s => ⟨_, (show execClmulwB64 d a b s = issued (infV3 .t 4 2 2 d a b) s _ from rfl)⟩
theorem clmulrB32 (d : BitVec 7) (a : BitVec 7) (b : BitVec 7) : Statement (.clmulrB32 d a b) :=
  fun _ s => ⟨_, (show execClmulrB32 d a b s = issued (infV3 .t 1 1 1 d a b) s _ from rfl)⟩
theorem clmulrB64 (d : BitVec 7) (a : BitVec 7) (b : BitVec 7) : Statement (.clmulrB64 d a b) :=
  fun _ s => ⟨_, (show execClmulrB64 d a b s = issued (infV3 .t 2 2 2 d a b) s _ from rfl)⟩
theorem xchAtB32 (d : BitVec 7) (a : BitVec 7) (b : BitVec 7) : Statement (.xchAtB32 d a b) :=
  fun _ s => ⟨_, (show execXchAtB32 d a b s = issued (infV3 .t 1 1 1 d a b) s _ from rfl)⟩
theorem xchLoB32 (d : BitVec 7) (a : BitVec 7) (n : BitVec 5) : Statement (.xchLoB32 d a n) :=
  fun _ s => ⟨_, (show execXchLoB32 d a n s = issued (infV2 .t 1 1 d a) s _ from rfl)⟩
theorem xchHiB32 (d : BitVec 7) (a : BitVec 7) (n : BitVec 5) : Statement (.xchHiB32 d a n) :=
  fun _ s => ⟨_, (show execXchHiB32 d a n s = issued (infV2 .t 1 1 d a) s _ from rfl)⟩
theorem xchFlipB32 (d : BitVec 7) (a : BitVec 7) (n : BitVec 5) : Statement (.xchFlipB32 d a n) :=
  fun _ s => ⟨_, (show execXchFlipB32 d a n s = issued (infV2 .t 1 1 d a) s _ from rfl)⟩
theorem xchAtB64 (d : BitVec 7) (a : BitVec 7) (b : BitVec 7) : Statement (.xchAtB64 d a b) :=
  fun _ s => ⟨_, (show execXchAtB64 d a b s = issued (infV3 .t 2 2 1 d a b) s _ from rfl)⟩
theorem xchLoB64 (d : BitVec 7) (a : BitVec 7) (n : BitVec 5) : Statement (.xchLoB64 d a n) :=
  fun _ s => ⟨_, (show execXchLoB64 d a n s = issued (infV2 .t 2 2 d a) s _ from rfl)⟩
theorem xchHiB64 (d : BitVec 7) (a : BitVec 7) (n : BitVec 5) : Statement (.xchHiB64 d a n) :=
  fun _ s => ⟨_, (show execXchHiB64 d a n s = issued (infV2 .t 2 2 d a) s _ from rfl)⟩
theorem xchFlipB64 (d : BitVec 7) (a : BitVec 7) (n : BitVec 5) : Statement (.xchFlipB64 d a n) :=
  fun _ s => ⟨_, (show execXchFlipB64 d a n s = issued (infV2 .t 2 2 d a) s _ from rfl)⟩
theorem lall (d : BitVec 3) (a : BitVec 3) : Statement (.lall d a) :=
  fun _ s => ⟨_, (show execLall d a s = issued (infTest d a) s _ from rfl)⟩
theorem lany (d : BitVec 3) (a : BitVec 3) : Statement (.lany d a) :=
  fun _ s => ⟨_, (show execLany d a s = issued (infTest d a) s _ from rfl)⟩
theorem lsameB32 (d : BitVec 3) (a : BitVec 7) : Statement (.lsameB32 d a) :=
  fun _ s => ⟨_, (show execLsameB32 d a s = issued (infSame d a) s _ from rfl)⟩
theorem lmaskB32 (d : BitVec 7) (a : BitVec 3) : Statement (.lmaskB32 d a) :=
  fun _ s => ⟨_, (show execLmaskB32 d a s = issued (infMask d a) s _ from rfl)⟩
theorem scan (d : BitVec 7) (a : BitVec 7) (p : BitVec 3) (o : BitVec 4) : Statement (.scan d a p o) :=
  fun _ s => ⟨_, (show execScan d a p o s = issued (infScan d a p o) s _ from rfl)⟩
theorem scanx (d : BitVec 7) (a : BitVec 7) (p : BitVec 3) (o : BitVec 4) : Statement (.scanx d a p o) :=
  fun _ s => ⟨_, (show execScanx d a p o s = issued (infScan d a p o) s _ from rfl)⟩
theorem red (d : BitVec 7) (a : BitVec 7) (p : BitVec 3) (o : BitVec 4) : Statement (.red d a p o) :=
  fun _ s => ⟨_, (show execRed d a p o s = issued (infScan d a p o) s _ from rfl)⟩
theorem tput (a : BitVec 7) (p : BitVec 3) (o : BitVec 4) : Statement (.tput a p o) :=
  fun _ s => ⟨_, (show execTput a p o s = issued (infTput a p o) s _ from rfl)⟩
theorem tget (d : BitVec 7) (o : BitVec 4) : Statement (.tget d o) :=
  fun _ s => ⟨_, (show execTget d o s = issued (infTget d o) s _ from rfl)⟩
theorem ldN8 (t : BitVec 7) (b : BitVec 7) (x : BitVec 7) (y : BitVec 1) (o : Option (BitVec 32)) (h : BitVec 2) : Statement (.ldN8 t b x y o h) :=
  fun _ s => ⟨_, (show execLdN8 t b x y o h s = issued (infLd 1 1 t b x y o) s _ from rfl)⟩
theorem ldI8 (t : BitVec 7) (b : BitVec 7) (x : BitVec 7) (y : BitVec 1) (o : Option (BitVec 32)) (h : BitVec 2) : Statement (.ldI8 t b x y o h) :=
  fun _ s => ⟨_, (show execLdI8 t b x y o h s = issued (infLd 1 1 t b x y o) s _ from rfl)⟩
theorem ldN16 (t : BitVec 7) (b : BitVec 7) (x : BitVec 7) (y : BitVec 1) (o : Option (BitVec 32)) (h : BitVec 2) : Statement (.ldN16 t b x y o h) :=
  fun _ s => ⟨_, (show execLdN16 t b x y o h s = issued (infLd 1 2 t b x y o) s _ from rfl)⟩
theorem ldI16 (t : BitVec 7) (b : BitVec 7) (x : BitVec 7) (y : BitVec 1) (o : Option (BitVec 32)) (h : BitVec 2) : Statement (.ldI16 t b x y o h) :=
  fun _ s => ⟨_, (show execLdI16 t b x y o h s = issued (infLd 1 2 t b x y o) s _ from rfl)⟩
theorem ldB32 (t : BitVec 7) (b : BitVec 7) (x : BitVec 7) (y : BitVec 1) (o : Option (BitVec 32)) (h : BitVec 2) : Statement (.ldB32 t b x y o h) :=
  fun _ s => ⟨_, (show execLdB32 t b x y o h s = issued (infLd 1 4 t b x y o) s _ from rfl)⟩
theorem ldB64 (t : BitVec 7) (b : BitVec 7) (x : BitVec 7) (y : BitVec 1) (o : Option (BitVec 32)) (h : BitVec 2) : Statement (.ldB64 t b x y o h) :=
  fun _ s => ⟨_, (show execLdB64 t b x y o h s = issued (infLd 2 8 t b x y o) s _ from rfl)⟩
theorem ldB128 (t : BitVec 7) (b : BitVec 7) (x : BitVec 7) (y : BitVec 1) (o : Option (BitVec 32)) (h : BitVec 2) : Statement (.ldB128 t b x y o h) :=
  fun _ s => ⟨_, (show execLdB128 t b x y o h s = issued (infLd 4 16 t b x y o) s _ from rfl)⟩
theorem stB8 (t : BitVec 7) (b : BitVec 7) (x : BitVec 7) (y : BitVec 1) (o : Option (BitVec 32)) (h : BitVec 2) : Statement (.stB8 t b x y o h) :=
  fun _ s => ⟨_, (show execStB8 t b x y o h s = issued (infSt 1 1 t b x y o) s _ from rfl)⟩
theorem stB16 (t : BitVec 7) (b : BitVec 7) (x : BitVec 7) (y : BitVec 1) (o : Option (BitVec 32)) (h : BitVec 2) : Statement (.stB16 t b x y o h) :=
  fun _ s => ⟨_, (show execStB16 t b x y o h s = issued (infSt 1 2 t b x y o) s _ from rfl)⟩
theorem stB32 (t : BitVec 7) (b : BitVec 7) (x : BitVec 7) (y : BitVec 1) (o : Option (BitVec 32)) (h : BitVec 2) : Statement (.stB32 t b x y o h) :=
  fun _ s => ⟨_, (show execStB32 t b x y o h s = issued (infSt 1 4 t b x y o) s _ from rfl)⟩
theorem stB64 (t : BitVec 7) (b : BitVec 7) (x : BitVec 7) (y : BitVec 1) (o : Option (BitVec 32)) (h : BitVec 2) : Statement (.stB64 t b x y o h) :=
  fun _ s => ⟨_, (show execStB64 t b x y o h s = issued (infSt 2 8 t b x y o) s _ from rfl)⟩
theorem stB128 (t : BitVec 7) (b : BitVec 7) (x : BitVec 7) (y : BitVec 1) (o : Option (BitVec 32)) (h : BitVec 2) : Statement (.stB128 t b x y o h) :=
  fun _ s => ⟨_, (show execStB128 t b x y o h s = issued (infSt 4 16 t b x y o) s _ from rfl)⟩
theorem ldScalar (t : BitVec 7) (b : BitVec 7) (w : BitVec 3) (d : Disp) : Statement (.ldScalar t b w d) :=
  fun _ s => ⟨_, (show execLdScalar t b w d s = issued (infLdS t b d) s _ from rfl)⟩
theorem stScalar (t : BitVec 7) (b : BitVec 7) (w : BitVec 2) (d : Disp) : Statement (.stScalar t b w d) :=
  fun _ s => ⟨_, (show execStScalar t b w d s = issued (infStS t b d) s _ from rfl)⟩
theorem atomAdd (d : BitVec 7) (a : BitVec 7) (x : BitVec 3) (o : BitVec 2) (w : BitVec 1) : Statement (.atomAdd d a x o w) :=
  fun _ s => ⟨_, (show execAtomAdd d a x o w s = issued (infAtom d a (atomWidth w) (atomWidth w) .ld) s _ from rfl)⟩
theorem atomMinI (d : BitVec 7) (a : BitVec 7) (x : BitVec 3) (o : BitVec 2) (w : BitVec 1) : Statement (.atomMinI d a x o w) :=
  fun _ s => ⟨_, (show execAtomMinI d a x o w s = issued (infAtom d a (atomWidth w) (atomWidth w) .ld) s _ from rfl)⟩
theorem atomMaxI (d : BitVec 7) (a : BitVec 7) (x : BitVec 3) (o : BitVec 2) (w : BitVec 1) : Statement (.atomMaxI d a x o w) :=
  fun _ s => ⟨_, (show execAtomMaxI d a x o w s = issued (infAtom d a (atomWidth w) (atomWidth w) .ld) s _ from rfl)⟩
theorem atomMinN (d : BitVec 7) (a : BitVec 7) (x : BitVec 3) (o : BitVec 2) (w : BitVec 1) : Statement (.atomMinN d a x o w) :=
  fun _ s => ⟨_, (show execAtomMinN d a x o w s = issued (infAtom d a (atomWidth w) (atomWidth w) .ld) s _ from rfl)⟩
theorem atomMaxN (d : BitVec 7) (a : BitVec 7) (x : BitVec 3) (o : BitVec 2) (w : BitVec 1) : Statement (.atomMaxN d a x o w) :=
  fun _ s => ⟨_, (show execAtomMaxN d a x o w s = issued (infAtom d a (atomWidth w) (atomWidth w) .ld) s _ from rfl)⟩
theorem atomAnd (d : BitVec 7) (a : BitVec 7) (x : BitVec 3) (o : BitVec 2) (w : BitVec 1) : Statement (.atomAnd d a x o w) :=
  fun _ s => ⟨_, (show execAtomAnd d a x o w s = issued (infAtom d a (atomWidth w) (atomWidth w) .ld) s _ from rfl)⟩
theorem atomOr (d : BitVec 7) (a : BitVec 7) (x : BitVec 3) (o : BitVec 2) (w : BitVec 1) : Statement (.atomOr d a x o w) :=
  fun _ s => ⟨_, (show execAtomOr d a x o w s = issued (infAtom d a (atomWidth w) (atomWidth w) .ld) s _ from rfl)⟩
theorem atomXor (d : BitVec 7) (a : BitVec 7) (x : BitVec 3) (o : BitVec 2) (w : BitVec 1) : Statement (.atomXor d a x o w) :=
  fun _ s => ⟨_, (show execAtomXor d a x o w s = issued (infAtom d a (atomWidth w) (atomWidth w) .ld) s _ from rfl)⟩
theorem atomExch (d : BitVec 7) (a : BitVec 7) (x : BitVec 3) (o : BitVec 2) (w : BitVec 1) : Statement (.atomExch d a x o w) :=
  fun _ s => ⟨_, (show execAtomExch d a x o w s = issued (infAtom d a (atomWidth w) (atomWidth w) .ld) s _ from rfl)⟩
theorem atomCas (d : BitVec 7) (a : BitVec 7) (x : BitVec 3) (o : BitVec 2) (w : BitVec 1) : Statement (.atomCas d a x o w) :=
  fun _ s => ⟨_, (show execAtomCas d a x o w s = issued (infAtom d a (2 * atomWidth w) (atomWidth w) .ld) s _ from rfl)⟩
theorem atomAddF (d : BitVec 7) (a : BitVec 7) (x : BitVec 3) (o : BitVec 2) (w : BitVec 1) : Statement (.atomAddF d a x o w) :=
  fun _ s => ⟨_, (show execAtomAddF d a x o w s = issued (infAtom d a (atomWidth w) (atomWidth w) .ld) s _ from rfl)⟩
theorem ldo (d : BitVec 7) (a : BitVec 7) (x : BitVec 3) (o : BitVec 2) (w : BitVec 1) : Statement (.ldo d a x o w) :=
  fun _ s => ⟨_, (show execLdo d a x o w s = issued (infAtom d a 0 (atomWidth w) .ld) s _ from rfl)⟩
theorem sto (d : BitVec 7) (a : BitVec 7) (x : BitVec 3) (o : BitVec 2) (w : BitVec 1) : Statement (.sto d a x o w) :=
  fun _ s => ⟨_, (show execSto d a x o w s = issued (infAtom d a (atomWidth w) 0 .st) s _ from rfl)⟩
theorem rfarAddI32 (a : BitVec 7) (b : BitVec 7) : Statement (.rfarAddI32 a b) :=
  fun _ s => ⟨_, (show execRfarAddI32 a b s = issued (infRfar 1 a b) s _ from rfl)⟩
theorem rfarAddI64 (a : BitVec 7) (b : BitVec 7) : Statement (.rfarAddI64 a b) :=
  fun _ s => ⟨_, (show execRfarAddI64 a b s = issued (infRfar 2 a b) s _ from rfl)⟩
theorem rfarMinI32 (a : BitVec 7) (b : BitVec 7) : Statement (.rfarMinI32 a b) :=
  fun _ s => ⟨_, (show execRfarMinI32 a b s = issued (infRfar 1 a b) s _ from rfl)⟩
theorem rfarMaxI32 (a : BitVec 7) (b : BitVec 7) : Statement (.rfarMaxI32 a b) :=
  fun _ s => ⟨_, (show execRfarMaxI32 a b s = issued (infRfar 1 a b) s _ from rfl)⟩
theorem rfarMinN32 (a : BitVec 7) (b : BitVec 7) : Statement (.rfarMinN32 a b) :=
  fun _ s => ⟨_, (show execRfarMinN32 a b s = issued (infRfar 1 a b) s _ from rfl)⟩
theorem rfarMaxN32 (a : BitVec 7) (b : BitVec 7) : Statement (.rfarMaxN32 a b) :=
  fun _ s => ⟨_, (show execRfarMaxN32 a b s = issued (infRfar 1 a b) s _ from rfl)⟩
theorem rfarAndB32 (a : BitVec 7) (b : BitVec 7) : Statement (.rfarAndB32 a b) :=
  fun _ s => ⟨_, (show execRfarAndB32 a b s = issued (infRfar 1 a b) s _ from rfl)⟩
theorem rfarOrB32 (a : BitVec 7) (b : BitVec 7) : Statement (.rfarOrB32 a b) :=
  fun _ s => ⟨_, (show execRfarOrB32 a b s = issued (infRfar 1 a b) s _ from rfl)⟩
theorem rfarXorB32 (a : BitVec 7) (b : BitVec 7) : Statement (.rfarXorB32 a b) :=
  fun _ s => ⟨_, (show execRfarXorB32 a b s = issued (infRfar 1 a b) s _ from rfl)⟩
theorem rfarAddF32 (a : BitVec 7) (b : BitVec 7) : Statement (.rfarAddF32 a b) :=
  fun _ s => ⟨_, (show execRfarAddF32 a b s = issued (infRfar 1 a b) s _ from rfl)⟩
theorem rfarAddF64 (a : BitVec 7) (b : BitVec 7) : Statement (.rfarAddF64 a b) :=
  fun _ s => ⟨_, (show execRfarAddF64 a b s = issued (infRfar 2 a b) s _ from rfl)⟩
theorem rfarMinF32 (a : BitVec 7) (b : BitVec 7) : Statement (.rfarMinF32 a b) :=
  fun _ s => ⟨_, (show execRfarMinF32 a b s = issued (infRfar 1 a b) s _ from rfl)⟩
theorem rfarMaxF32 (a : BitVec 7) (b : BitVec 7) : Statement (.rfarMaxF32 a b) :=
  fun _ s => ⟨_, (show execRfarMaxF32 a b s = issued (infRfar 1 a b) s _ from rfl)⟩
theorem repOpen (a : BitVec 7) : Statement (.repOpen a) :=
  fun _ s => ⟨_, (show execRepOpen a s = issued (infAddr a .none) s _ from rfl)⟩
theorem repFlush : Statement (.repFlush) :=
  fun _ s => ⟨_, (show execRepFlush s = issued (inf0 .m) s _ from rfl)⟩
theorem repClose : Statement (.repClose) :=
  fun _ s => ⟨_, (show execRepClose s = issued { inf0 .m with counter := .st } s _ from rfl)⟩
theorem damTake (d : BitVec 7) (a : BitVec 7) (b : BitVec 7) : Statement (.damTake d a b) :=
  fun _ s => ⟨_, (show execDamTake d a b s = issued (infAddrD d a .none) s _ from rfl)⟩
theorem damChk (d : BitVec 7) (a : BitVec 7) : Statement (.damChk d a) :=
  fun _ s => ⟨_, (show execDamChk d a s = issued (infAddrD d a .none) s _ from rfl)⟩
theorem damEnd (d : BitVec 7) (a : BitVec 7) : Statement (.damEnd d a) :=
  fun _ s => ⟨_, (show execDamEnd d a s = issued (infAddrD d a .none) s _ from rfl)⟩
theorem warm (a : BitVec 7) (b : BitVec 7) : Statement (.warm a b) :=
  fun _ s => ⟨_, (show execWarm a b s = issued { infAddr a .st with reads := [.s a.toNat, .s b.toNat] } s _ from rfl)⟩
theorem warr (d : BitVec 7) (a : BitVec 7) (x : BitVec 3) (n : BitVec 4) : Statement (.warr d a x n) :=
  fun _ s => ⟨_, (show execWarr d a x n s = issued (infAddrD d a .ld) s _ from rfl)⟩
theorem wwait (x : BitVec 3) (a : BitVec 7) (b : BitVec 7) : Statement (.wwait x a b) :=
  fun _ s => ⟨_, (show execWwait x a b s = issued { infAddr a .none with reads := [.s a.toNat, .s b.toNat] } s _ from rfl)⟩
theorem wprobe (d : BitVec 7) (a : BitVec 7) (x : BitVec 3) : Statement (.wprobe d a x) :=
  fun _ s => ⟨_, (show execWprobe d a x s = issued (infAddrD d a .ld) s _ from rfl)⟩
theorem fenceAcq (x : BitVec 3) : Statement (.fenceAcq x) :=
  fun _ s => ⟨_, (show execFenceAcq x s = issued (inf0 .m) s _ from rfl)⟩
theorem fenceRel (x : BitVec 3) : Statement (.fenceRel x) :=
  fun _ s => ⟨_, (show execFenceRel x s = issued (inf0 .m) s _ from rfl)⟩
theorem fenceFull (x : BitVec 3) : Statement (.fenceFull x) :=
  fun _ s => ⟨_, (show execFenceFull x s = issued (inf0 .m) s _ from rfl)⟩
theorem cctlL1b (a : BitVec 7) : Statement (.cctlL1b a) :=
  fun _ s => ⟨_, (show execCctlL1b a s = issued (infAddr a .none) s _ from rfl)⟩
theorem cctlL1all : Statement (.cctlL1all) :=
  fun _ s => ⟨_, (show execCctlL1all s = issued (inf0 .m) s _ from rfl)⟩
theorem cctlWbl (d : BitVec 7) (a : BitVec 7) : Statement (.cctlWbl d a) :=
  fun _ s => ⟨_, (show execCctlWbl d a s = issued (infAddrD d a .ld) s _ from rfl)⟩
theorem cctlWbf (d : BitVec 7) (a : BitVec 7) : Statement (.cctlWbf d a) :=
  fun _ s => ⟨_, (show execCctlWbf d a s = issued (infAddrD d a .ld) s _ from rfl)⟩
theorem cctlRel (d : BitVec 7) (a : BitVec 7) : Statement (.cctlRel d a) :=
  fun _ s => ⟨_, (show execCctlRel d a s = issued { infAddrD d a .ld with need := .prv 1 } s _ from rfl)⟩
theorem pinReload (d : BitVec 7) (a : BitVec 7) : Statement (.pinReload d a) :=
  fun _ s => ⟨_, (show execPinReload d a s = issued (infAddrD d a .ld) s _ from rfl)⟩
theorem pinEnd (d : BitVec 7) (a : BitVec 7) : Statement (.pinEnd d a) :=
  fun _ s => ⟨_, (show execPinEnd d a s = issued (infAddrD d a .ld) s _ from rfl)⟩
theorem pinSet (d : BitVec 7) (a : BitVec 7) : Statement (.pinSet d a) :=
  fun _ s => ⟨_, (show execPinSet d a s = issued { infAddrD d a .ld with need := .prv 1 } s _ from rfl)⟩
theorem pinClr (d : BitVec 7) (a : BitVec 7) : Statement (.pinClr d a) :=
  fun _ s => ⟨_, (show execPinClr d a s = issued { infAddrD d a .ld with need := .prv 1 } s _ from rfl)⟩
theorem cptCopy (d : BitVec 7) (a : BitVec 7) (b : BitVec 7) : Statement (.cptCopy d a b) :=
  fun _ s => ⟨_, (show execCptCopy d a b s = issued (infCptCopy d a b) s _ from rfl)⟩
theorem cptLtab (a : BitVec 7) (b : BitVec 7) : Statement (.cptLtab a b) :=
  fun _ s => ⟨_, (show execCptLtab a b s = issued (infCpt [.s a.toNat, .s b.toNat] [] .none []) s _ from rfl)⟩
theorem cptBind (d : BitVec 7) (a : BitVec 7) : Statement (.cptBind d a) :=
  fun _ s => ⟨_, (show execCptBind d a s = issued (infCpt [.s a.toNat] [.s d.toNat] .none []) s _ from rfl)⟩
theorem cptAdv (d : BitVec 7) (a : BitVec 7) : Statement (.cptAdv d a) :=
  fun _ s => ⟨_, (show execCptAdv d a s = issued (infCpt [.s a.toNat] [.s d.toNat] .cp []) s _ from rfl)⟩
theorem cptRel (d : BitVec 7) (a : BitVec 7) : Statement (.cptRel d a) :=
  fun _ s => ⟨_, (show execCptRel d a s = issued (infCpt [.s a.toNat] [.s d.toNat] .none []) s _ from rfl)⟩
theorem cptRes (d : BitVec 7) (a : BitVec 7) (x : BitVec 2) : Statement (.cptRes d a x) :=
  fun _ s => ⟨_, (show execCptRes d a x s = issued (infCpt [.s a.toNat, .s d.toNat] [.s d.toNat] .none []) s _ from rfl)⟩
theorem mma (t : BitVec 4) (z : BitVec 1) (s_ : BitVec 2) (a : BitVec 7) (b : BitVec 7) : Statement (.mma t z s_ a b) :=
  fun _ s => ⟨_, (show execMma t z s_ a b s = issued (infMx [.v a.toNat 4, .v b.toNat 4] [] .mx [.v a.toNat 1, .v (a.toNat + 1) 1, .v (a.toNat + 2) 1, .v (a.toNat + 3) 1] [.v a.toNat 4]) s _ from rfl)⟩
theorem mld (t : BitVec 4) (a : BitVec 7) : Statement (.mld t a) :=
  fun _ s => ⟨_, (show execMld t a s = issued (infMx [.s a.toNat] [] .mx [] [.s a.toNat]) s _ from rfl)⟩
theorem mst (t : BitVec 4) (f : BitVec 1) (a : BitVec 7) (b : BitVec 7) : Statement (.mst t f a b) :=
  fun _ s => ⟨_, (show execMst t f a b s = issued (infMx [.s a.toNat, .s b.toNat] [] .mx [] [.s a.toNat, .s b.toNat]) s _ from rfl)⟩
theorem mqst (t : BitVec 4) (q : BitVec 1) (a : BitVec 7) (b : BitVec 7) : Statement (.mqst t q a b) :=
  fun _ s => ⟨_, (show execMqst t q a b s = issued (infMx [.s a.toNat, .s b.toNat] [] .mx [] [.s a.toNat, .s b.toNat]) s _ from rfl)⟩
theorem mcb (a : BitVec 7) : Statement (.mcb a) :=
  fun _ s => ⟨_, (show execMcb a s = issued (infMx [.s a.toNat] [] .mx [] [.s a.toNat]) s _ from rfl)⟩
theorem mxst (d : BitVec 7) : Statement (.mxst d) :=
  fun _ s => ⟨_, (show execMxst d s = issued (infMx [] [.s d.toNat] .none [] []) s _ from rfl)⟩
theorem mxstClr (d : BitVec 7) : Statement (.mxstClr d) :=
  fun _ s => ⟨_, (show execMxstClr d s = issued (infMx [] [.s d.toNat] .none [] []) s _ from rfl)⟩
theorem fqePf (d : BitVec 7) (a : BitVec 7) : Statement (.fqePf d a) :=
  fun _ s => ⟨_, (show execFqePf d a s = issued (infFqe d a .none) s _ from rfl)⟩
theorem fqeSync (d : BitVec 7) (a : BitVec 7) : Statement (.fqeSync d a) :=
  fun _ s => ⟨_, (show execFqeSync d a s = issued (infFqe d a .none) s _ from rfl)⟩
theorem fqeSub (d : BitVec 7) (a : BitVec 7) : Statement (.fqeSub d a) :=
  fun _ s => ⟨_, (show execFqeSub d a s = issued { infFqe d a .ld with need := .prv 1 } s _ from rfl)⟩
theorem wfork (d : BitVec 7) (a : BitVec 7) : Statement (.wfork d a) :=
  fun _ s => ⟨_, (show execWfork d a s = issued (infWorld [.s a.toNat] d) s _ from rfl)⟩
theorem wenter (d : BitVec 7) (a : BitVec 7) : Statement (.wenter d a) :=
  fun _ s => ⟨_, (show execWenter d a s = issued (infWorld [.s a.toNat] d) s _ from rfl)⟩
theorem wleave (d : BitVec 7) : Statement (.wleave d) :=
  fun _ s => ⟨_, (show execWleave d s = issued (infWorld [] d) s _ from rfl)⟩
theorem wchoose (d : BitVec 7) (a : BitVec 7) : Statement (.wchoose d a) :=
  fun _ s => ⟨_, (show execWchoose d a s = issued (infWorld [.s a.toNat] d) s _ from rfl)⟩
theorem wstat (d : BitVec 7) (a : BitVec 7) : Statement (.wstat d a) :=
  fun _ s => ⟨_, (show execWstat d a s = issued (infWorld [.s a.toNat] d) s _ from rfl)⟩
theorem wwho (d : BitVec 7) : Statement (.wwho d) :=
  fun _ s => ⟨_, (show execWwho d s = issued (infWorld [] d) s _ from rfl)⟩

end Sys2Proof.Laws.Issued
end

