-- ==== Sys2Proof/Laws/Issued.lean ====
section
/-! SUPPORT. What stands before the effect of a word (traps, stalls, words without effect), for every word at once. -/

namespace Sys2Proof.Machine

/-- The form of the meaning of every encoded instruction. -/
theorem exec_issued (i : Instr) : Sys2Proof.Laws.Issued.Statement i :=
  Instr.casesOn (motive := Sys2Proof.Laws.Issued.Statement) i
    @Sys2Proof.Laws.Issued.powerOnBoot @Sys2Proof.Laws.Issued.coreReset @Sys2Proof.Laws.Issued.run
    @Sys2Proof.Laws.Issued.quarterIssue @Sys2Proof.Laws.Issued.rotationQuantum @Sys2Proof.Laws.Issued.loadComplete
    @Sys2Proof.Laws.Issued.storeAck @Sys2Proof.Laws.Issued.joinRelease @Sys2Proof.Laws.Issued.groupFinish
    @Sys2Proof.Laws.Issued.teamRetire @Sys2Proof.Laws.Issued.queueDoorbell @Sys2Proof.Laws.Issued.recordAccept
    @Sys2Proof.Laws.Issued.teamPlace @Sys2Proof.Laws.Issued.depWeirObserve @Sys2Proof.Laws.Issued.thermalMigration
    @Sys2Proof.Laws.Issued.placementWindowInstall @Sys2Proof.Laws.Issued.l2LineEvict @Sys2Proof.Laws.Issued.fadeTick
    @Sys2Proof.Laws.Issued.l2Miss @Sys2Proof.Laws.Issued.fillDataLand @Sys2Proof.Laws.Issued.tableInvalidation
    @Sys2Proof.Laws.Issued.cowBreak @Sys2Proof.Laws.Issued.prefetch @Sys2Proof.Laws.Issued.watermarkPublish
    @Sys2Proof.Laws.Issued.signatureSweep @Sys2Proof.Laws.Issued.ownershipRequest @Sys2Proof.Laws.Issued.damGrant
    @Sys2Proof.Laws.Issued.damLeaseExpiry @Sys2Proof.Laws.Issued.rfarDrain @Sys2Proof.Laws.Issued.rfarStage
    @Sys2Proof.Laws.Issued.epochClose @Sys2Proof.Laws.Issued.sliceFold @Sys2Proof.Laws.Issued.weirWaitEnd
    @Sys2Proof.Laws.Issued.copyResolve @Sys2Proof.Laws.Issued.copyPiece @Sys2Proof.Laws.Issued.muCommandPerform
    @Sys2Proof.Laws.Issued.codebookSwitch @Sys2Proof.Laws.Issued.nvmeCompletion @Sys2Proof.Laws.Issued.nvmeTimeout
    @Sys2Proof.Laws.Issued.flashSwapOut @Sys2Proof.Laws.Issued.pagerReply @Sys2Proof.Laws.Issued.pagerReplyTimeout
    @Sys2Proof.Laws.Issued.replayRestart @Sys2Proof.Laws.Issued.teamSave @Sys2Proof.Laws.Issued.teamResume
    @Sys2Proof.Laws.Issued.ctxBaseWrite @Sys2Proof.Laws.Issued.ctxAreaReady @Sys2Proof.Laws.Issued.gangMapChange
    @Sys2Proof.Laws.Issued.viewTagFree @Sys2Proof.Laws.Issued.dieLoss @Sys2Proof.Laws.Issued.baseTileLoss
    @Sys2Proof.Laws.Issued.dieClkClear @Sys2Proof.Laws.Issued.hostSnoop @Sys2Proof.Laws.Issued.portFill
    @Sys2Proof.Laws.Issued.portCacheEvict @Sys2Proof.Laws.Issued.leaseExpiry @Sys2Proof.Laws.Issued.leaseRevoke
    @Sys2Proof.Laws.Issued.leaseDrainDone @Sys2Proof.Laws.Issued.leaseFail @Sys2Proof.Laws.Issued.bisnp
    @Sys2Proof.Laws.Issued.peerAccess @Sys2Proof.Laws.Issued.peerRetry @Sys2Proof.Laws.Issued.polderConfigWrite
    @Sys2Proof.Laws.Issued.queueControlWrite @Sys2Proof.Laws.Issued.keyLoad @Sys2Proof.Laws.Issued.keyClear
    @Sys2Proof.Laws.Issued.keyUpdateDone @Sys2Proof.Laws.Issued.attestation @Sys2Proof.Laws.Issued.pagerWake
    @Sys2Proof.Laws.Issued.tmcWake @Sys2Proof.Laws.Issued.tileHeartbeat @Sys2Proof.Laws.Issued.tileRateSet
    @Sys2Proof.Laws.Issued.tileTake @Sys2Proof.Laws.Issued.heartbeatMiss @Sys2Proof.Laws.Issued.takeoverTimeout
    @Sys2Proof.Laws.Issued.throttle @Sys2Proof.Laws.Issued.throttleEnd @Sys2Proof.Laws.Issued.powerClockStep
    @Sys2Proof.Laws.Issued.refresh @Sys2Proof.Laws.Issued.mgmtRegisterWrite @Sys2Proof.Laws.Issued.deviceReset
    @Sys2Proof.Laws.Issued.portLinkDown @Sys2Proof.Laws.Issued.spillwayWriteBackDone @Sys2Proof.Laws.Issued.shadowBankDrainDone
    @Sys2Proof.Laws.Issued.prConsWrite @Sys2Proof.Laws.Issued.cowResvWrite @Sys2Proof.Laws.Issued.nop
    @Sys2Proof.Laws.Issued.pblk @Sys2Proof.Laws.Issued.addI64 @Sys2Proof.Laws.Issued.subI64
    @Sys2Proof.Laws.Issued.andB64 @Sys2Proof.Laws.Issued.orB64 @Sys2Proof.Laws.Issued.xorB64
    @Sys2Proof.Laws.Issued.andnB64 @Sys2Proof.Laws.Issued.sllB64 @Sys2Proof.Laws.Issued.srlB64
    @Sys2Proof.Laws.Issued.sraB64 @Sys2Proof.Laws.Issued.rorB64 @Sys2Proof.Laws.Issued.minI64
    @Sys2Proof.Laws.Issued.maxI64 @Sys2Proof.Laws.Issued.minN64 @Sys2Proof.Laws.Issued.maxN64
    @Sys2Proof.Laws.Issued.addI32Scalar @Sys2Proof.Laws.Issued.subI32Scalar @Sys2Proof.Laws.Issued.addI64Imm
    @Sys2Proof.Laws.Issued.andB64Imm @Sys2Proof.Laws.Issued.orB64Imm @Sys2Proof.Laws.Issued.xorB64Imm
    @Sys2Proof.Laws.Issued.sllB64Imm @Sys2Proof.Laws.Issued.srlB64Imm @Sys2Proof.Laws.Issued.sraB64Imm
    @Sys2Proof.Laws.Issued.rorB64Imm @Sys2Proof.Laws.Issued.scalarCompare @Sys2Proof.Laws.Issued.scalarCompareImm
    @Sys2Proof.Laws.Issued.pand @Sys2Proof.Laws.Issued.por @Sys2Proof.Laws.Issued.pxor
    @Sys2Proof.Laws.Issued.pandn @Sys2Proof.Laws.Issued.mulI64 @Sys2Proof.Laws.Issued.mulhI64
    @Sys2Proof.Laws.Issued.mulhN64 @Sys2Proof.Laws.Issued.divI64 @Sys2Proof.Laws.Issued.divN64
    @Sys2Proof.Laws.Issued.remI64 @Sys2Proof.Laws.Issued.remN64 @Sys2Proof.Laws.Issued.lea2B64
    @Sys2Proof.Laws.Issued.lea4B64 @Sys2Proof.Laws.Issued.lea8B64 @Sys2Proof.Laws.Issued.lea16B64
    @Sys2Proof.Laws.Issued.packB64 @Sys2Proof.Laws.Issued.popcB64 @Sys2Proof.Laws.Issued.clzB64
    @Sys2Proof.Laws.Issued.ctzB64 @Sys2Proof.Laws.Issued.brevB64 @Sys2Proof.Laws.Issued.bswapB64
    @Sys2Proof.Laws.Issued.bextN64 @Sys2Proof.Laws.Issued.bextI64 @Sys2Proof.Laws.Issued.binsB64
    @Sys2Proof.Laws.Issued.movI64 @Sys2Proof.Laws.Issued.br @Sys2Proof.Laws.Issued.jr
    @Sys2Proof.Laws.Issued.call @Sys2Proof.Laws.Issued.ret @Sys2Proof.Laws.Issued.mrd
    @Sys2Proof.Laws.Issued.mwr @Sys2Proof.Laws.Issued.wait @Sys2Proof.Laws.Issued.ifence
    @Sys2Proof.Laws.Issued.rdcyc @Sys2Proof.Laws.Issued.rdtime @Sys2Proof.Laws.Issued.exit
    @Sys2Proof.Laws.Issued.yield @Sys2Proof.Laws.Issued.tbar @Sys2Proof.Laws.Issued.join
    @Sys2Proof.Laws.Issued.idrScalar @Sys2Proof.Laws.Issued.idrLane @Sys2Proof.Laws.Issued.launch
    @Sys2Proof.Laws.Issued.kput @Sys2Proof.Laws.Issued.kget @Sys2Proof.Laws.Issued.brk
    @Sys2Proof.Laws.Issued.dbgHalt @Sys2Proof.Laws.Issued.dbgResume @Sys2Proof.Laws.Issued.dbgStep
    @Sys2Proof.Laws.Issued.dbgRdpc @Sys2Proof.Laws.Issued.dbgWatch @Sys2Proof.Laws.Issued.dbgHalted
    @Sys2Proof.Laws.Issued.tret @Sys2Proof.Laws.Issued.tretSkip @Sys2Proof.Laws.Issued.tretExit
    @Sys2Proof.Laws.Issued.tretTo @Sys2Proof.Laws.Issued.addI32 @Sys2Proof.Laws.Issued.subI32
    @Sys2Proof.Laws.Issued.andB32 @Sys2Proof.Laws.Issued.orB32 @Sys2Proof.Laws.Issued.xorB32
    @Sys2Proof.Laws.Issued.andnB32 @Sys2Proof.Laws.Issued.sllB32 @Sys2Proof.Laws.Issued.srlB32
    @Sys2Proof.Laws.Issued.sraB32 @Sys2Proof.Laws.Issued.minI32 @Sys2Proof.Laws.Issued.maxI32
    @Sys2Proof.Laws.Issued.minN32 @Sys2Proof.Laws.Issued.maxN32 @Sys2Proof.Laws.Issued.addsI32
    @Sys2Proof.Laws.Issued.subsI32 @Sys2Proof.Laws.Issued.selB32 @Sys2Proof.Laws.Issued.addI32Imm
    @Sys2Proof.Laws.Issued.andB32Imm @Sys2Proof.Laws.Issued.orB32Imm @Sys2Proof.Laws.Issued.xorB32Imm
    @Sys2Proof.Laws.Issued.sllB32Imm @Sys2Proof.Laws.Issued.srlB32Imm @Sys2Proof.Laws.Issued.sraB32Imm
    @Sys2Proof.Laws.Issued.rorB32Imm @Sys2Proof.Laws.Issued.movB32Imm @Sys2Proof.Laws.Issued.mulB32
    @Sys2Proof.Laws.Issued.mulhI32 @Sys2Proof.Laws.Issued.mulhN32 @Sys2Proof.Laws.Issued.madB32
    @Sys2Proof.Laws.Issued.divI32 @Sys2Proof.Laws.Issued.divN32 @Sys2Proof.Laws.Issued.remI32
    @Sys2Proof.Laws.Issued.remN32 @Sys2Proof.Laws.Issued.mulwI32 @Sys2Proof.Laws.Issued.mulwN32
    @Sys2Proof.Laws.Issued.madwN32 @Sys2Proof.Laws.Issued.dp4I8 @Sys2Proof.Laws.Issued.dp4N8
    @Sys2Proof.Laws.Issued.laneCompare @Sys2Proof.Laws.Issued.laneCompareImm @Sys2Proof.Laws.Issued.bcastB32
    @Sys2Proof.Laws.Issued.bcastB64 @Sys2Proof.Laws.Issued.rdlN32 @Sys2Proof.Laws.Issued.rdlI32
    @Sys2Proof.Laws.Issued.rdlB64 @Sys2Proof.Laws.Issued.wrlB32 @Sys2Proof.Laws.Issued.movB32
    @Sys2Proof.Laws.Issued.movB64 @Sys2Proof.Laws.Issued.pgetB32 @Sys2Proof.Laws.Issued.popcB32
    @Sys2Proof.Laws.Issued.clzB32 @Sys2Proof.Laws.Issued.ctzB32 @Sys2Proof.Laws.Issued.brevB32
    @Sys2Proof.Laws.Issued.bswapB32 @Sys2Proof.Laws.Issued.bextN32 @Sys2Proof.Laws.Issued.bextI32
    @Sys2Proof.Laws.Issued.binsB32 @Sys2Proof.Laws.Issued.addF32 @Sys2Proof.Laws.Issued.subF32
    @Sys2Proof.Laws.Issued.mulF32 @Sys2Proof.Laws.Issued.divF32 @Sys2Proof.Laws.Issued.sqrtF32
    @Sys2Proof.Laws.Issued.minF32 @Sys2Proof.Laws.Issued.maxF32 @Sys2Proof.Laws.Issued.minnF32
    @Sys2Proof.Laws.Issued.maxnF32 @Sys2Proof.Laws.Issued.absF32 @Sys2Proof.Laws.Issued.negF32
    @Sys2Proof.Laws.Issued.csgnF32 @Sys2Proof.Laws.Issued.classF32 @Sys2Proof.Laws.Issued.compareF32
    @Sys2Proof.Laws.Issued.rintF32 @Sys2Proof.Laws.Issued.sclF32 @Sys2Proof.Laws.Issued.addF64
    @Sys2Proof.Laws.Issued.subF64 @Sys2Proof.Laws.Issued.mulF64 @Sys2Proof.Laws.Issued.divF64
    @Sys2Proof.Laws.Issued.sqrtF64 @Sys2Proof.Laws.Issued.minF64 @Sys2Proof.Laws.Issued.maxF64
    @Sys2Proof.Laws.Issued.minnF64 @Sys2Proof.Laws.Issued.maxnF64 @Sys2Proof.Laws.Issued.absF64
    @Sys2Proof.Laws.Issued.negF64 @Sys2Proof.Laws.Issued.csgnF64 @Sys2Proof.Laws.Issued.classF64
    @Sys2Proof.Laws.Issued.compareF64 @Sys2Proof.Laws.Issued.rintF64 @Sys2Proof.Laws.Issued.sclF64
    @Sys2Proof.Laws.Issued.addF16 @Sys2Proof.Laws.Issued.subF16 @Sys2Proof.Laws.Issued.mulF16
    @Sys2Proof.Laws.Issued.minF16 @Sys2Proof.Laws.Issued.maxF16 @Sys2Proof.Laws.Issued.add2F16
    @Sys2Proof.Laws.Issued.sub2F16 @Sys2Proof.Laws.Issued.mul2F16 @Sys2Proof.Laws.Issued.addBf16
    @Sys2Proof.Laws.Issued.subBf16 @Sys2Proof.Laws.Issued.mulBf16 @Sys2Proof.Laws.Issued.minBf16
    @Sys2Proof.Laws.Issued.maxBf16 @Sys2Proof.Laws.Issued.add2Bf16 @Sys2Proof.Laws.Issued.sub2Bf16
    @Sys2Proof.Laws.Issued.mul2Bf16 @Sys2Proof.Laws.Issued.fmaF32 @Sys2Proof.Laws.Issued.fmsF32
    @Sys2Proof.Laws.Issued.fnmaF32 @Sys2Proof.Laws.Issued.fnmsF32 @Sys2Proof.Laws.Issued.fmaF64
    @Sys2Proof.Laws.Issued.fmsF64 @Sys2Proof.Laws.Issued.fnmaF64 @Sys2Proof.Laws.Issued.fnmsF64
    @Sys2Proof.Laws.Issued.fmaF16 @Sys2Proof.Laws.Issued.fnmaF16 @Sys2Proof.Laws.Issued.fma2F16
    @Sys2Proof.Laws.Issued.fnma2F16 @Sys2Proof.Laws.Issued.fmaBf16 @Sys2Proof.Laws.Issued.fnmaBf16
    @Sys2Proof.Laws.Issued.fma2Bf16 @Sys2Proof.Laws.Issued.fnma2Bf16 @Sys2Proof.Laws.Issued.cvt
    @Sys2Proof.Laws.Issued.cvtE4m3F32 @Sys2Proof.Laws.Issued.cvthiE4m3F32 @Sys2Proof.Laws.Issued.cvtE5m2F32
    @Sys2Proof.Laws.Issued.cvthiE5m2F32 @Sys2Proof.Laws.Issued.cvtE4m3F32Sat @Sys2Proof.Laws.Issued.cvthiE4m3F32Sat
    @Sys2Proof.Laws.Issued.cvtE5m2F32Sat @Sys2Proof.Laws.Issued.cvthiE5m2F32Sat @Sys2Proof.Laws.Issued.cvtF32E4m3
    @Sys2Proof.Laws.Issued.cvtF32E5m2 @Sys2Proof.Laws.Issued.cvt2Bf16E4m3 @Sys2Proof.Laws.Issued.cvt2Bf16E5m2
    @Sys2Proof.Laws.Issued.qsc @Sys2Proof.Laws.Issued.cvtW4F32 @Sys2Proof.Laws.Issued.cvtW3F32
    @Sys2Proof.Laws.Issued.cvtF32W4 @Sys2Proof.Laws.Issued.rcp @Sys2Proof.Laws.Issued.rsqrt
    @Sys2Proof.Laws.Issued.sfsqrt @Sys2Proof.Laws.Issued.exp2 @Sys2Proof.Laws.Issued.log2
    @Sys2Proof.Laws.Issued.sinpi @Sys2Proof.Laws.Issued.cospi @Sys2Proof.Laws.Issued.exp
    @Sys2Proof.Laws.Issued.sincospi @Sys2Proof.Laws.Issued.clmulB32 @Sys2Proof.Laws.Issued.clmulhB32
    @Sys2Proof.Laws.Issued.clmulwB32 @Sys2Proof.Laws.Issued.clmulB64 @Sys2Proof.Laws.Issued.clmulhB64
    @Sys2Proof.Laws.Issued.clmulwB64 @Sys2Proof.Laws.Issued.clmulrB32 @Sys2Proof.Laws.Issued.clmulrB64
    @Sys2Proof.Laws.Issued.xchAtB32 @Sys2Proof.Laws.Issued.xchLoB32 @Sys2Proof.Laws.Issued.xchHiB32
    @Sys2Proof.Laws.Issued.xchFlipB32 @Sys2Proof.Laws.Issued.xchAtB64 @Sys2Proof.Laws.Issued.xchLoB64
    @Sys2Proof.Laws.Issued.xchHiB64 @Sys2Proof.Laws.Issued.xchFlipB64 @Sys2Proof.Laws.Issued.lall
    @Sys2Proof.Laws.Issued.lany @Sys2Proof.Laws.Issued.lsameB32 @Sys2Proof.Laws.Issued.lmaskB32
    @Sys2Proof.Laws.Issued.scan @Sys2Proof.Laws.Issued.scanx @Sys2Proof.Laws.Issued.red
    @Sys2Proof.Laws.Issued.tput @Sys2Proof.Laws.Issued.tget @Sys2Proof.Laws.Issued.ldN8
    @Sys2Proof.Laws.Issued.ldI8 @Sys2Proof.Laws.Issued.ldN16 @Sys2Proof.Laws.Issued.ldI16
    @Sys2Proof.Laws.Issued.ldB32 @Sys2Proof.Laws.Issued.ldB64 @Sys2Proof.Laws.Issued.ldB128
    @Sys2Proof.Laws.Issued.stB8 @Sys2Proof.Laws.Issued.stB16 @Sys2Proof.Laws.Issued.stB32
    @Sys2Proof.Laws.Issued.stB64 @Sys2Proof.Laws.Issued.stB128 @Sys2Proof.Laws.Issued.ldScalar
    @Sys2Proof.Laws.Issued.stScalar @Sys2Proof.Laws.Issued.atomAdd @Sys2Proof.Laws.Issued.atomMinI
    @Sys2Proof.Laws.Issued.atomMaxI @Sys2Proof.Laws.Issued.atomMinN @Sys2Proof.Laws.Issued.atomMaxN
    @Sys2Proof.Laws.Issued.atomAnd @Sys2Proof.Laws.Issued.atomOr @Sys2Proof.Laws.Issued.atomXor
    @Sys2Proof.Laws.Issued.atomExch @Sys2Proof.Laws.Issued.atomCas @Sys2Proof.Laws.Issued.atomAddF
    @Sys2Proof.Laws.Issued.ldo @Sys2Proof.Laws.Issued.sto @Sys2Proof.Laws.Issued.rfarAddI32
    @Sys2Proof.Laws.Issued.rfarAddI64 @Sys2Proof.Laws.Issued.rfarMinI32 @Sys2Proof.Laws.Issued.rfarMaxI32
    @Sys2Proof.Laws.Issued.rfarMinN32 @Sys2Proof.Laws.Issued.rfarMaxN32 @Sys2Proof.Laws.Issued.rfarAndB32
    @Sys2Proof.Laws.Issued.rfarOrB32 @Sys2Proof.Laws.Issued.rfarXorB32 @Sys2Proof.Laws.Issued.rfarAddF32
    @Sys2Proof.Laws.Issued.rfarAddF64 @Sys2Proof.Laws.Issued.rfarMinF32 @Sys2Proof.Laws.Issued.rfarMaxF32
    @Sys2Proof.Laws.Issued.repOpen @Sys2Proof.Laws.Issued.repFlush @Sys2Proof.Laws.Issued.repClose
    @Sys2Proof.Laws.Issued.damTake @Sys2Proof.Laws.Issued.damChk @Sys2Proof.Laws.Issued.damEnd
    @Sys2Proof.Laws.Issued.warm @Sys2Proof.Laws.Issued.warr @Sys2Proof.Laws.Issued.wwait
    @Sys2Proof.Laws.Issued.wprobe @Sys2Proof.Laws.Issued.fenceAcq @Sys2Proof.Laws.Issued.fenceRel
    @Sys2Proof.Laws.Issued.fenceFull @Sys2Proof.Laws.Issued.cctlL1b @Sys2Proof.Laws.Issued.cctlL1all
    @Sys2Proof.Laws.Issued.cctlWbl @Sys2Proof.Laws.Issued.cctlWbf @Sys2Proof.Laws.Issued.cctlRel
    @Sys2Proof.Laws.Issued.pinReload @Sys2Proof.Laws.Issued.pinEnd @Sys2Proof.Laws.Issued.pinSet
    @Sys2Proof.Laws.Issued.pinClr @Sys2Proof.Laws.Issued.cptCopy @Sys2Proof.Laws.Issued.cptLtab
    @Sys2Proof.Laws.Issued.cptBind @Sys2Proof.Laws.Issued.cptAdv @Sys2Proof.Laws.Issued.cptRel
    @Sys2Proof.Laws.Issued.cptRes @Sys2Proof.Laws.Issued.mma @Sys2Proof.Laws.Issued.mld
    @Sys2Proof.Laws.Issued.mst @Sys2Proof.Laws.Issued.mqst @Sys2Proof.Laws.Issued.mcb
    @Sys2Proof.Laws.Issued.mxst @Sys2Proof.Laws.Issued.mxstClr @Sys2Proof.Laws.Issued.fqePf
    @Sys2Proof.Laws.Issued.fqeSync @Sys2Proof.Laws.Issued.fqeSub @Sys2Proof.Laws.Issued.wfork
    @Sys2Proof.Laws.Issued.wenter @Sys2Proof.Laws.Issued.wleave @Sys2Proof.Laws.Issued.wchoose
    @Sys2Proof.Laws.Issued.wstat @Sys2Proof.Laws.Issued.wwho

theorem issued_trap {inf : Info} {s : State} {body : State → State} {t : TrapReq} (h : inf.gate s = .trap t) :
    issued inf s body = .next (s.trap t) := by simp [issued, h]

theorem issued_idle {inf : Info} {s : State} {body : State → State} (h : inf.gate s = .idle) :
    issued inf s body = .next s := by simp [issued, h]

theorem issued_stall {inf : Info} {s : State} {body : State → State} (h : inf.gate s = .stall) :
    issued inf s body = .next s.stall := by simp [issued, h]

theorem issued_go {inf : Info} {s : State} {body : State → State} (h : inf.gate s = .go) :
    issued inf s body = .next (body (inf.noteUnif s)) := by simp [issued, h]

/-- A word never stops the machine. -/
theorem issued_next (inf : Info) (s : State) (body : State → State) : ∃ t, issued inf s body = .next t := by
  unfold issued
  split <;> exact ⟨_, rfl⟩

end Sys2Proof.Machine
end

