-- ==== Sys2Proof/Laws/Shapes.lean ====
section
/-! SUPPORT. One law per shape of result: a ready word reaches its effect, and what a scalar, lane or predicate result
leaves is what `ScalarIs`, `LanesAre` and `PredIs` say. -/

namespace Sys2Proof.Machine

/-! ### A ready word acts -/

theorem foldr_leastBy_none {xs : List (Option Nat)} (h : ∀ x ∈ xs, x = none) : leastOf xs = none := by
  have : xs.filterMap id = [] := by
    rw [List.filterMap_eq_nil_iff]; intro x hx; simpa using h x hx
  rw [leastOf, this]; rfl

theorem gate_of_ready {i : Instr} {s : State} (h : Ready i s) : (infoOf i).gate s = .go := by
  have hl : ¬ s.iss.eff = 0#32 := h.lanes
  have ha : ((infoOf i).reads ++ (infoOf i).writes).all Reg.aligned = true := List.all_eq_true.2 h.aligned
  have ho : leastOf (((infoOf i).reads ++ (infoOf i).writes).map (Reg.outside s.g.regsN)) = none := by
    apply foldr_leastBy_none
    intro x hx
    obtain ⟨r, hr, rfl⟩ := List.mem_map.1 hx
    exact h.allotted r hr
  have hs : (infoOf i).static s = none := by
    simp only [Info.static, h.available, Info.operandTrap, ha, ho, h.allowed]
    simp
  simp only [Info.gate, hs, h.noWait, h.clean]
  rcases h.uniform with hu | hu <;> simp [hu, hl]

theorem noted_eq {i : Instr} {s : State} (h : (infoOf i).uniform = []) : s.noted i = s := by
  simp [State.noted, Info.noteUnif, Info.nonuniform, h]

/-! ### Poison of the sources -/

theorem or_foldl_ne_zero (f : Nat → Word) (xs : List Nat) (a : Word) (l : Nat)
    (hf : ∀ i, f i ≠ 0 → (f i).getLsbD l = true) (ha : a ≠ 0 → a.getLsbD l = true) :
    (xs.foldl (fun a i => a ||| f i) a != 0#32) = (a.getLsbD l || xs.any (fun i => (f i).getLsbD l)) := by
  induction xs generalizing a with
  | nil =>
    simp only [List.foldl_nil, List.any_nil, Bool.or_false]
    by_cases h : a = 0#32
    · simp [h]
    · simp [ha h, h]
  | cons x xs ih =>
    rw [List.foldl_cons, ih]
    · simp [Bool.or_assoc]
    · intro h
      by_cases h0 : a = 0#32
      · have : f x ≠ 0 := by intro e; apply h; simp [h0, e]
        simp [hf x this]
      · simp [ha h0]

theorem poisMask_laneBit (r : Regs) (l : Nat) (hl : l < 32) (x : Reg) :
    (x.poisMask r (laneBit l) != 0#32) =
      match x with
      | .v n w => r.badV n w l
      | .s n => r.poisS n
      | .p n => (r.poisP n).getLsbD l
      | .k n => r.poisK n
      | .m _ => false := by
  have hb : laneBit l ≠ 0#32 := by
    intro e; have := congrArg (fun x => x.getLsbD l) e; simp [getLsbD_laneBit hl] at this
  cases x with
  | v n w =>
    simp only [Reg.poisMask, Regs.badV]
    rw [or_foldl_ne_zero _ _ _ l _ (by simp)]
    · simp [getLsbD_laneBit hl]
    · intro i h
      have := (getLsbD_and_laneBit (m := r.poisV (n + i)) hl).symm
      rw [BitVec.getLsbD_and, getLsbD_laneBit hl, this]
      simpa using h
  | s n => cases h : r.poisS n <;> simp [Reg.poisMask, h, hb]
  | p n => simpa [Reg.poisMask] using getLsbD_and_laneBit (m := r.poisP n) hl
  | k n => cases h : r.poisK n <;> simp [Reg.poisMask, h, hb]
  | m n => simp [Reg.poisMask]

/-! ### Results -/

theorem scalarOut_is {inf : Info} {d : BitVec 7} {x : DWord} {s : State} :
    ScalarIs d.toNat x (inf.poisAny s) s (scalarOut inf d x s) where
  value := by simp [scalarOut]
  poison := by simp [scalarOut]
  others n h := by simp [scalarOut, h]
  bytes l i h := by
    cases l with
    | reg k b => exact absurd rfl (h k b)
    | _ => rfl
  rest := rfl

theorem poisAny_scalars {inf : Info} {s : State} (h : s.iss.eff ≠ 0) {ns : List Nat} (hr : inf.reads = ns.map Reg.s) :
    inf.poisAny s = ns.any s.src.poisS := by
  have hb : ¬ s.iss.eff = 0#32 := h
  simp only [Info.poisAny, hr, List.any_map]
  congr 1
  funext n
  cases hp : s.src.poisS n <;> simp [Reg.poisMask, hp, hb]

theorem rdByte_setR (s : State) (f : Regs → Regs) (l : Loc) (i : Nat) (h : ∀ k b, l ≠ .reg k b) :
    (s.setR f).rdByte l i = s.rdByte l i := by
  cases l with
  | reg k b => exact absurd rfl (h k b)
  | _ => rfl

/-- Writes of one or more lane registers in every lane with effect. -/
theorem eachEff_is {s : State} {d w : Nat} {f : Regs → Nat → Regs} {x : Nat → Nat → Word} {b : Nat → Bool}
    (hv : ∀ r l q k, l < 32 → k < 32 →
      (f r l).rdV q k = if k = l ∧ d ≤ q ∧ q < d + w then x l (q - d) else r.rdV q k)
    (hp : ∀ r l q k, l < 32 → k < 32 →
      ((f r l).poisV q).getLsbD k = if k = l ∧ d ≤ q ∧ q < d + w then b l else (r.poisV q).getLsbD k)
    (ho : ∀ r l, ∃ v p, f r l = { r with v := v, vPois := p }) :
    LanesAre s.iss.eff d w x b s (s.eachEff f) where
  value l j hl hj := by
    have hl' := lt_of_mem_lanesOf (mem_lanesOf.2 hl)
    constructor
    · rw [show (s.eachEff f).g.r.rdV (d + j) l = ((lanesOf s.iss.eff).foldl f s.g.r).rdV (d + j) l from rfl,
        foldl_lane (fun r l => r.rdV (d + j) l) f (fun l => x l j)
          (fun r l h => by simp [hv r l _ _ h h, hj])
          (fun r l k h hk e => by simp [hv r l _ _ h hk, e])
          _ (fun _ h => lt_of_mem_lanesOf h) _ _ hl', if_pos (mem_lanesOf.2 hl)]
    · rw [show ((s.eachEff f).g.r.poisV (d + j)).getLsbD l = (((lanesOf s.iss.eff).foldl f s.g.r).poisV (d + j)).getLsbD l
          from rfl,
        foldl_lane (fun r l => (r.poisV (d + j)).getLsbD l) f b
          (fun r l h => by simp [hp r l _ _ h h, hj])
          (fun r l k h hk e => by simp [hp r l _ _ h hk, e])
          _ (fun _ h => lt_of_mem_lanesOf h) _ _ hl', if_pos (mem_lanesOf.2 hl)]
  others n l hl hn := by
    constructor
    · rw [show (s.eachEff f).g.r.rdV n l = ((lanesOf s.iss.eff).foldl f s.g.r).rdV n l from rfl]
      exact foldl_keep (fun r => r.rdV n l) f _ _ (fun r k hk => by
        rw [hv r k n l (lt_of_mem_lanesOf hk) hl, if_neg]
        rintro ⟨rfl, h1, h2⟩
        exact hn ⟨mem_lanesOf.1 hk, h1, h2⟩)
    · rw [show ((s.eachEff f).g.r.poisV n).getLsbD l = (((lanesOf s.iss.eff).foldl f s.g.r).poisV n).getLsbD l from rfl]
      exact foldl_keep (fun r => (r.poisV n).getLsbD l) f _ _ (fun r k hk => by
        rw [hp r k n l (lt_of_mem_lanesOf hk) hl, if_neg]
        rintro ⟨rfl, h1, h2⟩
        exact hn ⟨mem_lanesOf.1 hk, h1, h2⟩)
  bytes l i h := rdByte_setR s _ l i h
  rest := by
    have := foldl_wr (f := f) (lanesOf s.iss.eff) s.g.r ho
    unfold State.takeLanes State.eachEff State.setR
    simp only
    rw [this]

theorem wrW_get {w : Nat} : ∀ {r : Regs} {n x : Nat} {l q k : Nat} {b : Bool}, l < 32 → k < 32 →
    (r.wrW w n l x b).rdV q k = if k = l ∧ n ≤ q ∧ q < n + w then BitVec.ofNat 32 (x / 2 ^ (32 * (q - n))) else r.rdV q k := by
  induction w with
  | zero =>
    intro r n x l q k b _ _
    have : ¬ (k = l ∧ n ≤ q ∧ q < n + 0) := by omega
    simp only [Regs.wrW, this, if_false]
  | succ w ih =>
    intro r n x l q k b hl hk
    rw [Regs.wrW, ih hl hk, rdV_wrV hl hk]
    by_cases h : k = l ∧ n + 1 ≤ q ∧ q < n + 1 + w
    · rw [if_pos h, if_pos (by omega), Nat.div_div_eq_div_mul, ← Nat.pow_add,
        show 32 + 32 * (q - (n + 1)) = 32 * (q - n) by omega]
    · rw [if_neg h]
      by_cases h2 : q = n ∧ k = l
      · rw [if_pos h2, if_pos (by omega), h2.1]; simp
      · rw [if_neg h2, if_neg (by omega)]

theorem wrW_pois {w : Nat} : ∀ {r : Regs} {n x : Nat} {l q k : Nat} {b : Bool}, k < 32 →
    ((r.wrW w n l x b).poisV q).getLsbD k = if k = l ∧ n ≤ q ∧ q < n + w then b else (r.poisV q).getLsbD k := by
  induction w with
  | zero =>
    intro r n x l q k b _
    have : ¬ (k = l ∧ n ≤ q ∧ q < n + 0) := by omega
    simp only [Regs.wrW, this, if_false]
  | succ w ih =>
    intro r n x l q k b hk
    rw [Regs.wrW, ih hk, poisV_wrV hk]
    by_cases h : k = l ∧ n + 1 ≤ q ∧ q < n + 1 + w
    · rw [if_pos h, if_pos (by omega)]
    · rw [if_neg h]
      by_cases h2 : q = n ∧ k = l
      · rw [if_pos h2, if_pos (by omega)]
      · rw [if_neg h2, if_neg (by omega)]

theorem wrW_only (w : Nat) : ∀ (r : Regs) (n l x : Nat) (b : Bool), ∃ v p, r.wrW w n l x b = { r with v := v, vPois := p } := by
  induction w with
  | zero => intro r n l x b; exact ⟨r.v, r.vPois, rfl⟩
  | succ w ih =>
    intro r n l x b
    obtain ⟨v, p, e⟩ := ih (r.wrV n l (BitVec.ofNat 32 x) b) (n + 1) l (x / 2 ^ 32) b
    exact ⟨v, p, e⟩

/-- A result of `w` lane registers. -/
theorem laneW_is {s : State} {d w : Nat} {x : Nat → Nat} {b : Nat → Bool} :
    LanesAre s.iss.eff d w (fun l j => BitVec.ofNat 32 (x l / 2 ^ (32 * j))) b s
      (s.eachEff (fun r l => r.wrW w d l (x l) (b l))) :=
  eachEff_is (fun _ _ _ _ h h' => wrW_get h h') (fun _ _ _ _ _ h' => wrW_pois h') (fun _ _ => wrW_only _ _ _ _ _ _)

theorem wrV_eq_wrW {r : Regs} {n l : Nat} {x : Word} {b : Bool} : r.wrV n l x b = r.wrW 1 n l x.toNat b := by
  simp [Regs.wrW]

theorem wrV2_eq_wrW {r : Regs} {n l : Nat} {x : DWord} {b : Bool} : r.wrV2 n l x b = r.wrW 2 n l x.toNat b := by
  simp only [Regs.wrV2, Regs.wrW]
  rw [show x.extractLsb' 0 32 = BitVec.ofNat 32 x.toNat from
      BitVec.eq_of_toNat_eq (by simp [BitVec.extractLsb'_toNat]),
    show x.extractLsb' 32 32 = BitVec.ofNat 32 (x.toNat / 2 ^ 32) from
      BitVec.eq_of_toNat_eq (by simp [BitVec.extractLsb'_toNat, Nat.shiftRight_eq_div_pow])]

theorem lane1_is {inf : Info} {d : BitVec 7} {f : Nat → Word} {s : State} :
    LanesAre s.iss.eff d.toNat 1 (fun l j => BitVec.ofNat 32 ((f l).toNat / 2 ^ (32 * j))) (fun l => inf.pois s.src l) s
      (lane1 inf d f s) := by
  simp only [lane1, wrV_eq_wrW]; exact laneW_is

theorem lane2_is {inf : Info} {d : BitVec 7} {f : Nat → DWord} {s : State} :
    LanesAre s.iss.eff d.toNat 2 (fun l j => BitVec.ofNat 32 ((f l).toNat / 2 ^ (32 * j))) (fun l => inf.pois s.src l) s
      (lane2 inf d f s) := by
  simp only [lane2, wrV2_eq_wrW]; exact laneW_is

/-- A predicate bit in every lane with effect. -/
theorem lanePred_is {inf : Info} {d : Nat} {f : Nat → Bool} {s : State} :
    PredIs s.iss.eff d f (fun l => inf.pois s.src l) s (lanePred inf d f s) where
  value h7 l hl := by
    have hl' := lt_of_mem_lanesOf (mem_lanesOf.2 hl)
    constructor
    · rw [show (lanePred inf d f s).g.r.rdPL d l =
          ((lanesOf s.iss.eff).foldl (fun r l => r.wrP d l (f l) (inf.pois s.src l)) s.g.r).rdPL d l from rfl,
        foldl_lane (fun r l => r.rdPL d l) _ f (fun r l h => by simp [rdPL_wrP h, h7])
          (fun r l k h hk e => by simp [rdPL_wrP hk, e]) _ (fun _ h => lt_of_mem_lanesOf h) _ _ hl',
        if_pos (mem_lanesOf.2 hl)]
    · rw [show ((lanePred inf d f s).g.r.poisP d).getLsbD l =
          (((lanesOf s.iss.eff).foldl (fun r l => r.wrP d l (f l) (inf.pois s.src l)) s.g.r).poisP d).getLsbD l from rfl,
        foldl_lane (fun r l => (r.poisP d).getLsbD l) _ (inf.pois s.src) (fun r l h => by simp [poisP_wrP h, h7])
          (fun r l k h hk e => by simp [poisP_wrP hk, e]) _ (fun _ h => lt_of_mem_lanesOf h) _ _ hl',
        if_pos (mem_lanesOf.2 hl)]
  others n l hl hn := by
    constructor
    · rw [show (lanePred inf d f s).g.r.rdPL n l =
          ((lanesOf s.iss.eff).foldl (fun r l => r.wrP d l (f l) (inf.pois s.src l)) s.g.r).rdPL n l from rfl]
      exact foldl_keep (fun r => r.rdPL n l) _ _ _ (fun r k hk => by
        rw [rdPL_wrP hl, if_neg]
        rintro ⟨rfl, rfl, h⟩
        exact hn ⟨mem_lanesOf.1 hk, rfl, h⟩)
    · rw [show ((lanePred inf d f s).g.r.poisP n).getLsbD l =
          (((lanesOf s.iss.eff).foldl (fun r l => r.wrP d l (f l) (inf.pois s.src l)) s.g.r).poisP n).getLsbD l from rfl]
      exact foldl_keep (fun r => (r.poisP n).getLsbD l) _ _ _ (fun r k hk => by
        rw [poisP_wrP hl, if_neg]
        rintro ⟨rfl, rfl, h⟩
        exact hn ⟨mem_lanesOf.1 hk, rfl, h⟩)
  bytes l i h := rdByte_setR s _ l i h
  rest := by
    have := foldl_wrP (f := fun r l => r.wrP d l (f l) (inf.pois s.src l)) (lanesOf s.iss.eff) s.g.r
      (fun r l => wrP_only r d l _ _)
    unfold State.takePreds lanePred State.eachEff State.setR
    simp only
    rw [this]

/-! ### Shapes -/

theorem pois_scalars {inf : Info} {s : State} (h : s.iss.eff ≠ 0) {ns : List Nat} (hr : inf.reads = ns.map Reg.s) :
    inf.poisAny s = ns.any s.src.poisS := poisAny_scalars h hr

theorem pois_lanes {inf : Info} {r : Regs} {vs : List (Nat × Nat)} (hr : inf.reads = vs.map (fun e => Reg.v e.1 e.2))
    {l : Nat} (hl : l < 32) : inf.pois r l = vs.any (fun e => r.badV e.1 e.2 l) := by
  simp only [Info.pois, hr, List.any_map]
  congr 1
  funext e
  simpa using poisMask_laneBit r l hl (.v e.1 e.2)

/-- The result and poison of a lane result may be replaced by equal ones. -/
theorem LanesAre.congr {m : Word} {d w : Nat} {x y : Nat → Nat → Word} {a b : Nat → Bool} {s t : State}
    (h : LanesAre m d w x a s t) (hx : ∀ l j, m.getLsbD l = true → j < w → x l j = y l j)
    (hb : ∀ l, l < 32 → m.getLsbD l = true → a l = b l) : LanesAre m d w y b s t :=
  ⟨fun l j hl hj => by
    rw [← hx l j hl hj, ← hb l (lt_of_mem_lanesOf (mem_lanesOf.2 hl)) hl]; exact h.value l j hl hj,
   h.others, h.bytes, h.rest⟩

theorem PredIs.congr {m : Word} {d : Nat} {x y a b : Nat → Bool} {s t : State} (h : PredIs m d x a s t)
    (hx : ∀ l, m.getLsbD l = true → x l = y l) (hb : ∀ l, l < 32 → m.getLsbD l = true → a l = b l) : PredIs m d y b s t :=
  ⟨fun h7 l hl => by
    rw [← hx l hl, ← hb l (lt_of_mem_lanesOf (mem_lanesOf.2 hl)) hl]; exact h.value h7 l hl,
   h.others, h.bytes, h.rest⟩

/-- A ready word that notes nothing answers with its effect. -/
theorem ready_next {i : Instr} {inf : Info} {s : State} {body : State → State} (h : Ready i s) (hi : infoOf i = inf)
    (hu : inf.uniform = []) : issued inf s body = .next (body s) := by
  subst hi
  rw [issued_go (gate_of_ready h), show (infoOf i).noteUnif s = s from noted_eq hu]

theorem scalar3_of {c : BitVec 7 → BitVec 7 → BitVec 7 → Instr} {f g : DWord → DWord → DWord}
    (hi : ∀ d a b, infoOf (c d a b) = infS3 d a b)
    (he : ∀ d a b s, exec (c d a b) s = issued (infS3 d a b) s (scal3 d a b g)) (hg : ∀ x y, g x y = f x y) :
    Scalar3 c f := by
  intro d a b s h
  refine ⟨_, (he d a b s).trans (ready_next h (hi d a b) rfl), ?_⟩
  have := scalarOut_is (inf := infS3 d a b) (d := d) (x := g (s.rs a) (s.rs b)) (s := s)
  rw [poisAny_scalars (ns := [a.toNat, b.toNat]) h.lanes rfl] at this
  simpa [State.rs, scal3, ← hg] using this

theorem scalar2_of {c : BitVec 7 → BitVec 7 → Instr} {f g : DWord → DWord} (hi : ∀ d a, infoOf (c d a) = infS2 d a)
    (he : ∀ d a s, exec (c d a) s = issued (infS2 d a) s (scal2 d a g)) (hg : ∀ x, g x = f x) : Scalar2 c f := by
  intro d a s h
  refine ⟨_, (he d a s).trans (ready_next h (hi d a) rfl), ?_⟩
  have := scalarOut_is (inf := infS2 d a) (d := d) (x := g (s.rs a)) (s := s)
  rw [poisAny_scalars (ns := [a.toNat]) h.lanes rfl] at this
  simpa [State.rs, scal2, ← hg] using this

theorem rdW_one (r : Regs) (n l : Nat) : r.rdW 1 n l = (r.rdV n l).toNat := by simp [Regs.rdW]

theorem rdW_two (r : Regs) (n l : Nat) : r.rdW 2 n l = (r.rdV2 n l).toNat := by
  simp only [Regs.rdW, Regs.rdV2, BitVec.toNat_append, Nat.mul_zero, Nat.add_zero]
  rw [Nat.shiftLeft_eq, Nat.mul_comm (BitVec.toNat _), ← Nat.two_pow_add_eq_or_of_lt (BitVec.isLt _), Nat.add_comm]

/-- Lane words of two sources, whatever the widths. -/
theorem lane3_of {wd wa wb : Nat} {c : BitVec 7 → BitVec 7 → BitVec 7 → Instr} {f : Nat → Nat → Nat} {pipe : Pipe}
    {body : BitVec 7 → BitVec 7 → BitVec 7 → State → State → State} {x : BitVec 7 → BitVec 7 → State → Nat → Nat}
    (hi : ∀ d a b, infoOf (c d a b) = infV3 pipe wd wa wb d a b)
    (he : ∀ d a b s, exec (c d a b) s = issued (infV3 pipe wd wa wb d a b) s (body d a b s))
    (hb : ∀ d a b s, LanesAre s.iss.eff d.toNat wd (fun l j => BitVec.ofNat 32 (x a b s l / 2 ^ (32 * j)))
      (fun l => (infV3 pipe wd wa wb d a b).pois s.src l) s (body d a b s s))
    (hx : ∀ a b s l j, j < wd → BitVec.ofNat 32 (x a b s l / 2 ^ (32 * j)) =
      BitVec.ofNat 32 (f (s.src.rdW wa a.toNat l) (s.src.rdW wb b.toNat l) / 2 ^ (32 * j))) :
    Lane3 wd wa wb c f := by
  intro d a b s h
  refine ⟨_, (he d a b s).trans (ready_next h (hi d a b) rfl), (hb d a b s).congr (fun l j _ hj => hx a b s l j hj) ?_⟩
  intro l hl _
  rw [pois_lanes (vs := [(a.toNat, wa), (b.toNat, wb)]) rfl hl]
  simp

theorem lane2_of {wd wa : Nat} {c : BitVec 7 → BitVec 7 → Instr} {f : Nat → Nat} {pipe : Pipe}
    {body : BitVec 7 → BitVec 7 → State → State → State} {x : BitVec 7 → State → Nat → Nat}
    (hi : ∀ d a, infoOf (c d a) = infV2 pipe wd wa d a)
    (he : ∀ d a s, exec (c d a) s = issued (infV2 pipe wd wa d a) s (body d a s))
    (hb : ∀ d a s, LanesAre s.iss.eff d.toNat wd (fun l j => BitVec.ofNat 32 (x a s l / 2 ^ (32 * j)))
      (fun l => (infV2 pipe wd wa d a).pois s.src l) s (body d a s s))
    (hx : ∀ a s l j, j < wd → BitVec.ofNat 32 (x a s l / 2 ^ (32 * j)) =
      BitVec.ofNat 32 (f (s.src.rdW wa a.toNat l) / 2 ^ (32 * j))) : Lane2 wd wa c f := by
  intro d a s h
  refine ⟨_, (he d a s).trans (ready_next h (hi d a) rfl), (hb d a s).congr (fun l j _ hj => hx a s l j hj) ?_⟩
  intro l hl _
  rw [pois_lanes (vs := [(a.toNat, wa)]) rfl hl]
  simp

theorem lane4_of {wd wa wb : Nat} {c : BitVec 7 → BitVec 7 → BitVec 7 → Instr} {f : Nat → Nat → Nat → Nat} {pipe : Pipe}
    {body : BitVec 7 → BitVec 7 → BitVec 7 → State → State → State} {x : BitVec 7 → BitVec 7 → BitVec 7 → State → Nat → Nat}
    (hi : ∀ d a b, infoOf (c d a b) = infV4 pipe wd wa wb d a b)
    (he : ∀ d a b s, exec (c d a b) s = issued (infV4 pipe wd wa wb d a b) s (body d a b s))
    (hb : ∀ d a b s, LanesAre s.iss.eff d.toNat wd (fun l j => BitVec.ofNat 32 (x d a b s l / 2 ^ (32 * j)))
      (fun l => (infV4 pipe wd wa wb d a b).pois s.src l) s (body d a b s s))
    (hx : ∀ d a b s l j, j < wd → BitVec.ofNat 32 (x d a b s l / 2 ^ (32 * j)) =
      BitVec.ofNat 32 (f (s.src.rdW wa a.toNat l) (s.src.rdW wb b.toNat l) (s.src.rdW wd d.toNat l) / 2 ^ (32 * j))) :
    Lane4 wd wa wb c f := by
  intro d a b s h
  refine ⟨_, (he d a b s).trans (ready_next h (hi d a b) rfl), (hb d a b s).congr (fun l j _ hj => hx d a b s l j hj) ?_⟩
  intro l hl _
  rw [pois_lanes (vs := [(a.toNat, wa), (b.toNat, wb), (d.toNat, wd)]) rfl hl]
  simp [Bool.or_assoc]

/-! ### Floating-point words -/

theorem LanesAre.raise {m : Word} {d w : Nat} {x : Nat → Nat → Word} {b : Nat → Bool} {s t : State}
    (h : LanesAre m d w x b s t) (u : BitVec 5) : LanesAre m d w x b (s.raise u) (t.raise u) where
  value := h.value
  others := h.others
  bytes l i hl := h.bytes l i hl
  rest := by
    obtain ⟨_, _, _, hr⟩ := h
    have e : ∀ r : State, (s.takeLanes r).raise u = (s.raise u).takeLanes (r.raise u) := fun _ => rfl
    exact (congrArg (fun r => r.raise u) hr).trans (e t)

theorem PredIs.raise {m : Word} {d : Nat} {x b : Nat → Bool} {s t : State} (h : PredIs m d x b s t) (u : BitVec 5) :
    PredIs m d x b (s.raise u) (t.raise u) where
  value := h.value
  others := h.others
  bytes l i hl := h.bytes l i hl
  rest := by
    obtain ⟨_, _, _, hr⟩ := h
    have e : ∀ r : State, (s.takePreds r).raise u = (s.raise u).takePreds (r.raise u) := fun _ => rfl
    exact (congrArg (fun r => r.raise u) hr).trans (e t)

theorem foldl_filter_or (p : Nat → Bool) (f : Nat → BitVec 5) (ls : List Nat) (a : BitVec 5) :
    (ls.filter (fun l => !p l)).foldl (fun m l => m ||| f l) a =
      ls.foldl (fun u l => if p l then u else u ||| f l) a := by
  induction ls generalizing a with
  | nil => rfl
  | cons l ls ih => cases h : p l <;> simp [h, ih]

/-- An exception in the union was raised in some lane. -/
theorem exists_of_union (p : Nat → Bool) (f : Nat → BitVec 5) (en : BitVec 5) (ls : List Nat) (a : BitVec 5)
    (h : ls.foldl (fun u l => if p l then u else u ||| f l) a &&& en ≠ 0) (ha : a &&& en = 0) :
    ∃ l ∈ ls, p l = false ∧ f l &&& en ≠ 0 := by
  induction ls generalizing a with
  | nil => exact absurd ha h
  | cons l ls ih =>
    rw [List.foldl_cons] at h
    by_cases hl : p l = false ∧ f l &&& en ≠ 0
    · exact ⟨l, by simp, hl⟩
    · obtain ⟨k, hk, h'⟩ := ih _ h (by
        cases hp : p l with
        | true => simpa using ha
        | false =>
          have hf : f l &&& en = 0 := by by_contra e; exact hl ⟨hp, e⟩
          simp only [Bool.false_eq_true, if_false]
          have : (a ||| f l) &&& en = (a &&& en) ||| (f l &&& en) := by ext i; simp [Bool.and_or_distrib_right]
          rw [this, ha, hf]; rfl)
      exact ⟨k, by simp [hk], h'⟩

/-- How a floating-point word ends (R26, R118). -/
theorem fpFinishOn_ends {p : Nat → Bool} {f : Nat → BitVec 5} {write : State → State} {s : State} {u : BitVec 5}
    (hu : u = (lanesOf s.iss.eff).foldl (fun u l => if p l then u else u ||| f l) 0) :
    (u &&& s.src.fpEnables = 0 → fpFinishOn p f write s = (write s).raise u) ∧
    (u &&& s.src.fpEnables ≠ 0 → ∃ l, s.iss.eff.getLsbD l = true ∧ p l = false ∧ f l &&& s.src.fpEnables ≠ 0 ∧
      (∀ k, k < l → s.iss.eff.getLsbD k = true → p k = false → f k &&& s.src.fpEnables = 0) ∧
      fpFinishOn p f write s = s.trap (mkTrap 6 l (u.zeroExtend 64) 0 0 0)) := by
  have hf : ((lanesOf s.iss.eff).filter (fun l => !p l)).foldl (fun m l => m ||| f l) 0 = u := by
    rw [foldl_filter_or, hu]
  constructor
  · intro h
    simp only [fpFinishOn, hf]
    simp [h]
  · intro h
    obtain ⟨l0, hl0, hp0, he0⟩ := exists_of_union p f s.src.fpEnables _ _ (hu ▸ h) (by simp)
    have hx : ∃ l, ((lanesOf s.iss.eff).filter (fun l => !p l)).find? (fun l => f l &&& s.src.fpEnables != 0#5) = some l := by
      rw [← Option.isSome_iff_exists, List.find?_isSome]
      exact ⟨l0, by simp [hl0, hp0], by simpa using he0⟩
    obtain ⟨l, hl⟩ := hx
    have hm := List.mem_of_find?_eq_some hl
    have hm' := List.mem_filter.1 hm
    refine ⟨l, mem_lanesOf.1 hm'.1, by simpa using hm'.2, by simpa using List.find?_some hl, ?_, ?_⟩
    · intro k hk hke hkp
      by_contra hc
      have hr := (List.find?_eq_some_iff_append.1 hl).2
      obtain ⟨as, bs, e, has⟩ := hr
      have hkm : k ∈ (lanesOf s.iss.eff).filter (fun l => !p l) := by simp [mem_lanesOf.2 hke, hkp]
      have hsort : List.Pairwise (· < ·) ((lanesOf s.iss.eff).filter (fun l => !p l)) := by
        unfold lanesOf; exact (List.pairwise_lt_range.filter _).filter _
      rw [e] at hkm hsort
      rcases List.mem_append.1 hkm with h1 | h1
      · have := has k h1; simp at this; exact hc this
      · rcases List.mem_cons.1 h1 with rfl | h2
        · omega
        · have := List.rel_of_pairwise_cons (List.pairwise_append.1 hsort).2.1 h2
          omega
    · simp only [fpFinishOn, hf]
      rw [if_pos (by simpa using h), hl]
      rfl

/-- A floating-point lane word ends as R26 and R118 say. -/
theorem fpLanes_ends {i : Instr} {inf : Info} {w : Nat} {d : BitVec 7} {f : Nat → FpRes} {b : Nat → Bool} {s : State}
    (h : Ready i s) (hi : infoOf i = inf) (hu : inf.uniform = []) (he : exec i s = issued inf s (fpLanes inf w d f))
    (hb : ∀ l, l < 32 → inf.pois s.src l = b l) : FpEnds i s d.toNat w f b := by
  have hn : exec i s = .next (fpLanes inf w d f s) := he.trans (ready_next h hi hu)
  have hu : flagsOf s.iss.eff f b = (lanesOf s.iss.eff).foldl (fun u l => if inf.pois s.src l then u else u ||| (f l).2) 0 := by
    unfold flagsOf
    apply List.foldl_ext
    intro a l hl
    rw [hb l (lt_of_mem_lanesOf hl)]
  have key := fpFinishOn_ends (p := inf.pois s.src) (f := fun l => (f l).2)
    (write := fun s => s.eachEff (fun r l => r.wrW w d.toNat l (f l).1 (inf.pois s.src l))) (s := s) hu
  constructor
  · intro h0
    refine ⟨_, hn, ?_⟩
    have e : fpLanes inf w d f s = _ := key.1 h0
    rw [e]
    exact (laneW_is.congr (fun _ _ _ _ => rfl) (fun l hl _ => hb l hl)).raise _
  · intro h0
    obtain ⟨l, h1, h2, h3, h4, h5⟩ := key.2 h0
    have hl := lt_of_mem_lanesOf (mem_lanesOf.2 h1)
    refine ⟨l, h1, (hb l hl) ▸ h2, h3, fun k hk hke hkb => h4 k hk hke ?_, hn.trans ?_⟩
    · rw [hb k (by omega)]; exact hkb
    · exact congrArg Host.Outcome.next h5

theorem fp3_of {w : Nat} {c : BitVec 7 → BitVec 7 → BitVec 7 → Instr} {f : FpCtl → Nat → Nat → FpRes}
    (hi : ∀ d a b, infoOf (c d a b) = infV3 .v w w w d a b)
    (he : ∀ d a b s, exec (c d a b) s = issued (infV3 .v w w w d a b) s (fp3 w d a b (f s.fc))) : Fp3 w c f := by
  intro d a b s h
  refine fpLanes_ends h (hi d a b) rfl ((he d a b s).trans rfl) ?_
  intro l hl
  rw [pois_lanes (vs := [(a.toNat, w), (b.toNat, w)]) rfl hl]; simp

theorem fp4_of {w : Nat} {c : BitVec 7 → BitVec 7 → BitVec 7 → Instr} {f : FpCtl → Nat → Nat → Nat → FpRes}
    (hi : ∀ d a b, infoOf (c d a b) = infV4 .v w w w d a b)
    (he : ∀ d a b s, exec (c d a b) s = issued (infV4 .v w w w d a b) s (fp4 w d a b (f s.fc))) : Fp4 w c f := by
  intro d a b s h
  refine fpLanes_ends h (hi d a b) rfl ((he d a b s).trans rfl) ?_
  intro l hl
  rw [pois_lanes (vs := [(a.toNat, w), (b.toNat, w), (d.toNat, w)]) rfl hl]; simp [Bool.or_assoc]

end Sys2Proof.Machine
end

