-- ==== Sys2Proof/Tests/Slice0.lean ====
section
/-! SUPPORT. Tests of the model: ill-formed words, words written out from the spec's encodings, one step on small states,
and for each statement of Certificates/Slice0/Obligations.lean states that meet its hypotheses. -/

open Sys2Proof Sys2Proof.Machine

namespace Sys2Proof.Tests

set_option Elab.async false

/-! ### States to run words in -/

/-- A word of a group of a role is at hand in all 32 lanes. -/
def atWord (kind : Nat) : State :=
  let s := (State.reset.loadCompute kind 0x1E000000).focusOn (gidOf 0 0)
  { s with dev := { s.dev with featAccept := 0x3FF },
           iss := { Issue.none with set := 0xFFFFFFFF#32, eff := 0xFFFFFFFF#32, next := 1, word := 0x1E000000 } }

/-- The same in a handler that lane 0 runs. -/
def inHandler : State :=
  (atWord 0).setG (fun g => { g with r := { g.r with mstat := g.r.mstat ||| 1 }, save := some ⟨[(1, 8)], g.lsv, g.blk, some ⟨4, 1, false⟩⟩,
                                     hlanes := 1, pcv := [(0, 64)] })

/-- A word is at hand on base-tile core `u`: 0 to 7 pager cores, 8 to 15 management cores. -/
def onBase (u : Nat) : State :=
  let s := State.reset.focusOn u
  { s with dev := { s.dev with featAccept := 0x3FF }, iss := { Issue.none with unit := 4096 + u, set := 1, eff := 1, next := 1 } }

/-- The conditions of `Ready`, computed. -/
def readyB (i : Instr) (s : State) : Bool :=
  (infoOf i).unavailable s == none && s.iss.eff != 0
    && ((infoOf i).reads ++ (infoOf i).writes).all (fun r => r.aligned && r.outside s.g.regsN == none)
    && (infoOf i).need.ok s.src && !(infoOf i).stalls s && (s.src.unifMode || (infoOf i).nonuniform s == none)
    && (infoOf i).poisoned s == none

theorem ready_of {i : Instr} {s : State} (h : readyB i s = true) : Ready i s := by
  simp only [readyB, Bool.and_eq_true, beq_iff_eq, bne_iff_ne, ne_eq, List.all_eq_true, Bool.not_eq_true', Bool.or_eq_true] at h
  obtain ⟨⟨⟨⟨⟨⟨h1, h2⟩, h3⟩, h4⟩, h5⟩, h6⟩, h7⟩ := h
  exact ⟨h1, h2, fun r hr => (h3 r hr).1, fun r hr => (h3 r hr).2, h4, h5, h6, h7⟩

/-- A compute group of the role that the word needs, in a handler or a pager core where the word needs it. -/
def stateFor (i : Instr) : State :=
  if (infoOf i).need.ok (atWord 0).src then atWord (infoOf i).role
  else if (infoOf i).need.ok inHandler.src then inHandler else onBase 0

theorem ready_in {l : List Instr} (h : l.all (fun i => readyB i (stateFor i)) = true) : ∀ i ∈ l, Ready i (stateFor i) :=
  fun i hi => ready_of (List.all_eq_true.mp h i hi)

/-- The state after a meaning. -/
def after (o : Out) : State :=
  match o with
  | .next s => s
  | _ => State.reset

def setS (s : State) (n : Nat) (x : DWord) : State := s.setR (fun r => { r with s := mapSet 0 r.s n x })
/-- Lane register `n` holds `x` in every lane. -/
def setV (s : State) (n : Nat) (x : Word) : State :=
  s.setR (fun r => { r with v := (List.range 32).foldl (fun m l => mapSet 0 m (32 * n + l) x) r.v })
def setVL (s : State) (n l : Nat) (x : Word) : State := s.setR (fun r => { r with v := mapSet 0 r.v (32 * n + l) x })
def setP (s : State) (n : Nat) (x : Word) : State := s.setR (fun r => { r with p := mapSet 0 r.p n x })
def setFpctl (s : State) (x : Word) : State := s.setR (fun r => { r with fpctl := x })
def setMstat (s : State) (x : Word) : State := s.setR (fun r => { r with mstat := x })
/-- One lane has effect. -/
def oneLane (s : State) : State := s.setIss (fun i => { i with set := 1, eff := 1 })
noncomputable def run1 (i : Instr) (s : State) : State := after (exec i s)

/-- A level-2 line of view 0 that allows reads and writes. -/
def withLine (s : State) (asid va : Nat) : State :=
  { s with l2 := mapSet none s.l2 (lineKey asid 0 va) (some (L2Line.fresh true true false)) }
/-- Lane 0 of a compute group of a role with a data line at 0x40_0000, whose address stands in `s16` and `v16:v17`. -/
def withData (kind : Nat) : State :=
  setVL (setS (withLine (oneLane (atWord kind)) 1 0x400000) 16 0x400000) 16 0 0x400000
/-- The same with a team that holds 64 KiB of scratchpad, at the start of its core's. -/
def withPad (kind : Nat) : State :=
  (withData kind).setTeam 0 (fun t => { t with scratch := 0x10000, pieces := (List.range 16) })

/-- The conditions of `Served`, computed. -/
def servedB (kd : Kind) (pre : Option Nat) (hint n : Nat) (shared : Bool) (xs : List (Nat × Nat)) (s : State)
    (go : List (Nat × Nat × List Piece)) : Bool :=
  s.checkAccess kd pre n shared xs == none && s.watched kd.k.isWrite n xs == none && !go.isEmpty &&
    (s.lookUps kd hint n xs).2.map (fun x => (x.1, x.2.1, x.2.2.toOption)) == go.map (fun x => (x.1, x.2.1, some x.2.2))

theorem served_of {kd : Kind} {pre : Option Nat} {hint n : Nat} {shared : Bool} {xs : List (Nat × Nat)} {s : State}
    {go : List (Nat × Nat × List Piece)} (h : servedB kd pre hint n shared xs s go = true) :
    Served kd pre hint n shared xs s (s.lookUps kd hint n xs).1 go := by
  simp only [servedB, Bool.and_eq_true, beq_iff_eq, Bool.not_eq_true'] at h
  obtain ⟨⟨⟨h1, h2⟩, h3⟩, h4⟩ := h
  refine ⟨h1, h2, Prod.ext rfl ?_, fun hn => by simp [hn] at h3⟩
  simp only
  generalize (s.lookUps kd hint n xs).2 = ys at h4
  clear h1 h2 h3
  induction ys generalizing go with
  | nil => cases go with
    | nil => rfl
    | cons g go => simp at h4
  | cons y ys ih => cases go with
    | nil => simp at h4
    | cons g go =>
      simp only [List.map_cons, List.cons.injEq, Prod.mk.injEq] at h4
      obtain ⟨⟨ha, hb, hc⟩, hd⟩ := h4
      rw [List.map_cons, ih hd]
      obtain ⟨a, b, c⟩ := y
      cases c with
      | error e => simp [Except.toOption] at hc
      | ok p => simp [Except.toOption] at hc; simp_all

/-- The conditions of `Stands`, `Absent` and `Walks`, computed. -/
def standsB (s : State) (asid va n : Nat) : Bool :=
  (match mapGet none s.l2 (lineKey asid 0 va) with
    | some l => l.w && l.x
    | none => false)
  && s.heldBlk none (.home asid 0 va) n == none && s.reqs.all (fun r => !r.breaks)
def absentB (s : State) (asid va : Nat) : Bool :=
  mapGet none s.l2 (lineKey asid 0 va) == none && s.findFrame (s.stackOf asid va) asid 0 va == none
    && s.tuFind asid 0 va == none && s.reqs.all (fun r => !r.breaks)
def walksB (s : State) (st asid va : Nat) : Bool :=
  (s.walkRaw asid va).lines.all (fun l => (mapGet none s.l2 l.1).isSome) && s.walk.all (fun x => x.stack != st || x.asid != asid)

theorem stands_of {s : State} {asid va n : Nat} (h : standsB s asid va n = true) : Stands s asid va n := by
  simp only [standsB, Bool.and_eq_true, beq_iff_eq, List.all_eq_true, Bool.not_eq_true'] at h
  obtain ⟨⟨h1, h2⟩, h3⟩ := h
  refine ⟨?_, h2, h3⟩
  split at h1
  · exact ⟨_, ‹_›, by simpa using h1⟩
  · simp at h1
theorem absent_of {s : State} {asid va : Nat} (h : absentB s asid va = true) : Absent s asid va := by
  simp only [absentB, Bool.and_eq_true, beq_iff_eq, List.all_eq_true, Bool.not_eq_true'] at h
  exact ⟨h.1.1.1, h.1.1.2, h.1.2, h.2⟩
theorem walks_of {s : State} {st asid va : Nat} (h : walksB s st asid va = true) : Walks s st asid va (s.walkRaw asid va) := by
  simp only [walksB, Bool.and_eq_true, List.all_eq_true, Bool.or_eq_true, bne_iff_ne, ne_eq] at h
  exact ⟨rfl, h.1, fun x hx e => (h.2 x hx).resolve_left (fun n => n e)⟩


/-! ### Ill-formed words are refused (R40, R41, R50, R54) -/

/-- One ill-formed word for each check of WellFormed.lean. -/
noncomputable def illFormed : List Instr :=
  ([.pblk 1#3 0#3 2#8,
   .sllB32Imm 1#7 2#7 32#6 false,
   .srlB32Imm 1#7 2#7 32#6 true,
   .sraB32Imm 1#7 2#7 63#6 false,
   .rorB32Imm 1#7 2#7 32#6 false,
   .scalarCompare 1#3 2#7 3#7 12#4,
   .laneCompare 1#3 2#7 3#7 15#4,
   .scalarCompareImm 12#4 1#3 2#7 (.short 0#11),
   .laneCompareImm 12#4 1#3 2#7 (.short 0#11),
   .compareF32 8#4 1#3 2#7 3#7,
   .compareF64 8#4 1#3 2#7 3#7,
   .rintF32 1#7 2#7 5#3] : List Instr) ++
  ([.rintF64 1#7 2#7 5#3,
   .cvt 1#7 2#7 0#1 0#3 1#3 1#3,
   .cvt 1#7 2#7 0#1 5#3 0#3 1#3,
   .cvt 1#7 2#7 1#1 0#3 0#3 1#3,
   .idrScalar 1#7 0#7,
   .idrScalar 1#7 16#7,
   .idrLane 1#7 16#7,
   .scan 1#7 2#7 0#3 14#4,
   .scanx 1#7 2#7 0#3 15#4,
   .red 1#7 2#7 0#3 14#4,
   .tput 1#7 0#3 14#4,
   .tget 1#7 14#4] : List Instr) ++
  ([.ldB32 1#7 2#7 3#7 1#1 none 3#2,
   .ldN8 1#7 2#7 3#7 0#1 none 0#2,
   .stB128 4#7 2#7 3#7 1#1 none 3#2,
   .ldScalar 1#7 2#7 7#3 (.short 0#8),
   .atomAdd 2#7 4#7 6#3 0#2 0#1,
   .ldo 2#7 4#7 0#3 2#2 0#1,
   .sto 2#7 4#7 0#3 1#2 0#1,
   .damTake 1#7 2#7 0#7,
   .damTake 1#7 2#7 65#7,
   .warr 1#7 2#7 6#3 0#4,
   .wwait 7#3 1#7 2#7,
   .wprobe 1#7 2#7 6#3] : List Instr) ++
  ([.fenceAcq 6#3,
   .fenceRel 6#3,
   .fenceFull 7#3,
   .cptRes 1#7 2#7 3#2,
   .addI64Imm 1#7 2#7 (.short 0x400#11),
   .ldScalar 1#7 2#7 4#3 (.short 0x80#8),
   .mrd 1#7 (.short 0x400#11),
   .xorB32Imm 1#7 2#7 (.short 0x400#11)] : List Instr)

theorem test_ill_formed_refused : illFormed.all (fun i => !i.wf) = true := by decide +kernel


/-! ### Words of the spec decode to what they stand for -/

/-- A word, the word after it, its chain bit and its instruction. -/
noncomputable def decodes (x : Nat × Option Word × Bool × Instr) : Bool :=
  match decodeWord (BitVec.ofNat 32 x.1) x.2.1 with
  | .ok d => d == ⟨x.2.2.1, x.2.2.2, x.2.1.isSome⟩
  | .error _ => false

/-- R57, R108, R111, R397, R414, R415: `nop`, chained `nop`, `call s1, s12`, `wait #0, #0, #15, #15` and all zero, `kput k0, s100`, `kget s100, k0`, `brk #5`, `dbg.halt s20, s21`. -/
theorem test_decode_control : ([
    (0x1E000000, none, false, .nop),
    (0x9E000000, none, true, .nop),
    (0x18046001, none, false, .call 1#7 12#7),
    (0x1E001FE1, none, false, .wait 0#6 0#6 15#4 15#4),
    (0x1E000001, none, false, .wait 0#6 0#6 0#4 0#4),
    (0x1E03200D, none, false, .kput 0#3 100#7),
    (0x1F90001D, none, false, .kget 100#7 0#3),
    (0x1E00045E, none, false, .brk 5#6),
    (0x1E50A80E, none, false, .dbgHalt 20#7 21#7)] : List (Nat × Option Word × Bool × Instr)).all decodes = true := by decide +kernel

/-- R126, R132: `cvt.i32.f32.rz v1, v2`, `sincospi v10, v3`. -/
theorem test_decode_float : ([
    (0x40041114, none, false, .cvt 1#7 2#7 0#1 2#3 1#3 4#3),
    (0x44281808, none, false, .sincospi 10#7 3#7)] : List (Nat × Option Word × Bool × Instr)).all decodes = true := by decide +kernel

/-- R168, R175: `xch.flip.b32 v7, v6, #1`, `xch.lo.b32 v7, v6, #1`, `idr v3, LANE`, `idr s40, TEAM_LIN`. -/
theorem test_decode_parallel : ([
    (0x481C3013, none, false, .xchFlipB32 7#7 6#7 1#5),
    (0x481C3011, none, false, .xchLoB32 7#7 6#7 1#5),
    (0x1E0C001B, none, false, .idrLane 3#7 0#7),
    (0x1EA0580B, none, false, .idrScalar 40#7 11#7)] : List (Nat × Option Word × Bool × Instr)).all decodes = true := by decide +kernel

/-- R297 to R306, R317: `ld.b32 v5, [s4+v2*4+#16]`, `ld.n32 s21, [s6+#8]`, `atom.add.i32.acq.dev v6, v10`, `rfar.add.f32 v0, v4`, `fence.full.dev`. -/
theorem test_decode_memory : ([
    (0x5814202C, some 16#32, false, .ldB32 5#7 4#7 2#7 1#1 (some 16#32) 0#2),
    (0x68543408, none, false, .ldScalar 21#7 6#7 4#3 (.short 8#8)),
    (0x6C185440, none, false, .atomAdd 6#7 10#7 4#3 1#2 0#1),
    (0x6E000049, none, false, .rfarAddF32 0#7 4#7),
    (0x70000437, none, false, .fenceFull 4#3)] : List (Nat × Option Word × Bool × Instr)).all decodes = true := by decide +kernel

/-- R333, R361, R367, R369, R370, R385, R386: `cpt.ltab s4, s6`, `mma.z acc3, v8, v12, #0`, `mcb s20`, `mst.f32` and `mqst.e4m3 acc3, s21, s22`, `fqe.pf s20, s6`, `fqe.sub s21, s40`. -/
theorem test_decode_engines : ([
    (0x72002061, none, false, .cptLtab 4#7 6#7),
    (0x747040C0, none, false, .mma 3#4 1#1 0#2 8#7 12#7),
    (0x7400A004, none, false, .mcb 20#7),
    (0x7460A962, none, false, .mst 3#4 0#1 21#7 22#7),
    (0x7460A963, none, false, .mqst 3#4 0#1 21#7 22#7),
    (0x76503000, none, false, .fqePf 20#7 6#7),
    (0x76554002, none, false, .fqeSub 21#7 40#7)] : List (Nat × Option Word × Bool × Instr)).all decodes = true := by decide +kernel

/-- written out field by field from R39, R92, R101, R96, R106 (majors 0x01, 0x02, 0x04, 0x06 with a literal, 0x0A, 0x0B, 0x0D). -/
theorem test_decode_scalar_by_hand : ([
    (0x02041030, none, false, .addI64 1#7 2#7 3#7),
    (0x04041034, none, false, .scalarCompare 1#3 2#7 3#7 4#4),
    (0x080417FF, none, false, .addI64Imm 1#7 2#7 (.short 0x7FF#11)),
    (0x0C041400, some 0xDEADBEEF#32, false, .orB64Imm 1#7 2#7 (.lit 0xDEADBEEF#32)),
    (0x14040005, none, false, .movI64 1#7 (.short 5#11)),
    (0x16FFFFF9, none, false, .br 3#3 1#1 0x7FFFE#19 1#2),
    (0x1A040010, none, false, .mrd 1#7 (.short 0x10#11))] : List (Nat × Option Word × Bool × Instr)).all decodes = true := by decide +kernel

/-- written out field by field from R39, R97, R102, R50 (majors 0x10, 0x12, 0x13, 0x19, 0x2F, 0x35, 0x3B, 0x3C). -/
theorem test_decode_lane_by_hand : ([
    (0x20041030, none, false, .addI32 1#7 2#7 3#7),
    (0x24041034, none, false, .laneCompare 1#3 2#7 3#7 4#4),
    (0x260417FF, none, false, .addI32Imm 1#7 2#7 (.short 0x7FF#11)),
    (0x32040005, none, false, .movB32Imm 1#7 (.short 5#11)),
    (0x5E041039, none, false, .stB8 1#7 2#7 3#7 1#1 none 1#2),
    (0x6A041408, none, false, .stScalar 1#7 2#7 2#2 (.short 8#8)),
    (0x76041004, none, false, .wfork 1#7 2#7),
    (0x78902800, none, false, .pblk 2#3 2#3 5#8)] : List (Nat × Option Word × Bool × Instr)).all decodes = true := by decide +kernel

/-- R40, R54, R55: the reasons of words that no entry assigns. -/
theorem test_refused_reasons : ([(0x00000000, 1), (0x4C000000, 1), (0x7E000000, 1), (0x1E000005, 2), (0x1E000010, 3), (0x08041400, 7),
    (0x78000001, 8), (0x78000800, 0)] : List (Nat × Nat)).all (fun x => match decodeWord (BitVec.ofNat 32 x.1) none with
      | .error r => r == x.2
      | .ok d => x.2 == 0 && d.instr == .pblk 0#3 0#3 1#8) = true := by decide +kernel


/-! ### Every word is ready somewhere (the hypothesis `Ready` of the statements) -/

noncomputable def words1 : List Instr :=
  ([.nop, .pblk 1#3 1#3 0#8, .addI64 8#7 16#7 24#7, .subI64 8#7 16#7 24#7, .andB64 8#7 16#7 24#7,
   .orB64 8#7 16#7 24#7, .xorB64 8#7 16#7 24#7, .andnB64 8#7 16#7 24#7, .sllB64 8#7 16#7 24#7,
   .srlB64 8#7 16#7 24#7, .sraB64 8#7 16#7 24#7, .rorB64 8#7 16#7 24#7, .minI64 8#7 16#7 24#7,
   .maxI64 8#7 16#7 24#7, .minN64 8#7 16#7 24#7] : List Instr) ++
  ([.maxN64 8#7 16#7 24#7, .addI32Scalar 8#7 16#7 24#7, .subI32Scalar 8#7 16#7 24#7,
   .addI64Imm 8#7 16#7 (.short 0#11), .andB64Imm 8#7 16#7 (.short 0#11), .orB64Imm 8#7 16#7 (.short 0#11),
   .xorB64Imm 8#7 16#7 (.short 0#11), .sllB64Imm 8#7 16#7 0#6 false, .srlB64Imm 8#7 16#7 0#6 false,
   .sraB64Imm 8#7 16#7 0#6 false, .rorB64Imm 8#7 16#7 0#6 false, .scalarCompare 1#3 16#7 24#7 0#4,
   .scalarCompareImm 0#4 1#3 16#7 (.short 0#11), .pand 1#3 1#3 1#3, .por 1#3 1#3 1#3] : List Instr) ++
  ([.pxor 1#3 1#3 1#3, .pandn 1#3 1#3 1#3, .mulI64 8#7 16#7 24#7, .mulhI64 8#7 16#7 24#7, .mulhN64 8#7 16#7 24#7,
   .divI64 8#7 16#7 24#7, .divN64 8#7 16#7 24#7, .remI64 8#7 16#7 24#7, .remN64 8#7 16#7 24#7,
   .lea2B64 8#7 16#7 24#7, .lea4B64 8#7 16#7 24#7, .lea8B64 8#7 16#7 24#7, .lea16B64 8#7 16#7 24#7] : List Instr)
theorem witness_ready_1 : words1.all (fun i => readyB i (stateFor i)) = true := by decide +kernel

noncomputable def words2 : List Instr :=
  ([.packB64 8#7 16#7 24#7, .popcB64 8#7 16#7, .clzB64 8#7 16#7, .ctzB64 8#7 16#7, .brevB64 8#7 16#7,
   .bswapB64 8#7 16#7, .bextN64 8#7 16#7 24#7, .bextI64 8#7 16#7 24#7, .binsB64 8#7 16#7 24#7,
   .movI64 8#7 (.short 0#11), .br 1#3 0#1 0#19 0#2, .jr 16#7, .call 8#7 16#7, .ret 16#7, .mrd 8#7 (.short 0#11)] : List Instr) ++
  ([.mwr 16#7 (.short 0#11), .wait 0#6 0#6 0#4 0#4, .ifence, .rdcyc 8#7, .rdtime 8#7, .exit, .yield, .tbar 16#7,
   .join, .idrScalar 8#7 1#7, .idrLane 8#7 1#7, .launch 8#7 16#7, .kput 1#3 16#7, .kget 8#7 1#3, .brk 0#6] : List Instr) ++
  ([.dbgHalt 8#7 16#7, .dbgResume 8#7 16#7, .dbgStep 8#7 16#7, .dbgRdpc 8#7 16#7, .dbgWatch 8#7 16#7,
   .dbgHalted 8#7 16#7, .tret, .tretSkip, .tretExit, .tretTo 16#7, .addI32 8#7 16#7 24#7, .subI32 8#7 16#7 24#7,
   .andB32 8#7 16#7 24#7] : List Instr)
theorem witness_ready_2 : words2.all (fun i => readyB i (stateFor i)) = true := by decide +kernel

noncomputable def words3 : List Instr :=
  ([.orB32 8#7 16#7 24#7, .xorB32 8#7 16#7 24#7, .andnB32 8#7 16#7 24#7, .sllB32 8#7 16#7 24#7,
   .srlB32 8#7 16#7 24#7, .sraB32 8#7 16#7 24#7, .minI32 8#7 16#7 24#7, .maxI32 8#7 16#7 24#7,
   .minN32 8#7 16#7 24#7, .maxN32 8#7 16#7 24#7, .addsI32 8#7 16#7 24#7, .subsI32 8#7 16#7 24#7,
   .selB32 8#7 1#3 24#7, .addI32Imm 8#7 16#7 (.short 0#11), .andB32Imm 8#7 16#7 (.short 0#11)] : List Instr) ++
  ([.orB32Imm 8#7 16#7 (.short 0#11), .xorB32Imm 8#7 16#7 (.short 0#11), .sllB32Imm 8#7 16#7 0#6 false,
   .srlB32Imm 8#7 16#7 0#6 false, .sraB32Imm 8#7 16#7 0#6 false, .rorB32Imm 8#7 16#7 0#6 false,
   .movB32Imm 8#7 (.short 0#11), .mulB32 8#7 16#7 24#7, .mulhI32 8#7 16#7 24#7, .mulhN32 8#7 16#7 24#7,
   .madB32 8#7 16#7 24#7, .divI32 8#7 16#7 24#7, .divN32 8#7 16#7 24#7, .remI32 8#7 16#7 24#7,
   .remN32 8#7 16#7 24#7] : List Instr) ++
  ([.mulwI32 8#7 16#7 24#7, .mulwN32 8#7 16#7 24#7, .madwN32 8#7 16#7 24#7, .dp4I8 8#7 16#7 24#7,
   .dp4N8 8#7 16#7 24#7, .laneCompare 1#3 16#7 24#7 0#4, .laneCompareImm 0#4 1#3 16#7 (.short 0#11),
   .bcastB32 8#7 16#7, .bcastB64 8#7 16#7, .rdlN32 8#7 16#7 24#7, .rdlI32 8#7 16#7 24#7, .rdlB64 8#7 16#7 24#7,
   .wrlB32 8#7 16#7 24#7] : List Instr)
theorem witness_ready_3 : words3.all (fun i => readyB i (stateFor i)) = true := by decide +kernel

noncomputable def words4 : List Instr :=
  ([.movB32 8#7 16#7, .movB64 8#7 16#7, .pgetB32 8#7 1#3, .popcB32 8#7 16#7, .clzB32 8#7 16#7, .ctzB32 8#7 16#7,
   .brevB32 8#7 16#7, .bswapB32 8#7 16#7, .bextN32 8#7 16#7 24#7, .bextI32 8#7 16#7 24#7,
   .binsB32 8#7 16#7 24#7, .addF32 8#7 16#7 24#7, .subF32 8#7 16#7 24#7, .mulF32 8#7 16#7 24#7,
   .divF32 8#7 16#7 24#7] : List Instr) ++
  ([.sqrtF32 8#7 16#7, .minF32 8#7 16#7 24#7, .maxF32 8#7 16#7 24#7, .minnF32 8#7 16#7 24#7,
   .maxnF32 8#7 16#7 24#7, .absF32 8#7 16#7, .negF32 8#7 16#7, .csgnF32 8#7 16#7 24#7, .classF32 8#7 16#7,
   .compareF32 0#4 1#3 16#7 24#7, .rintF32 8#7 16#7 1#3, .sclF32 8#7 16#7 24#7, .addF64 8#7 16#7 24#7,
   .subF64 8#7 16#7 24#7, .mulF64 8#7 16#7 24#7] : List Instr) ++
  ([.divF64 8#7 16#7 24#7, .sqrtF64 8#7 16#7, .minF64 8#7 16#7 24#7, .maxF64 8#7 16#7 24#7,
   .minnF64 8#7 16#7 24#7, .maxnF64 8#7 16#7 24#7, .absF64 8#7 16#7, .negF64 8#7 16#7, .csgnF64 8#7 16#7 24#7,
   .classF64 8#7 16#7, .compareF64 0#4 1#3 16#7 24#7, .rintF64 8#7 16#7 1#3, .sclF64 8#7 16#7 24#7] : List Instr)
theorem witness_ready_4 : words4.all (fun i => readyB i (stateFor i)) = true := by decide +kernel

noncomputable def words5 : List Instr :=
  ([.addF16 8#7 16#7 24#7, .subF16 8#7 16#7 24#7, .mulF16 8#7 16#7 24#7, .minF16 8#7 16#7 24#7,
   .maxF16 8#7 16#7 24#7, .add2F16 8#7 16#7 24#7, .sub2F16 8#7 16#7 24#7, .mul2F16 8#7 16#7 24#7,
   .addBf16 8#7 16#7 24#7, .subBf16 8#7 16#7 24#7, .mulBf16 8#7 16#7 24#7, .minBf16 8#7 16#7 24#7,
   .maxBf16 8#7 16#7 24#7, .add2Bf16 8#7 16#7 24#7, .sub2Bf16 8#7 16#7 24#7] : List Instr) ++
  ([.mul2Bf16 8#7 16#7 24#7, .fmaF32 8#7 16#7 24#7, .fmsF32 8#7 16#7 24#7, .fnmaF32 8#7 16#7 24#7,
   .fnmsF32 8#7 16#7 24#7, .fmaF64 8#7 16#7 24#7, .fmsF64 8#7 16#7 24#7, .fnmaF64 8#7 16#7 24#7,
   .fnmsF64 8#7 16#7 24#7, .fmaF16 8#7 16#7 24#7, .fnmaF16 8#7 16#7 24#7, .fma2F16 8#7 16#7 24#7,
   .fnma2F16 8#7 16#7 24#7, .fmaBf16 8#7 16#7 24#7, .fnmaBf16 8#7 16#7 24#7] : List Instr) ++
  ([.fma2Bf16 8#7 16#7 24#7, .fnma2Bf16 8#7 16#7 24#7, .cvt 8#7 16#7 0#1 0#3 0#3 1#3, .cvtE4m3F32 8#7 16#7 24#7,
   .cvthiE4m3F32 8#7 16#7 24#7, .cvtE5m2F32 8#7 16#7 24#7, .cvthiE5m2F32 8#7 16#7 24#7,
   .cvtE4m3F32Sat 8#7 16#7 24#7, .cvthiE4m3F32Sat 8#7 16#7 24#7, .cvtE5m2F32Sat 8#7 16#7 24#7,
   .cvthiE5m2F32Sat 8#7 16#7 24#7, .cvtF32E4m3 8#7 16#7 0#2, .cvtF32E5m2 8#7 16#7 0#2] : List Instr)
theorem witness_ready_5 : words5.all (fun i => readyB i (stateFor i)) = true := by decide +kernel

noncomputable def words6 : List Instr :=
  ([.cvt2Bf16E4m3 8#7 16#7 0#1, .cvt2Bf16E5m2 8#7 16#7 0#1, .qsc 8#7 16#7 0#2, .cvtW4F32 8#7 16#7 24#7,
   .cvtW3F32 8#7 16#7 24#7, .cvtF32W4 8#7 16#7 24#7, .rcp 8#7 16#7, .rsqrt 8#7 16#7, .sfsqrt 8#7 16#7,
   .exp2 8#7 16#7, .log2 8#7 16#7, .sinpi 8#7 16#7, .cospi 8#7 16#7, .exp 8#7 16#7, .sincospi 8#7 16#7] : List Instr) ++
  ([.clmulB32 8#7 16#7 24#7, .clmulhB32 8#7 16#7 24#7, .clmulwB32 8#7 16#7 24#7, .clmulB64 8#7 16#7 24#7,
   .clmulhB64 8#7 16#7 24#7, .clmulwB64 8#7 16#7 24#7, .clmulrB32 8#7 16#7 24#7, .clmulrB64 8#7 16#7 24#7,
   .xchAtB32 8#7 16#7 24#7, .xchLoB32 8#7 16#7 1#5, .xchHiB32 8#7 16#7 1#5, .xchFlipB32 8#7 16#7 1#5,
   .xchAtB64 8#7 16#7 24#7, .xchLoB64 8#7 16#7 1#5, .xchHiB64 8#7 16#7 1#5] : List Instr) ++
  ([.xchFlipB64 8#7 16#7 1#5, .lall 1#3 1#3, .lany 1#3 1#3, .lsameB32 1#3 16#7, .lmaskB32 8#7 1#3,
   .scan 8#7 16#7 1#3 0#4, .scanx 8#7 16#7 1#3 0#4, .red 8#7 16#7 1#3 0#4, .tput 16#7 1#3 0#4, .tget 8#7 0#4,
   .ldN8 8#7 24#7 32#7 0#1 none 0#2, .ldI8 8#7 24#7 32#7 0#1 none 0#2, .ldN16 8#7 24#7 32#7 0#1 none 0#2] : List Instr)
theorem witness_ready_6 : words6.all (fun i => readyB i (stateFor i)) = true := by decide +kernel

noncomputable def words7 : List Instr :=
  ([.ldI16 8#7 24#7 32#7 0#1 none 0#2, .ldB32 8#7 24#7 32#7 0#1 none 0#2, .ldB64 8#7 24#7 32#7 0#1 none 0#2,
   .ldB128 8#7 24#7 32#7 0#1 none 0#2, .stB8 8#7 24#7 32#7 0#1 none 0#2, .stB16 8#7 24#7 32#7 0#1 none 0#2,
   .stB32 8#7 24#7 32#7 0#1 none 0#2, .stB64 8#7 24#7 32#7 0#1 none 0#2, .stB128 8#7 24#7 32#7 0#1 none 0#2,
   .ldScalar 8#7 24#7 1#3 (.short 0#8), .stScalar 8#7 24#7 0#2 (.short 0#8), .atomAdd 8#7 16#7 1#3 0#2 0#1,
   .atomMinI 8#7 16#7 1#3 0#2 0#1, .atomMaxI 8#7 16#7 1#3 0#2 0#1, .atomMinN 8#7 16#7 1#3 0#2 0#1] : List Instr) ++
  ([.atomMaxN 8#7 16#7 1#3 0#2 0#1, .atomAnd 8#7 16#7 1#3 0#2 0#1, .atomOr 8#7 16#7 1#3 0#2 0#1,
   .atomXor 8#7 16#7 1#3 0#2 0#1, .atomExch 8#7 16#7 1#3 0#2 0#1, .atomCas 8#7 16#7 1#3 0#2 0#1,
   .atomAddF 8#7 16#7 1#3 0#2 0#1, .ldo 8#7 16#7 1#3 0#2 0#1, .sto 8#7 16#7 1#3 0#2 0#1, .rfarAddI32 16#7 24#7,
   .rfarAddI64 16#7 24#7, .rfarMinI32 16#7 24#7, .rfarMaxI32 16#7 24#7, .rfarMinN32 16#7 24#7,
   .rfarMaxN32 16#7 24#7] : List Instr) ++
  ([.rfarAndB32 16#7 24#7, .rfarOrB32 16#7 24#7, .rfarXorB32 16#7 24#7, .rfarAddF32 16#7 24#7,
   .rfarAddF64 16#7 24#7, .rfarMinF32 16#7 24#7, .rfarMaxF32 16#7 24#7, .repOpen 16#7, .repFlush, .repClose,
   .damTake 8#7 16#7 4#7, .damChk 8#7 16#7, .damEnd 8#7 16#7] : List Instr)
theorem witness_ready_7 : words7.all (fun i => readyB i (stateFor i)) = true := by decide +kernel

noncomputable def words8 : List Instr :=
  ([.warm 16#7 24#7, .warr 8#7 16#7 1#3 0#4, .wwait 1#3 16#7 24#7, .wprobe 8#7 16#7 1#3, .fenceAcq 1#3,
   .fenceRel 1#3, .fenceFull 1#3, .cctlL1b 16#7, .cctlL1all, .cctlWbl 8#7 16#7, .cctlWbf 8#7 16#7,
   .cctlRel 8#7 16#7, .pinReload 8#7 16#7, .pinEnd 8#7 16#7, .pinSet 8#7 16#7] : List Instr) ++
  ([.pinClr 8#7 16#7, .cptCopy 8#7 16#7 24#7, .cptLtab 16#7 24#7, .cptBind 8#7 16#7, .cptAdv 8#7 16#7,
   .cptRel 8#7 16#7, .cptRes 8#7 16#7 0#2, .mma 0#4 0#1 0#2 16#7 24#7, .mld 0#4 16#7, .mst 0#4 0#1 16#7 24#7,
   .mqst 0#4 0#1 16#7 24#7, .mcb 16#7, .mxst 8#7, .mxstClr 8#7, .fqePf 8#7 16#7] : List Instr) ++
  ([.fqeSync 8#7 16#7, .fqeSub 8#7 16#7, .wfork 8#7 16#7, .wenter 8#7 16#7, .wleave 8#7, .wchoose 8#7 16#7,
   .wstat 8#7 16#7, .wwho 8#7] : List Instr)
theorem witness_ready_8 : words8.all (fun i => readyB i (stateFor i)) = true := by decide +kernel


/-! ### Integer, floating-point and parallel words: one step, and the clauses of their statements -/

/-- R92: −1 + 1 = 0; R95: the corners of division. -/
theorem test_scalar_add_wraps :
    (run1 (.addI64 8#7 16#7 24#7) (setS (setS (atWord 0) 16 (BitVec.allOnes 64)) 24 1)).g.r.rdS 8 = 0 := by decide +kernel
theorem test_scalar_shift_masks :
    (run1 (.sllB64 8#7 16#7 24#7) (setS (setS (atWord 0) 16 3) 24 65)).g.r.rdS 8 = 6 := by decide +kernel
theorem test_div_by_zero :
    (run1 (.divI64 8#7 16#7 24#7) (setS (atWord 0) 16 7)).g.r.rdS 8 = BitVec.allOnes 64 ∧
    (run1 (.remI64 8#7 16#7 24#7) (setS (atWord 0) 16 7)).g.r.rdS 8 = 7 := by decide +kernel
theorem test_div_min_by_minus_one :
    (run1 (.divI64 8#7 16#7 24#7) (setS (setS (atWord 0) 16 0x8000000000000000) 24 (BitVec.allOnes 64))).g.r.rdS 8
      = 0x8000000000000000#64 := by decide +kernel
theorem test_add_i32_sign_extends :
    (run1 (.addI32Scalar 8#7 16#7 24#7) (setS (setS (atWord 0) 16 0x7FFFFFFF) 24 1)).g.r.rdS 8
      = 0xFFFFFFFF80000000#64 := by decide +kernel
/-- R97, R99 in lane 31. -/
theorem test_lane_add_wraps :
    (run1 (.addI32 8#7 16#7 24#7) (setV (setV (atWord 0) 16 0xFFFFFFFF) 24 2)).g.r.rdV 8 31 = 1#32 := by decide +kernel
theorem test_lane_adds_saturates :
    (run1 (.addsI32 8#7 16#7 24#7) (oneLane (setV (setV (atWord 0) 16 0x7FFFFFFF) 24 1))).g.r.rdV 8 0
      = 0x7FFFFFFF#32 := by decide +kernel
theorem test_mulw_pair :
    let s := run1 (.mulwI32 8#7 16#7 24#7) (oneLane (setV (setV (atWord 0) 16 0xFFFFFFFF) 24 2))
    s.g.r.rdV 8 0 = 0xFFFFFFFE#32 ∧ s.g.r.rdV 9 0 = 0xFFFFFFFF#32 := by decide +kernel
/-- R126: the worked example of `cvt.i32.f32.rz`. -/
theorem test_cvt_example :
    let s := run1 (.cvt 1#7 2#7 0#1 2#3 1#3 4#3) (oneLane (setV (atWord 0) 2 0xC0200000))
    s.g.r.rdV 1 0 = 0xFFFFFFFE#32 ∧ s.iss.raised = flagNX := by decide +kernel
theorem test_cvt_out_of_range :
    let s := run1 (.cvt 1#7 2#7 0#1 2#3 1#3 4#3) (oneLane (setV (atWord 0) 2 0x4F000000))
    s.g.r.rdV 1 0 = 0x7FFFFFFF#32 ∧ s.iss.raised = flagNV := by decide +kernel
/-- 1.0 / 0.0 with DZE 0 and 1 (R26, R118): the two clauses of `FpEnds`. -/
def divByZero : State := oneLane (setV (atWord 0) 16 0x3F800000)
theorem witness_fp_not_enabled :
    readyB (.divF32 8#7 16#7 24#7) divByZero = true ∧
      (run1 (.divF32 8#7 16#7 24#7) divByZero).g.r.rdV 8 0 = 0x7F800000#32 ∧
      (run1 (.divF32 8#7 16#7 24#7) divByZero).iss.raised = flagDZ := by decide +kernel
theorem witness_fp_enabled :
    readyB (.divF32 8#7 16#7 24#7) (setFpctl divByZero 0x800) = true ∧
      (run1 (.divF32 8#7 16#7 24#7) (setFpctl divByZero 0x800)).iss.trap.map TrapReq.cause = some 6 := by decide +kernel
/-- A compare of a signalling NaN with NVE 0 and 1. -/
theorem witness_compare_flags :
    let s := oneLane (setV (atWord 0) 16 0x7F800001)
    readyB (.compareF32 0#4 1#3 16#7 24#7) s = true ∧ (run1 (.compareF32 0#4 1#3 16#7 24#7) s).iss.raised = flagNV ∧
      (run1 (.compareF32 0#4 1#3 16#7 24#7) (setFpctl s 0x1000)).iss.trap.map TrapReq.cause = some 6 := by decide +kernel
/-- R73, R78, R122: premises of the statements about rounding, NaNs and order. -/
theorem witness_rounding :
    (1 : Nat) ≠ 0 ∧ plainRne.ftz = false ∧ (roundTo f32 plainRne false false 16777217 0).2 &&& flagOF = 0 ∧
      (roundTo f32 plainRne false false 16777217 0) = (0x4B800000, flagNX) := by decide +kernel
theorem witness_finite : f32.finite 0x3F800000 ∧ f64.finite 0x3FF0000000000000 :=
  ⟨⟨by decide, _, _, _, rfl⟩, ⟨by decide, _, _, _, rfl⟩⟩
theorem witness_nan :
    (f32.dec (f32.daz false 0x7FC00000)).isNan = true ∧ (f32.dec (f32.daz false 0x3F800000)).isNan = false ∧
      fAdd f32 plainRne 0x7F800001 0x3F800000 = (0x7FC00001, flagNV) := by decide +kernel
/-- R168: a source outside the group gives the lane its own. -/
theorem test_xch_lo_edge :
    let s := run1 (.xchLoB32 7#7 6#7 1#5) (setVL (setVL (atWord 0) 6 0 10) 6 1 11)
    s.g.r.rdV 7 0 = 10#32 ∧ s.g.r.rdV 7 1 = 10#32 ∧ s.g.r.rdV 7 2 = 11#32 := by decide +kernel
/-- R86, R171 over three lanes: a prefix sum, an exclusive one, and lanes that take no part. -/
def threeLanes : State :=
  setP (setVL (setVL (setVL ((atWord 0).setIss (fun i => { i with set := 7, eff := 7 })) 16 0 5) 16 1 6) 16 2 7) 1 5
theorem test_scan :
    let s := run1 (.scan 8#7 16#7 1#3 0#4) threeLanes
    s.g.r.rdV 8 0 = 5#32 ∧ s.g.r.rdV 8 1 = 5#32 ∧ s.g.r.rdV 8 2 = 12#32 := by decide +kernel
theorem test_scanx :
    let s := run1 (.scanx 8#7 16#7 1#3 0#4) threeLanes
    s.g.r.rdV 8 0 = 0#32 ∧ s.g.r.rdV 8 1 = 5#32 ∧ s.g.r.rdV 8 2 = 5#32 := by decide +kernel
theorem test_red :
    (run1 (.red 8#7 16#7 1#3 0#4) threeLanes).g.r.rdV 8 1 = 12#32 := by decide +kernel
/-- An inexact float sum with NXE 1: the trap clauses of scans and reductions; a `tput` of it and the slot it takes. -/
def inexact : State := setP (setVL (setVL ((atWord 0).setIss (fun i => { i with set := 3, eff := 3 })) 16 0 0x4B800000) 16 1 0x3F800000) 1 3
theorem witness_combine_trap :
    readyB (.scan 8#7 16#7 1#3 8#4) (setFpctl inexact 0x100) = true ∧
    (run1 (.scan 8#7 16#7 1#3 8#4) (setFpctl inexact 0x100)).iss.trap.map TrapReq.cause = some 6 ∧
    (run1 (.red 8#7 16#7 1#3 8#4) (setFpctl inexact 0x100)).iss.trap.map TrapReq.cause = some 6 ∧
    (run1 (.tput 16#7 1#3 8#4) (setFpctl inexact 0x100)).iss.trap.map TrapReq.cause = some 6 := by decide +kernel
theorem test_tput_tget :
    let s := run1 (.tput 16#7 1#3 0#4) threeLanes
    s.g.foldE = true ∧ (run1 (.tget 8#7 0#4) s).g.r.rdV 8 2 = 12#32 := by decide +kernel

/-! ### Control and traps -/

/-- R106 at its bounds: not taken, packet 0, packet −1, packet 2^30 − 1, packet 2^30. -/
theorem witness_branch :
    let lastPc := (atWord 0).setIss (fun i => { i with pc := 0xFFFFFFFC })
    readyB (.br 7#3 0#1 0#19 1#2) (atWord 0) = true ∧ (run1 (.br 7#3 1#1 0#19 1#2) (atWord 0)).iss.moved = 0 ∧
    (run1 (.br 7#3 0#1 0#19 1#2) (atWord 0)).g.pc 31 = 1 ∧
    (run1 (.br 7#3 0#1 0x7FFFF#19 1#2) (atWord 0)).iss.trap = some (mkTrap 4 0 0 (BitVec.allOnes 64) 0 0) ∧
    (run1 (.br 7#3 0#1 0#19 2#2) lastPc).g.pc 0 = 0xFFFFFFFE#32 ∧
    (run1 (.br 7#3 0#1 1#19 2#2) lastPc).iss.trap.map TrapReq.cause = some 4 := by decide +kernel
/-- R411: the lanes of a pair differ. -/
theorem witness_branch_mismatch :
    let s := setMstat (setP (atWord 0) 1 1) 0x2000
    readyB (.br 1#3 0#1 0#19 1#2) s = true ∧ (run1 (.br 1#3 0#1 0#19 1#2) s).iss.mism.isSome = true := by decide +kernel
/-- R108: the worked `call` at `pcv` 0x1D, and targets at and above 2^32. -/
theorem test_call_example :
    let s := (setS (atWord 0) 12 0x40).setIss (fun i => { i with pc := 0x1D, chainPc := 0x1D, next := 0x1E })
    (run1 (.call 1#7 12#7) s).g.r.rdS 1 = 0x1E#64 ∧ (run1 (.call 1#7 12#7) s).g.pc 0 = 0x40#32 := by decide +kernel
theorem witness_jump_bounds :
    (run1 (.jr 16#7) (setS (atWord 0) 16 0xFFFFFFFF)).g.pc 0 = 0xFFFFFFFF#32 ∧
    (run1 (.jr 16#7) (setS (atWord 0) 16 0x100000000)).iss.trap.map TrapReq.cause = some 4 ∧
    (run1 (.call 1#7 16#7) (setS (atWord 0) 16 0x100000000)).g.r.rdS 1 = 0 := by decide +kernel
/-- `exit` on a compute core and on a management core. -/
theorem witness_exit :
    readyB .exit (atWord 0) = true ∧ (atWord 0).g.kind ≠ .mgmt ∧ (run1 .exit (atWord 0)).g.lane 31 = .exited ∧
    readyB .exit (onBase 8) = true ∧ (onBase 8).g.kind = .mgmt ∧ (run1 .exit (onBase 8)).g.lane 0 = .exited := by decide +kernel
/-- R111 at the limit and above it. -/
theorem witness_wait :
    let s := (atWord 0).setG (fun g => { g with ldcnt := 2 })
    (run1 (.wait 2#6 0#6 0#4 0#4) s).iss.stalled = false ∧ (run1 (.wait 1#6 0#6 0#4 0#4) s).iss.stalled = true ∧
    (run1 .ifence ((atWord 0).setG (fun g => { g with stcnt := 1 }))).iss.stalled = true := by decide +kernel
/-- The machine registers of R32 that the statements name, on cores whose PRV allows them. -/
theorem witness_machine_registers :
    ([0, 1, 2, 3, 4, 8, 0x40, 0x41].all (fun n =>
      readyB (.mrd 8#7 (.short (BitVec.ofNat 11 n))) (onBase 8) && readyB (.mwr 16#7 (.short (BitVec.ofNat 11 n))) (onBase 8))) = true ∧
    ([0x10, 0x11, 0x12, 0x13, 0x14].all (fun n =>
      readyB (.mrd 8#7 (.short (BitVec.ofNat 11 n))) inHandler && readyB (.mwr 16#7 (.short (BitVec.ofNat 11 n))) inHandler)) = true ∧
    readyB (.mrd 8#7 (.short 0x20#11)) (onBase 8) = true ∧ readyB (.mrd 8#7 (.short 0x21#11)) (onBase 8) = true ∧
    readyB (.mrd 8#7 (.short 0x30#11)) (atWord 0) = true ∧ readyB (.mwr 16#7 (.short 0x30#11)) (atWord 0) = true ∧
    readyB (.mwr 16#7 (.short 0x20#11)) (onBase 8) = true ∧ readyB (.mwr 16#7 (.short 0x21#11)) (onBase 8) = true ∧
    (run1 (.mwr 16#7 (.short 0x08#11)) (setS (onBase 0) 16 0x12345)).g.r.codeBase = 0x12000#64 := by decide +kernel
theorem test_mwr_mstat :
    (run1 (.mwr 16#7 (.short 0#11)) (setS (atWord 0) 16 (BitVec.allOnes 64))).g.r.mstat = 0xC0#32 := by decide +kernel
theorem test_mrd_part :
    (run1 (.mrd 8#7 (.short 3#11)) ((atWord 0).setIss (fun i => { i with pc := 9 }))).g.r.rdS 8 = 9 := by decide +kernel
theorem witness_identity : (atWord 0).myTeam.isSome = true ∧ (atWord 0).myGrid.isSome = true := by decide +kernel
/-- The static traps of R56 in their order: role, no lane, odd pair, allotment, trap mode. -/
theorem witness_static_traps :
    (infoOf (.wfork 8#7 16#7)).unavailable { atWord 0 with dev := Dev.reset } ≠ none ∧
    (infoOf .nop).unavailable (atWord 0) = none ∧
    (run1 .nop ((atWord 0).setIss (fun i => { i with eff := 0 }))).iss.trap = none ∧
    (run1 (.movB64 9#7 16#7) (atWord 0)).iss.trap.map (fun t => (t.cause, t.i1)) = some (2, 0) ∧
    (run1 (.movB32 64#7 100#7) ((atWord 0).setG (fun g => { g with regsN := 64 }))).iss.trap.map (fun t => (t.cause, t.i1))
      = some (2, 64) ∧
    (run1 .tret (atWord 0)).iss.trap.map TrapReq.cause = some 3 := by decide +kernel
/-- R28, R167, R404: a full counter, a uniform operand that differs, a poisoned operand that is consumed. -/
theorem witness_stalls :
    (infoOf (.ldB32 8#7 16#7 24#7 0#1 none 0#2)).static (atWord 0) = none ∧
    (infoOf (.ldB32 8#7 16#7 24#7 0#1 none 0#2)).stalls ((atWord 0).setG (fun g => { g with ldcnt := 63 })) = true ∧
    (infoOf (.cptCopy 8#7 16#7 24#7)).static (atWord 1) = none ∧
    ((infoOf (.cptCopy 8#7 16#7 24#7)).nonuniform (setVL (atWord 1) 24 1 5)).isSome = true ∧
    ((infoOf (.ldB32 8#7 16#7 24#7 0#1 none 0#2)).poisoned ((atWord 0).setR (fun r => { r with sPois := [(16, true)] }))).isSome = true := by
  decide +kernel
/-- A trap with a handler: the premises of `HandlerEntry` and what the entry leaves. -/
theorem witness_handler_entry :
    let s := (atWord 0).setG (fun g => { g with handler := some 0x80 })
    s.g.r.tm = false ∧ s.g.handler = some 0x80 ∧ s.g.hold = .none ∧ s.dams = [] ∧
    (s.takeTrap (mkTrap 5 3 1 2 3 4) false 8).g.pc 3 = 0x80#32 ∧ (s.takeTrap (mkTrap 5 3 1 2 3 4) false 8).g.r.trapCause = 0x605#32 ∧
    (s.takeTrap (mkTrap 5 3 1 2 3 4) false 8).g.r.info3 = 4 ∧ (s.fpTrap 0 flagDZ).g.r.fpctl = 8#32 := by decide +kernel
/-- The same without one, in trap mode, and on a pager core. -/
theorem witness_trap_to_host :
    (atWord 0).g.handler = none ∧ ((atWord 0).team 0).map Team.running = some true ∧
    (((atWord 0).takeTrap (mkTrap 5 0 0 0 0 0) false 1).team 0).map Team.place = some .failed ∧
    inHandler.g.r.tm = true ∧ (onBase 0).g.kind = .pager ∧
    ((onBase 0).takeTrap (mkTrap 5 0 0 0 0 0) false 1).dev.fatal = true ∧
    ((onBase 8).takeTrap (mkTrap 5 0 0 0 0 0) false 1).g.lane 0 = .halted := by decide +kernel
/-- R398: the returns from a handler of lane 0. -/
theorem witness_returns :
    inHandler.g.save.isSome = true ∧ inHandler.g.haltPend = 0 ∧ inHandler.g.stepPend = 0 ∧
    ([.tret, .tretSkip, .tretExit, .tretTo 16#7] : List Instr).all (fun i => readyB i inHandler) = true ∧
    (run1 .tret inHandler).g.pc 0 = 0 ∧ (run1 .tret inHandler).g.pc 1 = 8 ∧ (run1 .tret inHandler).g.r.tm = false ∧
    (run1 .tretSkip inHandler).g.pc 0 = 4 ∧ (run1 .tretExit inHandler).g.lane 0 = .exited ∧
    (run1 (.tretTo 16#7) (setS inHandler 16 0x50)).g.pc 0 = 0x50#32 := by decide +kernel
/-- R414: a breakpoint, and one over an event that stands in the mailbox. -/
theorem test_brk :
    let s := run1 (.brk 5#6) (atWord 0)
    s.g.lane 31 = .halted ∧ (s.team 0).map Team.mbox = some 0x88014000FFFFFFFF#64 := by decide +kernel
theorem test_brk_overflow :
    let s := (atWord 0).setTeam 0 (fun t => { t with mbox := 0x8000000000000000#64 })
    ((run1 (.brk 5#6) s).team 0).map Team.mbox = some 0xC000000000000000#64 := by decide +kernel
/-- R415: the group itself as the target, and one that is not there. -/
theorem witness_debug :
    ((atWord 0).dbgTarget 0xFFFFFFFF00000000).isSome = true ∧ (atWord 0).dbgTarget 0xFFFFFFFF0000001F = none ∧
    watchGood 0x1400110 = true ∧ watchGood (BitVec.allOnes 64) = false ∧
    (run1 (.dbgHalted 20#7 21#7) (setS (atWord 0) 21 31)).g.r.rdS 20 = 0x8000000000000001#64 := by decide +kernel


/-! ### Memory words: the premises of their statements, and one step -/

/-- The parts of an access of `n` bytes at the data line. -/
def dataGo (n : Nat) : List (Nat × Nat × List Piece) := [(0, 0x400000, [⟨0x400000, n, .home 1 0 0x400000, none, false⟩])]
def writeData (s : State) (x : Nat) : State := s.wrLoc (.home 1 0 0x400000) 16 x
theorem witness_loads :
    [1, 2, 4, 8, 16].all (fun n => servedB (kLoad n) none 0 n false [(0, 0x400000)] (withData 0) (dataGo n)
      && (lanesOf (withData 0).leadLanes).map (fun l => (l, eaOf (withData 0) 16#7 24#7 0#1 none n l)) == [(0, 0x400000)]) = true ∧
    ([.ldN8, .ldI8, .ldN16, .ldI16, .ldB32, .ldB64, .ldB128] : List (BitVec 7 → BitVec 7 → BitVec 7 → BitVec 1 → Option (BitVec 32) → BitVec 2 → Instr)).all
      (fun c => readyB (c 8#7 16#7 24#7 0#1 none 0#2) (withData 0)) = true := by decide +kernel
theorem witness_load_scalar :
    [0, 1, 2, 3, 4, 5, 6].all (fun w => readyB (.ldScalar 8#7 16#7 (BitVec.ofNat 3 w) (.short 0#8)) (withData 0)
      && servedB (kLoad (2 ^ (w / 2))) none 0 (2 ^ (w / 2)) true [(0, 0x400000)] (withData 0) (dataGo (2 ^ (w / 2)))) = true := by
  decide +kernel
/-- `Alone` where the race detector remembers nothing. -/
theorem witness_alone : Alone (withData 0) (dataGo 4) true := fun x _ i _ k _ y hy => by
  have h : (withData 0).race.sect = [] := rfl
  rw [h] at hy
  simp [mapGet] at hy
theorem test_load_sign_extends :
    (run1 (.ldI8 8#7 16#7 24#7 0#1 none 0#2) (writeData (withData 0) 0x80)).g.loads = [⟨[.lane 8 0 0xFFFFFF80 false], none⟩] := by
  decide +kernel
theorem test_load_zero_extends :
    (run1 (.ldScalar 8#7 16#7 4#3 (.short 0#8)) (writeData (withData 0) 0x1FFFFFFFF)).g.loads
      = [⟨[.scalar 8 0xFFFFFFFF false], none⟩] := by decide +kernel
theorem witness_stores :
    [1, 2, 4, 8, 16].all (fun n => servedB (kStore n) none 0 n false [(0, 0x400000)] (withData 0) (dataGo n)) = true ∧
    ([.stB8, .stB16, .stB32, .stB64, .stB128] : List (BitVec 7 → BitVec 7 → BitVec 7 → BitVec 1 → Option (BitVec 32) → BitVec 2 → Instr)).all
      (fun c => readyB (c 8#7 16#7 24#7 0#1 none 0#2) (withData 0)) = true ∧
    [0, 1, 2, 3].all (fun w => readyB (.stScalar 8#7 16#7 (BitVec.ofNat 2 w) (.short 0#8)) (withData 0)
      && servedB (kStore (2 ^ w)) none 0 (2 ^ w) true [(0, 0x400000)] (withData 0) (dataGo (2 ^ w))) = true ∧
    (withData 0).src.prot = false := by decide +kernel
theorem witness_direct : (withData 0).direct ⟨0x400000, 4, .home 1 0 0x400000, none, false⟩ := by
  refine ⟨rfl, by decide +kernel, by simp, by simp, by simp, fun a v h e ht => ?_⟩
  simp only [Loc.home.injEq] at e
  obtain ⟨rfl, rfl, rfl⟩ := e
  exact absurd ht (by decide +kernel)
theorem test_store_little_endian :
    let s := run1 (.stB16 8#7 16#7 24#7 0#1 none 0#2) (setV (withData 0) 8 0xAABBCCDD)
    s.rdByte (.home 1 0 0x400000) 0 = 0xDD#8 ∧ s.rdByte (.home 1 0 0x400000) 1 = 0xCC#8 ∧
      s.rdByte (.home 1 0 0x400000) 2 = 0#8 ∧ s.g.stcnt = 1 := by decide +kernel
/-- A store of the pager core to a device register falls due; one under the group's own cofferdam stands in its buffer. -/
def ownDam : State :=
  { withData 0 with dams := [⟨7, homeBlk 1 0 0x400000, 16, 0, 100, 0, [], false, false⟩] }
theorem witness_store_register :
    readyB (.stScalar 8#7 16#7 2#2 (.short 0#8)) (setS (onBase 0) 16 (BitVec.ofNat 64 (mgmtBase + 0x200))) = true ∧
    servedB (kStore 4) none 0 4 true [(0, mgmtBase + 0x200)] (setS (onBase 0) 16 (BitVec.ofNat 64 (mgmtBase + 0x200)))
      [(0, mgmtBase + 0x200, [⟨mgmtBase + 0x200, 4, .mgmt 0x200, none, false⟩])] = true ∧
    Instr.mgmtRegisterWrite 0x200 4 5 (.pager 0) ∈
      (run1 (.stScalar 8#7 16#7 2#2 (.short 0#8)) (setS (setS (onBase 0) 16 (BitVec.ofNat 64 (mgmtBase + 0x200))) 8 5)).agenda := by
  decide +kernel
theorem witness_store_cofferdam :
    servedB (kStore 4) none 0 4 false [(0, 0x400000)] ownDam (dataGo 4) = true ∧
    (ownDam.ownDam (.home 1 0 0x400000)).isSome = true ∧
    (run1 (.stB32 8#7 16#7 24#7 0#1 none 0#2) (setV ownDam 8 0x11)).dams.map Dam.buf = [[(0, 0x11#8), (1, 0#8), (2, 0#8), (3, 0#8)]] := by
  decide +kernel
theorem witness_atomics :
    [4, 8].all (fun n => servedB (kAtom n) none 0 n false [(0, 0x400000)] (withData 0) (dataGo n)
      && servedB (kLdo n) none 0 n false [(0, 0x400000)] (withData 0) (dataGo n)
      && servedB (kSto n) none 0 n false [(0, 0x400000)] (withData 0) (dataGo n)) = true ∧
    ([.atomAdd, .atomMinI, .atomMaxI, .atomMinN, .atomMaxN, .atomAnd, .atomOr, .atomXor, .atomExch, .atomCas, .atomAddF] :
      List (BitVec 7 → BitVec 7 → BitVec 3 → BitVec 2 → BitVec 1 → Instr)).all
        (fun c => readyB (c 8#7 16#7 0#3 2#2 0#1) (withData 0) && readyB (c 8#7 16#7 0#3 2#2 1#1) (withData 0)) = true ∧
    (withData 0).releaseWaits (.home 1 0 0x400000) 0 = false := by decide +kernel
theorem test_atom_add_wraps :
    let s := run1 (.atomAdd 8#7 16#7 0#3 0#2 0#1) (setV (writeData (withData 0) 0xFFFFFFFF) 8 3)
    s.rdLoc (.home 1 0 0x400000) 4 = 2 ∧ s.g.loads = [⟨[.lane 8 0 0xFFFFFFFF false], none⟩] := by decide +kernel
theorem test_atom_cas_fails :
    let s := run1 (.atomCas 8#7 16#7 0#3 0#2 0#1) (setV (setV (writeData (withData 0) 5) 8 4) 9 9)
    s.rdLoc (.home 1 0 0x400000) 4 = 5 := by decide +kernel
/-- The checks of R292 one by one: 2^57 and 2^57 − 1, a window, the table region, alignment of 16 bytes, region. -/
theorem witness_access_checks :
    ((withData 0).checkAccess (kLoad 1) none 1 false [(0, 0x400000), (1, 2 ^ 57)]).map (fun t => (t.cause, t.lane)) = some (7, 1) ∧
    ((withData 0).checkAccess (kLoad 4) none 4 false [(0, localBase)]).map (fun t => (t.cause, t.lane)) = some (8, 0) ∧
    ((withData 0).checkAccess (kLoad 4) none 4 false [(0, tableBase)]).map (fun t => (t.cause, t.i1.toNat)) = some (9, tableBase) ∧
    ((withData 0).checkAccess (kLoad 16) none 16 false [(0, 0x400008)]).map (fun t => (t.cause, t.i2.toNat)) = some (10, 1) ∧
    ((withData 0).checkAccess ⟨.store, 4, 4, .far, .refused⟩ none 4 false [(0, localBase)]).map (fun t => t.cause) = some 8 ∧
    (withData 0).checkAccess (kLoad 4) none 4 false [(0, 0x400001)] = none := by decide +kernel
theorem test_load_misaligned_traps :
    (run1 (.ldB128 8#7 16#7 24#7 0#1 none 0#2) (setS (withData 0) 16 0x400008)).iss.trap.map TrapReq.cause = some 10 := by
  decide +kernel
/-- R411: the data of a pair differ. -/
theorem witness_store_mismatch :
    let s := setMstat (setVL ((withData 0).setIss (fun i => { i with set := 3, eff := 3 })) 8 1 1) 0x2000
    readyB (.stB32 8#7 16#7 24#7 0#1 none 0#2) s = true ∧
    (run1 (.stB32 8#7 16#7 24#7 0#1 none 0#2) s).iss.mism.isSome = true := by decide +kernel


/-! ### Cache control, pins, far reductions, cofferdams, weirs, fences -/

/-- Frame 3 of the stack that serves the data line holds its region. -/
def withFrame (s : State) (st dirty : Nat) : State :=
  let k := s.stackOf 1 0x400000
  let f := { Frame.free with state := st, w := true, asid := 1, vpn := 0x40, sub := 1, dirty := BitVec.ofNat 16 dirty }
  { s with frames := mapSet Frame.free s.frames (frameKey k 3) f,
           anchors := mapSet 0xFFFFF s.anchors (k * 2 ^ 20 + frameHash 1 0 0x400000) 3 }
/-- A level-1 block of a core. -/
def l1At (core blk : Nat) : L1Block := ⟨core, blk, blk, 0, 0, false, true, [], []⟩
/-- The pager core's own region 0x40 has frame 3. -/
def onPager (st dirty : Nat) : State :=
  let s := setS (onBase 0) 16 0x400000
  let k := s.stackOf 0 0x400000
  { s with frames := mapSet Frame.free s.frames (frameKey k 3)
             { Frame.free with state := st, w := true, vpn := 0x40, sub := 1, dirty := BitVec.ofNat 16 dirty },
           anchors := mapSet 0xFFFFF s.anchors (k * 2 ^ 20 + frameHash 0 0 0x400000) 3 }
def pagerFrame : Nat := frameKey ((onBase 0).stackOf 0 0x400000) 3
theorem witness_cctl :
    (withData 0).checkAccess { kBlock with k := .load } none 1 true ((withData 0).oneAccess 16#7) = none ∧
    (run1 (.cctlWbl 8#7 16#7) (withData 0)).g.loads = [⟨[.scalar 8 1 false], none⟩] ∧
    (run1 (.cctlWbl 8#7 16#7) { withData 0 with l2 := mapMod none (withData 0).l2 (lineKey 1 0 0x400000) (Option.map (fun l => { l with dirty := true })) }).g.loads
      = [⟨[.scalar 8 0 false], none⟩] ∧
    (withData 0).findFrame ((withData 0).stackOf 1 0x400000) 1 0 0x400000 = none ∧
    (run1 (.cctlWbf 8#7 16#7) (withData 0)).g.loads = [⟨[.scalar 8 1 false], none⟩] ∧
    (withFrame (withData 0) 1 0).findFrame ((withData 0).stackOf 1 0x400000) 1 0 0x400000 = some 3 ∧
    (run1 (.cctlWbf 8#7 16#7) (withFrame (withData 0) 1 0)).g.loads.map PendLoad.writes = [[.scalar 8 0 false]] ∧
    (run1 (.cctlRel 8#7 16#7) (onPager 1 0)).spills.map (fun x => (x.fk, x.free, x.tell)) = [(pagerFrame, true, true)] ∧
    (run1 (.cctlWbf 8#7 16#7) (withFrame (withData 0) 2 0)).iss.stalled = true ∧
    (run1 .cctlL1all { withData 0 with l1 := [l1At 0 1, l1At 1 1] }).l1.map L1Block.core = [1] := by decide +kernel
/-- The pager core at a frame of a view or of the table region: clean, dirty, and pinned. -/
theorem witness_cctl_unbacked :
    let table (s : State) := s.setFrame pagerFrame (fun e => { e with table := true })
    let view (s : State) := s.setFrame pagerFrame (fun e => { e with view := 5, w := true })
    readyB (.cctlRel 8#7 16#7) (onPager 1 1) = true ∧ (onPager 1 1).findFrame ((onPager 1 1).stackOf 0 0x400000) 0 0 0x400000 = some 3 ∧
    (run1 (.cctlWbf 8#7 16#7) (table (onPager 1 1))).g.loads = [⟨[.scalar 8 3 false], none⟩] ∧
    (run1 (.cctlRel 8#7 16#7) (table (onPager 1 1))).g.loads = [⟨[.scalar 8 0 false], none⟩] ∧
    ((run1 (.cctlRel 8#7 16#7) (table (onPager 1 1))).frame pagerFrame).state = 0 ∧
    (run1 (.cctlRel 8#7 16#7) (view (setS (onPager 1 1) 8 0x50000))).g.loads = [⟨[.scalar 8 1 false], none⟩] ∧
    (run1 (.cctlRel 8#7 16#7) { table (onPager 1 0) with pins := [⟨0, 0x40, 1, .pinSet⟩] }).g.loads = [⟨[.scalar 8 2 false], none⟩] := by
  decide +kernel
/-- A pin window of the launch over the data line: alive, then lapsed. -/
def withPin (lapsed : Bool) : State :=
  (withData 0).setGrid 0 (fun g => { g with windows := [⟨0x400000, 0x10000, 1, 0, 0, 9, 0, 2, lapsed⟩] })
theorem witness_pins :
    (withData 0).pinWindow 0x400000 = none ∧ (run1 (.pinReload 8#7 16#7) (withData 0)).g.loads = [⟨[.scalar 8 1 false], none⟩] ∧
    ((withPin false).pinWindow 0x400000).isSome = true ∧
    ((run1 (.pinReload 8#7 16#7) (withPin false)).grid 0).map (fun g => g.windows.map Window.fade) = some [9] ∧
    (run1 (.pinReload 8#7 16#7) (withPin true)).g.loads = [⟨[.scalar 8 2 false], none⟩] ∧
    ((run1 (.pinEnd 8#7 16#7) (withPin false)).grid 0).map (fun g => g.windows.map Window.lapsed) = some [true] := by decide +kernel
theorem witness_pin_set :
    let s := setS (onBase 0) 16 0x400001
    s.pinFits ⟨0, 0x40, 2, .pinSet⟩ = true ∧ s.checkAccess { kBlock with k := .load } none 1 true (s.oneAccess 16#7) = none ∧
    (run1 (.pinSet 8#7 16#7) s).pins = [⟨0, 0x40, 2, .pinSet⟩] ∧
    (run1 (.pinClr 8#7 16#7) { s with pins := [⟨0, 0x40, 2, .pinSet⟩] }).pins = [] ∧
    (run1 (.pinClr 8#7 16#7) s).g.loads = [⟨[.scalar 8 1 false], none⟩] := by decide +kernel
/-- An epoch is open at the data line. -/
def inEpoch : State := (withData 0).setG (fun g => { g with epa := some 0x400000 })
theorem witness_far :
    readyB (.rfarAddF32 16#7 24#7) inEpoch = true ∧
    inEpoch.checkAccess ⟨.store, 4, 4, .far, .refused⟩ none 4 false [(0, 0x400000)] = none ∧
    (withData 0).checkAccess ⟨.store, 4, 4, .far, .refused⟩ (some 3) 4 false [(0, 0x400000)] ≠ none ∧
    (run1 (.rfarAddF32 16#7 24#7) inEpoch).contribs.map (fun c => (c.va, c.fn, c.key)) = [(0x400000, 9, 0)] ∧
    mapGet 0 (run1 (.rfarAddF32 16#7 24#7) inEpoch).g.lseq 0 = 1 ∧
    (run1 .repClose inEpoch).g.epa = some 0x400000 ∧ (run1 .repClose inEpoch).g.stcnt = 1 ∧
    (run1 .repClose inEpoch).stores.map PendStore.kind = [.close 1 0 0x400000] ∧ (withData 0).g.epa = none := by decide +kernel
def contribAt (place : ContribPlace) (id : Nat) : Contrib :=
  ⟨id, 1, 0, 0x400000, 0, 5, false, 0, none, 0x400000, 16, 0, 0, 0, place⟩
theorem witness_far_full :
    let s := { inEpoch with contribs := (List.range 64).map (contribAt .buffered) }
    (s.buffered s.core s.g.quarter).length = 64 ∧ (run1 (.rfarAddF32 16#7 24#7) s).iss.stalled = true ∧
    (run1 .repFlush s).contribs.all (fun c => c.place == .inFlight) = true := by decide +kernel
theorem witness_rep_open :
    servedB ⟨.weir, 32, 32, .epoch, .refused⟩ none 0 32 true ((withData 0).oneAccess 16#7) (withData 0) (dataGo 32) = true ∧
    (run1 (.repOpen 16#7) (withData 0)).g.epa = some 0x400000 := by decide +kernel
/-- `dam.take` with no, one and two cofferdams of the group, and in a refused region. -/
def damOf (id blk : Nat) (breached : Bool) : Dam := ⟨id, blk, 16, 0, 100, blkKey 1 0 0x400000, [(4, 0x77#8)], false, breached⟩
def damBlk : Nat := homeBlk 1 0 0x400000
theorem witness_dam_take :
    let one := { withData 0 with dams := [damOf 7 1 false] }
    servedB kBlock none 0 1 true ((withData 0).oneAccess 16#7) (withData 0) (dataGo 1) = true ∧
    (run1 (.damTake 8#7 16#7 4#7) (withData 0)).g.hold = .dam 8 0x400000 32 0 ∧
    servedB kBlock none 0 1 true (one.oneAccess 16#7) one (dataGo 1) = true ∧ one.blkTaken damBlk = false ∧
    (run1 (.damTake 8#7 16#7 4#7) one).dams.length = 2 ∧ (run1 (.damTake 8#7 16#7 4#7) one).g.r.rdS 8 = 0 ∧
    (run1 (.damTake 8#7 16#7 4#7) { one with owns := [⟨1, damBlk, 3, 0, 0, 0, true, 1⟩] }).g.r.rdS 8 = 1 ∧
    (let full : State := { one with dams := (damOf 7 1 false) :: (List.range 15).map (fun i => ⟨20 + i, 50 + i, 99, 0, 100, 0, [], false, false⟩) }
     full.blkTaken damBlk = false ∧ (full.damsOf (fun x => x.core == full.core)).length = 16 ∧ (full.damsOf (fun x => x.grp == full.gid)).length = 1) ∧
    (run1 (.damTake 8#7 16#7 4#7) { withData 0 with dams := [damOf 7 1 false, damOf 8 2 false] }).g.r.rdS 8 = 2 := by decide +kernel
theorem witness_dam_refused :
    let s := setS (onBase 0) 16 (BitVec.ofNat 64 tableBase)
    s.damRefused tableBase = true ∧ s.checkAccess kBlock none 1 true (s.oneAccess 16#7) = none ∧ (withData 0).damRefused 0x400000 = false := by
  decide +kernel
theorem witness_dam_check :
    (withData 0).findDam 0x400000 = none ∧ (run1 (.damChk 8#7 16#7) (withData 0)).g.r.rdS 8 = 5 ∧
    (run1 (.damChk 8#7 16#7) { withData 0 with dams := [damOf 7 damBlk false] }).g.r.rdS 8 = 0x6400000000#64 ∧
    (run1 (.damChk 8#7 16#7) { withData 0 with dams := [damOf 7 damBlk true] }).g.r.rdS 8 = 4 ∧
    (run1 (.damEnd 8#7 16#7) (withData 0)).g.r.rdS 8 = 5 ∧
    (run1 (.damEnd 8#7 16#7) { withData 0 with dams := [damOf 7 damBlk true] }).g.r.rdS 8 = 4 ∧
    (run1 (.damEnd 8#7 16#7) { withData 0 with dams := [damOf 7 damBlk false] }).rdByte (.home 1 0 0x400000) 4 = 0x77#8 := by decide +kernel
/-- A weir at the data line: arrivals 1 of 2, then a wait before and after its phase. -/
def withWeir (kind : Nat) (w : Weir) : State := writeData (withData kind) w.toNat
theorem witness_weirs :
    servedB kWarm none 0 16 true ((withData 0).oneAccess 16#7) (withData 0) (dataGo 16) = true ∧
    servedB kWeir none 0 16 true ((withData 0).oneAccess 16#7) (withData 0) (dataGo 16) = true ∧
    servedB kWeirRead none 0 16 true ((withData 0).oneAccess 16#7) (withData 0) (dataGo 16) = true ∧
    (withData 0).closings = [] ∧ mapGet 0 (withData 0).closeArr (Loc.home 1 0 0x400000).weirKey = 0 ∧
    (run1 (.warm 16#7 24#7) (setS (withData 0) 24 0x30002)).rdWeir (.home 1 0 0x400000) = ⟨2, 0, 3, 0, 0⟩ ∧
    (run1 (.warr 8#7 16#7 0#3 0#4) (withWeir 0 ⟨2, 1, 0, 0, 7⟩)).rdWeir (.home 1 0 0x400000) = ⟨2, 0, 0, 0, 8⟩ ∧
    (run1 (.warr 8#7 16#7 0#3 0#4) (withWeir 0 ⟨2, 0, 0, 0, 7⟩)).rdWeir (.home 1 0 0x400000) = ⟨2, 1, 0, 0, 7⟩ ∧
    (run1 (.warr 8#7 16#7 0#3 0#4) (withWeir 0 ⟨2, 1, 0, 0, 7⟩)).g.loads = [⟨[.scalar 8 7 false], none⟩] ∧
    (run1 (.wprobe 8#7 16#7 0#3) (withWeir 0 ⟨2, 1, 0, 9, 7⟩)).g.loads = [⟨[.scalar 8 0x700000009 false], none⟩] := by decide +kernel
theorem witness_wwait :
    (run1 (.wwait 0#3 16#7 24#7) (withWeir 0 ⟨2, 1, 0, 0, 0⟩)).g.hold = .wwait 0x400000 0 0 0 ∧
    (run1 (.wwait 0#3 16#7 24#7) (withWeir 0 ⟨2, 1, 0, 0, 1⟩)).g.hold = .none ∧
    ((withData 0).setPois damBlk true).locPois (.home 1 0 0x400000) 16 = true ∧
    (run1 (.wwait 0#3 16#7 24#7) ((withData 0).setPois damBlk true)).iss.trap.map TrapReq.cause = some 13 ∧
    (run1 (.wprobe 8#7 16#7 0#3) ((withData 0).setPois damBlk true)).iss.trap.map TrapReq.cause = some 13 := by decide +kernel
/-- A release that must wait: an older write of the group's die is outstanding and the epochs have run full. -/
theorem witness_release_waits :
    let s := { withData 0 with stores := [⟨1, some 16, 0, 1, .write [], []⟩], dies := [(0, { Die.reset with epoch := 0x20000001 })] }
    s.releaseWaits (.home 1 0 0x400000) 4 = true ∧ (run1 (.fenceRel 4#3) s).iss.stalled = true := by decide +kernel
/-- `tbar` on a weir of the scratchpad, as the first and as the last arrival; an offset past the scratchpad. -/
def padGo : List (Nat × Nat × List Piece) := [(0, localBase + 0x40, [⟨localBase + 0x40, 16, .spad 0 0x40, none, false⟩])]
def withBar (arr : Nat) : State := setS ((withPad 0).wrLoc (.spad 0 0x40) 16 (Weir.toNat ⟨2, arr, 0, 0, 3⟩)) 16 0x40
theorem witness_tbar :
    servedB ⟨.weir, 16, 16, .weir, .read⟩ none 0 16 true [(0, localBase + 0x40)] (withBar 0) padGo = true ∧
    (run1 (.tbar 16#7) (withBar 0)).g.hold = .tbar 0x40 3 ∧ (run1 (.tbar 16#7) (withBar 1)).g.hold = .none ∧
    ((run1 (.tbar 16#7) (withBar 1)).rdWeir (.spad 0 0x40)).phase = 4 ∧
    (run1 (.tbar 16#7) (setS (withPad 0) 16 0x100000)).iss.trap.map (fun t => (t.cause, t.i2)) = some (8, 1) := by decide +kernel
theorem witness_fences :
    (run1 (.fenceAcq 4#3) { atWord 0 with l1 := [l1At 0 1, l1At 1 1] }).l1.map L1Block.core = [1] ∧
    ((run1 (.fenceRel 4#3) (atWord 0)).die 0).epoch = 2 ∧ (run1 (.fenceRel 4#3) (atWord 0)).marked 0 1 = true ∧
    (run1 (.fenceRel 4#3) { atWord 0 with stores := [⟨1, none, 0, 1, .write [], []⟩] }).g.hold = .fenceRel 0 1 ∧ (atWord 0).g.isCompute = true ∧ (onBase 0).g.isCompute = false ∧
    (run1 (.fenceRel 4#3) ((onBase 0).setG (fun g => { g with stcnt := 1 }))).iss.stalled = true ∧
    (run1 (.fenceFull 4#3) ((atWord 0).setG (fun g => { g with stcnt := 1 }))).g.hold = .fenceFull 0 1 ∧
    (run1 (.fenceFull 4#3) ((onBase 0).setG (fun g => { g with ldcnt := 1 }))).g.hold ≠ .none ∧
    (run1 (.fenceFull 4#3) (onBase 0)).g.hold = .none := by decide +kernel
/-- The epochs have run full; die 31's watermark, of the reached epoch, and the group's own. -/
theorem witness_fence_full :
    let s := { (atWord 0).setDie 0 (fun d => { d with epoch := 0x20000001 }) with stores := [⟨1, none, 0, 1, .write [], []⟩] }
    2 ^ 29 ≤ ((s.die s.g.die).epoch + 2 ^ 32 - s.watermark s.g.die) % 2 ^ 32 ∧ (run1 (.fenceFull 4#3) s).iss.stalled = true ∧
    readyB (.fenceFull 4#3) s = true := by decide +kernel


/-! ### Engines, worlds, launches -/

def putMem (s : State) (va n x : Nat) : State := s.wrLoc (.home 1 0 va) n x
/-- A fixed layout of one row of four bytes (R329). -/
def layoutAt (base : Nat) : Nat := 1 + 2 ^ 16 + 2 ^ 32 + base * 2 ^ 64 + 4 * 2 ^ 192 + 2 ^ 224 + 4 * 2 ^ 240
/-- A plan of one step at the data line, its two layouts after it, and a group that names them (R341). -/
def withPlan : State :=
  let s := putMem (putMem (setS (withPad 1) 16 0x400020) 0x400020 32 0x101) 0x400040 32 0x10000
  (putMem (putMem s 0x400080 64 (layoutAt 0x400000)) 0x4000C0 64 (layoutAt 0x400000)).setG
    (fun g => { g with ltabBase := 0x400080, ltabCount := 2 })
theorem witness_copy :
    (withData 1).alike (fun l => (withData 1).src.rdW 4 16 l) ∧ (withData 1).freeCtx (withData 1).core = List.range 16 ∧
    (run1 (.cptCopy 8#7 16#7 24#7) (withData 1)).g.cpcnt = 1 ∧
    ((run1 (.cptCopy 8#7 16#7 24#7) (withData 1)).ctx 0 0).map (fun c => c.cmds.map (fun q => (q.vd, q.boxes.map CopyBox.sr)))
      = some [(some 8, [0x400000])] ∧
    (run1 (.cptLtab 16#7 24#7) (setS (withData 1) 24 70000)).g.ltabCount = 65536 :=
  ⟨by unfold State.alike; decide +kernel, by decide +kernel, by decide +kernel, by decide +kernel, by decide +kernel⟩
theorem witness_copy_full :
    let s := { withData 1 with ctxs := (List.range 16).map (fun x => (x, some ⟨16, 0, none, []⟩)) }
    s.freeCtx s.core = [] ∧ readyB (.cptCopy 8#7 16#7 24#7) s = true ∧ (run1 (.cptCopy 8#7 16#7 24#7) s).iss.stalled = true := by
  decide +kernel
theorem witness_bind :
    readyB (.cptBind 8#7 16#7) withPlan = true ∧ (withPlan.groupRead 0x400020 32).2 = some (0x101, false) ∧
    headerBad 0x101 0x10000 = false ∧ headerBad 0x100 0x10000 = true ∧
    (run1 (.cptBind 8#7 16#7) withPlan).g.r.rdS 8 = 0 ∧ mapGet none (run1 (.cptBind 8#7 16#7) withPlan).g.plans 0 = some 0 ∧
    (run1 (.cptBind 8#7 16#7) (putMem withPlan 0x400020 1 0)).g.r.rdS 8 = 0x8000000000000002#64 ∧
    (run1 (.cptBind 8#7 16#7) (putMem withPlan 0x40005E 1 1)).g.r.rdS 8 = 0x8000000000000002#64 ∧
    (run1 (.cptBind 8#7 16#7) (withPlan.setG (fun g => { g with ltabCount := 1 }))).g.r.rdS 8 = 0x8000000000000003#64 ∧
    (run1 (.cptBind 8#7 16#7) (putMem withPlan 0x400080 1 0)).g.r.rdS 8 = 0x8000000000000003#64 ∧
    (run1 (.cptBind 8#7 16#7) (withPlan.setG (fun g => { g with plans := [(0, some 0), (1, some 1), (2, some 2), (3, some 3)] }))).g.r.rdS 8
      = 0x8000000000000001#64 := by decide +kernel
/-- A bound plan of a given REPEAT at a given stage. -/
def bound (repeat_ stage : Nat) (cmds : List CopyCmd) : State :=
  let p : Plan := ⟨0x101 + repeat_ * 2 ^ 64, [(0x10000, layoutAt 0x400000, layoutAt 0x400000)], stage, false⟩
  { setS (withPad 1) 16 0 with ctxs := [(2, some ⟨16, 0, some p, cmds⟩)] }.setG (fun g => { g with plans := [(0, some 2)] })
theorem witness_advance :
    ((bound 0 5 []).planOf 16#7).isSome = true ∧ ((withPad 1).planOf 16#7).isNone = true ∧
    (run1 (.cptAdv 8#7 16#7) (bound 0 5 [])).g.r.rdS 8 = 5 ∧ (run1 (.cptAdv 8#7 16#7) (bound 5 5 [])).g.r.rdS 8 = 0x8000000000000002#64 ∧
    (run1 (.cptAdv 8#7 16#7) (withPad 1)).g.r.rdS 8 = 0x8000000000000001#64 ∧
    ((run1 (.cptAdv 8#7 16#7) (bound 0 5 [])).ctx 0 2).map (fun c => c.cmds.map (fun q => (q.stage, q.boxes.length))) = some [(some 5, 1)] ∧
    ((run1 (.cptRel 8#7 16#7) (bound 0 5 [])).ctx 0 2).isNone = true ∧ (run1 (.cptRel 8#7 16#7) (withPad 1)).g.r.rdS 8 = 1 := by
  decide +kernel
def copyBox (state : BoxState) : CopyBox := ⟨0, 0, 0, 0, 0, 0, state, false, false, 0, none, false, false, []⟩
def copyCmd (box : CopyBox) : CopyCmd :=
  ⟨9, none, 0, 0, none, 1, 0, 0x400040, 2, false, false, [⟨0, 1, some (layoutAt 0x400000), some (layoutAt 0x400000)⟩], true, none, [box], [], [], []⟩
theorem witness_release_running :
    ((run1 (.cptRel 8#7 16#7) (bound 0 5 [copyCmd (copyBox .running)])).ctx 0 2).map (fun c => c.plan.map Plan.released)
      = some (some true) := by decide +kernel
/-- A delivered fault of context 2, box 0: unreadable source (cause 4), and one of the destination. -/
def faulted (side : Nat) (delivered : Bool) : State :=
  { setS (withPad 1) 16 2 with
    ctxs := [(2, some ⟨16, 0, none, [copyCmd (copyBox (.faulted ⟨4, 0, side, false, false, 0, 0, 0, 0, delivered⟩))]⟩)] }
theorem witness_resolve :
    ((faulted 0 true).copyPending 0 16).isSome = true ∧ (run1 (.cptRes 8#7 16#7 0#2) (faulted 0 true)).g.r.rdS 8 = 0 ∧
    (run1 (.cptRes 8#7 16#7 1#2) (faulted 0 true)).g.r.rdS 8 = 0 ∧
    ((run1 (.cptRes 8#7 16#7 2#2) (setS (faulted 0 true) 8 77)).ctx 0 2).map (fun c => c.cmds.map (fun q => q.boxes.map CopyBox.patch))
      = some [[some 77]] ∧
    (run1 (.cptRes 8#7 16#7 2#2) (faulted 1 true)).g.r.rdS 8 = 2 ∧ (run1 (.cptRes 8#7 16#7 0#2) (faulted 0 false)).g.r.rdS 8 = 1 := by
  decide +kernel

/-- A matrix parameter block of BF16 by BF16 (R356), at offsets 0 and 0x1000 of the scratchpad. -/
def matrix : State := setVL (setVL (withPad 2) 16 0 0) 18 0 0x22
theorem witness_mma :
    readyB (.mma 3#4 1#1 0#2 16#7 24#7) (setVL matrix 17 0 0x1000) = true ∧
    matBad true true 0x10000 (fun i => ((setVL matrix 17 0 0x1000).src.rdV (16 + i) 0).toNat) = none ∧
    (run1 (.mma 3#4 1#1 0#2 16#7 24#7) (setVL matrix 17 0 0x1000)).g.mxcnt = 1 ∧
    (run1 (.mma 3#4 1#1 0#2 16#7 24#7) (setVL matrix 17 0 0x1001)).iss.trap.map (fun t => (t.cause, t.i2)) = some (12, 5) ∧
    (run1 (.mma 3#4 1#1 0#2 16#7 24#7) (matrix.setMuq 0 0 (List.replicate 16 ⟨1, 16, .mld 0 0, []⟩))).iss.stalled = true := by decide +kernel
theorem witness_tile_words :
    ((run1 (.mld 3#4 16#7) (setS matrix 16 0x100)).muq 0 0).map (fun m => (m.id, m.grp, m.op)) = [(1, 16, .mld 3 0x100)] ∧
    (run1 (.mld 3#4 16#7) (setS matrix 16 0x80)).iss.trap.map TrapReq.cause = some 12 ∧
    ((run1 (.mst 3#4 0#1 16#7 24#7) (setS (setS matrix 16 0x100) 24 (BitVec.allOnes 64))).muq 0 0).map MuCmd.op = [.mst 3 0x100 false none] ∧
    ((run1 (.mqst 3#4 0#1 16#7 24#7) (setS (setS matrix 16 0x40) 24 0x20)).muq 0 0).map MuCmd.op = [.mqst 3 0x40 false (some 0x20)] ∧
    (mapGet [] (run1 (.mcb 16#7) (setS matrix 16 0x40)).cbq 0).map (fun m => (m.grp, m.off)) = [(16, 0x40)] ∧
    (run1 (.mcb 16#7) (setS matrix 16 0x41)).iss.trap.map TrapReq.cause = some 12 ∧
    (run1 (.mxst 8#7) (matrix.setTeam 0 (fun t => { t with mxstat := [(0, 5)] }))).g.r.rdS 8 = 0x5000000#64 ∧
    ((run1 (.mxstClr 8#7) (matrix.setTeam 0 (fun t => { t with mxstat := [(0, 5)] }))).team 0).map Team.mxstat = some [] := by decide +kernel
theorem witness_prefetch :
    let s := setS (withData 3) 16 0x400000
    readyB (.fqePf 8#7 16#7) s = true ∧ s.checkAccess (kLoad 1) none 1 true (s.oneAccess 16#7) = none ∧
    (run1 (.fqePf 8#7 16#7) s).g.r.rdS 8 = 1 ∧ Instr.prefetch 1 0 0x40 ∈ (run1 (.fqePf 8#7 16#7) s).agenda := by decide +kernel
theorem witness_sync :
    let s := withData 3
    readyB (.fqeSync 8#7 16#7) s = true ∧ s.g.view = 0 ∧ s.checkAccess { kStore 1 with out := 1, inn := 1 } none 1 true (s.oneAccess 16#7) = none ∧
    (run1 (.fqeSync 8#7 16#7) s).g.r.rdS 8 = 1 ∧ (run1 (.fqeSync 8#7 16#7) (s.setG (fun g => { g with stcnt := 1 }))).iss.stalled = true ∧
    (run1 (.fqeSync 8#7 16#7) (withFrame s 2 0)).iss.stalled = true ∧ (withFrame s 1 1).frames.map (fun e => e.2.state) = [1] := by decide +kernel
/-- A Write of one block from the table region on drive 0 (R386), on the pager core; and a record with a reserved bit. -/
def subRecord : Nat := 1 + 2 ^ 32 + tableBase * 2 ^ 128
def withSub (r : Nat) : State := setS (withLine (onBase 0) 0 0x400000) 16 0x400000 |>.wrLoc (.home 0 0 0x400000) 64 r
theorem witness_sub :
    readyB (.fqeSub 8#7 16#7) (withSub subRecord) = true ∧ subBad subRecord = false ∧ subBad (subRecord + 2 ^ 31) = true ∧
    (withSub subRecord).checkAccess { kLoad 64 with out := 64, inn := 64 } none 64 true ((withSub subRecord).oneAccess 16#7) = none ∧
    ((withSub subRecord).resolve { kLoad 64 with out := 64, inn := 64 } 0 0x400000 64).2.toOption.isSome = true ∧
    (run1 (.fqeSub 8#7 16#7) (withSub subRecord)).nvme.length = 1 ∧
    (run1 (.fqeSub 8#7 16#7) (withSub (subRecord + 2 ^ 31))).g.loads = [⟨[.scalar 8 0x8000000000000001 false], none⟩] := by decide +kernel

/-- A launch with a WORLD window over the data line; a fork of two worlds of it; the group in world 1. -/
def withWorlds : State :=
  setS ((withData 0).setGrid 0 (fun g => { g with windows := [⟨0x400000, 0x10000, 3, 0, 0, 0, 0, 0, false⟩] })) 16 0x11
def forked : State :=
  { withWorlds.setTeam 0 (fun t => { t with forks := [(0, some ⟨0, [3, 4], 1, 1, 0⟩)] }) with
    tags := [(64 + 3, ⟨.live, 0, [(0x400000, 0x10000)], 1, false⟩), (64 + 4, ⟨.live, 0, [(0x400000, 0x10000)], 1, false⟩)] }
def inWorld : State := forked.setG (fun g => { g with view := 4, world := some (0, 1) })
theorem witness_fork :
    readyB (.wfork 8#7 16#7) withWorlds = true ∧ withWorlds.forkRefusal 0x11 = none ∧ withWorlds.forkRefusal 0x21 = some 1 ∧
    withWorlds.myTeam.isSome = true ∧ (run1 (.wfork 8#7 16#7) withWorlds).g.r.rdS 8 = 0x1000 ∧
    ((run1 (.wfork 8#7 16#7) withWorlds).team 0).map (fun t => (t.fork 0).map (fun f => f.tags.length)) = some (some 2) := by decide +kernel
theorem witness_enter :
    (forked.tag 1 3).state = .live ∧ (forked.myFork 0).map (fun f => f.tags) = some [3, 4] ∧ forked.myFork 1 = none ∧
    (run1 (.wenter 8#7 16#7) (setS forked 16 1)).g.view = 4 ∧ (run1 (.wenter 8#7 16#7) (setS forked 16 2)).g.r.rdS 8 = 1 ∧
    (run1 (.wenter 8#7 16#7) (setS forked 16 0x80)).g.r.rdS 8 = 1 ∧ (run1 (.wenter 8#7 16#7) (setS forked 16 0x10)).g.r.rdS 8 = 6 ∧
    (run1 (.wenter 8#7 16#7) (setS inWorld 16 1)).g.r.rdS 8 = 5 := by decide +kernel
theorem witness_leave :
    forked.g.world = none ∧ (run1 (.wleave 8#7) forked).g.r.rdS 8 = 8 ∧ inWorld.g.world ≠ none ∧
    (inWorld.flushFar 16).farLeft 16 = false ∧ (run1 (.wleave 8#7) inWorld).g.view = 0 ∧ (run1 (.wleave 8#7) inWorld).g.world = none ∧
    (run1 (.wleave 8#7) (inWorld.setG (fun g => { g with stcnt := 1 }))).g.hold = .leave 8 0 := by decide +kernel
theorem witness_choose :
    forked.occupied 0 ⟨0, [3, 4], 1, 1, 0⟩ = false ∧ inWorld.occupied 0 ⟨0, [3, 4], 1, 1, 0⟩ = true ∧
    (run1 (.wchoose 8#7 16#7) (setS forked 16 15)).g.r.rdS 8 = 0 ∧ ((run1 (.wchoose 8#7 16#7) (setS forked 16 15)).tag 1 3).state ≠ .live ∧
    (run1 (.wchoose 8#7 16#7) (setS forked 16 2)).g.r.rdS 8 = 1 ∧ (run1 (.wchoose 8#7 16#7) (setS forked 16 0x80)).g.r.rdS 8 = 1 ∧
    (run1 (.wchoose 8#7 16#7) (setS forked 16 0x10)).g.r.rdS 8 = 6 ∧ (run1 (.wchoose 8#7 16#7) (setS inWorld 16 0)).g.r.rdS 8 = 5 := by decide +kernel
/-- Another group of the team stands in the fork; world 1 is spoiled; world 0 is committed. -/
theorem witness_choose_states :
    let other := forked.putG 17 { forked.g with grp := 1, view := 4, world := some (0, 1) }
    let spoiled := forked.setTeam 0 (fun t => { t with forks := [(0, some ⟨0, [3, 4], 1, 1, 2⟩)] })
    (run1 (.wchoose 8#7 16#7) (setS other 16 0)).g.r.rdS 8 = 9 ∧ (run1 (.wchoose 8#7 16#7) (setS spoiled 16 1)).g.r.rdS 8 = 7 ∧
    (run1 (.wchoose 8#7 16#7) (setS forked 16 0)).g.r.rdS 8 = 0 := by decide +kernel
theorem witness_world_status :
    (run1 (.wstat 8#7 16#7) (setS inWorld 16 0)).g.r.rdS 8 = 0x10002000300#64 ∧ (run1 (.wstat 8#7 16#7) (setS inWorld 16 0x80)).g.r.rdS 8 = 1 ∧
    (run1 (.wstat 8#7 16#7) (setS inWorld 16 0x10)).g.r.rdS 8 = 6 ∧ (run1 (.wwho 8#7) inWorld).g.r.rdS 8 = 0x2444#64 := by decide +kernel
/-- A child record of 256 bytes at 0x400000, of an aligned and a misaligned address, at depth 10, and of group 1. -/
theorem witness_launch :
    readyB (.launch 8#7 16#7) (withData 0) = true ∧ (withData 0).checkAccess kLaunch none 256 false [(0, 0x400000)] = none ∧
    (withData 0).watched false 256 [(0, 0x400000)] = none ∧ ((withData 0).resolve kLaunch 0 0x400000 256).2.toOption.isSome = true ∧
    (run1 (.launch 8#7 16#7) (withData 0)).g.r.rdV 8 0 = 0 ∧ (run1 (.launch 8#7 16#7) (withData 0)).childSlots = [0] ∧
    (run1 (.launch 8#7 16#7) (setVL (withData 0) 16 0 0x400010)).g.r.rdV 8 0 = 4 ∧
    (run1 (.launch 8#7 16#7) ((withData 0).setGrid 0 (fun g => { g with depth := 10 }))).g.r.rdV 8 0 = 1 ∧
    (run1 (.launch 8#7 16#7) ((withData 0).setTeam 0 (fun t => { t with children := (List.range 64).map (fun i => (i, some 9)) }))).g.r.rdV 8 0 = 2 ∧
    (run1 (.launch 8#7 16#7) ((withData 0).setG (fun g => { g with grp := 1 }))).g.r.rdV 8 0 = 3 := by decide +kernel


/-! ### Start-up, housekeeping, the management space -/

/-- The device after start-up, at tick `n`. -/
def booted (n : Nat) : State :=
  let s := { State.reset with tick := n, agenda := [] }
  let s := (List.range 8).foldl (fun s k => s.setTile k (fun x => { x with stage := 2 })) s
  s.setDev (fun d => { d with poweredOn := true, run := true })
/-- A core of the base tiles has exited. -/
def napping (u : Nat) (s : State) : State := s.modG u (fun g => { g with lsv := [] })
theorem witness_start_up :
    State.reset.dev.poweredOn = false ∧ State.reset.dev.failcode = 0 ∧ (∀ k, k < 8 → (State.reset.tile k).stage ≠ 15) ∧
    let s := (booted 0).setDev (fun d => { d with run := false })
    s.dev.poweredOn = true ∧ s.dev.run = false ∧ s.dev.failcode = 0 ∧
    (∀ u, u < 16 → (s.tile (u % 8)).stage ≠ 15 ∧ (8 ≤ u → s.coreTaken (u - 8) = false) ∧ (s.getG u).isSome = true) ∧
    (s.setDev (fun d => { d with attestBusy := some 0x100 })).dev.attestBusy = some 0x100#64 := by decide +kernel
theorem witness_core_reset :
    let s := (booted 0).modG 15 (fun g => { g with ldcnt := 3, loads := [⟨[], none⟩], r := { g.r with s := [(9, 1)] }, pcv := [(0, 77)] })
    (s.getG 15).map (fun g => g.laneAt 0) = some .live ∧ ((run1 (.coreReset 15) s).getG 15).map (fun g => (g.r, g.ldcnt, g.loads.length, g.pc 0)) =
      some (Regs.zero 0x02000020#32 0x100000#64, 0, 0, 0) ∧
    ((run1 (.coreReset 0) (napping 0 s)).getG 0).map (fun g => (g.r.codeBase, g.lane 0)) = some (0x200000#64, LaneState.live) ∧
    (run1 .deviceReset (s.setDev (fun d => { d with mhz := 700 }))).dev = State.reset.dev ∧
    (run1 .deviceReset { s with host := [(5, 1)] }).host = [(5, 1)] := by decide +kernel
def reportDue : State := (booted 0).setDev (fun d => { d with attestBusy := some 0x100, attest := 2 })
theorem witness_attestation :
    reportDue.dev.attestBusy = some 0x100#64 ∧ (run1 (.attestation 0x100) reportDue).dev.attest = 1 ∧
    (run1 (.attestation 0x100) reportDue).dev.attestBusy = none := by decide +kernel
theorem witness_wakes :
    let s := napping 3 (napping 11 (booted 70000)) |>.setTile 3 (fun x => { x with prProd := 6, prCons := 5, pagerRing := 0x10000, wake := [4] })
    s.asleep 3 = true ∧ (s.tile 3).prProd ≠ (s.tile 3).prCons ∧ ((run1 (.pagerWake 3) s).getG 3).map (fun g => (g.lane 0, g.pc 0)) = some (.live, 0) ∧
    ((run1 (.pagerWake 3) s).getG 3).map (fun g => g.r.rdS 4) =
      some (BitVec.ofNat 64 (ringBase 0x10000 + 64 * (5 % ringSize 0x10000))) ∧
    s.asleep 11 = true ∧ (s.tile 3).owner = 3 ∧ s.wakeDue 3 4 = true ∧ s.wakeDue 3 1 = true ∧ s.wakeDue 3 2 = false ∧
    ((run1 (.tmcWake 3 4) s).getG 11).map (fun g => (g.lane 0, g.r.rdS 4)) = some (.live, 4) ∧
    ((run1 (.tmcWake 3 1) s).getG 11).map (fun g => (g.lane 0, g.r.rdS 4)) = some (.live, 1) := by decide +kernel

theorem witness_heartbeats :
    let s := (booted 125000).setTile 3 (fun x => { x with rate := 3 })
    let m := s.setTile 3 (fun x => { x with missAt := some 0, orphan := true })
    s.byOwner 3 (.mgmt 3) = true ∧ s.byOwner 3 (.mgmt 2) = false ∧
    ((run1 (.tileHeartbeat 3 3) m).tile 3).missAt = none ∧ ((run1 (.tileHeartbeat 3 3) m).tile 3).lastHb = 125000 ∧
    ((run1 (.tileRateSet 3 3 7) s).tile 3).rate = 3 ∧ ((run1 (.tileRateSet 3 3 7) s).tile 3).rateEff = 2 := by decide +kernel

/-- The core of tile 3 is missed at tick 250000; its sibling takes the tile; 10 ms pass without that. -/
theorem witness_take_over :
    let m := (booted 250000).setTile 3 (fun x => { x with missAt := some 0, orphan := true })
    (m.tile 3).missAt.isSome = true ∧ m.coreTaken 2 = false ∧ ((run1 (.tileTake 3 2) m).tile 3).owner = 2 ∧
    (run1 (.tileTake 3 2) m).coreTaken 3 = true ∧ ((run1 (.tileTake 3 2) m).getG 11).map (fun g => g.lane 0) = some .exited ∧
    ((booted 125000).tile 7).lastHb + 125000 ≤ (booted 125000).tick ∧ ((booted 125000).tile 7).missAt = none ∧
    ((run1 (.heartbeatMiss 7) (booted 125000)).tile 7).missAt = some 125000 ∧
    4 ∈ ((run1 (.heartbeatMiss 7) (booted 125000)).tile 6).wake ∧ (run1 (.takeoverTimeout 3) { m with tick := 1250000 }).dev.fatal = true ∧
    (run1 (.takeoverTimeout 3) { m with tick := 1249999 }).dev.fatal = false := by decide +kernel
/-- A die 4 degrees below its limit, and at it. -/
theorem witness_thermal :
    let hot (d x : Nat) := (booted 0).setTile (d / 4) (fun t => { t with therm := 0x02000320, sensors := [(d % 4, BitVec.ofNat 16 x)] })
    (hot 31 0x200).thermAt 31 1 ≤ (hot 31 0x200).dieTemp 31 ∧ ((run1 (.throttle 31) (hot 31 0x200)).die 31).mhz = 600 ∧
    ((run1 (.throttle 31) (hot 31 0x1FF)).die 31).throttled = false ∧
    (let s := (hot 31 0x1D8).setDie 31 (fun d => { d with throttled := true, mhz := 600 });
      s.dieTemp 31 ≤ s.thermAt 31 1 - 40 ∧ ((run1 (.throttleEnd 31) s).die 31).mhz = s.dev.mhz) ∧
    ((run1 (.dieClkClear 3) ((booted 0).setDie 3 (fun d => { d with sweeps := 5, epoch := 9 }))).die 3).epoch = 9 ∧
    ((run1 (.shadowBankDrainDone 3) ((booted 0).setCore 3 (fun c => { c with draining := true }))).coreSt 3).draining = false := by
  decide +kernel
theorem witness_fade :
    let w : Window := ⟨0x400000, 0x10000, 1, 0, 0, 1, 0, 1, false⟩
    let s := { (atWord 0).setGrid 0 (fun g => { g with windows := [w] }) with pins := [⟨1, 0x40, 1, .window 0 0⟩] }
    (s.grids.map (·.1)).Nodup ∧ (s.grid 0).map (fun g => (g.started, g.done)) = some (true, false) ∧ ((s.grid 0).map (fun g => g.windows[0]?)) = some (some w) ∧
    ((run1 .fadeTick s).grid 0).map (fun g => g.windows.map (fun w => (w.fade, w.lapsed))) = some [(0, true)] ∧ (run1 .fadeTick s).pins = [] ∧
    ((booted 0).tile 3).slots = [] ∧ ((run1 (.ctxBaseWrite 3 (BitVec.allOnes 64)) (booted 0)).tile 3).ctxBase = 0x01FFFFFFFFE003FF#64 := by
  decide +kernel

theorem witness_management_writes :
    (run1 (.mgmtRegisterWrite 0x200 4 2999 .host) (booted 0)).dev.pwrLimit = 3000 ∧
    (run1 (.mgmtRegisterWrite 0x200 4 12001 .host) (booted 0)).dev.pwrLimit = 12000 ∧
    ((run1 (.mgmtRegisterWrite (271 * 0x10000) 8 (BitVec.allOnes 64) .host) (booted 0)).polder 255).tune = 0x0007FFFFFFFF000F#64 ∧
    (run1 (.mgmtRegisterWrite (271 * 0x10000 + 0x10C + 0x20 * 15) 4 7 .host) (booted 0)).agenda = [.queueDoorbell 255 15 7] ∧
    ¬ ((2 = 4 ∨ 2 = 8) ∧ 0x200 % 2 = 0) ∧ (run1 (.mgmtRegisterWrite 0x200 2 3001 .host) (booted 0)).dev.pwrLimit = (booted 0).dev.pwrLimit := by
  decide +kernel
/-- ASIDs 1 to 1023, key slots 1 to 1023, enabled, for polder 3, beside an enabled polder without any. -/
def fullPolder : DWord := BitVec.ofNat 64 (1 + 1023 * 2 ^ 10 + 2 ^ 21 + 1023 * 2 ^ 31 + 2 ^ 63)
theorem witness_polder_config :
    let c : DWord := BitVec.ofNat 64 (1 + 2 ^ 10 * 0)
    let s := (booted 0).setPolder 3 (fun p => { p with queues := [(0, ⟨0, 1, 0, 0, 0⟩)] })
    (run1 (.polderConfigWrite 3 fullPolder) (booted 0)).dev.cfgStatus = 0 ∧ ((run1 (.polderConfigWrite 3 fullPolder) (booted 0)).polder 3).cfg = fullPolder ∧
    (∃ e ∈ (s.polder 3).queues, e.2.ctl.getLsbD 0 = true) ∧ (run1 (.polderConfigWrite 3 c) s).dev.cfgStatus = 1 := by decide +kernel

/-- Level 47, ASID 1 to 1023: queue 15 of polder 3 enabled with 16 entries, the largest ring and its last level. -/
theorem witness_queue_control :
    let n : Nat := 1 + 16 * 2 + 47 * 2 ^ 6 + 1023 * 2 ^ 12
    let s := (booted 0).setPolder 3 (fun p => { p with cfg := BitVec.ofNat 64 (fullPolder.toNat + 47 * 2 ^ 42) })
    let c := (s.polder 3).cfg
    s.dev.run = true ∧ ((s.polder 3).queue 15).ctl.getLsbD 0 = false ∧ (BitVec.ofNat 32 n).getLsbD 0 = true ∧ n < 2 ^ 23 ∧
    4 ≤ bitsOf n 1 5 ∧ bitsOf n 1 5 ≤ 16 ∧ bitsOf n 6 6 ≤ cfgPrio c ∧ cfgAsidFirst c ≤ bitsOf n 12 10 ∧
    bitsOf n 12 10 < cfgAsidFirst c + cfgAsidCount c ∧ (BitVec.ofNat 32 n).getLsbD 22 = false ∧ cfgEnabled c = true ∧
    ((run1 (.queueControlWrite 3 15 (BitVec.ofNat 32 n)) s).polder 3).status = 0 ∧
    (((run1 (.queueControlWrite 3 15 (BitVec.ofNat 32 n)) s).polder 3).queue 15).ctl = BitVec.ofNat 32 n ∧
    ((run1 (.queueControlWrite 3 15 1) (s.setDev (fun d => { d with run := false }))).polder 3).status = 1 := by decide +kernel
/-- A doorbell that fills a ring of 16 entries, of an enabled queue and of one that is not. -/
theorem witness_doorbell :
    let s (en : Nat) := (booted 0).setPolder 3 (fun p => { p with queues := [(2, ⟨0, BitVec.ofNat 32 (8 + en), 5, 0xFFFFFFFF, 5⟩)] })
    let qu := ((s 1).polder 3).queue 2
    (0xF#32 - qu.prod).toNat < 2 ^ 31 ∧ (0xF#32 - qu.cons).toNat ≤ 2 ^ bitsOf qu.ctl.toNat 1 5 ∧
    (((run1 (.queueDoorbell 3 2 0xF) (s 1)).polder 3).queue 2).prod = 0xF ∧
    (run1 (.queueDoorbell 3 2 0xF) (s 1)).agenda = [.recordAccept 3 2] ∧
    (run1 (.queueDoorbell 3 2 0xF) (s 0)).agenda = [] := by decide +kernel
/-- A window of 2 MiB, over five bits of homes from stack 31, installed where another stood. -/
theorem witness_placement :
    let x : BitVec 128 := BitVec.ofNat 128 (0x400000 + 2 ^ 64 + 31 * 2 ^ 96 + 5 * 2 ^ 104 + 16 * 2 ^ 112)
    let s := (booted 0).setPolder 3 (fun p => { p with stage := x, windows := [(63, BitVec.ofNat 128 (0x800000 + 2 ^ 64 + 16 * 2 ^ 112))] })
    pwinGood x = true ∧ (pwinOf (mapGet 0 (s.polder 3).windows 63)).base + 2 ^ 21 * (pwinOf (mapGet 0 (s.polder 3).windows 63)).size ≤ onChipBase ∧
    (pwinOf x).base + 2 ^ 21 * (pwinOf x).size ≤ onChipBase ∧ s.rangeHeld (s.polder 3).cfg 0x400000 (2 ^ 21) = false ∧
    s.rangeHeld (s.polder 3).cfg 0x800000 (2 ^ 21) = false ∧
    mapGet 0 ((run1 (.placementWindowInstall 3 63) s).polder 3).windows 63 = x ∧
    ((run1 (.placementWindowInstall 3 63) s).polder 3).status = 0 := by decide +kernel
def xfer (key drive : Nat) : Nvme := ⟨9, 2, 0, 1, drive, 1, 0, 8, [(0, key)], true, none, 0, 100, 0, .spill 4⟩
theorem witness_keys :
    let s := (booted 0).setDev (fun d => { d with keyData := 77 })
    let b := { s with nvme := [xfer 1023 0] }
    let p := s.setDev (fun d => { d with keyPending := [(1023, none), (5, some 6)], keys := [(1023, some 3)] })
    s.dev.keyPending = [] ∧ s.slotBusy 1023 = false ∧ (run1 (.keyLoad 1023) s).slotVal 1023 = some 77 ∧
    (run1 (.keyClear 1023) s).slotVal 1023 = none ∧ b.slotBusy 1023 = true ∧ (run1 (.keyLoad 1023) b).dev.keyPending = [(1023, some 77)] ∧
    p.slotBusy 1023 = false ∧ (run1 (.keyUpdateDone 1023) p).slotVal 1023 = none ∧
    (run1 (.keyUpdateDone 1023) p).dev.keyPending = [(5, some 6)] ∧ ((run1 (.prConsWrite 7 9) s).tile 7).prCons = 9 ∧
    s.cowCount 31 = min 4096 ((0#32).toNat % 2 ^ 13) ∧
    mapGet 0 ((run1 (.cowResvWrite 7 31 0) s).tile 7).cowTarget 31 = 0 := by decide +kernel


/-! ### What words have started comes to its end -/

theorem witness_issue :
    let s := (atWord 0).setG (fun g => { g with pkt := some ⟨0, 0, 0, 0⟩ })
    let a := ((s.passCycle 0).focusOn 16).setG Group.turn
    s.candidates 0 = [16] ∧ a.g.issueSet = 0xFFFFFFFF#32 ∧ a.asyncTrap = none ∧ pcSlot (a.g.pc 0) ≠ 3 ∧
    a.g.r.codeBase.toNat + 12 * pcPacket (a.g.pc 0) + 12 ≤ 2 ^ 57 ∧ a.g.pkt = some ⟨0, 0, 0, 0⟩ ∧
    (run1 (.quarterIssue 0) s).iss.set = 0xFFFFFFFF#32 ∧ s.candidates 1 = [] ∧ run1 (.quarterIssue 1) s = s := by decide +kernel
/-- Lanes 5 and 9 are left outside the last issue set; lane 9 has waited longer. -/
theorem witness_quantum :
    let s := (atWord 0).setG (fun g => { g with btc := 64, lastSet := 0xFFFFFDDF, lastIssue := [(5, 3), (9, 2)], pcv := [(9, 8)] })
    (∃ l, l < 32 ∧ s.g.lane l = .live ∧ s.g.lastSet.getLsbD l = false) ∧
    (run1 (.rotationQuantum 16) s).g.quantum = 64 ∧ (run1 (.rotationQuantum 16) s).g.qmask = 0x200#32 := by decide +kernel
theorem witness_load_complete :
    let s (x : LoadWrite) := (atWord 0).setG (fun g => { g with ldcnt := 2, loads := [⟨[x], none⟩, ⟨[], none⟩] })
    (run1 (.loadComplete 16 0) (s (.scalar 9 77 true))).g.r.rdS 9 = 77 ∧ (run1 (.loadComplete 16 0) (s (.scalar 9 77 true))).g.r.poisS 9 = true ∧
    (run1 (.loadComplete 16 0) (s (.lane 9 31 77 false))).g.r.rdV 9 31 = 77 ∧
    (run1 (.loadComplete 16 0) (s (.lane 9 31 77 false))).g.ldcnt = 1 ∧ (run1 (.loadComplete 16 0) (s (.lane 9 31 77 false))).g.loads.length = 1 := by
  decide +kernel
theorem witness_store_ack :
    let s (k : StoreKind) := { (atWord 0).setG (fun g => { g with stcnt := 2 }) with stores := [⟨9, some 16, 0, 5, k, []⟩, ⟨10, none, 0, 5, .write [], []⟩] }
    (run1 (.storeAck 9) (s (.write []))).g.stcnt = 1 ∧ (run1 (.storeAck 9) (s (.write []))).stores.map (fun x => x.id) = [10] ∧
    run1 (.storeAck 9) (s (.write [4])) = s (.write [4]) := by decide +kernel
/-- Lanes 0 to 3 wait at a join at 40; lane 4, at 40 or past it, holds them or not. -/
theorem witness_join :
    let s (p : Word) := (atWord 0).setG (fun g => { g with
      lsv := [(0, .joinWait), (1, .joinWait), (2, .joinWait), (3, .joinWait), (4, .live)],
      pcv := [(0, 40), (1, 40), (2, 40), (3, 40), (4, p)],
      joinNext := [(0, some ⟨44, 1, false⟩), (1, some ⟨44, 1, false⟩), (2, some ⟨44, 1, false⟩), (3, some ⟨48, 1, false⟩)] })
    (s 40).g.save = none ∧ (run1 (.joinRelease 16) (s 40)).g.lane 3 = .joinWait ∧
    (run1 (.joinRelease 16) (s 44)).g.lane 3 = .live ∧ (run1 (.joinRelease 16) (s 44)).g.pc 3 = 48 := by decide +kernel
/-- The only group, or one of two, has exited all its lanes. -/
theorem witness_group_finish :
    let s (n : Nat) := ((atWord 0).setG (fun g => { g with lsv := [] })).setTeam 0 (fun t => { t with nGroups := n })
    let two := (s 2).putG 17 { (atWord 0).g with grp := 1 }
    two.g.isCompute = true ∧ two.closePending 16 = false ∧ two.g.over_ = true ∧ two.g.epa = none ∧ two.g.plans = [] ∧ two.g.faults = [] ∧
    (two.team 0).map Team.running = some true ∧ two.dams = [] ∧ (two.getG (gidOf 0 1)).map Group.finished = some false ∧
    (run1 (.groupFinish 16) two).g.finished = true ∧ ((run1 (.groupFinish 16) two).team 0).map Team.place = some (.resident 0) ∧
    (∀ i, i < 1 → gidOf 0 i = 16) ∧ ((s 1).team 0).map Team.forks = some [] ∧
    ((run1 (.groupFinish 16) (s 1)).team 0).map Team.place = some .finished ∧ .teamRetire 0 ∈ (run1 (.groupFinish 16) (s 1)).agenda := by
  decide +kernel
/-- Die 31 has one store of stamp 7 outstanding at epoch 9. -/
theorem witness_watermark :
    let s := { (booted 0).setDie 31 (fun d => { d with epoch := 9 }) with stores := [⟨9, none, 31, 7, .write [], []⟩] }
    s.watermark 31 = 6 ∧ ((run1 (.watermarkPublish 31) s).die 31).mark = 6 ∧ mapGet 0 ((run1 (.watermarkPublish 31) s).die 0).known 31 = 6 := by
  decide +kernel
theorem witness_sweep :
    let s := (booted 0).setCore 1023 (fun c => { c with sig := 2 ^ 1024 - 1 })
    let m := s.setDie 31 (fun d => { d with sweep := some 1, epoch := 2 })
    1024 ≤ sigCount (s.coreSt (32 * 31 + 31)).sig ∧ (s.die 31).sweep = none ∧ s.watermark 31 = 0 ∧ (s.die 31).epoch = 1 ∧
    ((run1 (.signatureSweep 31) s).die 31).sweep = some 1 ∧ m.marked 31 1 = true ∧ ((run1 (.signatureSweep 31) m).coreSt 1023).sig = 0 ∧
    { m with stores := [⟨9, none, 31, 1, .write [], []⟩] }.marked 31 1 = false := by decide +kernel

/-! ### Synchronization -/

/-- The group waits for the cofferdam of the data line's first block. -/
def waitsDam : State := (withData 0).setG (fun g => { g with hold := .dam 9 0x400000 800 0 })
theorem witness_dam_grant :
    (waitsDam.damsOf (fun y => y.core == coreOf 16 waitsDam.g)).length < 16 ∧ waitsDam.g.view = 0 ∧
    standsB waitsDam 1 0x400000 1 = true ∧ waitsDam.getG 16 = some waitsDam.g ∧
    waitsDam.blkTaken (homeBlk 1 0 0x400000) = false ∧ waitsDam.reqs = [] ∧
    (run1 (.damGrant 16) waitsDam).g.hold = .none ∧ (run1 (.damGrant 16) waitsDam).g.r.rdS 9 = 0 ∧
    (run1 (.damGrant 16) waitsDam).dams.map (fun d => (d.blk, d.grp, d.ends)) = [(homeBlk 1 0 0x400000, 16, 800)] := by decide +kernel
def dam : Dam := ⟨5, homeBlk 1 0 0x400000, 16, 0, 800, blkKey 1 0 0x400000, [(0, 1)], false, false⟩
theorem witness_dam_expiry :
    let s := { (withData 0).setCore 0 (fun c => { c with cyc := 800 }) with dams := [dam] }
    dam.ends ≤ (s.coreSt dam.core).cyc ∧ (run1 (.damLeaseExpiry 5) s).dams.map (fun d => (d.breached, d.buf)) = [(true, [])] := by decide +kernel
def contrib (view : Nat) (p : ContribPlace) : Contrib := ⟨9, 1, view, 0x400008, 0, 5, false, 77, none, 0x400020, 16, 0, 3, 4, p⟩
theorem witness_contributions :
    let s (p : ContribPlace) := { withData 0 with contribs := [contrib 0 p] }
    (run1 (.rfarDrain 0 3) (s .buffered)).contribs = [contrib 0 .inFlight] ∧ (run1 (.rfarDrain 0 2) (s .buffered)).contribs = [contrib 0 .buffered] ∧
    (s .inFlight).contribs.find? (fun x => x.id == 9 && x.place == .inFlight) = some (contrib 0 .inFlight) ∧
    (s .inFlight).peerOf 1 0x400008 = none ∧ standsB (s .inFlight) 1 0x400008 (farBytes 0) = true ∧
    (s .inFlight).waitsFor (.far 9) = false ∧ (run1 (.rfarStage 9) (s .inFlight)).contribs = [contrib 0 .staged] := by
  decide +kernel
/-- Epoch 0x40_0020 closes: its one staged contribution is folded, its slice acknowledges, then the weir advances. -/
def closing (slices : List Nat) : State :=
  { withData 0 with contribs := [contrib 0 .staged], closings := [⟨1, 0, 0x400020, slices, []⟩] } |>.wrLoc (.home 1 0 0x400008) 4 0xFFFFFFFE
theorem witness_epoch :
    let sl := (closing []).contribSlice (contrib 0 .staged)
    let s := closing [sl]
    let u := { s with contribs := [] }
    s.foldHeads ⟨1, 0, 0x400020, [sl], []⟩ sl = [contrib 0 .staged] ∧ s.waitsFor (.far 9) = false ∧
    standsB s 1 0x400008 (farBytes 0) = true ∧ s.locPois (.home 1 0 0x400008) 4 = false ∧
    farFold 0 (s.rdLoc (.home 1 0 0x400008) 4) 5 % 2 ^ 32 = 3 ∧ u.foldHeads ⟨1, 0, 0x400020, [sl], []⟩ sl = [] ∧
    (run1 (.sliceFold 0 sl) u).closings = [⟨1, 0, 0x400020, [], []⟩] := by decide +kernel
theorem witness_epoch_close :
    let s := (closing []).wrWeir (.home 1 0 0x400020) ⟨1, 1, 0, 0, 0xFFFFFFFF⟩
    s.waitsFor (.round 1 0 0x400020) = false ∧ standsB s 1 0x400020 16 = true ∧
    ((run1 (.epochClose 0) s).rdWeir (.home 1 0 0x400020)).phase = 0 ∧ ((run1 (.epochClose 0) s).rdWeir (.home 1 0 0x400020)).arr = 0 ∧
    (run1 (.epochClose 0) s).closings = [] := by decide +kernel
theorem witness_holdsWeir : (Loc.home 1 0 0x400020).holdsWeir := by
  refine .inl ⟨1, 0, 0x400020, rfl, fun i _ h => ?_⟩
  simp only [sideByte, memKey, leaseVa, tableBase, Prod.mk.injEq, true_and] at h
  omega
theorem witness_not_side (i : Nat) (_ : i < 64) : ¬ sideByte (0, memKey 1 0 0x400000 + i) := by
  intro h
  simp only [sideByte, memKey, leaseVa, tableBase, Prod.mk.injEq, true_and] at h
  omega
theorem witness_barrier :
    let s (ph : Word) := (withPad 0).setG (fun g => { g with hold := .tbar 0x20 ph })
    (s 0).away 16 = false ∧ ((s 0).team 0).isSome = true ∧ (s 0).heldBlk (some 16) (loadedTeam.spad 0x20) 16 = none ∧ run1 (.weirWaitEnd 16) (s 0) = s 0 ∧
    (run1 (.weirWaitEnd 16) (s 0xFFFFFFFF)).g.hold = .none := by decide +kernel
theorem witness_weir_wait :
    let s (ph : Word) := ((withData 0).setG (fun g => { g with hold := .wwait 0x400010 ph 1 0 })).wrWeir (.home 1 0 0x400010) ⟨1, 0, 0, 0, 5⟩
    standsB (s 5) 1 0x400010 16 = true ∧ (s 5).getG 16 = some (s 5).g ∧
    onChip 0x400010 = false ∧ (s 5).locPois (.home 1 0 0x400010) 16 = false ∧ passed 5 5 = false ∧ passed 5 4 = true ∧
    (run1 (.weirWaitEnd 16) (s 5)).g.hold = .wwait 0x400010 5 1 0 ∧ (run1 (.weirWaitEnd 16) (s 4)).g.hold = .none := by decide +kernel


/-! ### Grids and teams -/

/-- Queue 15 of polder 3 has one entry, of index 16 in a ring of 16, whose record stands in four level-2 lines. -/
def withEntry (r : Nat) : State :=
  let q : Queue := ⟨0x400000, BitVec.ofNat 32 (1 + 4 * 2 + 20 * 2 ^ 6 + 1 * 2 ^ 12), 17, 16, 16⟩
  let s := (booted 0).setPolder 3 (fun p => { p with cfg := BitVec.ofNat 64 (fullPolder.toNat + 47 * 2 ^ 42), queues := [(15, q)] })
  (withLine s 1 0x400000).wrLoc (.home 1 0 0x400000) 256 r
theorem witness_record :
    let s := withEntry (oneGroupRecord 0 + 30 * 2 ^ 22)
    let qu := (s.polder 3).queue 15
    qu.ctl.getLsbD 0 = true ∧ qu.acc ≠ qu.prod ∧ s.recordWaits (16 * 3 + 15) = false ∧
    qu.base.toNat + 256 * (qu.acc.toNat % 2 ^ bitsOf qu.ctl.toNat 1 5) = 0x400000 ∧
    (List.range 4).all (fun i => standsB s 1 (0x400000 + 64 * i) 64 && !s.locPois (.home 1 0 (0x400000 + 64 * i)) 64) = true ∧
    s.waitsFor (.table s.ids) = false ∧
    joinParts ((List.range 4).map (fun i => (s.rdLoc (.home 1 0 (0x400000 + 64 * i)) 64, false))) = oneGroupRecord 0 + 30 * 2 ^ 22 ∧
    recordReason (oneGroupRecord 0 + 30 * 2 ^ 22) = none ∧ recField (oneGroupRecord 0 + 30 * 2 ^ 22) 0xB8 8 = 0 ∧
    bitsOf (recField (oneGroupRecord 0 + 30 * 2 ^ 22) 0 4) 8 2 = 0 ∧
    ((run1 (.recordAccept 3 15) s).grid s.ids).map (fun g => (g.status, g.level, g.asid)) = some (0, 20, 1) ∧
    ((run1 (.recordAccept 3 15) s).grid s.ids).map Grid.queue = some (some (3, 15, 16)) ∧
    (((run1 (.recordAccept 3 15) s).polder 3).queue 15).acc = 17 := by decide +kernel
theorem witness_bad_record :
    recordReason 2 = some 1 ∧ ((run1 (.recordAccept 3 15) (withEntry 2)).grid (withEntry 2).ids).map (fun g => (g.status, g.reason)) = some (2, 1) ∧
    (((booted 0).polder 3).queue 15).acc = (((booted 0).polder 3).queue 15).prod := by
  decide +kernel
/-- Grid 7 wants one team placed on an empty device. -/
def oneGrid : Grid := Grid.new (oneGroupRecord 0) none none 1 0 5 0 false
def withGrid (g : Grid) : State := { booted 0 with grids := [(7, some g)] }
theorem witness_place :
    oneGrid.isReplay = false ∧ (withGrid oneGrid).schedule = some (.place 7 [0]) ∧
    ((run1 (.teamPlace 7) (withGrid oneGrid)).grid 7).map Grid.next = some 1 ∧
    ((run1 (.teamPlace 7) (withGrid oneGrid)).team 1).map (fun x => (x.grid, x.lin, x.place, x.nGroups)) = some (7, 0, .resident 0, 1) ∧
    (withGrid oneGrid).ids = 1 := by decide +kernel
/-- A save area of one slot for tile 0, ready. -/
def withArea (s : State) : State := s.setTile 0 (fun x => { x with ctxBase := BitVec.ofNat 64 (0x40000000 + 1), ctxReady := true })
/-- Team 0 fills core 0 of a device whose other cores are retired or lost; a grid of a higher level wants to place one. -/
def contended : State :=
  let s := withArea ((atWord 0).setTeam 0 (fun t => { t with scratch := 0x100000, pieces := List.range 256, placedAt := 3 }))
  let rest := (List.range 31).map (fun i => (i + 1, { s.coreSt 1 with retired := true }))
  let s := { s with cores := rest, dies := (List.range 31).map (fun d => (d + 1, { s.die 1 with lost := true })) }
  { s with grids := s.grids ++ [(7, some { oneGrid with record := oneGrid.record + 2 ^ (8 * 0x3C) })] }
theorem witness_victim :
    contended.schedule = some (.save 7 0) := by decide +kernel
def finishedTeam : State := { withGrid { oneGrid with next := 1, queue := some (3, 15, 16) } with teams := [(5, some { loadedTeam with grid := 7, place := .finished })] }
theorem witness_team_retire :
    (finishedTeam.team 5).map (fun x => (x.place, x.children)) = some (.finished, []) ∧
    ((run1 (.teamRetire 5) finishedTeam).team 5).map Team.place = some .retired ∧
    ((run1 (.teamRetire 5) finishedTeam).grid 7).map (fun g => (g.retiredTeams, g.status, g.done)) = some ([0], 1, true) := by decide +kernel
theorem witness_grid_retire :
    let g : Grid := { oneGrid with next := 1, retiredTeams := [0], queue := some (3, 15, 16) }
    let s := (withGrid g).setPolder 3 (fun p => { p with queues := [(15, ⟨0, 9, 17, 16, 17⟩)] })
    s.team 5 = none ∧ s.completionWaits 7 = false ∧ g.teamCount ≤ g.next ∧ g.teamCount ≤ g.retiredTeams.length ∧ g.view = 0 ∧ g.completion = 0 ∧
    g.tableDue = false ∧ g.wantReplay = false ∧ g.parent = none ∧ s.grids = [(7, some g)] ∧
    ((run1 (.teamRetire 5) s).grid 7).map (fun g => (g.done, g.status)) = some (true, 1) ∧
    (((run1 (.teamRetire 5) s).polder 3).queue 15).cons = 17 := by decide +kernel
/-- Grid 7 depends on the weir at the data line's start, for phase 4. -/
def dependent (ph : Nat) : State :=
  let g : Grid := { oneGrid with record := oneGrid.record + 0x20 + 0x400000 * 2 ^ (8 * 0x30) + 4 * 2 ^ (8 * 0x38) }
  (withLine (withGrid g) 1 0x400000).wrWeir (.home 1 0 0x400000) ⟨1, 0, 0, 0, ph⟩
theorem witness_dependence :
    let g := ((dependent 5).grid 7).getD oneGrid
    g.hasDep = true ∧ g.depPassed = false ∧ g.done = false ∧ g.status = 0 ∧ (dependent 5).completionWaits 7 = false ∧ g.field 0x30 8 = 0x400000 ∧
    g.asid = 1 ∧ standsB (dependent 5) 1 0x400000 16 = true ∧ (dependent 5).locPois (.home 1 0 0x400000) 16 = false ∧ (dependent 5).grid 7 = some g ∧
    ((run1 (.depWeirObserve 7) (dependent 5)).grid 7).map Grid.depPassed = some true ∧
    ((run1 (.depWeirObserve 7) (dependent 4)).grid 7).map Grid.depPassed = some false := by decide +kernel
/-- Die 0 is hot; its one team has been resident for 250,000 ticks, or for one fewer. -/
def hotDie (n : Nat) : State :=
  (withArea { atWord 0 with tick := n }).setTile 0 (fun x => { x with therm := 0x03000320, sensors := [(0, 0x320)] })
theorem witness_thermal_move :
    (hotDie 0).thermAt 0 0 ≤ (hotDie 0).dieTemp 0 ∧ (hotDie 0).gangOf 0 = [0] ∧ (hotDie 0).placedAt 0 = 0 ∧ (hotDie 0).available [0] = true ∧
    ((hotDie 0).coolDie 0 [0]).isSome = true ∧
    (run1 (.thermalMigration 0) (hotDie 250000)).agenda = (hotDie 0).agenda ++ [.teamSave 0] ∧
    ((run1 (.thermalMigration 0) (hotDie 250000)).team 0).map Team.dest = some ((hotDie 0).coolDie 0 [0]) ∧
    (run1 (.thermalMigration 0) (hotDie 249999)).agenda = (hotDie 0).agenda ∧
    (hotDie 0).dieTemp 1 < (hotDie 0).thermAt 1 0 := by decide +kernel
/-- Every lane of the group waits for a frame that a long Read fills. -/
def onFlash (n : Nat) : State :=
  let s := (atWord 0).setG (fun g => { g with lsv := (List.range 32).map (fun l => (l, .parked)) })
  { s with reqs := [⟨3, 1, 0, 0x400000, .load, 0, .lanes 16 0xFFFFFFFF, .onFrame 9, ⟨1, 1, 0⟩, false, 0, false⟩],
           nvme := [⟨4, 0, 0, 2, 0, 1, 0, 8, [(0x400000, 0)], true, none, 0, 0, n, .fill 9⟩] }
theorem witness_swap_out :
    (onFlash 6250).teamGroups 0 = [(16, (onFlash 6250).g)] ∧ (onFlash 6250).g.waitsAlone = true ∧
    (onFlash 6250).readsOf 16 = (onFlash 6250).nvme ∧ (onFlash 6250).nvme.all Nvme.sent = true ∧ (onFlash 6250).gangOf 0 = [0] ∧ (onFlash 6250).swapThreshold 1 = 6250 ∧
    ((run1 (.flashSwapOut 0) (onFlash 6250)).team 0).map Team.waits = some [4] ∧
    ((run1 (.flashSwapOut 0) (onFlash 6249)).team 0).map Team.waits = some [] := by decide +kernel


/-- Team 0, alone in its gang; being saved; and its slot once saved. -/
def atHome : State := withArea (atWord 0)
def leaving : State := atHome.setTeam 0 (fun t => { t with busy := 1 })
theorem witness_save :
    atHome.gangOf 0 = [0] ∧ atHome.available [0] = true ∧ ((run1 (.teamSave 0) atHome).team 0).map Team.busy = some 1 ∧
    leaving.gangOf 0 = [0] ∧ (leaving.team 0).map Team.place = some (.resident 0) ∧ ((leaving.team 0).bind leaving.gridOf).map (fun g => g.status != 0 || g.wantReplay) = some false ∧
    leaving.saveReady 0 = true ∧ (leaving.tile 0).freeSlots = [0] ∧
    ((run1 (.teamSave 0) leaving).team 0).map (fun t => (t.place, t.busy, t.pieces)) = some (.saved 0 0, 0, []) := by decide +kernel

/-- A slot whose CHECK is that of its bytes: team 5 of grid 7, saved in slot 0 of tile 0. -/
def area : Nat := 0x40000000
def savedBase : State :=
  let s := withArea (withGrid { oneGrid with next := 1 })
  let s := { s with teams := [(5, some { loadedTeam with grid := 7, place := .saved 0 0 })] }
  (s.setTile 0 (fun x => { x with slots := [(0, 5)] })).stb 0 0 area 4 1
def savedTeam : State := savedBase.stb 0 0 (area + 0x1C) 4 (savedBase.slotCheck area)
theorem crcStep_lt (n c : Nat) (h : c < 2 ^ 32) : crcStep n c < 2 ^ 32 := by
  induction n generalizing c with
  | zero => exact h
  | succ n ih =>
    refine ih _ ?_
    split
    · exact Nat.xor_lt_two_pow (by omega) (by decide)
    · omega
theorem crc32_lt (bs : List Byte) : crc32 bs < 2 ^ 32 := by
  refine Nat.xor_lt_two_pow ?_ (by decide)
  suffices ∀ c, c < 2 ^ 32 → bs.foldl (fun c b => crcStep 8 (c ^^^ b.toNat)) c < 2 ^ 32 from this _ (by decide)
  induction bs with
  | nil => exact fun _ h => h
  | cons b bs ih => exact fun c h => ih _ (crcStep_lt _ _ (Nat.xor_lt_two_pow h (by have := b.isLt; omega)))
theorem mapGetBytes_disjoint (m : Map Byte) (k q n : Nat) (bs : List Byte) (h : q + n ≤ k ∨ k + bs.length ≤ q) :
    mapGetBytes (mapSetBytes m k bs) q n = mapGetBytes m q n := by
  induction n generalizing q with
  | zero => rfl
  | succ n ih => rw [mapGetBytes, mapGetBytes, ih (q + 1) (by omega), mapGet_mapSetBytes, if_neg (by omega)]
theorem length_leBytes4 (x : Nat) : (leBytes 4 x).length = 4 := rfl
theorem mapGetBytes_same4 (m : Map Byte) (k x : Nat) : mapGetBytes (mapSetBytes m k (leBytes 4 x)) k 4 = leBytes 4 x := by
  have h : ∀ i, i < 4 → mapGet 0 (mapSetBytes m k (leBytes 4 x)) (k + i) = (leBytes 4 x).getD i 0 := fun i hi => by
    rw [mapGet_mapSetBytes, if_pos ⟨by omega, by rw [length_leBytes4]; omega⟩, Nat.add_sub_cancel_left]
  have h0 := h 0 (by decide)
  rw [Nat.add_zero] at h0
  simp only [mapGetBytes, Nat.add_assoc, Nat.reduceAdd, h 1 (by decide), h 2 (by decide), h 3 (by decide), h0]
  rfl
theorem leNat_leBytes4 (x : Nat) (h : x < 2 ^ 32) : leNat (leBytes 4 x) = x := by
  simp only [leBytes, leNat, BitVec.toNat_ofNat]
  omega
theorem ld_stb_same4 (s : State) (va x : Nat) (h : x < 2 ^ 32) : (s.stb 0 0 va 4 x).ld 0 0 va 4 = x := by
  simp only [State.ld, State.stb, mapGetBytes_same4, leNat_leBytes4 x h]
theorem ld_stb_below (s : State) (va x : Nat) : (s.stb 0 0 (va + 0x1C) 4 x).ld 0 0 va 4 = s.ld 0 0 va 4 := by
  simp only [State.ld, State.stb]
  rw [mapGetBytes_disjoint _ _ _ _ _ (.inl (by simp only [memKey]; omega))]
theorem check_stb (s : State) (va x : Nat) : (s.stb 0 0 (va + 0x1C) 4 x).slotCheck va = s.slotCheck va := by
  simp only [State.slotCheck, State.stb]
  rw [mapGetBytes_disjoint _ _ _ _ _ (.inr (by rw [length_leBytes4]; simp only [memKey]; omega))]
theorem check_lt (s : State) (va : Nat) : s.slotCheck va < 2 ^ 32 := crc32_lt _
theorem slotBad_stb (s : State) (k tl i va : Nat) (hs : (s.stb 0 0 (va + 0x1C) 4 (s.slotCheck va)).slotOf k = some (tl, i, va))
    (h : s.ld 0 0 va 4 % 256 = 1) : (s.stb 0 0 (va + 0x1C) 4 (s.slotCheck va)).slotBad k = false := by
  simp only [State.slotBad, hs, ld_stb_below, check_stb, ld_stb_same4 _ _ _ (check_lt _ _), h, bne_self_eq_false, Bool.or_false]
theorem witness_slot : savedTeam.slotBad 5 = false :=
  slotBad_stb savedBase 5 0 0 area (by decide +kernel) (by decide +kernel)
theorem witness_resume :
    (savedTeam.team 5).map (fun x => (x.busy, x.place)) = some (0, .saved 0 0) ∧ savedTeam.schedule = some (.resume 7 [5] [0]) := by
  decide +kernel
/-- Team 0 is back on its core from slot 0; its saved clock is 0, or one that die 0 does not know. -/
def restoring (clock : Nat) : State :=
  ((atHome.setDie 0 (fun d => { d with epoch := 600 })).setTeam 0 (fun t => { t with busy := 2, dest := some 0 })).stb 0 0 (area + 0x20) 4 clock
theorem witness_resumed :
    ((restoring 0).gangOf 0).filter (fun j => (((restoring 0).team j).map (fun y => y.busy == 2)).getD false) = [0] ∧
    (restoring 0).resumeReady 0 = true ∧ ((run1 (.teamResume 0) (restoring 0)).team 0).map (fun t => (t.busy, t.dest, t.placedAt)) = some (0, none, 0) ∧
    (restoring 500).resumeReady 0 = false ∧ ((run1 (.teamResume 0) (restoring 500)).team 0).map Team.busy = some 2 := by decide +kernel
/-- Tables of an ASID, one node of each level down to `lv`, whose entry for `va` is given, and the lines that hold them. -/
def tables (asid va lv ent : Nat) (s : State) : State :=
  let node (l : Nat) : Nat := 0x80000 + 8192 * l
  let put (s : State) (off e : Nat) : State := (withLine s 0 (tableBase + off)).stb 0 0 (tableBase + off) 16 e
  let s := put s (16 * asid) (1 + node 4)
  let s := (List.range (4 - lv)).foldl (fun s i => put s (node (4 - i) + 16 * bitsOf va (levelShift (4 - i)) 9) (1 + node (3 - i))) s
  put s (node lv + 16 * bitsOf va (levelShift lv) 9) ent
def leafKind0 : Nat := 2 + 4 + 8
def areaOf (n : Nat) : State :=
  let s := (tables 0 area 3 leafKind0 (booted 0)).setTile 3 (fun x => { x with ctxBase := BitVec.ofNat 64 (area + 1) })
  let s := (List.range n).foldl (fun s i => s.linkFrame (s.stackOf 0 (area + i * 2 ^ 16)) i
    { Frame.forKey 0 0 (area / 2 ^ 16 + i) false with state := 1, sub := 0xFFFF, w := true, x := true }) s
  { s with pins := [⟨0, area / 2 ^ 16, 32, .ctxArea 3⟩] }
theorem witness_area :
    (List.range 32).all (fun i => (areaOf 32).regionReady (area / 2 ^ 16 + i)) = true ∧ ((areaOf 32).tile 3).ctxReady = false ∧
    (areaOf 31).regionReady (area / 2 ^ 16 + 31) = false := by decide +kernel
/-- A gang of two teams. -/
def paired : State :=
  let s := withArea { withGrid { oneGrid with record := oneGrid.record + 2 ^ 20, next := 2 } with
    teams := [(5, some { loadedTeam with grid := 7 }), (6, some { loadedTeam with grid := 7, lin := 1, place := .resident 1, core := 1 })] }
  s.setTile 0 (fun x => { x with ctxBase := BitVec.ofNat 64 (area + 2) })
theorem witness_gang :
    (paired.grid 7).map Grid.gangSize = some 2 ∧ [5, 6].Nodup ∧
    (paired.teamsOf 7).filter (fun k => ((paired.team k).map (fun x => x.lin / 2 == 0)).getD false) = [5, 6] ∧ paired.available [5, 6] = true ∧
    ((run1 (.gangMapChange 7 0) paired).team 6).map Team.busy = some 1 := by decide +kernel
theorem witness_replay :
    let s := withGrid { oneGrid with wantReplay := true, accepted := 4 }
    s.completionWaits 7 = false ∧ s.replayWaits 7 = false ∧ s.teams = [] ∧ recordReason oneGrid.record = none ∧
    bitsOf (recField oneGrid.record 0 4) 8 2 = 0 ∧ oneGrid.queue = none ∧ oneGrid.view = 0 ∧
    ((run1 (.replayRestart 7) s).grid 7).map (fun g => (g.replays, g.replayed, g.wantReplay, g.accepted, g.level)) = some (1, true, false, 4, 5) := by
  decide +kernel
theorem witness_tag :
    let s := (atWord 0).setTag 1 63 (fun t => { t with state := .draining })
    (s.tag 1 63).state = .draining ∧ s.contribs = [] ∧ s.ctxs = [] ∧ (run1 (.viewTagFree 1 63) s).tag 1 63 = ViewTag.reset ∧
    run1 (.viewTagFree 1 63) { s with contribs := [⟨9, 1, 63, 0, 0, 0, false, 0, none, 0, 16, 0, 0, 4, .staged⟩] }
      = { s with contribs := [⟨9, 1, 63, 0, 0, 0, false, 0, none, 0, 16, 0, 0, 4, .staged⟩] } := by decide +kernel
theorem witness_losses :
    (booted 0).grids = [] ∧ ((booted 0).die 31).lost = false ∧ ((run1 (.dieLoss 31) (booted 0)).die 31).lost = true ∧
    ((run1 (.dieLoss 31) (booted 0)).coreSt 1023).retired = true ∧ ((booted 0).tile 7).lost = false ∧
    ((run1 (.baseTileLoss 7) (booted 0)).tile 7).lost = true ∧ (run1 (.baseTileLoss 7) (booted 0)).dev.fatal = true ∧
    ((run1 (.baseTileLoss 7) (booted 0)).getG 15).map (fun g => g.lane 0) = some .halted := by decide +kernel


/-! ### Translation -/

/-- Page 0x40_0000 of ASID 1 has an entry; the request for it is of lane 0. -/
def mapped (ent : Nat) : State := tables 1 0x400000 0 ent (atWord 0)
def asks (k : AccKind) (st : ReqState) : Req := ⟨9, 1, 0, 0x400000, k, 0, .lanes 16 1, st, ⟨1, 1, 0⟩, false, 0, false⟩
theorem witness_miss :
    let r := asks .load .fresh
    let s (ent : Nat) := { mapped ent with reqs := [r] }
    r.who.quiet = false ∧ inTable 0x400000 = false ∧ [0, 1].all (fun e => absentB (s e) 1 0x400000
      && walksB (s e) ((s e).stackOf 1 0x400000) 1 0x400000 && ((s e).reqs.find? (fun x => x.id == 9)) == some r) = true ∧
    ((s 0).walkRaw 1 0x400000).kind = .notMapped ∧ ((s 1).walkRaw 1 0x400000).kind = .malformed ∧
    (run1 (.l2Miss 9) (s 0)).items.map Item.id = [(s 0).ids] ∧
    (run1 (.l2Miss 9) (s 0)).items.map (fun i => (i.cause, i.level, i.asid, i.view, i.va)) = [(1, 0, 1, 0, 0x400000)] ∧
    (run1 (.l2Miss 9) (s 1)).items.map (fun i => (i.cause, i.level, i.va)) = [(4, 0, 0x400000)] ∧
    (run1 (.l2Miss 9) (s 0)).reqs = [{ r with state := .onItem (s 0).ids }] := by decide +kernel
theorem witness_page_come :
    let s := { (withData 0).setG (fun g => { g with lsv := [(0, .parked)] }) with reqs := [asks .load .fresh] }
    standsB s 1 0x400000 1 = true ∧ (asks .load .fresh).hint ≠ 2 ∧
    (run1 (.l2Miss 9) s).reqs = [] ∧ (run1 (.l2Miss 9) s).g.lane 0 = .live := by decide +kernel
/-- Frame 300 of stack 3 fills, or is written back. -/
def filling : State :=
  let k := frameKey 3 300
  { (booted 0).setFrame k (fun _ => { Frame.forKey 1 0 0x40 false with sub := 1 }) with
    fills := [⟨k, 0xFFFE, [], [], true, true, ⟨1, 1, 0⟩, false, false⟩], reqs := [asks .load (.onFrame k)] }
theorem witness_fill_land :
    let k := frameKey 3 300
    let t := run1 (.fillDataLand 3 300) filling
    filling.fills.find? (fun x => x.fk == k && x.cmds.isEmpty) = some ⟨k, 0xFFFE, [], [], true, true, ⟨1, 1, 0⟩, false, false⟩ ∧ filling.gensMatch [] = true ∧
    (t.frame k).state = 1 ∧ (t.frame k).sub = 0xFFFF ∧ t.fills = [] ∧ t.reqs.any (fun r => r.state == .onFrame k) = false := by decide +kernel
def spilling (free : Bool) : State :=
  let k := frameKey 3 300
  { (booted 0).setFrame k (fun _ => { Frame.forKey 1 0 0x40 false with state := 3, sub := 1 }) with spills := [⟨9, k, 1, [], none, free, ⟨1, 1, 0⟩, false, false, false⟩] }
theorem witness_spill :
    let k := frameKey 3 300
    (spilling true).spills.find? (fun x => x.id == 9 && x.cmds.isEmpty) = some ⟨9, k, 1, [], none, true, ⟨1, 1, 0⟩, false, false, false⟩ ∧ ((spilling true).frame k).dirty = 0 ∧
    ((run1 (.spillwayWriteBackDone 9 true) (spilling true)).frame k).state = 0 ∧
    (run1 (.spillwayWriteBackDone 9 true) (spilling false)).frame k = { (spilling false).frame k with state := 1 } ∧
    ((run1 (.spillwayWriteBackDone 9 false) (spilling true)).frame k).state = 1 ∧
    (run1 (.spillwayWriteBackDone 9 false) (spilling true)).items.map (fun i => (i.cause, i.asid, i.va)) = [(10, 1, 0x400000)] := by decide +kernel
/-- Invalidation 9 of a table line has stack 31 left, and a store that waits for it. -/
theorem witness_invalidation :
    let i : Inval := ⟨9, 77, [1], 0x80000000#32⟩
    let s := { (booted 0).setFrame (frameKey 31 300) (fun _ => { Frame.forKey 1 0 0x40 false with state := 1, w := true, x := true }) with
      invals := [i], walk := [⟨31, 1, 0, 5, 0, [(77, 0)]⟩, ⟨30, 1, 0, 5, 0, [(77, 0)]⟩],
      l1 := [{ l1At 0 (blkKey 1 0 0x400000) with fetch := true }, { l1At 0 (blkKey 2 0 0x400000) with fetch := true }], stores := [⟨4, some 16, 0, 0, .write [9], []⟩] }
    let t := run1 (.tableInvalidation 9 31) s
    i.toStacks.getLsbD 31 = true ∧ i.toStacks &&& ~~~(laneBit 31) = 0#32 ∧ t.walk.map WalkEntry.stack = [30] ∧
    t.l1.map L1Block.blk = [blkKey 2 0 0x400000] ∧ (t.frame (frameKey 31 300)).w = false ∧ t.invals = [] ∧
    t.stores.map PendStore.kind = [.write []] := by decide +kernel
/-- Page 0x40_0000 of ASID 1 is a copy-on-write alias of page 0x80_1000 of ASID 0, whose frame 300 is resident; its home
stack has one reserved frame, or none. -/
def shared (reserve : Bool) : State :=
  let s := tables 0 0x801000 0 (2 + 4 + 8 + 2 ^ 96) (tables 1 0x400000 0 (3 + 4 + 8 + 0x40 + 0x801000) (atWord 0))
  let s := s.linkFrame (s.stackOf 0 0x801000) 300 { Frame.forKey 0 0 0x80 false with state := 1, sub := 0xFFFF, w := true, x := true }
  let s := if reserve then s.setFrame (frameKey (s.stackOf 1 0x400000) 301) (fun e => { e with state := 5 }) else s
  { withLine s 0 0x801000 with reqs := [{ asks .store .onCow with breaks := true }] }
theorem witness_cow :
    let s := shared true
    let st := s.stackOf 1 0x400000
    let w := s.walkRaw 1 0x400000
    let tgt := s.walkRaw 0 0x801000
    s.reqs.find? (fun x => x.id == 9) = some { asks .store .onCow with breaks := true } ∧ walksB s st 1 0x400000 = true ∧ w.kind = .aliasTo ∧
    entCow w.entry = true ∧ entW w.entry = true ∧ s.fills = [] ∧ s.findFrame st 1 0 0x400000 = none ∧
    (s.frames.find? (fun e => e.1 / 2 ^ 20 == st && e.2.state == 5)).map (·.1) = some (frameKey st 301) ∧ s.runOf w = 1 ∧
    aliasVa w (alignDown 0x400000 4096) = 0x801000 ∧ walksB s (s.stackOf 0 0x801000) 0 0x801000 = true ∧ tgt.kind = .leaf ∧
    entKind tgt.entry = 0 ∧ (mapGet none s.l2 (lineKey 0 0 0x801000)).isSome = true ∧
    ((s.cowSources { asks .store .onCow with breaks := true } 0x801000 1).2.map (fun l => l.map Prod.fst)) = some [.home 0 0 0x801000] := by
  decide +kernel
theorem witness_cow_none :
    let s := shared false
    let st := s.stackOf 1 0x400000
    s.frames.all (fun e => !(e.1 / 2 ^ 20 == st && e.2.state == 5)) = true ∧
    (run1 (.cowBreak 9) s).items.map (fun i => (i.cause, i.asid, i.va)) = [(5, 1, 0x400000)] := by decide +kernel
/-- Region 0x40 of ASID 0 has a leaf of 2 MiB of flash, and no frame. -/
def flashRegion : State := (tables 0 0x400000 1 (2 + 4 + 8 + 2 * 2 ^ 8) (booted 0)).setDev (fun d => { d with featAccept := 0x3FF, driveBind := (List.range 32).map (fun i => (i, 0x10)) })
theorem witness_region :
    let st := flashRegion.stackOf 0 0x400000
    0x40 * 2 ^ 16 + 2 ^ 16 ≤ tableBase ∧ flashRegion.findFrame st 0 0 0x400000 = none ∧
    (∀ i, i < 16 → let w := flashRegion.walkRaw 0 (0x400000 + 4096 * i); flashRegion.fetchable w 0 (0x400000 + 4096 * i) = true ∧
      entNpf w.entry = false ∧ w.kind = .leaf) ∧
    flashRegion.lowestFree st = some 256 ∧ (flashRegion.frame (frameKey st 256)).state = 0 ∧ ((run1 (.prefetch 0 0 0x40) flashRegion).frame (frameKey st 256)).state = 2 ∧
    ((run1 (.prefetch 0 0 0x40) flashRegion).frame (frameKey st 256)).vpn = 0x40 ∧
    (run1 (.prefetch 0 0 0x40) flashRegion).fills.map (fun x => (x.fk, x.pf)) = [(frameKey st 256, true)] := by decide +kernel
theorem witness_prefetched :
    let s := (booted 0).linkFrame ((booted 0).stackOf 0 0x400000) 300 { Frame.forKey 0 0 0x40 false with state := 1 }
    (s.findFrame (s.stackOf 0 0x400000) 0 0 0x400000).isSome = true ∧ run1 (.prefetch 0 0 0x40) s = s ∧
    mapGet none (run1 (.l2LineEvict 1 0 0x4000) (withData 0)).l2 (lineKey 1 0 0x400000) = none := by decide +kernel
/-- A line that a fill's walk holds, and a clean and a dirty line of view 5. -/
theorem witness_line_evict :
    let lk := lineKey 1 0 0x400000
    let s := { withData 0 with fills := [⟨77, 1, [], [(lk, 0)], true, true, ⟨1, 1, 0⟩, true, false⟩] }
    let v := { withData 0 with l2 := mapSet none (withData 0).l2 (lineKey 1 5 0x400000) (some (L2Line.fresh true true false)) }
    (withData 0).heldBy lk = none ∧ (s.heldBy lk).isSome = true ∧ (mapGet none (run1 (.l2LineEvict 1 0 0x4000) s).l2 lk).isSome = true ∧
    (mapGet none v.l2 (lineKey 1 5 0x400000)).map (·.dirty) = some false ∧
    mapGet none (run1 (.l2LineEvict 1 5 0x4000) v).l2 (lineKey 1 5 0x400000) = none := by decide +kernel
/-- Item 4, in slot 5 of the ring of tile 0, has a reply; lane 0's request waits for it. -/
def replied (x now : Nat) (waits : Bool) : State :=
  let s := ((atWord 0).setTile 0 (fun t => { t with pagerRing := 0x10000 })).stb 0 0 (ringBase 0x10000 + 64 * 5 + 0x20) 8 x
  { s with tick := now, items := [⟨4, 0, 1, 0, 0, 1, 0, 0x400000, 0, 0, 100, some 5⟩], reqs := if waits then [asks .load (.onItem 4)] else [] }
theorem witness_reply :
    (replied 0 0 true).items.find? (fun x => x.id == 4 && x.slot.isSome) = (replied 0 0 true).items.head? ∧
    ((replied 0 0 true).items.map (replied 0 0 true).replyOf) = [0] ∧ run1 (.pagerReply 4) (replied 0 0 true) = replied 0 0 true ∧
    ((replied 1 0 true).items.map (replied 1 0 true).replyOf) = [1] ∧ (run1 (.pagerReply 4) (replied 1 0 true)).items = [] ∧
    (run1 (.pagerReply 4) (replied 1 0 true)).reqs = [asks .load .fresh] ∧
    (run1 (.pagerReplyTimeout 4) (replied 0 (100 + 2 ^ 25) false)).items = [] ∧
    run1 (.pagerReplyTimeout 4) (replied 0 (99 + 2 ^ 25) true) = replied 0 (99 + 2 ^ 25) true := by decide +kernel


/-! ### Engines -/

def own (id blk : Nat) (held : Bool) : Own := ⟨id, blk, 0, 9, 64 * 9, 16, held, 64⟩
/-- Requests 5 and 6 for the data line's first block, of command 9; the core has a level-1 copy. -/
def owning (os : List Own) (dams : List Dam) : State :=
  { withPad 1 with owns := os, dams := dams, l1 := [l1At 0 (blkKey 1 0 0x400000)],
                   ctxs := [(2, some ⟨16, 0, none, [copyCmd (copyBox .running)]⟩)] }
theorem witness_ownership :
    let b := homeBlk 1 0 0x400000
    let o := own 5 b false
    let s := owning [o, own 6 b false] []
    let t := run1 (.ownershipRequest 5) s
    s.owns.find? (fun x => x.id == 5) = some o ∧ s.tileBusy 9 (locOfBlk b) = false ∧ run1 (.ownershipRequest 6) s = s ∧
    run1 (.ownershipRequest 5) (owning [o] [dam]) = owning [o] [dam] ∧ dam.breached = false ∧ dam.blk = o.blk ∧
    t.owns.head? = some { o with held := true } ∧ locOfBlk b = .home 1 0 0x400000 ∧ t.l1 = [] ∧
    (t.ctx 0 2).map (fun c => c.cmds.map (fun q => q.before.map (fun y => y.1))) = some [[b]] := by decide +kernel
/-- An earlier matrix command of the core names the tile of the block. -/
theorem witness_ownership_tile :
    let b := accBlk 0 0 0x31000
    let s := (owning [own 5 b false] []).setMuq 0 3 [⟨2, 16, .mld 1 0x100, []⟩]
    locOfBlk b = .acc 0 0 0x31000 ∧ s.tileBusy 9 (locOfBlk b) = true ∧ run1 (.ownershipRequest 5) s = s := by decide +kernel
/-- A stage of a plan with one fresh box from the data line to the scratchpad. -/
def staged : CopyCmd :=
  ⟨9, none, 0, 0, some 0, 1, 0, 0x400080, 2, false, false, [⟨0, 1, some (layoutAt 0x400000), some (layoutAt localBase)⟩], false, none,
    [copyBox .fresh], [], [], []⟩
def withStage (q : CopyCmd) : State := { withPad 1 with ctxs := [(2, some ⟨16, 0, none, [q]⟩)] }
theorem witness_copy_resolve :
    let s := withStage staged
    let u := s.requestBox (engOf 0 2 ⟨16, 0, none, [staged]⟩ staged) 2 staged 0
    staged.pending = true ∧ staged.stage.isSome = true ∧ s.reqs = [] ∧ (s.ctxsOf 0).map (fun y => y.2.cmds.map CopyCmd.id) = [[9]] ∧
    u.2 = true ∧ u.1.owns.length = 1 ∧ (run1 (.copyResolve 0 2) s).owns = u.1.owns ∧
    ((run1 (.copyResolve 0 2) s).ctx 0 2).map (fun c => c.cmds.map (fun q => (q.resolved, q.boxes.map CopyBox.state))) = some [(true, [.running])] := by
  decide +kernel
/-- The same with boxes of one byte. -/
def layoutOne (base : Nat) : Nat := 1 + 2 ^ 16 + 2 ^ 32 + base * 2 ^ 64 + 4 * 2 ^ 192 + 2 ^ 224 + 2 ^ 240
def stagedOne : CopyCmd := { staged with pairs := [⟨0, 1, some (layoutOne 0x400000), some (layoutOne localBase)⟩] }
theorem witness_copy_resolve_one :
    let s := withStage stagedOne
    let l := Layout.ofNat (layoutOne localBase)
    l.fixed = true ∧ l.boxR = 1 ∧ l.boxC = 1 ∧ s.reqs = [] ∧
    (l.addr none 0 0).bind (s.engOwns (engOf 0 2 ⟨16, 0, none, [stagedOne]⟩ stagedOne)) = some (.spad 0 0) ∧
    (Loc.spad 0 0).ownKey 0 = some (spadBlk 0 0) ∧
    (run1 (.copyResolve 0 2) s).owns = [⟨s.ids, spadBlk 0 0, 0, 9, 64 * 9, 16, false, 1⟩] := by decide +kernel
/-- Its box has moved its four bytes, or one of its requests is not yet held. -/
def moved (pos : Nat) : CopyCmd := { staged with stage := none, resolved := true, boxes := [{ copyBox .running with pos := pos }] }
theorem witness_piece :
    let s := (withStage (moved 4)).setG (fun g => { g with cpcnt := 1 })
    let w := { withStage (moved 0) with owns := [own 5 (spadBlk 0 0) false] }
    let ls := Layout.ofNat (layoutAt 0x400000)
    ls.boxR * ls.boxC ≤ 4 ∧ s.owns = [] ∧ s.stores = [] ∧ (run1 (.copyPiece 0 2 (64 * 9)) s).ctx 0 2 = none ∧
    (run1 (.copyPiece 0 2 (64 * 9)) s).g.cpcnt = 0 ∧ run1 (.copyPiece 0 2 (64 * 9)) w = w := by decide +kernel
/-- A tile load at the head of unit 3's queue, from scratchpad 0x100, and the same where an engine owns a block of it. -/
def tileLoad : State :=
  let s := (matrix.setMuq 0 3 [⟨1, 16, .mld 15 0x100, []⟩]).setG (fun g => { g with mxcnt := 1 })
  s.wrLoc (.spad 0 0x10FF) 1 0x5A
theorem witness_tile_load :
    let tm := (tileLoad.team 0).getD loadedTeam
    let held := { tileLoad with owns := [own 5 (spadBlk 0 0x1000) true] }
    tileLoad.muReady tm 0 3 ⟨1, 16, .mld 15 0x100, []⟩ = true ∧ (run1 (.muCommandPerform 0 3) tileLoad).muq 0 3 = [] ∧
    (run1 (.muCommandPerform 0 3) tileLoad).g.mxcnt = 0 ∧ held.muReady tm 0 3 ⟨1, 16, .mld 15 0x100, []⟩ = false := by decide +kernel
theorem witness_codebook :
    let s := ({ matrix with cbq := [(0, [⟨16, 0x40, []⟩])] }.setG (fun g => { g with mxcnt := 1 })).wrLoc (.spad 0 (0x40 + 254)) 2 0xBEEF
    let tm := (s.team 0).getD loadedTeam
    (∀ q, q < 4 → s.muq 0 q = []) ∧ s.padHeld tm 0x40 256 = false ∧ ((run1 (.codebookSwitch 0) s).coreSt 0).act = 1 ∧
    ((run1 (.codebookSwitch 0) s).coreSt 0).cbgen = 1 ∧ (run1 (.codebookSwitch 0) s).g.mxcnt = 0 ∧
    mapGet 0 (run1 (.codebookSwitch 0) s).codebook (128 + 127) = 0xBEEF := by decide +kernel
/-- Write 9 of spill 4 to drive 0, which is bound or not. -/
def writing (tries : Nat) (bound : Bool) (others : List Nvme) : State :=
  { (booted 0).setDev (fun d => { d with featAccept := 0x3FF, driveBind := if bound then [(0, 0x3B0)] else [] }) with
    nvme := { xfer 0 0 with tries := tries } :: others, spills := [⟨4, frameKey 3 300, 1, [9], none, true, ⟨1, 1, 0⟩, false, false, false⟩] }
def failedOf (s : State) : List (List Nat × Option (Nat × Nat)) := s.spills.map (fun x => (x.cmds, x.failed))
theorem witness_drive :
    let w := writing 2 true []
    w.nvme.find? (fun x => x.id == 9) = some { xfer 0 0 with tries := 2 } ∧ w.nvmeBlocked { xfer 0 0 with tries := 2 } = false ∧
    w.driveOk 0 = true ∧ (run1 (.nvmeCompletion 9 1) w).nvme.map Nvme.tries = [3] ∧
    failedOf (run1 (.nvmeCompletion 9 0) w) = [([], none)] ∧ (writing 3 true []).nvme.map Nvme.tries = [3] ∧
    (writing 0 false []).driveOk 0 = false ∧ 
    failedOf (run1 (.nvmeCompletion 9 0) { writing 0 false [] with nvme := [{ xfer 0 0 with sent := false }] }) = [([], some (0, 4))] ∧
    ((w.bind 0).extractLsb' 5 5).toNat = 29 ∧
    run1 (.nvmeTimeout 9) { w with tick := 99 + 2 ^ 29 } = { w with tick := 99 + 2 ^ 29 } ∧
    (writing 0 true [{ xfer 0 0 with id := 8 }]).nvmeBlocked (xfer 0 0) = true := by decide +kernel

/-! ### The host, the pool and peers -/

def onPort : State :=
  { (booted 0).setDev (fun d => { d with portMode := 1, featAccept := 0x3FF }) with portCache := [⟨0, 2, 3, []⟩, ⟨0, 3, 2, []⟩] }
theorem witness_snoop :
    onPort.portUp 0 = true ∧ onPort.portUp 1 = false ∧ (run1 (.hostSnoop 0 0x80 true) onPort).portCache = [⟨0, 3, 2, []⟩] ∧
    ((run1 (.hostSnoop 0 0x80 true) onPort).port 0).tags = 1 ∧ mapGet none ((run1 (.hostSnoop 0 0x80 true) onPort).port 0).snoops 2 = some 1 ∧
    (run1 (.hostSnoop 0 0x80 false) onPort).portCache = [⟨0, 2, 1, []⟩, ⟨0, 3, 2, []⟩] ∧ run1 (.hostSnoop 1 0x80 true) onPort = onPort ∧
    (run1 (.portCacheEvict 0 0xC0) onPort).portCache = [⟨0, 2, 3, []⟩] ∧ (run1 (.portLinkDown 0) onPort).portCache = [] ∧
    (run1 (.portLinkDown 0) onPort).portUp 0 = false := by decide +kernel
theorem witness_port_fill :
    let s := { onPort with reqs := [asks .load (.onPort 0 2)] }
    (∃ r ∈ s.reqs, r.state = .onPort 0 (0x80 / 64)) ∧ mapGet none (s.port 0).snoops 2 = none ∧ tagLater 0 (((s.port 0).tags + 1) % 2 ^ 16) = false ∧
    ((run1 (.portFill 0 0x80 0) s).port 0).tags = 1 ∧ (run1 (.portFill 0 0x80 0) s).reqs.any (fun r => r.state == .onPort 0 2) = false ∧
    run1 (.portFill 0 0x180 0) s = s := by decide +kernel
/-- Lease 4095 in a state, with an expiry; a frame under it. -/
def leased (state expiry : Nat) : State := ({ booted 50 with tick := 50 }.stb 0 0 (leaseVa 4095) 8 expiry).stb 0 0 (leaseVa 4095 + 0x1C) 1 state
theorem witness_lease :
    ((leased 1 50).lease 4095).state = 1 ∧ ((leased 1 50).lease 4095).expiry = 50 ∧
    ((run1 (.leaseExpiry 4095) (leased 1 50)).lease 4095).state = 2 ∧ ((run1 (.leaseExpiry 4095) (leased 1 50)).lease 4095).endCause = 5 ∧
    run1 (.leaseExpiry 4095) (leased 1 51) = leased 1 51 ∧ run1 (.leaseExpiry 4095) (leased 1 0) = leased 1 0 ∧
    ((run1 (.leaseRevoke 4095) (leased 1 0)).lease 4095).endCause = 6 ∧ (leased 2 0).leaseFrames 4095 = [] ∧
    ((run1 (.leaseDrainDone 4095) (leased 2 0)).lease 4095).state = 3 ∧ ((run1 (.leaseFail 4095) (leased 2 0)).lease 4095).state = 4 := by
  decide +kernel
/-- Lease 4095 drains; one frame holds a page of it. -/
def draining : State :=
  let s := tables 1 0x400000 0 (2 + 4 + 8 + 2 ^ 8 + 4095 * 2 ^ 84) (leased 2 0)
  s.linkFrame (s.stackOf 1 0x400000) 300 { Frame.forKey 1 0 0x40 false with state := 1, sub := 1 }
theorem witness_drain :
    draining.leaseFrames 4095 = [(frameKey (draining.stackOf 1 0x400000) 300, draining.frame (frameKey (draining.stackOf 1 0x400000) 300))] ∧
    (run1 (.leaseDrainDone 4095) draining).spills.map (fun x => (x.fk, x.free)) = [(frameKey (draining.stackOf 1 0x400000) 300, true)] := by
  decide +kernel
/-- A shared page of ASID 1 lies at the start of lease 4095, of pool device 3; one frame holds it. -/
def pooled : State :=
  let s := (booted 0).setDev (fun d => { d with featAccept := 0x3FF })
  let s := tables 1 0x400000 0 (2 + 4 + 8 + 2 ^ 7 + 2 ^ 8 + 4095 * 2 ^ 84) s
  let s := s.stb 0 0 (leaseVa 4095) 32 (2 ^ 16 * 2 ^ 128 + 3 * 2 ^ 192 + 2 ^ 224 + 2 ^ 232)
  s.linkFrame (s.stackOf 1 0x400000) 300 { Frame.forKey 1 0 0x40 false with state := 1, sub := 3 }
theorem witness_bisnp :
    let fk := frameKey (pooled.stackOf 1 0x400000) 300
    pooled.frames.map (fun e => (e.1, e.2.table, e.2.view, e.2.state)) = [(fk, false, 0, 1)] ∧ pooled.fills = [] ∧
    (pooled.sharedSubs (pooled.frame fk) 3 0xFFF 1).map (fun x => x.1) = [0] ∧
    ((run1 (.bisnp 3 0xFFF 1) pooled).frame fk).sub = 2 := by decide +kernel
/-- Export window 1023 gives the data line to importer 3, for loads, stores and weirs or for loads alone. -/
def exporting (flags : Nat) : State :=
  (withLine (booted 0) 1 0x400000).stb 0 0 (tableBase + 0x60000 + 32 * 1023) 32
    (0x400000 + 0x100 * 2 ^ 64 + 2 ^ 128 + flags * 2 ^ 144 + 3 * 2 ^ 160)
theorem witness_peer :
    let e := (exporting 7).exportOf (1023 % 1024)
    let t := run1 (.peerAccess 3 1023 0xF8 (.store 8 0x1122334455667788 false false)) (exporting 7)
    e.admits 3 0xF8 (.load 8 false) = true ∧ e.admits 4 0xF8 (.load 8 false) = false ∧ e.admits 3 0xF9 (.load 8 false) = false ∧
    e.admits 3 0xF8 (.store 8 0x1122334455667788 false false) = true ∧ e.base + 0xF8 + 8 ≤ tableBase ∧
    standsB (exporting 7) e.asid (e.base + 0xF8) 8 = true ∧ (e.base + 0xF8) % 64 + 8 ≤ 64 ∧ (exporting 7).waitsFor (.peer 3 1023) = false ∧
    0x4000F8 + 8 ≤ tableBase ∧ t.rdLoc (.home 1 0 0x4000F8) 8 = 0x1122334455667788 ∧
    run1 (.peerAccess 3 1023 0xF8 (.store 8 5 false false)) (exporting 1) = exporting 1 := by decide +kernel
/-- A reduction; and the line of the window is not there. -/
theorem witness_peer_reduce :
    ((exporting 7).exportOf 1023).admits 3 0xF8 (.reduce 0 5 77 0x400020 false) = true ∧ 0x4000F8 % 64 + farBytes 0 ≤ 64 ∧
    (run1 (.peerAccess 3 1023 0xF8 (.reduce 0 5 77 0x400020 false)) (exporting 7)).contribs.map (fun c => (c.va, c.val, c.key)) = [(0x4000F8, 5, 77)] := by
  decide +kernel
theorem witness_peer_fault :
    let s := { exporting 7 with l2 := [] }
    absentB s 1 0x400000 = true ∧ s.waitsFor (.peer 3 1023) = false ∧ peerSize (.load 8 false) = 8 ∧
    (run1 (.peerAccess 3 1023 0 (.load 8 false)) s).reqs.map (fun r => (r.who, r.state, r.asid, r.va)) = [(.peer 3 1023, .fresh, 1, 0x400000)] := by
  decide +kernel
theorem witness_peer_retry :
    let s := { booted 0 with reqs := [asks .load (.onPeer 1)] }
    s.reqs.find? (fun x => x.id == 9 && (match x.state with
      | .onPeer _ => true
      | _ => false)) = some (asks .load (.onPeer 1)) ∧ (asks .load (.onPeer 1)).kind.isWrite = false ∧
    (asks .load (.onPeer 1)).who.quiet = false := by decide +kernel


/-! ### Fetch and the step -/

/-- Core `u` of the base tiles at packet 0, with a `CODE_BASE`, whose line is there or not. -/
def fetching (line : Bool) (base : DWord) : State :=
  let s := (onBase 0).setR (fun r => { r with codeBase := base })
  if line then { s with l2 := mapSet none s.l2 (lineKey 0 0 base.toNat) (some (L2Line.fresh true true false)) } else s
theorem witness_fetch :
    let s := fetching true 0x200034
    let p := s.setPois (homeBlk 0 0 0x200034) true
    let m := fetching false 0x200000
    packetAddr 0x200034 0 = 0x200034 ∧ s.iss.pc = 0 ∧ pcSlot 0 ≠ 3 ∧ pcSlot 3 = 3 ∧ (0x200034 : Nat) % 64 = 52 ∧ onChip 0x200034 = false ∧
    inTable 0x200034 = false ∧ s.g.view = 0 ∧ s.g.isCompute = false ∧ s.g.pkt = none ∧
    standsB s 0 0x200034 12 = true ∧ s.ownDam (.home 0 0 0x200034) = none ∧ s.locPois (.home 0 0 0x200034) 12 = false ∧
    s.fetchPacket.g.pkt = some ⟨0, 0, 0, 0⟩ ∧ standsB p 0 0x200034 12 = true ∧ p.locPois (.home 0 0 0x200034) 12 = true ∧
    p.fetchPacket.g.pkt = none ∧ absentB m 0 0x200000 = true ∧ m.fetchPacket.reqs.length = 1 ∧ m.fetchPacket.g.lane 0 = .parked := by decide +kernel
/-- The last packet below 2^57, and one byte past it; `CODE_BASE` 2^57; the table region for a compute group. -/
theorem witness_fetch_address :
    packetAddr (BitVec.ofNat 64 (2 ^ 57 - 12)) 0 + 12 = 2 ^ 57 ∧ 2 ^ 57 < packetAddr (BitVec.ofNat 64 (2 ^ 57 - 11)) 0 + 12 ∧
    (BitVec.ofNat 64 (2 ^ 57)).toNat / 2 ^ 57 ≠ 0 ∧ (fetching false (BitVec.ofNat 64 (2 ^ 57))).fetchPacket.iss.set = 0 ∧
    inTable tableBase = true ∧ onChip tableBase = false ∧ (tableBase % 64 = 0) ∧ (atWord 0).g.r.prv = 0 := by decide +kernel
theorem witness_fetch_l1 :
    let b : L1Block := { l1At 0 (blkKey 1 0 0x200000) with data := 0x0102030405060708 }
    let s := { atWord 0 with l1 := [b] }
    s.g.isCompute = true ∧ s.core = 0 ∧ s.g.r.codeBase = 0x200000 ∧ s.ownDam (.home 1 0 0x200000) = none ∧ b.x = true ∧
    s.l1Find s.gid 0 (blkKey 1 0 0x200000) 0 12 = some b := by decide +kernel

/-- The next step fetches a word, on a compute group. -/
def nextWord (w : Nat) : State := State.reset.loadCompute 0 w
def begun (w : Nat) : State := ((nextWord w).passTick.pickStep.2.passCycle 0).beginIssue 0 16
/-- The packet that the issue has at hand. -/
def packetOf (w : Nat) : Packet := ((begun w).g.pkt).getD ⟨0, 0, 0, 0⟩
/-- The state at the first word, as the step gives it to `exec`. -/
noncomputable def atFirst (w : Nat) : State :=
  let c := (packetOf w).chainWord 0
  let s2 := (begun w).setIss (fun i => { i with next := mkPc 0 1, skip := some ⟨mkPc 0 1, 1, false⟩ })
  ((s2.payDebts s2.gid).touch).atWord (begun w).setBlkOf 0 c
theorem witness_pick : (nextWord 0x1E000000).passTick.pickStep.1 = .quarterIssue 0 ∧ State.reset.passTick.pickStep.1 = .powerOnBoot ∧
    (nextWord 0x1E000000).passTick.pickStep.2.candidates 0 = [16] := by decide +kernel
/-- `nop`, an addition, a system call, and a word that no entry assigns. -/
theorem witness_step :
    (∀ w ∈ [0x1E000000, 0x02041030, 0x1E000005], (begun w).iss.set = 0xFFFFFFFF#32 ∧ (begun w).g.pkt = some (packetOf w) ∧
      (packetOf w).isLit (pcSlot (begun w).iss.pc) = false ∧ ((packetOf w).word (pcSlot (begun w).iss.pc)).getLsbD 31 = false) ∧
    (begun 0x02041030).checkChain [(packetOf 0x02041030).chainWord 0] false (begun 0x02041030).setBlkOf = none ∧
    (begun 0x02041030).chainStalls [(packetOf 0x02041030).chainWord 0] (begun 0x02041030).setBlkOf = false ∧
    (begun 0x02041030).guardMismatch = none ∧ ((packetOf 0x02041030).chainWord 0).d = .ok (.addI64 1#7 2#7 3#7) ∧
    ((begun 0x1E000005).checkChain [(packetOf 0x1E000005).chainWord 0] false (begun 0x1E000005).setBlkOf).isSome = true := by decide +kernel
/-- The addition has its effect; a branch below slot 0 of packet 0 traps in its own. -/
theorem witness_step_effect :
    (begun 0x17DFFFFD).checkChain [(packetOf 0x17DFFFFD).chainWord 0] false (begun 0x17DFFFFD).setBlkOf = none ∧
    ((packetOf 0x17DFFFFD).chainWord 0).d = .ok (.br 7#3 0#1 0x7FFFF#19 1#2) ∧
    (run1 (.br 7#3 0#1 0x7FFFF#19 1#2) (atFirst 0x17DFFFFD)).iss.trap.map TrapReq.cause = some 4 ∧
    (run1 (.br 7#3 0#1 0x7FFFF#19 1#2) (atFirst 0x17DFFFFD)).iss.stalled = false ∧
    (run1 (.addI64 1#7 2#7 3#7) (atFirst 0x02041030)).iss.stalled = false ∧ (run1 (.addI64 1#7 2#7 3#7) (atFirst 0x02041030)).iss.mism = none ∧
    (run1 (.addI64 1#7 2#7 3#7) (atFirst 0x02041030)).iss.trap = none := by decide +kernel
/-- The chain word's decoder, and lanes at the end of a chain. -/
theorem witness_chain_end :
    let t := (atWord 0).setIss (fun i => { i with moved := 2 })
    let u := t.retire (atWord 0) 1 8 0 false none
    t.iss.set &&& ~~~t.iss.parked ≠ 0 ∧ (atWord 0).g.r.sstep = false ∧ (atWord 0).g.stepArmed = false ∧ t.iss.late = none ∧
    u.g.pc 0 = 8 ∧ u.g.pc 1 = 0 ∧ u.g.issueNo = (atWord 0).g.issueNo + 1 := by decide +kernel
/-- Nothing is under way at reset. -/
theorem witness_in_flight : State.reset.iss = Issue.none := rfl
/-- Well-formed instructions with and without a literal; a word that decodes; a word with a literal that has none. -/
theorem witness_encoding :
    Instr.wf (.addI64Imm 1#7 2#7 (.lit 0x12345678)) = true ∧ (encodeFields (.addI64Imm 1#7 2#7 (.lit 0x12345678))).isSome = true ∧
    encode (.addI64Imm 1#7 2#7 (.lit 0x12345678)) ≠ [] ∧ Instr.wf (.addI64 127#7 127#7 127#7) = true ∧
    (decodeWord 0x82041030#32 none).toOption.isSome = true := by decide +kernel

end Sys2Proof.Tests
end

section
/-! PROOF. What stands before the effect of every encoded word: the gate's answers, and the least register outside. -/

namespace Sys2Proof.Machine

/-! ### The least of what is found -/

theorem leastBy_isSome {α : Type} (key : α → Nat) (x : α) (xs : List α) : (leastBy key (x :: xs)).isSome = true := by
  simp only [leastBy]
  split
  · rfl
  · split <;> rfl

/-- `leastBy` gives an element of the list, and none has a smaller key. -/
theorem leastBy_spec {α : Type} {key : α → Nat} {xs : List α} {y : α} (h : leastBy key xs = some y) :
    y ∈ xs ∧ ∀ x ∈ xs, key y ≤ key x := by
  induction xs generalizing y with
  | nil => cases h
  | cons x xs ih =>
    simp only [leastBy] at h
    split at h
    case h_1 hn =>
      cases xs with
      | nil => cases h; simp
      | cons z zs => simpa [hn] using leastBy_isSome key z zs
    case h_2 z hz =>
      obtain ⟨hmem, hle⟩ := ih hz
      split at h
      · cases h
        exact ⟨List.mem_cons_of_mem _ hmem, List.forall_mem_cons.2 ⟨by omega, hle⟩⟩
      · cases h
        exact ⟨List.mem_cons_self .., List.forall_mem_cons.2 ⟨le_rfl, fun w hw => (Nat.le_of_not_lt ‹_›).trans (hle w hw)⟩⟩

theorem leastOf_spec {xs : List (Option Nat)} {n : Nat} (h : leastOf xs = some n) :
    some n ∈ xs ∧ ∀ k, some k ∈ xs → n ≤ k := by
  simpa using leastBy_spec h

theorem leastOf_isSome {xs : List (Option Nat)} (h : ∃ x ∈ xs, x.isSome = true) : ∃ n, leastOf xs = some n := by
  obtain ⟨x, hx, hs⟩ := h
  obtain ⟨n, rfl⟩ := Option.isSome_iff_exists.1 hs
  have hn : n ∈ xs.filterMap id := by simpa using hx
  obtain ⟨y, ys, hl⟩ := List.exists_cons_of_ne_nil (List.ne_nil_of_mem hn)
  rw [leastOf, hl]
  exact Option.isSome_iff_exists.1 (leastBy_isSome ..)

theorem Reg.outside_ge {r : Reg} {n k : Nat} (h : r.outside n = some k) : n ≤ k := by
  cases r with
  | v a w =>
    simp only [Reg.outside, Option.ite_none_right_eq_some, Option.some.injEq] at h
    omega
  | _ => cases h

/-! ### What the gate answers -/

section gate
variable {inf : Info} {s : State}

theorem static_of_unavailable {r : Nat} (h : inf.unavailable s = some r) : inf.static s = some (s.ill r) := by
  simp only [Info.static, h]

theorem static_of_lanes (ha : inf.unavailable s = none) (hl : s.iss.eff ≠ 0) : inf.static s = inf.operandTrap s := by
  simp only [Info.static, ha, if_neg hl]

theorem static_of_noLanes (ha : inf.unavailable s = none) (hl : s.iss.eff = 0) : inf.static s = none := by
  simp only [Info.static, ha, if_pos hl]

theorem operandTrap_of_misaligned (h : ∃ r ∈ inf.reads ++ inf.writes, r.aligned = false) :
    inf.operandTrap s = some (s.trapOf 2 0 0 0 0) := by
  have ha : (inf.reads ++ inf.writes).all Reg.aligned = false := List.all_eq_false.2 (by simpa using h)
  simp only [Info.operandTrap, ha, Bool.not_false, if_true]

theorem operandTrap_of_outside {n : Nat} (ha : ∀ r ∈ inf.reads ++ inf.writes, r.aligned = true)
    (h : leastOf ((inf.reads ++ inf.writes).map (Reg.outside s.g.regsN)) = some n) :
    inf.operandTrap s = some (s.trapOf 2 0 n 0 0) := by
  simp only [Info.operandTrap, List.all_eq_true.2 ha, h]
  simp

theorem operandTrap_of_need (h : ∀ r ∈ inf.reads ++ inf.writes, r.aligned = true ∧ r.outside s.g.regsN = none)
    (hn : inf.need.ok s.src = false) :
    inf.operandTrap s = some (mkTrap 3 (lowestLane s.iss.eff) (s.iss.pc.zeroExtend 64)
      (BitVec.ofNat 64 (inf.need.info1 s.iss.word)) 0 0) := by
  have ho : leastOf ((inf.reads ++ inf.writes).map (Reg.outside s.g.regsN)) = none :=
    foldr_leastBy_none (List.forall_mem_map.2 fun r hr => (h r hr).2)
  simp only [Info.operandTrap, List.all_eq_true.2 fun r hr => (h r hr).1, ho, hn, State.trapOf]
  simp

theorem gate_of_static {t : TrapReq} (h : inf.static s = some t) : inf.gate s = .trap t := by
  simp only [Info.gate, h]

theorem gate_of_noLanes (h : inf.static s = none) (hl : s.iss.eff = 0) : inf.gate s = .idle := by
  simp only [Info.gate, h, if_pos hl]

theorem gate_of_stalls (h : inf.static s = none) (hl : s.iss.eff ≠ 0) (hs : inf.stalls s = true) :
    inf.gate s = .stall := by
  simp only [Info.gate, h, if_neg hl, hs, if_true]

theorem gate_of_nonuniform {t : TrapReq} (h : inf.static s = none) (hl : s.iss.eff ≠ 0) (hs : inf.stalls s = false)
    (hu : s.src.unifMode = false) (hn : inf.nonuniform s = some t) : inf.gate s = .trap t := by
  simp only [Info.gate, h, if_neg hl, hs, hu, hn, Bool.false_eq_true, if_false]

theorem gate_of_poisoned {t : TrapReq} (h : inf.static s = none) (hl : s.iss.eff ≠ 0) (hs : inf.stalls s = false)
    (hu : s.src.unifMode = true ∨ inf.nonuniform s = none) (hp : inf.poisoned s = some t) : inf.gate s = .trap t := by
  have hn : (if s.src.unifMode then none else inf.nonuniform s) = none := by
    rcases hu with hu | hu <;> simp [hu]
  simp only [Info.gate, h, if_neg hl, hs, hn, hp, Bool.false_eq_true, if_false]

/-- The nonuniform-operand trap names the word and its `pcv` (R167). -/
theorem nonuniform_info {t : TrapReq} (h : inf.nonuniform s = some t) :
    t.cause = 11 ∧ t.i0 = s.iss.pc.zeroExtend 64 ∧ t.i1 = s.iss.word.zeroExtend 64 := by
  unfold Info.nonuniform at h
  split at h
  · cases h
  · cases h
    exact ⟨rfl, BitVec.ofNat_toNat .., BitVec.ofNat_toNat ..⟩

/-- The poison-consumed trap names the word and its `pcv` (R404). -/
theorem poisoned_info {t : TrapReq} (h : inf.poisoned s = some t) :
    t.cause = 13 ∧ t.i0 = s.iss.pc.zeroExtend 64 ∧ t.i1 = s.iss.word.zeroExtend 64 := by
  unfold Info.poisoned at h
  split at h
  · cases h
  · cases h
    exact ⟨rfl, BitVec.ofNat_toNat .., BitVec.ofNat_toNat ..⟩

end gate

/-! ### An encoded word under the gate -/

section encoded
variable {i : Instr} {s : State}

theorem exec_of_gate_trap (he : (encodeFields i).isSome = true) {t : TrapReq} (h : (infoOf i).gate s = .trap t) :
    exec i s = .next (s.trap t) := by
  obtain ⟨body, hb⟩ := exec_issued i he s
  rw [hb, issued_trap h]

theorem exec_of_gate_idle (he : (encodeFields i).isSome = true) (h : (infoOf i).gate s = .idle) : exec i s = .next s := by
  obtain ⟨body, hb⟩ := exec_issued i he s
  rw [hb, issued_idle h]

theorem exec_of_gate_stall (he : (encodeFields i).isSome = true) (h : (infoOf i).gate s = .stall) :
    exec i s = .next s.stall := by
  obtain ⟨body, hb⟩ := exec_issued i he s
  rw [hb, issued_stall h]

/-- A register outside the allotment: the trap names the lowest (R134). -/
theorem exec_of_outside (he : (encodeFields i).isSome = true) (ha : (infoOf i).unavailable s = none) (hl : s.iss.eff ≠ 0)
    (hal : ∀ r ∈ (infoOf i).reads ++ (infoOf i).writes, r.aligned = true)
    (ho : ∃ r ∈ (infoOf i).reads ++ (infoOf i).writes, (r.outside s.g.regsN).isSome = true) :
    ∃ n, s.g.regsN ≤ n ∧ (∃ r ∈ (infoOf i).reads ++ (infoOf i).writes, r.outside s.g.regsN = some n) ∧
      (∀ r ∈ (infoOf i).reads ++ (infoOf i).writes, ∀ k, r.outside s.g.regsN = some k → n ≤ k) ∧
      exec i s = .next (s.trap (mkTrap 2 (lowestLane s.iss.eff) 0 (BitVec.ofNat 64 n) 0 0)) := by
  obtain ⟨n, hn⟩ := leastOf_isSome (xs := ((infoOf i).reads ++ (infoOf i).writes).map (Reg.outside s.g.regsN))
    (by obtain ⟨r, hr, h⟩ := ho; exact ⟨_, List.mem_map_of_mem hr, h⟩)
  obtain ⟨hmem, hleast⟩ := leastOf_spec hn
  obtain ⟨r, hr, hrn⟩ := List.mem_map.1 hmem
  refine ⟨n, Reg.outside_ge hrn, ⟨r, hr, hrn⟩, fun q hq k hk => hleast k (hk ▸ List.mem_map_of_mem hq), ?_⟩
  exact exec_of_gate_trap he (gate_of_static ((static_of_lanes ha hl).trans (operandTrap_of_outside hal hn)))

end encoded

end Sys2Proof.Machine

open Sys2Proof Sys2Proof.Machine

/-- Settles O23: an encoded word is `issued` with its record, so each clause is an answer of the gate. -/
theorem trapsAndStallsBeforeEffect : Obligations.TrapsAndStallsBeforeEffect := by
  unfold Obligations.TrapsAndStallsBeforeEffect
  refine ⟨fun i s he => ⟨fun r hr => ?_, fun ha hl => ?_, fun ha hl hm => ?_, fun ha hl hal ho => ?_, fun ha hl hr hn => ?_⟩,
    fun i s he hst hl => ⟨fun hs => ?_, fun hs hu t hn => ?_, fun hs hu t hp => ?_⟩⟩
  · exact exec_of_gate_trap he (gate_of_static (static_of_unavailable hr))
  · exact exec_of_gate_idle he (gate_of_noLanes (static_of_noLanes ha hl) hl)
  · exact exec_of_gate_trap he (gate_of_static ((static_of_lanes ha hl).trans (operandTrap_of_misaligned hm)))
  · exact exec_of_outside he ha hl hal ho
  · exact exec_of_gate_trap he (gate_of_static ((static_of_lanes ha hl).trans (operandTrap_of_need hr hn)))
  · exact exec_of_gate_stall he (gate_of_stalls hst hl hs)
  · obtain ⟨hc, h0, h1⟩ := nonuniform_info hn
    exact ⟨hc, h0, h1, exec_of_gate_trap he (gate_of_nonuniform hst hl hs hu hn)⟩
  · obtain ⟨hc, h0, h1⟩ := poisoned_info hp
    exact ⟨hc, h0, h1, exec_of_gate_trap he (gate_of_poisoned hst hl hs hu hp)⟩
end

section
/-! PROOF. An access that the device makes to bytes that stand at home in view 0 (R202, R221, R240): it finds them, and all
it leaves behind is what the windows of grids count. -/

namespace Sys2Proof.Machine

/-- Grids stand as they did but for their windows. -/
def GridsStand (m n : Map (Option Grid)) : Prop :=
  ∀ k, ∃ w, mapGet none n k = (mapGet none m k).map (fun g => { g with windows := w })

theorem GridsStand.refl (m : Map (Option Grid)) : GridsStand m m := fun k => by
  cases mapGet none m k with
  | none => exact ⟨[], rfl⟩
  | some g => exact ⟨g.windows, rfl⟩

theorem GridsStand.trans {m n o : Map (Option Grid)} (h : GridsStand m n) (h' : GridsStand n o) : GridsStand m o := fun k => by
  obtain ⟨w, hw⟩ := h k
  obtain ⟨x, hx⟩ := h' k
  exact ⟨x, by rw [hx, hw, Option.map_map]; rfl⟩

theorem mapGet_mapValues {α : Type} (m : Map (Option α)) (f : α → α) (k : Nat) :
    mapGet none (m.map (fun e => (e.1, e.2.map f))) k = (mapGet none m k).map f := by
  induction m with
  | nil => rfl
  | cons e m ih =>
    simp only [List.map_cons, mapGet, ih]
    split <;> rfl

/-- `s` with other grids. -/
def State.withGrids (s : State) (gs : Map (Option Grid)) : State := { s with grids := gs }

@[simp] theorem withGrids_withGrids (s : State) (gs hs : Map (Option Grid)) : (s.withGrids gs).withGrids hs = s.withGrids hs := rfl
@[simp] theorem withGrids_rdHome (s : State) (gs : Map (Option Grid)) (a v x n : Nat) :
    (s.withGrids gs).rdLoc (.home a v x) n = s.rdLoc (.home a v x) n := rfl
@[simp] theorem withGrids_homePois (s : State) (gs : Map (Option Grid)) (a v x n : Nat) :
    (s.withGrids gs).locPois (.home a v x) n = s.locPois (.home a v x) n := rfl

/-- R221: only the fade counters of windows change. -/
theorem reloadFade_only (s : State) (a va : Nat) :
    ∃ gs, s.reloadFade a va = s.withGrids gs ∧ GridsStand s.grids gs := by
  simp only [State.reloadFade]
  split
  · refine ⟨_, rfl, fun k => ?_⟩
    rw [mapGet_mapValues]
    cases mapGet none s.grids k with
    | none => exact ⟨[], rfl⟩
    | some g => exact ⟨_, rfl⟩
  · exact ⟨s.grids, rfl, .refl _⟩

theorem allowed_all (k : AccKind) : k.allowed true true = true := by
  simp [AccKind.allowed]

theorem Stands.withGrids {s : State} {a va n : Nat} (h : Stands s a va n) (gs : Map (Option Grid)) :
    Stands (s.withGrids gs) a va n := ⟨h.line, h.freed, h.calm⟩

theorem cowBusy_calm {s : State} (h : ∀ r ∈ s.reqs, r.breaks = false) (a va : Nat) : s.cowBusy a va = false := by
  simp only [State.cowBusy, List.any_eq_false]
  intro r hr
  simp [h r hr]

theorem locateFrame_hit {s : State} {a va : Nat} (k : AccKind) (b : Bool)
    (h : ∃ l, mapGet none s.l2 (lineKey a 0 va) = some l ∧ l.w = true ∧ l.x = true) :
    s.locateFrame k b a 0 va = (s, .at (.home a 0 va)) := by
  obtain ⟨l, hl, hw, hx⟩ := h
  simp [State.locateFrame, hl, hw, hx, allowed_all]

theorem locate_of_stands {s : State} {a va n : Nat} (k : AccKind) (b : Bool) (h : Stands s a va n) :
    s.locate k b a 0 va = (s.reloadFade a va, .at (.home a 0 va)) := by
  obtain ⟨gs, hs, -⟩ := reloadFade_only s a va
  have hg := h.withGrids gs
  simp only [State.locate, State.locateKey, hs, cowBusy_calm hg.calm, locateFrame_hit k b hg.line, Bool.false_eq_true, if_false]

theorem homePlace_of_stands {s : State} {a va n : Nat} (w : ReqWho) (k : AccKind) (h : Stands s a va n) :
    s.homePlace w k a va n = (s.reloadFade a va, some (.home a 0 va)) := by
  obtain ⟨gs, hs, -⟩ := reloadFade_only s a va
  simp only [State.homePlace, locate_of_stands k false h, hs, (h.withGrids gs).freed]

/-- Parts of a record that stand are read clean. -/
theorem readRecord64_of_stands {s : State} (c : Committer) {a va n : Nat}
    (h : ∀ i, i < n → Stands s a (va + 64 * i) 64 ∧ s.locPois (.home a 0 (va + 64 * i)) 64 = false) :
    ∃ gs, s.readRecord64 c a va n = (s.withGrids gs,
      some ((List.range n).map (fun i => (s.rdLoc (.home a 0 (va + 64 * i)) 64, false)))) := by
  induction n with
  | zero => exact ⟨s.grids, rfl⟩
  | succ n ih =>
    obtain ⟨gs, hgs⟩ := ih fun i hi => h i (by omega)
    obtain ⟨hst, hclean⟩ := h n (by omega)
    obtain ⟨gs', hgs', -⟩ := reloadFade_only (s.withGrids gs) a (va + 64 * n)
    refine ⟨gs', ?_⟩
    simp only [State.readRecord64, hgs, homePlace_of_stands c.who .load (hst.withGrids gs), hgs', List.range_succ, List.map_append,
      List.map_cons, List.map_nil, withGrids_homePois, withGrids_rdHome, withGrids_withGrids, hclean]

end Sys2Proof.Machine
end

section
/-! PROOF. What becomes of a queue's entry (R181, R187): the record is read where it stands, and forms a grid that is malformed
or stands. -/

namespace Sys2Proof.Machine

/-! ### A step that is due -/

@[simp] theorem due_agenda (s : State) (e : Instr) : (s.due e).agenda = s.agenda ++ [e] := rfl
@[simp] theorem due_team (s : State) (e : Instr) (k : Nat) : (s.due e).team k = s.team k := rfl

/-! ### Records become grids (R181, R187) -/

/-- A grid under a new number, before its record is checked. -/
def State.addGrid (s : State) (g : Grid) : State :=
  { s with ids := s.ids + 1, grids := mapSet none s.grids s.ids (some { g with accepted := s.ids, tableDue := true }) }

@[simp] theorem addGrid_grid (s : State) (g : Grid) :
    (s.addGrid g).grid s.ids = some { g with accepted := s.ids, tableDue := true } := by simp [State.addGrid, State.grid]

theorem addGrid_setGrid (s : State) (g : Grid) (f : Grid → Grid) :
    ((s.addGrid g).setGrid s.ids f).grid s.ids = some (f { g with accepted := s.ids, tableDue := true }) := by simp

theorem formGrid_of_reason {s : State} {g : Grid} {c : Nat} (h : recordReason g.record = some c) :
    (s.formGrid g false).1 = (s.addGrid g).malformed s.ids c := by
  simp [State.formGrid, State.fresh, h, State.addGrid]

theorem formGrid_of_noReason {s : State} {g : Grid} (h : recordReason g.record = none) :
    (s.formGrid g false).1 = (s.addGrid g).tableStep s.ids := by
  simp [State.formGrid, State.fresh, h, State.addGrid]

/-- A grid that is no replayable launch needs no view tag (R453). -/
theorem takeTag_of_notReplay {s : State} {gr : Nat} {g : Grid} (hg : s.grid gr = some g) (h : g.isReplay = false) :
    s.takeTag gr = s := by
  simp [State.takeTag, hg, h]

/-- A record without a window table, that asks for no feature, stands with no windows. -/
theorem tableStep_of_noTable {s : State} {gr : Nat} {g : Grid} (hg : s.grid gr = some g) (hd : g.tableDue = true)
    (hs : g.status = 0) (hw : s.waitsFor (.table gr) = false) (ht : recField g.record 0xB8 8 = 0)
    (hc : bitsOf (recField g.record 0 4) 8 2 = 0) :
    s.tableStep gr = s.setGrid gr (fun g => { g with windows := [], tableDue := false }) := by
  have h8 : bitsOf (recField g.record 0 4) 8 1 = 0 := by unfold bitsOf at hc ⊢; omega
  have h9 : bitsOf (recField g.record 0 4) 9 1 = 0 := by unfold bitsOf at hc ⊢; omega
  have hr : g.isReplay = false := by simp [Grid.isReplay, Grid.ctrl, h8]
  have hread : s.readWindows gr g.asid g.polder g.record = (s, some (some [])) := by simp [State.readWindows, ht, h8]
  have hset : (s.setGrid gr (fun g => { g with windows := [], tableDue := false })).grid gr =
      some { g with windows := [], tableDue := false } := by simp [hg]
  simp only [State.tableStep, hg, hd, hs, hw, hread, State.tableDone, hr, h9, takeTag_of_notReplay hset hr]
  simp

/-- The grid that the next entry of a queue forms. -/
def State.entryGrid (s : State) (p q r : Nat) : Grid :=
  let qu := (s.polder p).queue q
  let c := qu.ctl.toNat
  Grid.new r (some (p, q, qu.acc.toNat)) none (bitsOf c 12 10) p (min (bitsOf (recField r 0 4) 22 6) (bitsOf c 6 6)) 0
    (qu.ctl.getLsbD 22)

/-- The entry is accepted. -/
def State.entryTaken (s : State) (p q : Nat) : State :=
  s.setPolder p (fun x => x.setQueue q (fun y => { y with acc := y.acc + 1 }))

theorem entryTaken_acc (s : State) (p q : Nat) :
    (((s.entryTaken p q).polder p).queue q).acc = ((s.polder p).queue q).acc + 1 := by
  simp [State.entryTaken, Polder.queue, Polder.setQueue, mapMod]

theorem entryTaken_acc_of_polders {s t : State} {p q : Nat} (h : t.polders = (s.entryTaken p q).polders) :
    ((t.polder p).queue q).acc = ((s.polder p).queue q).acc + 1 := by
  rw [← entryTaken_acc, State.polder, h, State.polder]

theorem acceptEntry_eq (s : State) (p q r : Nat) :
    s.acceptEntry p q r false = ((s.entryTaken p q).formGrid (s.entryGrid p q r) false).1 := rfl

theorem acceptEntry_of_reason {s : State} {p q r y : Nat} (h : recordReason r = some y) :
    (s.acceptEntry p q r false).grid s.ids =
      some { s.entryGrid p q r with accepted := s.ids, tableDue := false, status := 2, reason := y } ∧
    (((s.acceptEntry p q r false).polder p).queue q).acc = ((s.polder p).queue q).acc + 1 := by
  have hf := formGrid_of_reason (s := s.entryTaken p q) (g := s.entryGrid p q r) h
  rw [acceptEntry_eq, hf]
  exact ⟨addGrid_setGrid (s.entryTaken p q) _ _, entryTaken_acc_of_polders rfl⟩

theorem acceptEntry_of_noTable {s : State} {p q r : Nat} (h : recordReason r = none) (ht : recField r 0xB8 8 = 0)
    (hc : bitsOf (recField r 0 4) 8 2 = 0) (hw : s.waitsFor (.table s.ids) = false) :
    (s.acceptEntry p q r false).grid s.ids = some { s.entryGrid p q r with accepted := s.ids, tableDue := false } ∧
    (((s.acceptEntry p q r false).polder p).queue q).acc = ((s.polder p).queue q).acc + 1 := by
  have hf := formGrid_of_noReason (s := s.entryTaken p q) (g := s.entryGrid p q r) h
  have hg := addGrid_grid (s.entryTaken p q) (s.entryGrid p q r)
  rw [acceptEntry_eq, hf, tableStep_of_noTable hg rfl rfl hw ht hc]
  exact ⟨addGrid_setGrid (s.entryTaken p q) _ _, entryTaken_acc_of_polders rfl⟩

theorem execRecordAccept_idle {p q : Nat} {s : State} (h : ((s.polder p).queue q).acc = ((s.polder p).queue q).prod) :
    execRecordAccept p q s = .next s := by
  simp [execRecordAccept, h]

/-- The entry's record is read where it stands, and accepted. -/
theorem execRecordAccept_of_stands {p q : Nat} {s : State} {a va : Nat} (hen : ((s.polder p).queue q).ctl.getLsbD 0 = true)
    (hne : ((s.polder p).queue q).acc ≠ ((s.polder p).queue q).prod) (hw : s.recordWaits (16 * p + q) = false)
    (ha : bitsOf ((s.polder p).queue q).ctl.toNat 12 10 = a)
    (hva : ((s.polder p).queue q).base.toNat +
      256 * (((s.polder p).queue q).acc.toNat % 2 ^ bitsOf ((s.polder p).queue q).ctl.toNat 1 5) = va)
    (hb : va + 256 ≤ tableBase)
    (h : ∀ i, i < 4 → Stands s a (va + 64 * i) 64 ∧ s.locPois (.home a 0 (va + 64 * i)) 64 = false) :
    ∃ gs, execRecordAccept p q s = .next ((s.withGrids gs).acceptEntry p q
      (joinParts ((List.range 4).map (fun i => (s.rdLoc (.home a 0 (va + 64 * i)) 64, false)))) false) := by
  obtain ⟨gs, hgs⟩ := readRecord64_of_stands (cpCommitter (.record (16 * p + q)) (gridAgent 0)) h
  have hclean : ((List.range 4).map (fun i => (s.rdLoc (.home a 0 (va + 64 * i)) 64, false))).any (fun x => x.2) = false :=
    List.any_eq_false.2 (by simp)
  refine ⟨gs, ?_⟩
  simp only [execRecordAccept, hen, hw, ha, hva, hgs, hclean, beq_eq_false_iff_ne.2 hne, Nat.not_lt.2 hb, Bool.not_true,
    Bool.or_false, Bool.false_eq_true, if_false]

end Sys2Proof.Machine
end

section
/-! PROOF. How teams retire and grids complete (R162, R188), dependences pass (R191), and a hot die sheds a gang (R199). -/

namespace Sys2Proof.Machine

/-! ### Teams retire and grids complete (R162, R188) -/

/-- A finished team without children is retired, and its grid counts it. -/
def State.teamRetired (s : State) (k : Nat) (x : Team) : State :=
  (s.setTeam k (fun x => { x with place := .retired })).setGrid x.grid (fun g =>
    { g with retiredTeams := g.retiredTeams ++ [x.lin] })

theorem execTeamRetire_of_finished {k : Nat} {s : State} {x : Team} (hx : s.team k = some x) (hp : x.place = .finished)
    (hc : x.children = []) :
    execTeamRetire k s = .next ((s.teamRetired k x).grids.foldl (fun s e => s.gridStep e.1) (s.teamRetired k x)) := by
  simp [execTeamRetire, hx, hp, hc, State.teamRetired]

theorem teamRetired_place {k : Nat} {s : State} {x : Team} (hx : s.team k = some x) :
    ((s.teamRetired k x).team k).map Team.place = some .retired := by
  have h : (s.teamRetired k x).team k = (s.setTeam k (fun x => { x with place := .retired })).team k := rfl
  simp [h, hx]

theorem teamRetired_grid (k : Nat) (s : State) (x : Team) :
    ((s.teamRetired k x).grid x.grid).map Grid.retiredTeams =
      (s.grid x.grid).map (fun g => g.retiredTeams ++ [x.lin]) := by
  have h : (s.setTeam k (fun x => { x with place := .retired })).grid x.grid = s.grid x.grid := rfl
  simp [State.teamRetired, h, Function.comp_def]

theorem execTeamRetire_of_none {k : Nat} {s : State} (h : s.team k = none) :
    execTeamRetire k s = .next (s.grids.foldl (fun s e => s.gridStep e.1) s) := by
  simp [execTeamRetire, h]

/-- A grid that has placed and retired every team, in view 0, goes on to its completion record. -/
theorem gridStep_of_complete {s : State} {gr : Nat} {g : Grid} (hg : s.grid gr = some g) (hd : g.done = false)
    (hw : s.completionWaits gr = false) (hs : g.status = 0) (ht : g.tableDue = false) (hr : g.wantReplay = false)
    (hn : g.teamCount ≤ g.next) (hl : g.teamCount ≤ g.retiredTeams.length) (hv : g.view = 0) :
    s.gridStep gr = (s.setGrid gr (fun g => { g with status := 1 })).writeCompletion gr := by
  simp [State.gridStep, hg, hd, hw, hs, ht, hr, hv, Nat.not_lt.2 hn, Nat.not_lt.2 hl]

/-- A grid without a completion address retires at once. -/
theorem writeCompletion_of_noAddress {s : State} {gr : Nat} {g : Grid} (hg : s.grid gr = some g) (hc : g.completion = 0) :
    s.writeCompletion gr = s.retireGrid gr := by
  simp [State.writeCompletion, hg, hc]

/-- With no live entry left, CONS comes up to the entries accepted (R181). -/
theorem advanceCons_of_done {s : State} {gr : Nat} {g : Grid} (p q : Nat) (hs : s.grids = [(gr, some g)]) (hd : g.done = true) :
    (((s.advanceCons p q).polder p).queue q).cons = ((s.polder p).queue q).acc := by
  cases hq : g.queue <;> simp [State.advanceCons, hs, hq, hd, leastBy, Polder.queue, Polder.setQueue, mapMod]

@[simp] theorem advanceCons_grids (s : State) (p q : Nat) : (s.advanceCons p q).grids = s.grids := rfl

/-- A change of the only grid. -/
theorem setGrid_lone {s : State} {gr : Nat} {g : Grid} (h : s.grids = [(gr, some g)]) (f : Grid → Grid) :
    (s.setGrid gr f).grids = [(gr, some (f g))] := by
  simp [State.setGrid, h, mapMod, mapGet, mapSet, mapPut]

theorem retireGrid_grids {s : State} {gr : Nat} {g : Grid} (hg : s.grid gr = some g) (hv : g.view = 0)
    (h1 : g.status = 1) (hp : g.parent = none) :
    (s.retireGrid gr).grids = (s.setGrid gr (fun g => { g with done := true })).grids := by
  cases hq : g.queue <;> simp only [State.retireGrid, hg, hv, h1, hp, hq, if_true, advanceCons_grids]

/-- The only grid, completed under view 0 without a parent, releases its queue entry. -/
theorem retireGrid_cons {s : State} {gr p q i : Nat} {g : Grid} (hs : s.grids = [(gr, some g)]) (hv : g.view = 0)
    (h1 : g.status = 1) (hp : g.parent = none) (hq : g.queue = some (p, q, i)) :
    (((s.retireGrid gr).polder p).queue q).cons = ((s.polder p).queue q).acc := by
  have hg : s.grid gr = some g := by simp [State.grid, hs, mapGet]
  have hd := setGrid_lone hs (fun g => { g with done := true })
  simp only [State.retireGrid, hg, hv, h1, hp, hq, if_true]
  exact advanceCons_of_done p q hd rfl

/-- The only grid, complete, without a completion address or a parent (R162, R188). -/
theorem execTeamRetire_lone {k gr : Nat} {s : State} {g : Grid} (hs : s.grids = [(gr, some g)]) (hk : s.team k = none)
    (hd : g.done = false) (hw : s.completionWaits gr = false) (h0 : g.status = 0) (ht : g.tableDue = false)
    (hr : g.wantReplay = false) (hn : g.teamCount ≤ g.next) (hl : g.teamCount ≤ g.retiredTeams.length) (hv : g.view = 0)
    (hc : g.completion = 0) (hp : g.parent = none) :
    ∃ t, execTeamRetire k s = .next t ∧ t.grid gr = some { g with status := 1, done := true } ∧
      ∀ p q i, g.queue = some (p, q, i) → ((t.polder p).queue q).cons = ((s.polder p).queue q).acc := by
  have hg : s.grid gr = some g := by simp [State.grid, hs, mapGet]
  have h1 := setGrid_lone hs (fun g => { g with status := 1 })
  have hg1 : (s.setGrid gr (fun g => { g with status := 1 })).grid gr = some { g with status := 1 } := by simp [hg]
  have hgrids := (retireGrid_grids hg1 hv rfl hp).trans (setGrid_lone h1 _)
  refine ⟨_, execTeamRetire_of_none hk, ?_⟩
  simp only [hs, List.foldl_cons, List.foldl_nil, gridStep_of_complete hg hd hw h0 ht hr hn hl hv,
    writeCompletion_of_noAddress hg1 hc]
  exact ⟨by simp [State.grid, hgrids, mapGet], fun p q i hq => retireGrid_cons h1 hv rfl hp hq⟩

/-! ### Dependences (R191) -/

theorem hbTakeAll_only (s : State) (a sc : Nat) (rs : List SyncRec) : ∃ r, s.hbTakeAll a sc rs = { s with race := r } := by
  unfold State.hbTakeAll
  generalize rs.filter (fun r => s.syncs r a sc) = xs
  induction xs generalizing s with
  | nil => exact ⟨s.race, rfl⟩
  | cons x xs ih =>
    obtain ⟨r, hr⟩ := ih (s.hbTake a x.clock)
    exact ⟨r, hr⟩

theorem hbAcquire_grid (s : State) (a : Nat) (ws : List Nat) (sc k : Nat) : (s.hbAcquire a ws sc).grid k = s.grid k := by
  obtain ⟨r, hr⟩ := hbTakeAll_only s a sc (s.syncAt ws)
  rw [State.hbAcquire, hr]
  rfl

section dependence
variable {s : State} {gr : Nat} {g : Grid}

/-- What the scheduler does with a dependence weir that stands clean (R191). -/
theorem execDepWeirObserve_of_stands (hg : s.grid gr = some g) (hdep : g.hasDep = true) (hnot : g.depPassed = false)
    (hd : g.done = false) (h0 : g.status = 0) (hw : s.completionWaits gr = false) (hb : g.field 0x30 8 + 16 ≤ tableBase)
    (hst : Stands s g.asid (g.field 0x30 8) 16) (hc : s.locPois (.home g.asid 0 (g.field 0x30 8)) 16 = false) :
    execDepWeirObserve gr s = .next
      (if passed (s.rdWeir (.home g.asid 0 (g.field 0x30 8))).phase (g.field 0x38 4) = true
        then ((s.reloadFade g.asid (g.field 0x30 8)).setGrid gr (fun g => { g with depPassed := true })).hbAcquire (gridAgent gr)
          ((Loc.home g.asid 0 (g.field 0x30 8)).words 16) 5
        else s.reloadFade g.asid (g.field 0x30 8)) := by
  obtain ⟨gs, hgs, -⟩ := reloadFade_only s g.asid (g.field 0x30 8)
  have hwe : (s.withGrids gs).rdWeir (.home g.asid 0 (g.field 0x30 8)) = s.rdWeir (.home g.asid 0 (g.field 0x30 8)) := rfl
  cases hgone : passed (s.rdWeir (.home g.asid 0 (g.field 0x30 8))).phase (g.field 0x38 4) <;>
    simp [execDepWeirObserve, hg, hdep, hnot, hd, h0, hw, homePlace_of_stands _ _ hst, hgs, hc, hwe, Nat.not_lt.2 hb, hgone]

/-- A dependence that passes is noted in its grid, whose windows may have counted the access. -/
theorem dependence_noted (hg : s.grid gr = some g) (a va : Nat) (ws : List Nat) :
    ∃ w, (((s.reloadFade a va).setGrid gr (fun g => { g with depPassed := true })).hbAcquire (gridAgent gr) ws 5).grid gr =
      some { g with depPassed := true, windows := w } := by
  obtain ⟨gs, hgs, hstand⟩ := reloadFade_only s a va
  obtain ⟨w, hw⟩ := hstand gr
  have hg' : (s.withGrids gs).grid gr = some { g with windows := w } :=
    hw.trans (congrArg (Option.map fun g => { g with windows := w }) hg)
  exact ⟨w, by simp [hbAcquire_grid, hgs, hg']⟩

end dependence

/-! ### Orders of lists -/

theorem mem_insertBy {α : Type} {key : α → Nat} {x y : α} {xs : List α} : y ∈ insertBy key x xs ↔ y = x ∨ y ∈ xs := by
  induction xs with
  | nil => simp [insertBy]
  | cons z zs ih =>
    simp only [insertBy]
    split
    · simp
    · simp only [List.mem_cons, ih]
      tauto

theorem mem_sortBy {α : Type} {key : α → Nat} {y : α} {xs : List α} : y ∈ sortBy key xs ↔ y ∈ xs := by
  have h : ∀ acc : List α, y ∈ xs.foldl (fun acc x => insertBy key x acc) acc ↔ y ∈ acc ∨ y ∈ xs := by
    induction xs with
    | nil => simp
    | cons x xs ih =>
      intro acc
      rw [List.foldl_cons, ih, mem_insertBy, List.mem_cons]
      tauto
  simpa [sortBy] using h []

/-! ### Teams marked one after the other -/

/-- The teams `ks`, each changed by `f`. -/
def State.markTeams (s : State) (f : Nat → Team → Team) (ks : List Nat) : State := ks.foldl (fun u k => u.setTeam k (f k)) s

/-- Each team named is marked; a second mark changes nothing. -/
theorem markTeams_team {f : Nat → Team → Team} (hf : ∀ k x, f k (f k x) = f k x) (ks : List Nat) (s : State) (j : Nat) :
    (s.markTeams f ks).team j = if j ∈ ks then (s.team j).map (f j) else s.team j := by
  unfold State.markTeams
  induction ks generalizing s with
  | nil => simp
  | cons k ks ih =>
    rw [List.foldl_cons, ih]
    by_cases hj : j = k
    · subst hj
      by_cases hm : j ∈ ks <;> simp [hm, Function.comp_def, hf]
    · simp [hj]

theorem markTeams_team_of_mem {f : Nat → Team → Team} (hf : ∀ k x, f k (f k x) = f k x) {ks : List Nat} {s : State} {j : Nat}
    {y : Team} (hj : j ∈ ks) (hy : s.team j = some y) : (s.markTeams f ks).team j = some (f j y) := by
  rw [markTeams_team hf, if_pos hj, hy, Option.map_some]

theorem markTeams_agenda (f : Nat → Team → Team) (ks : List Nat) (s : State) : (s.markTeams f ks).agenda = s.agenda := by
  unfold State.markTeams
  induction ks generalizing s with
  | nil => rfl
  | cons k ks ih => exact ih (s.setTeam k (f k))

/-! ### Thermal moves (R199) -/

/-- A team that is to leave for die `e`. -/
def Team.sentTo (x : Team) (e : Option Nat) : Team := { x with dest := e }

/-- A gang may leave a hot die: it has been resident for 250,000 ticks, is available, and some other die has room. -/
structure State.MayMove (s : State) (d : Nat) (ts : List Nat) : Prop where
  old : ∀ j ∈ ts, s.placedAt j + 250000 ≤ s.tick
  available : s.available ts = true
  room : (s.coolDie d ts).isSome = true

theorem mayMove_iff {s : State} {d : Nat} {ts : List Nat} :
    (ts.all (fun t => s.placedAt t + 250000 ≤ s.tick) && s.available ts && (s.coolDie d ts).isSome) = true ↔ s.MayMove d ts := by
  simp only [Bool.and_eq_true, List.all_eq_true, decide_eq_true_eq]
  exact ⟨fun ⟨⟨ho, ha⟩, hr⟩ => ⟨ho, ha, hr⟩, fun h => ⟨⟨h.old, h.available⟩, h.room⟩⟩

theorem execThermalMigration_cool {d : Nat} {s : State} (h : s.dieTemp d < s.thermAt d 0) :
    execThermalMigration d s = .next s := by
  simp [execThermalMigration, h]

/-- Of the gangs on a hot die that may move, one does. -/
theorem execThermalMigration_hot {d k c : Nat} {s : State} {x : Team} (h : s.thermAt d 0 ≤ s.dieTemp d)
    (hk : (k, some x) ∈ s.teams) (hx : x.place = .resident c) (hc : c / 32 = d) (hm : s.MayMove d (s.gangOf k)) :
    ∃ ts, s.MayMove d ts ∧ execThermalMigration d s = .next
      ((s.markTeams (fun _ x => x.sentTo (s.coolDie d ts)) ts).due (.teamSave (ts.headD 0))) := by
  simp only [execThermalMigration, if_neg (Int.not_lt.2 h)]
  split
  · next hnone =>
    refine absurd (mayMove_iff.2 hm) (List.find?_eq_none.1 hnone (s.gangOf k) ?_)
    rw [List.mem_eraseDups, List.mem_map]
    refine ⟨k, mem_sortBy.2 (List.mem_filterMap.2 ⟨(k, some x), hk, ?_⟩), rfl⟩
    simp [hx, hc]
  · next ts hts =>
    have hfound := List.find?_some hts
    exact ⟨ts, mayMove_iff.1 hfound, rfl⟩

/-- A thermal move in the words of R199: who leaves, and where its teams go. -/
theorem execThermalMigration_moves {d k c : Nat} {s : State} {x : Team} (h : s.thermAt d 0 ≤ s.dieTemp d)
    (hk : (k, some x) ∈ s.teams) (hx : x.place = .resident c) (hc : c / 32 = d) (hm : s.MayMove d (s.gangOf k)) :
    ∃ ts t, s.MayMove d ts ∧ execThermalMigration d s = .next t ∧ t.agenda = s.agenda ++ [.teamSave (ts.headD 0)] ∧
      ∀ j ∈ ts, ∀ y, s.team j = some y → t.team j = some (y.sentTo (s.coolDie d ts)) := by
  obtain ⟨ts, hts, he⟩ := execThermalMigration_hot h hk hx hc hm
  refine ⟨ts, _, hts, he, ?_, fun j hj y hy => ?_⟩
  · rw [due_agenda, markTeams_agenda]
  · exact markTeams_team_of_mem (f := fun _ x => x.sentTo (s.coolDie d ts)) (fun _ _ => rfl) hj hy

end Sys2Proof.Machine
end

section
/-! PROOF. When a team leaves its core for flash (R382): the Reads it waits for do not depend on what teams are. -/

namespace Sys2Proof.Machine

theorem tableRead_none (s : State) (off : Nat) :
    s.tableRead none off = (s, some (s.ld 0 0 (tableBase + off) 16, (lineKey 0 0 (tableBase + off), 0))) := rfl

/-! #### Translation without trace does not look at teams -/

section congr
variable {s t : State}

theorem ld_congr (hm : t.mem = s.mem) (a v va n : Nat) : t.ld a v va n = s.ld a v va n := by
  simp only [State.ld, hm]

theorem feat_congr (hd : t.dev = s.dev) (n : Nat) : t.feat n = s.feat n := by
  simp only [State.feat, hd]

/-- A walk without trace depends on the entries it reads and on feature 7 alone. -/
theorem walkFrom_congr (hm : t.mem = s.mem) (hd : t.dev = s.dev) (c : Bool) (a va : Nat) :
    ∀ l n ls ws, (t.walkFrom none c a va l n ls ws).2 = (s.walkFrom none c a va l n ls ws).2 := by
  intro l
  induction l with
  | zero =>
    intro n ls ws
    unfold State.walkFrom
    simp only [tableRead_none, Option.bind_none, ite_self, ld_congr hm, feat_congr hd]
    split
    · rfl
    · generalize entType (s.ld 0 0 _ 16) = k
      match k with
      | 0 | 1 | 2 | 3 | _ + 4 => rfl
  | succ l ih =>
    intro n ls ws
    unfold State.walkFrom
    simp only [tableRead_none, Option.bind_none, ite_self, ld_congr hm, feat_congr hd]
    split
    · rfl
    · generalize entType (s.ld 0 0 _ 16) = k
      match k with
      | 1 => exact ih ..
      | 0 | 2 | 3 | _ + 4 => rfl

theorem walkRaw_congr (hm : t.mem = s.mem) (hd : t.dev = s.dev) (a va : Nat) : t.walkRaw a va = s.walkRaw a va := by
  have honce : (t.walkOnce none true a va).2 = (s.walkOnce none true a va).2 := by
    simp only [State.walkOnce, tableRead_none, ld_congr hm]
    split
    · rfl
    · split
      · rfl
      · exact walkFrom_congr hm hd ..
  simpa [State.walkRaw, State.walkTo] using honce

theorem chainFind_congr (hf : t.frames = s.frames) (st a v x : Nat) :
    ∀ n f, t.chainFind st a v x n f = s.chainFind st a v x n f
  | 0, _ => rfl
  | n + 1, f => by
    have hfr : t.frame (frameKey st f) = s.frame (frameKey st f) := by simp only [State.frame, hf]
    unfold State.chainFind
    rw [hfr]
    simp only [chainFind_congr hf st a v x n]

theorem stackOf_congr (hp : t.polders = s.polders) (a va : Nat) : t.stackOf a va = s.stackOf a va := by
  simp only [State.stackOf, State.pwin, State.polderOf, State.polder, hp]

theorem findFrame_congr (hf : t.frames = s.frames) (ha : t.anchors = s.anchors) (st a v va : Nat) :
    t.findFrame st a v va = s.findFrame st a v va := by
  simp only [State.findFrame, State.anchor, hf, ha, chainFind_congr hf]

theorem homeKey_congr (hm : t.mem = s.mem) (hd : t.dev = s.dev) (hp : t.polders = s.polders) (hf : t.frames = s.frames)
    (ha : t.anchors = s.anchors) (a v va : Nat) : t.homeKey a v va = s.homeKey a v va := by
  simp only [State.homeKey, stackOf_congr hp, findFrame_congr hf ha, walkRaw_congr hm hd]
end congr

theorem setTeam_homeKey (s : State) (k : Nat) (f : Team → Team) (a v va : Nat) :
    (s.setTeam k f).homeKey a v va = s.homeKey a v va :=
  homeKey_congr (s := s) (t := s.setTeam k f) rfl rfl rfl rfl rfl a v va

theorem setTeam_readsOf (s : State) (k j : Nat) (f : Team → Team) : (s.setTeam k f).readsOf j = s.readsOf j := by
  simp only [State.readsOf, setTeam_homeKey]
  rfl

theorem setTeam_teamReads (s : State) (k j : Nat) (f : Team → Team) : (s.setTeam k f).teamReads j = s.teamReads j := by
  simp only [State.teamReads, setTeam_readsOf]
  rfl

/-- A team that waits for Reads. -/
def Team.waitingFor (x : Team) (rs : List Nat) : Team := { x with waits := rs }

/-- The Reads on which a team waits are the same before and after its gang is marked. -/
theorem foldl_teamReads (ks : List Nat) (s u : State) (h : ∀ j, u.teamReads j = s.teamReads j) :
    ks.foldl (fun u k => u.setTeam k (fun x => { x with waits := u.teamReads k })) u =
      u.markTeams (fun k x => x.waitingFor (s.teamReads k)) ks := by
  unfold State.markTeams
  induction ks generalizing u with
  | nil => simp only [List.foldl_nil]
  | cons k ks ih =>
    have h' : ∀ j, (u.setTeam k (fun x => x.waitingFor (s.teamReads k))).teamReads j = s.teamReads j :=
      fun j => (setTeam_teamReads u k j _).trans (h j)
    simp only [List.foldl_cons, h k]
    exact ih _ h'

/-- R382: a team none of whose groups keeps it on its core, with a Read that takes long, leaves with its gang. -/
theorem execFlashSwapOut_swaps {k c : Nat} {s : State} {x : Team} (hx : s.team k = some x) (hp : x.place = .resident c)
    (hw : ∀ e ∈ s.teamGroups k, e.2.waitsAlone = true)
    (hr : ∃ r ∈ (s.teamGroups k).flatMap (fun e => s.readsOf e.1), r.sent = true ∧
      s.swapThreshold (((s.teamGroups k).head?.map (fun e => e.2.asid)).getD 0) ≤ r.expected) :
    execFlashSwapOut k s =
      .next ((s.markTeams (fun j x => x.waitingFor (s.teamReads j)) (s.gangOf k)).due (.teamSave k)) := by
  have hall : (s.teamGroups k).all (fun e => e.2.waitsAlone) = true := List.all_eq_true.2 hw
  have hany : ((s.teamGroups k).flatMap (fun e => s.readsOf e.1)).any (fun r => r.sent &&
      decide (s.swapThreshold (((s.teamGroups k).head?.map (fun e => e.2.asid)).getD 0) ≤ r.expected)) = true := by
    obtain ⟨r, hmem, hsent, hlong⟩ := hr
    exact List.any_eq_true.2 ⟨r, hmem, by simp [hsent, hlong]⟩
  simp only [execFlashSwapOut, hx, hp, hall, hany, Bool.and_self, if_true, foldl_teamReads _ s s (fun _ => rfl)]

end Sys2Proof.Machine
end

section
/-! PROOF. How a gang of one is placed (R147, R150, R156): nothing that its groups, registers and handler words need touches
another team, or of a grid more than its windows. -/

namespace Sys2Proof.Machine

/-! ### What leaves teams and grids as they stand -/

/-- Teams stand as they did, and grids but for their windows. -/
structure TeamsStand (s t : State) : Prop where
  teams : t.teams = s.teams
  grids : GridsStand s.grids t.grids

theorem TeamsStand.of_eq {s t : State} (ht : t.teams = s.teams) (hg : t.grids = s.grids) : TeamsStand s t :=
  ⟨ht, hg ▸ GridsStand.refl _⟩

theorem TeamsStand.refl (s : State) : TeamsStand s s := .of_eq rfl rfl

theorem TeamsStand.trans {s t u : State} (h : TeamsStand s t) (k : TeamsStand t u) : TeamsStand s u :=
  ⟨k.teams.trans h.teams, h.grids.trans k.grids⟩

/-- Neither teams nor grids change before, or after, what is known to leave them. -/
theorem TeamsStand.after {s t u : State} (h : TeamsStand t u) (ht : t.teams = s.teams) (hg : t.grids = s.grids) :
    TeamsStand s u := (TeamsStand.of_eq ht hg).trans h

theorem TeamsStand.andThen {s t u : State} (h : TeamsStand s t) (hu : u.teams = t.teams) (hg : u.grids = t.grids) :
    TeamsStand s u := h.trans (.of_eq hu hg)

theorem TeamsStand.foldl {α : Type} {f : State → α → State} (hf : ∀ s x, TeamsStand s (f s x)) :
    ∀ (xs : List α) (s : State), TeamsStand s (xs.foldl f s)
  | [], s => .refl s
  | x :: xs, s => (hf s x).trans (TeamsStand.foldl hf xs (f s x))

theorem TeamsStand.foldlFst {α β : Type} {f : State × β → α → State × β} (hf : ∀ b x, TeamsStand b.1 (f b x).1) :
    ∀ (xs : List α) (b : State × β), TeamsStand b.1 (xs.foldl f b).1
  | [], b => .refl b.1
  | x :: xs, b => (hf b x).trans (TeamsStand.foldlFst hf xs (f b x))

/-! #### Level-2 lines and walks -/

theorem dropLine_stands (s : State) (lk : Nat) : TeamsStand s (s.dropLine lk) := by
  unfold State.dropLine
  extract_lets words u v
  have hu : TeamsStand s u := TeamsStand.foldl (fun b e => by split <;> exact .of_eq rfl rfl) words s
  split <;> exact hu.andThen rfl rfl

theorem evictLine_stands (s : State) (lk : Nat) : TeamsStand s (s.evictLine lk) := by
  unfold State.evictLine
  extract_lets a v u
  split
  · exact (dropLine_stands s lk).trans (TeamsStand.foldl (fun _ _ => by exact .of_eq rfl rfl) (List.range 4) u)
  · exact dropLine_stands s lk

theorem choose_stands (s : State) (n : Nat) : TeamsStand s (s.choose n).1 := .of_eq rfl rfl

theorem makeRoom_stands (s : State) (lk : Nat) : TeamsStand s (s.makeRoom lk) := by
  unfold State.makeRoom
  dsimp only
  split
  · exact .refl s
  · split
    · exact .refl s
    · split
      · exact .refl s
      · split
        · exact (choose_stands s _).trans (evictLine_stands _ _)
        · exact choose_stands s _

theorem addLine_stands (s : State) (lk : Nat) (w x : Bool) : TeamsStand s (s.addLine lk w x) := by
  unfold State.addLine
  split
  · exact .refl s
  · exact (makeRoom_stands s lk).andThen rfl rfl

theorem tableLine_stands (s : State) (va : Nat) : TeamsStand s (s.tableLine va).1 := by
  unfold State.tableLine
  dsimp only
  split
  · exact .refl s
  · split
    · exact (addLine_stands (s.countAccess _) _ _ _).after rfl rfl
    · split
      · exact .refl s
      · exact (addLine_stands (s.giveTable _ _ _) _ _ _).after rfl rfl

theorem tableRead_stands (s : State) (st : Option Nat) (off : Nat) : TeamsStand s (s.tableRead st off).1 := by
  cases st with
  | none => exact .refl s
  | some st =>
    have h := tableLine_stands s (tableBase + off)
    unfold State.tableRead
    dsimp only
    split
    · next heq => rw [heq] at h; exact h
    · next heq =>
      rw [heq] at h
      split
      · exact h
      · exact h.andThen rfl rfl

/-- One level of a walk: what is left to show is about the levels below. -/
theorem walkFrom_stands_of_below (st : Option Nat) (c : Bool) (a va l : Nat)
    (below : ∀ m, l = m + 1 → ∀ (s : State) n ls ws, TeamsStand s (s.walkFrom st c a va m n ls ws).1)
    (s : State) (n : Nat) (ls : List (Nat × Nat)) (ws : List WalkEntry) :
    TeamsStand s (s.walkFrom st c a va l n ls ws).1 := by
  unfold State.walkFrom
  extract_lets off hit
  split
  next u got hu =>
    have h : TeamsStand s u := by
      have hr := tableRead_stands s st off
      clear_value hit
      cases hit with
      | some w =>
        cases hu
        exact .refl s
      | none =>
        dsimp only at hu
        split at hu <;> next heq =>
          cases hu
          rw [heq] at hr
          exact hr
    split
    · exact h
    · split
      · exact h
      · extract_lets steps
        split
        case h_2 => exact h.trans (below _ rfl _ _ _ _)
        all_goals exact h

theorem walkFrom_stands (st : Option Nat) (c : Bool) (a va l : Nat) :
    ∀ (s : State) (n : Nat) ls ws, TeamsStand s (s.walkFrom st c a va l n ls ws).1 := by
  induction l with
  | zero => exact walkFrom_stands_of_below st c a va 0 (fun _ h => nomatch h)
  | succ l ih => exact walkFrom_stands_of_below st c a va (l + 1) (fun m h => by cases h; exact ih)

theorem walkOnce_stands (s : State) (st : Option Nat) (c : Bool) (a va : Nat) : TeamsStand s (s.walkOnce st c a va).1 := by
  have h := tableRead_stands s st (16 * a)
  unfold State.walkOnce
  extract_lets addr
  split
  · next heq =>
    rw [heq] at h
    exact h
  · next heq =>
    rw [heq] at h
    split
    · exact h
    · split
      · exact h
      · exact h.trans (walkFrom_stands ..)

theorem cacheStep_stands (s : State) (w : WalkEntry) : TeamsStand s (s.cacheStep w) := .of_eq rfl rfl

theorem walkTo_stands (s : State) (st : Option Nat) (a va : Nat) : TeamsStand s (s.walkTo st a va).1 := by
  have h := walkOnce_stands s st true a va
  unfold State.walkTo
  split
  next u w hu =>
    rw [hu] at h
    split
    next v x hv =>
      refine TeamsStand.trans ?_ (TeamsStand.foldl cacheStep_stands x.steps v)
      split at hv
      · cases hv
        exact h
      · have h' := walkOnce_stands u st false a va
        rw [hv] at h'
        exact h.trans h'

theorem walkSubs_stands (s : State) (fk : Nat) (e : Frame) (m : BitVec 16) : TeamsStand s (s.walkSubs fk e m).1 := by
  unfold State.walkSubs
  refine TeamsStand.foldlFst (fun b i => ?_) _ (s, [])
  exact walkTo_stands b.1 _ _ _

/-! #### Translation -/

theorem permWalk_stands (s : State) (st f : Nat) (k : AccKind) (a va : Nat) : TeamsStand s (s.permWalk st f k a va).1 := by
  have hw := walkTo_stands s (some st) a va
  unfold State.permWalk
  extract_lets e
  split
  · exact .refl s
  · split
    next u w hu =>
      rw [hu] at hw
      split
      · have hs := walkSubs_stands u (frameKey st f) e e.sub
        split
        next v ws hv =>
          rw [hv] at hs
          exact (hw.trans hs).andThen rfl rfl
      · exact hw

theorem locateFrame_stands (s : State) (k : AccKind) (b : Bool) (a v va : Nat) :
    TeamsStand s (s.locateFrame k b a v va).1 := by
  unfold State.locateFrame
  extract_lets lk hit st
  split
  · exact .refl s
  · split
    · exact .refl s
    · next f _ =>
      extract_lets fk e
      split
      · exact .refl s
      · split
        · exact .refl s
        · have hp := permWalk_stands s st f k a va
          split
          next u ok hu =>
            rw [hu] at hp
            split
            · exact hp
            · split
              · exact hp
              · split
                · exact hp.trans ((addLine_stands (u.countAccess fk) _ _ _).after rfl rfl)
                · dsimp only
                  split <;> exact hp.andThen rfl rfl

theorem locateHost_stands (s : State) (k : AccKind) (p h : Nat) : TeamsStand s (s.locateHost k p h).1 := by
  unfold State.locateHost
  extract_lets b
  split
  · split
    · split
      · exact .refl s
      · exact .of_eq rfl rfl
    · split
      · exact .refl s
      · exact .of_eq rfl rfl
  · exact .refl s

theorem locateKey_stands (s : State) (k : AccKind) (b : Bool) (a v va : Nat) : TeamsStand s (s.locateKey k b a v va).1 := by
  have hf := locateFrame_stands s k b a v va
  unfold State.locateKey
  split
  · next u hu =>
    rw [hu] at hf
    split
    · split
      · exact hf
      · exact hf.trans (locateHost_stands u _ _ _)
    · dsimp only
      split <;> exact hf
    · exact hf
  · exact hf

theorem reloadFade_stands (s : State) (a va : Nat) : TeamsStand s (s.reloadFade a va) := by
  obtain ⟨gs, hs, hg⟩ := reloadFade_only s a va
  rw [hs]
  exact ⟨rfl, hg⟩

theorem locate_stands (s : State) (k : AccKind) (b : Bool) (a v va : Nat) : TeamsStand s (s.locate k b a v va).1 := by
  have hr := reloadFade_stands s a va
  unfold State.locate
  extract_lets u
  split
  · exact hr
  · have hk := hr.trans (locateKey_stands u k b a v va)
    split
    · next w hw =>
      rw [hw] at hk
      split
      · split
        · exact hk
        · exact hk.trans (locateKey_stands w _ _ _ _ _)
      · exact hk
    · exact hk

/-! #### The handler word of a group (R394) -/

theorem modG_stands (s : State) (k : Nat) (f : Group → Group) : TeamsStand s (s.modG k f) :=
  .of_eq (modG_teams s k f) (modG_grids s k f)

theorem putG_stands (s : State) (k : Nat) (g : Group) : TeamsStand s (s.putG k g) := by
  unfold State.putG
  split <;> exact .of_eq rfl rfl

theorem newReq_stands (s : State) (a v va : Nat) (k : AccKind) (hint : Nat) (w : ReqWho) (st : ReqState) (d : Stamp) :
    TeamsStand s (s.newReq a v va k hint w st d) := .of_eq rfl rfl

theorem addReq_stands (s : State) (a v va : Nat) (k : AccKind) (hint : Nat) (w : ReqWho) (st : ReqState) :
    TeamsStand s (s.addReq a v va k hint w st) := by
  unfold State.addReq
  extract_lets d
  split
  · extract_lets same
    split
    · exact .of_eq rfl rfl
    · exact newReq_stands ..
  · exact newReq_stands ..
  · split
    · exact .refl s
    · exact newReq_stands ..

theorem handlerRead_stands (s : State) (k : Nat) : TeamsStand s (s.handlerRead k).1 := by
  unfold State.handlerRead
  split
  · exact .refl s
  · next g _ =>
    extract_lets a act take ky
    split
    · exact .refl s
    · split
      · split <;> exact .refl s
      · have h := locate_stands s .load false ky.1 ky.2 a
        split <;> next u _ hu =>
          rw [hu] at h
          exact h

theorem readHandler_stands (s : State) (k : Nat) : TeamsStand s (s.readHandler k) := by
  have h := handlerRead_stands s k
  unfold State.readHandler
  split
  · next u w hu =>
    rw [hu] at h
    exact h.trans (modG_stands ..)
  · next u st hu =>
    rw [hu] at h
    split
    · exact h
    · exact h.trans ((modG_stands ..).trans (addReq_stands ..))

/-! #### A team's scratchpad, rows and groups -/

theorem wrByte_stands (s : State) (l : Loc) (i : Nat) (b : Byte) : TeamsStand s (s.wrByte l i b) := by
  cases l with
  | reg k x => exact modG_stands ..
  | _ => exact .of_eq rfl rfl

theorem wrLoc_stands (s : State) (l : Loc) (n x : Nat) : TeamsStand s (s.wrLoc l n x) := by
  have h : ∀ (bs : List Byte) (s : State) i, TeamsStand s (s.wrBytesFrom l i bs) := by
    intro bs
    induction bs with
    | nil => exact fun s _ => .refl s
    | cons b bs ih => exact fun s i => (wrByte_stands s l i b).trans (ih _ _)
  exact h _ s 0

theorem stampWords_stands (s : State) (d : Nat) (l : Loc) (n : Nat) : TeamsStand s (s.stampWords d l n) := by
  cases l with
  | home a v x =>
    unfold State.stampWords
    dsimp only
    split
    · exact .refl s
    · exact TeamsStand.foldl (fun _ _ => by exact .of_eq rfl rfl) _ s
  | _ => exact .refl s

theorem plainWrite_stands (s : State) (d : Nat) (l : Loc) (n : Nat) : TeamsStand s (s.plainWrite d l n) := by
  have h := stampWords_stands s d l n
  unfold State.plainWrite
  extract_lets u
  split
  · exact h
  · exact h.trans (TeamsStand.foldl (fun _ _ => by exact .of_eq rfl rfl) _ u)

theorem setRings_stands (s : State) (t : Team) (r : Nat) : TeamsStand s (s.setRings t r) := by
  unfold State.setRings
  refine TeamsStand.foldl (fun u d => TeamsStand.foldl (fun v i => ?_) _ u) _ s
  exact (wrLoc_stands ..).trans (plainWrite_stands ..)

theorem takeRows_stands (s : State) (c n : Nat) : TeamsStand s (s.takeRows c n).1 := by
  unfold State.takeRows
  extract_lets held fits
  split
  · exact .of_eq rfl rfl
  · split
    next u b hu =>
      have h := TeamsStand.foldlFst (f := fun (acc : State × Nat) (h : Nat × Nat × Nat) =>
        ((acc.1.dropRows c acc.2 h.2.2).modG h.1 (fun g => { g with rowBase := acc.2 }), acc.2 + h.2.2))
        (fun b x => (modG_stands (b.1.dropRows c b.2 x.2.2) x.1 _).after rfl rfl) (sortBy (fun h => h.2.1) held) (s, 0)
      rw [hu] at h
      exact h.andThen rfl rfl

theorem freshMatrix_stands (s : State) (c : Nat) : TeamsStand s (s.freshMatrix c) := .of_eq rfl rfl

theorem hbEdge_stands (s : State) (x y : Nat) : TeamsStand s (s.hbEdge x y) :=
  .of_eq (by simp only [State.hbEdge, State.hbTick, State.hbTake]) (by simp only [State.hbEdge, State.hbTick, State.hbTake])

theorem l1Drop_stands (s : State) (c : Nat) (p : L1Block → Bool) : TeamsStand s (s.l1Drop c p) := .of_eq rfl rfl

/-! ### A gang of one is placed (R147, R150, R156) -/

/-- What a team is as it is placed: of its grid, in its turn, on its core. -/
structure PlacedAs (gr : Nat) (g : Grid) (lin core : Nat) (x : Team) : Prop where
  grid : x.grid = gr
  lin : x.lin = lin
  place : x.place = .resident core
  groups : x.nGroups = g.groupCount
  scratch : x.scratch = 4096 * g.scratchUnits

theorem takePieces_stands (s : State) (c n : Nat) : TeamsStand s (s.takePieces c n).1 := .of_eq rfl rfl

/-- Team `k` is `x`. -/
def State.putTeam (s : State) (k : Nat) (x : Team) : State := { s with teams := mapSet none s.teams k (some x) }

theorem TeamsStand.putTeam {s t : State} (h : TeamsStand s t) (k : Nat) (x : Team) :
    TeamsStand (s.putTeam k x) (t.putTeam k x) :=
  ⟨congrArg (fun m => mapSet none m k (some x)) h.teams, h.grids⟩

/-- The new team stands under the next number; the other teams, and grids but for their windows, are as they were. -/
theorem placeTeam_team (s : State) (gr : Nat) (g : Grid) (lin core : Nat) :
    ∃ x, PlacedAs gr g lin core x ∧ TeamsStand (s.putTeam s.ids x) (s.placeTeam gr g lin core) := by
  unfold State.placeTeam
  extract_lets n
  split
  next u t hu =>
    obtain ⟨rfl, rfl⟩ := Prod.mk.inj hu
    split
    next v ps hv =>
      extract_lets tm s1 s2 s3 s4
      refine ⟨tm, ⟨rfl, rfl, rfl, rfl, rfl⟩, ?_⟩
      have h0 : TeamsStand s v := by
        have h := takePieces_stands { s with ids := s.ids + 1 } core g.scratchUnits
        rw [hv] at h
        exact h.after rfl rfl
      have h1 : TeamsStand (s.putTeam s.ids tm) s1 := (h0.putTeam s.ids tm).trans (setRings_stands ..)
      have h2 : TeamsStand s1 s2 := by
        unfold s2
        split
        · exact freshMatrix_stands ..
        · exact .refl s1
      have h4 : TeamsStand s3 s4 := by
        refine TeamsStand.foldl (fun w k => ?_) (List.range n) s3
        split
        · exact .refl w
        · next r _ =>
          have h := takeRows_stands w core (roleRegs r.2.1)
          split
          next w' row hw =>
            rw [hw] at h
            exact h.trans ((putG_stands ..).trans (hbEdge_stands ..))
      exact ((h1.trans h2).trans (l1Drop_stands ..)).trans (h4.trans (TeamsStand.foldl (fun _ _ => readHandler_stands ..) _ s4))

theorem gridStarts_teams (s : State) (gr : Nat) : (s.gridStarts gr).teams = s.teams ∧ (s.gridStarts gr).ids = s.ids := by
  unfold State.gridStarts
  split
  · exact ⟨rfl, rfl⟩
  · dsimp only
    split <;> exact ⟨rfl, rfl⟩

/-- The start of a grid does not change which team is next. -/
theorem gridStarts_next {s : State} {gr : Nat} {g : Grid} (hg : s.grid gr = some g) :
    ∃ h, (s.gridStarts gr).grid gr = some h ∧ h.next = g.next := by
  unfold State.gridStarts
  rw [hg]
  dsimp only
  split
  · exact ⟨g, hg, rfl⟩
  · have hp : ∀ ps, ({ s with pins := ps } : State).grid gr = some g := fun _ => hg
    simp [hp]

/-- The turn of a grid whose next gang is one team. -/
theorem placeGang_one {s : State} {gr c : Nat} {g : Grid} (hg : s.grid gr = some g) :
    ∃ h x, (s.placeGang gr [c]).grid gr = some h ∧ h.next = g.next + 1 ∧
      (s.placeGang gr [c]).team s.ids = some x ∧ PlacedAs gr g g.next c x := by
  obtain ⟨hteams, hids⟩ := gridStarts_teams s gr
  obtain ⟨h0, hh0, hn0⟩ := gridStarts_next hg
  obtain ⟨x, hx, hst⟩ := placeTeam_team (s.gridStarts gr) gr g g.next c
  obtain ⟨w, hw⟩ := hst.grids gr
  have hgr : ((s.gridStarts gr).placeTeam gr g g.next c).grid gr = some { h0 with windows := w } :=
    hw.trans (congrArg (Option.map fun g => { g with windows := w }) hh0)
  have hteam : ((s.gridStarts gr).placeTeam gr g g.next c).team s.ids = some x := by
    simp [State.team, hst.teams, ← hids, State.putTeam]
  have hp : s.placeGang gr [c] = ((s.gridStarts gr).placeTeam gr g g.next c).setGrid gr
      (fun g => { g with next := g.next + 1, lastDie := some (c / 32) }) := by
    simp [State.placeGang, hg, List.range_succ]
  rw [hp]
  exact ⟨_, x, by rw [setGrid_grid, if_pos rfl, hgr]; rfl, by simp [hn0], hteam, hx⟩

theorem execTeamPlace_place {s : State} {gr : Nat} {cs : List Nat} {g : Grid} (hg : s.grid gr = some g)
    (hr : g.isReplay = false) (h : s.schedule = some (.place gr cs)) : execTeamPlace gr s = .next (s.placeGang gr cs) := by
  simp [execTeamPlace, takeTag_of_notReplay hg hr, h]

theorem execTeamPlace_save {s : State} {gr k : Nat} {g : Grid} (hg : s.grid gr = some g)
    (hr : g.isReplay = false) (h : s.schedule = some (.save gr k)) : execTeamPlace gr s = .next (s.due (.teamSave k)) := by
  simp [execTeamPlace, takeTag_of_notReplay hg hr, h]

end Sys2Proof.Machine
end

section
open Sys2Proof Sys2Proof.Machine

/-- Settles O47, clause by clause from what each event does. -/
theorem scheduling : Obligations.Scheduling := by
  unfold Obligations.Scheduling
  refine ⟨fun p q s => ?_, fun p q s h => execRecordAccept_idle h, fun gr c g s hg hr hs => ?_, fun gr k g s hg hr hs => ?_,
    fun k x s hx hp hc => ?_, fun gr g k s hs hk hd hw h0 ht hr hn hl hv hc hp => ?_, fun gr g s hg hdep hnot hd h0 hw => ?_,
    fun d s h => execThermalMigration_cool h, fun d k x c s h hk hx hc => ?_, fun k x c gs rs s hx hp hgs _ hw hrs hr => ?_⟩
  -- a record is read and becomes a grid, or its bad reason is noted
  · intro qu c a va l hen hne hw hb hst hwait r
    obtain ⟨gs, he⟩ := execRecordAccept_of_stands hen hne hw rfl rfl hb hst
    constructor
    · intro y hy
      obtain ⟨hg, hacc⟩ := acceptEntry_of_reason (s := s.withGrids gs) (p := p) (q := q) hy
      exact ⟨_, _, he, hg, rfl, rfl, rfl, hacc⟩
    · intro h hwin hfeat
      obtain ⟨hg, hacc⟩ := acceptEntry_of_noTable (s := s.withGrids gs) (p := p) (q := q) h hwin hfeat hwait
      exact ⟨_, _, he, hg, rfl, rfl, rfl, rfl, rfl, rfl, rfl, rfl, hacc⟩
  -- the turn of `schedule` is a gang of one team
  · obtain ⟨h, x, hh, hn, hx, hp⟩ := placeGang_one (c := c) hg
    exact ⟨_, h, x, execTeamPlace_place hg hr hs, hh, hn, hx, hp.grid, hp.lin, hp.place, hp.groups, hp.scratch⟩
  -- the turn is the save of a team that makes room
  · exact ⟨_, execTeamPlace_save hg hr hs, rfl⟩
  -- a finished team retires
  · exact ⟨_, execTeamRetire_of_finished hx hp hc, teamRetired_place hx, teamRetired_grid k s x⟩
  -- the last team of the only grid retires: the grid completes
  · obtain ⟨t, he, hg, hcons⟩ := execTeamRetire_lone hs hk hd hw h0 ht hr hn hl hv hc hp
    exact ⟨t, _, he, hg, rfl, rfl, hcons⟩
  -- a dependence is observed: not yet passed, or passed
  · intro va l hb hst hc gone
    have he := execDepWeirObserve_of_stands hg hdep hnot hd h0 hw hb hst hc
    refine ⟨fun hgone => ?_, fun hgone => ?_⟩
    · exact he.trans (by rw [if_neg (Bool.eq_false_iff.1 hgone)])
    · obtain ⟨w, hg'⟩ := dependence_noted hg g.asid va (l.words 16)
      exact ⟨_, _, he.trans (by rw [if_pos hgone]), hg', rfl⟩
  -- a hot die sheds a gang to a die that may take it
  · intro good hgood
    obtain ⟨ho, ha, hr⟩ := hgood
    obtain ⟨ts, t, hm, he, hag, hd⟩ := execThermalMigration_moves h hk hx hc ⟨ho, ha, hr⟩
    exact ⟨ts, t, ⟨hm.old, hm.available, hm.room⟩, he, hag, hd⟩
  -- every team of the gang leaves its core and waits for its own flash reads
  · subst hgs hrs
    refine ⟨_, execFlashSwapOut_swaps hx hp hw hr, ?_, fun u hu y hy => ?_⟩
    · rw [due_agenda, markTeams_agenda]
    · exact markTeams_team_of_mem (f := fun j x => x.waitingFor (s.teamReads j)) (fun _ _ => rfl) hu hy
end

section
open Sys2Proof Sys2Proof.Machine

/-- Settles O8: each word is `issued` with the record of its shape, and its effect is that of the shape. -/
theorem floatOfTwoAndFused : Obligations.FloatOfTwoAndFused := by
  unfold Obligations.FloatOfTwoAndFused
  constructor
  · and_intros <;> exact fp3_of (fun _ _ _ => rfl) (fun _ _ _ _ => rfl)
  · and_intros <;> exact fp4_of (fun _ _ _ => rfl) (fun _ _ _ _ => rfl)
end

section
/-! PROOF. The state after reset (R23, R24, R33, R493). -/

namespace Sys2Proof.Machine

/-- The cores of the base tiles stand at reset as CORE_RESET leaves them. -/
theorem reset_getG {u : Nat} (hu : u < 16) : State.reset.getG u = some (Group.baseReset u) := by
  interval_cases u <;> rfl

/-- The `MSTAT` and `CODE_BASE` of base-tile core `u` after its reset (R23, R24, R33). -/
def baseMstat (u : Nat) : Word := if u < 8 then 0x01000010#32 else 0x02000020#32
def baseCode (u : Nat) : DWord := if u < 8 then 0x200000#64 else 0x100000#64

theorem baseReset_eq (u : Nat) : ∃ k t, Group.baseReset u = Group.atReset k t (baseMstat u) (baseCode u) := by
  unfold Group.baseReset baseMstat baseCode
  split
  · exact ⟨.pager, u, rfl⟩
  · exact ⟨.mgmt, u - 8, rfl⟩

theorem baseMstat_prv (u : Nat) : ((baseMstat u).extractLsb' 4 2).toNat = if u < 8 then 1 else 2 := by
  unfold baseMstat
  split <;> decide

section
variable (k : CoreKind) (t : Nat) (m : Word) (c : DWord)

theorem zero_rdP {n : Nat} (hn : n ≠ 7) : (Regs.zero m c).rdP n = 0 := by
  simp [Regs.rdP, hn, Regs.zero, mapGet]

theorem atReset_opcnt : (Group.atReset k t m c).opcnt = 0 := by simp [Group.opcnt, Group.atReset]

theorem atReset_lane {l : Nat} (hl : 0 < l) : (Group.atReset k t m c).lane l = .exited := by
  simp [Group.lane, Group.atReset, mapGet, hl.ne]
end

end Sys2Proof.Machine
end

section
open Sys2Proof Sys2Proof.Machine

/-- Settles O60: every base-tile core is `Group.atReset` with its own `MSTAT` and `CODE_BASE`; the tables are empty. -/
theorem resetValues : Obligations.ResetValues := by
  unfold Obligations.ResetValues
  refine ⟨fun u hu => ⟨_, reset_getG hu, ?_⟩, rfl, rfl, fun _ _ _ _ => rfl, rfl, rfl, rfl, rfl, rfl, rfl, rfl⟩
  obtain ⟨k, t, h⟩ := baseReset_eq u
  rw [h]
  exact ⟨fun _ => rfl, fun _ _ => rfl, fun _ => zero_rdP _ _, rfl, fun _ => rfl, rfl, atReset_opcnt .., rfl,
    baseMstat_prv u, rfl, rfl, fun _ hl _ => atReset_lane k t _ _ hl, rfl, rfl, rfl, rfl, rfl, rfl⟩
end

section
/-! PROOF. Reads of machine registers, identity values and handler registers (R32, R109, R175, R397). -/

namespace Sys2Proof.Machine

/-! ### Words that give a scalar or a lane value from no poisoned source -/

/-- A ready word without uniform operands answers with its effect. -/
theorem exec_of_ready {i : Instr} {inf : Info} {body : State → State} {s : State} (he : exec i s = issued inf s body)
    (h : Ready i s) (hi : infoOf i = inf) (hu : inf.uniform = []) : exec i s = .next (body s) :=
  he.trans (ready_next h hi hu)

/-- A ready word that gives a scalar, its poison that of its sources. -/
theorem exec_scalar {i : Instr} {inf : Info} {d : BitVec 7} {x : DWord} {b : Bool} {s : State}
    (he : exec i s = issued inf s (scalarOut inf d x)) (h : Ready i s) (hi : infoOf i = inf) (hu : inf.uniform = [])
    (hp : inf.poisAny s = b) : ∃ t, exec i s = .next t ∧ ScalarIs d.toNat x b s t :=
  ⟨_, exec_of_ready he h hi hu, hp ▸ scalarOut_is⟩

theorem poisAny_k {a : BitVec 3} {d : BitVec 7} {s : State} (h : s.iss.eff ≠ 0) :
    (infKget d a).poisAny s = s.src.poisK a.toNat := by
  have hl : s.iss.eff ≠ 0#32 := h
  cases hp : s.src.poisK a.toNat <;> simp [Info.poisAny, infKget, Reg.poisMask, hp, hl]

theorem mregRead_ctx (s : State) : s.mregRead 0x021 =
    (s.tile s.g.tile).ctxBase ||| if (s.tile s.g.tile).ctxReady then 2 ^ 63 else 0 := by
  rw [show (2 ^ 63 : DWord) = 0x8000000000000000#64 from (BitVec.ofNat_pow ..).symm]
  rfl

theorem mregRead_mbox {s : State} {k : Team} (h : s.myTeam = some k) : s.mregRead 0x030 = k.mbox := by
  simp [State.mregRead, h]

theorem ident_of_team {s : State} {t : Team} {gr : Grid} (ht : s.myTeam = some t) (hg : s.myGrid = some gr) (n l : Nat) :
    s.ident n l = identity s.g t gr n l := by
  simp only [State.ident, ht, hg]

end Sys2Proof.Machine
end

section
open Sys2Proof Sys2Proof.Machine

/-- Settles O21: every word is `issued` with one scalar, lane or handler register to write; the value is that of the register,
number by number. -/
theorem machineRegisterReads : Obligations.MachineRegisterReads := by
  unfold Obligations.MachineRegisterReads
  refine ⟨fun d i s h => ⟨s.mregRead i.unsigned, exec_scalar rfl h rfl rfl rfl, ?_⟩,
    fun d a s t gr ht hg => ⟨fun h => ?_, fun h => ?_⟩, fun d a s h => ?_, fun d a s h => ?_⟩
  -- `mrd`, number by number
  · refine ⟨?_, ?_, ?_, ?_, ?_, ?_, ?_, ?_, ?_, ?_, ?_, ?_, fun e => ?ctx, fun e k hk => ?mbox, ?_, ?_⟩
    case ctx => rw [e, mregRead_ctx]
    case mbox => rw [e, mregRead_mbox hk]
    all_goals exact fun e => by rw [e]; rfl
  -- `idr` to a scalar
  · rw [← ident_of_team ht hg]
    exact exec_scalar rfl h rfl rfl rfl
  -- `idr` to a lane register
  · refine ⟨_, exec_of_ready rfl h rfl rfl, lane1_is.congr (fun l j _ hj => ?_) (fun _ _ _ => rfl)⟩
    obtain rfl : j = 0 := Nat.lt_one_iff.1 hj
    have hl : l - l % 2 = l / 2 * 2 := by omega
    rw [ident_of_team ht hg, hl, Nat.mul_zero, Nat.pow_zero, Nat.div_one, BitVec.ofNat_toNat, BitVec.setWidth_eq]
  -- `kput` and `kget`
  · refine ⟨_, exec_of_ready (show execKput d a s = issued (infKput d a) s _ from rfl) h rfl rfl, ?_⟩
    exact ⟨h.allowed, fun _ => rdK_wrK, rfl⟩
  · exact ⟨h.allowed, exec_scalar rfl h rfl rfl (poisAny_k h.lanes)⟩
end

section
/-! PROOF. What a translation may change (R202, R221, R228, R240 to R244, R468): the homes of lines, frames and walks, and the
requests that wait; no group, register, tile or device register. -/

namespace Sys2Proof.Machine

/-- `s` with what translation keeps, and with the memory, its write-backs and the requests, as they stand in `t`. -/
def State.takeTranslation (s t : State) : State :=
  { s with free := t.free, ids := t.ids, grids := t.grids, mem := t.mem, pois := t.pois, viewBlk := t.viewBlk, l2 := t.l2,
           lostDir := t.lostDir, rel := t.rel, stamps := t.stamps, lostClk := t.lostClk, frames := t.frames,
           anchors := t.anchors, walk := t.walk, reqs := t.reqs, portCache := t.portCache, race := t.race, spills := t.spills }

/-- `t` is `s` but for what a translation may change. -/
def Translated (s t : State) : Prop := t = s.takeTranslation t

namespace Translated

theorem refl (s : State) : Translated s s := rfl

theorem eq {s t : State} (h : Translated s t) : t = s.takeTranslation t := h

theorem trans {s t u : State} (h : Translated s t) (k : Translated t u) : Translated s u := by
  unfold Translated at h k
  rw [h] at k
  exact k

theorem of {s t : State} (h : t = s.takeTranslation t) : Translated s t := h

theorem andThen {s t u : State} (h : Translated s t) (k : u = t.takeTranslation u) : Translated s u := h.trans (.of k)

theorem after {s t u : State} (h : Translated t u) (k : t = s.takeTranslation t) : Translated s u := trans (.of k) h

theorem foldl {α : Type} {f : State → α → State} (hf : ∀ s x, Translated s (f s x)) :
    ∀ (xs : List α) (s : State), Translated s (xs.foldl f s)
  | [], s => refl s
  | x :: xs, s => (hf s x).trans (foldl hf xs (f s x))

theorem foldlFst {α β : Type} {f : State × β → α → State × β} (hf : ∀ b x, Translated b.1 (f b x).1) :
    ∀ (xs : List α) (b : State × β), Translated b.1 (xs.foldl f b).1
  | [], b => refl b.1
  | x :: xs, b => (hf b x).trans (foldlFst hf xs (f b x))

section fields
variable {s t : State} (h : Translated s t)
include h

theorem g : t.g = s.g := (congrArg State.g h.eq).trans rfl
theorem gid : t.gid = s.gid := (congrArg State.gid h.eq).trans rfl
theorem others : t.others = s.others := (congrArg State.others h.eq).trans rfl
theorem tiles : t.tiles = s.tiles := (congrArg State.tiles h.eq).trans rfl
theorem dev : t.dev = s.dev := (congrArg State.dev h.eq).trans rfl

theorem getG (k : Nat) : t.getG k = s.getG k := by simp only [State.getG, h.g, h.gid, h.others]
theorem tile (k : Nat) : t.tile k = s.tile k := by simp only [State.tile, h.tiles]
end fields

end Translated

/-! ### Level-2 lines and walks -/

theorem dropLine_translated (s : State) (lk : Nat) : Translated s (s.dropLine lk) := by
  unfold State.dropLine
  extract_lets words u v
  have hu : Translated s u := Translated.foldl (fun b e => by split <;> exact .of rfl) words s
  split <;> exact hu.andThen rfl

theorem evictLine_translated (s : State) (lk : Nat) : Translated s (s.evictLine lk) := by
  unfold State.evictLine
  extract_lets a v u
  split
  · exact (dropLine_translated s lk).trans (Translated.foldl (fun _ _ => by exact .of rfl) (List.range 4) u)
  · exact dropLine_translated s lk

theorem choose_translated (s : State) (n : Nat) : Translated s (s.choose n).1 := .of rfl

theorem makeRoom_translated (s : State) (lk : Nat) : Translated s (s.makeRoom lk) := by
  unfold State.makeRoom
  dsimp only
  split
  · exact .refl s
  · split
    · exact .refl s
    · split
      · exact .refl s
      · split
        · exact (choose_translated s _).trans (evictLine_translated _ _)
        · exact choose_translated s _

theorem addLine_translated (s : State) (lk : Nat) (w x : Bool) : Translated s (s.addLine lk w x) := by
  unfold State.addLine
  split
  · exact .refl s
  · exact (makeRoom_translated s lk).andThen rfl

theorem tableLine_translated (s : State) (va : Nat) : Translated s (s.tableLine va).1 := by
  unfold State.tableLine
  dsimp only
  split
  · exact .refl s
  · split
    · exact (addLine_translated (s.countAccess _) _ _ _).after rfl
    · split
      · exact .refl s
      · exact (addLine_translated (s.giveTable _ _ _) _ _ _).after rfl

theorem tableRead_translated (s : State) (st : Option Nat) (off : Nat) : Translated s (s.tableRead st off).1 := by
  cases st with
  | none => exact .refl s
  | some st =>
    have h := tableLine_translated s (tableBase + off)
    unfold State.tableRead
    dsimp only
    split
    · next heq => rw [heq] at h; exact h
    · next heq =>
      rw [heq] at h
      split
      · exact h
      · exact h.andThen rfl

/-- One level of a walk: what is left to show is about the levels below. -/
theorem walkFrom_translated_of_below (st : Option Nat) (c : Bool) (a va l : Nat)
    (below : ∀ m, l = m + 1 → ∀ (s : State) n ls ws, Translated s (s.walkFrom st c a va m n ls ws).1)
    (s : State) (n : Nat) (ls : List (Nat × Nat)) (ws : List WalkEntry) :
    Translated s (s.walkFrom st c a va l n ls ws).1 := by
  unfold State.walkFrom
  extract_lets off hit
  split
  next u got hu =>
    have h : Translated s u := by
      have hr := tableRead_translated s st off
      clear_value hit
      cases hit with
      | some w =>
        cases hu
        exact .refl s
      | none =>
        dsimp only at hu
        split at hu <;> next heq =>
          cases hu
          rw [heq] at hr
          exact hr
    split
    · exact h
    · split
      · exact h
      · extract_lets steps
        split
        case h_2 => exact h.trans (below _ rfl _ _ _ _)
        all_goals exact h

theorem walkFrom_translated (st : Option Nat) (c : Bool) (a va l : Nat) :
    ∀ (s : State) (n : Nat) ls ws, Translated s (s.walkFrom st c a va l n ls ws).1 := by
  induction l with
  | zero => exact walkFrom_translated_of_below st c a va 0 (fun _ h => nomatch h)
  | succ l ih => exact walkFrom_translated_of_below st c a va (l + 1) (fun m h => by cases h; exact ih)

theorem walkOnce_translated (s : State) (st : Option Nat) (c : Bool) (a va : Nat) : Translated s (s.walkOnce st c a va).1 := by
  have h := tableRead_translated s st (16 * a)
  unfold State.walkOnce
  extract_lets addr
  split
  · next heq =>
    rw [heq] at h
    exact h
  · next heq =>
    rw [heq] at h
    split
    · exact h
    · split
      · exact h
      · exact h.trans (walkFrom_translated ..)

theorem cacheStep_translated (s : State) (w : WalkEntry) : Translated s (s.cacheStep w) := .of rfl

theorem walkTo_translated (s : State) (st : Option Nat) (a va : Nat) : Translated s (s.walkTo st a va).1 := by
  have h := walkOnce_translated s st true a va
  unfold State.walkTo
  split
  next u w hu =>
    rw [hu] at h
    split
    next v x hv =>
      refine Translated.trans ?_ (Translated.foldl cacheStep_translated x.steps v)
      split at hv
      · cases hv
        exact h
      · have h' := walkOnce_translated u st false a va
        rw [hv] at h'
        exact h.trans h'

theorem walkSubs_translated (s : State) (fk : Nat) (e : Frame) (m : BitVec 16) : Translated s (s.walkSubs fk e m).1 := by
  unfold State.walkSubs
  refine Translated.foldlFst (fun b i => ?_) _ (s, [])
  exact walkTo_translated b.1 _ _ _

/-! ### Translation -/

theorem permWalk_translated (s : State) (st f : Nat) (k : AccKind) (a va : Nat) : Translated s (s.permWalk st f k a va).1 := by
  have hw := walkTo_translated s (some st) a va
  unfold State.permWalk
  extract_lets e
  split
  · exact .refl s
  · split
    next u w hu =>
      rw [hu] at hw
      split
      · have hs := walkSubs_translated u (frameKey st f) e e.sub
        split
        next v ws hv =>
          rw [hv] at hs
          exact (hw.trans hs).andThen rfl
      · exact hw

theorem locateFrame_translated (s : State) (k : AccKind) (b : Bool) (a v va : Nat) :
    Translated s (s.locateFrame k b a v va).1 := by
  unfold State.locateFrame
  extract_lets lk hit st
  split
  · exact .refl s
  · split
    · exact .refl s
    · next f _ =>
      extract_lets fk e
      split
      · exact .refl s
      · split
        · exact .refl s
        · have hp := permWalk_translated s st f k a va
          split
          next u ok hu =>
            rw [hu] at hp
            split
            · exact hp
            · split
              · exact hp
              · split
                · exact hp.trans ((addLine_translated (u.countAccess fk) _ _ _).after rfl)
                · dsimp only
                  split <;> exact hp.andThen rfl

theorem locateHost_translated (s : State) (k : AccKind) (p h : Nat) : Translated s (s.locateHost k p h).1 := by
  unfold State.locateHost
  extract_lets b
  split
  · split
    · split
      · exact .refl s
      · exact .of rfl
    · split
      · exact .refl s
      · exact .of rfl
  · exact .refl s

theorem locateKey_translated (s : State) (k : AccKind) (b : Bool) (a v va : Nat) : Translated s (s.locateKey k b a v va).1 := by
  have hf := locateFrame_translated s k b a v va
  unfold State.locateKey
  split
  · next u hu =>
    rw [hu] at hf
    split
    · split
      · exact hf
      · exact hf.trans (locateHost_translated u _ _ _)
    · dsimp only
      split <;> exact hf
    · exact hf
  · exact hf

theorem reloadFade_translated (s : State) (a va : Nat) : Translated s (s.reloadFade a va) := by
  obtain ⟨gs, hs, -⟩ := reloadFade_only s a va
  rw [hs]
  exact .of rfl

theorem locate_translated (s : State) (k : AccKind) (b : Bool) (a v va : Nat) : Translated s (s.locate k b a v va).1 := by
  have hr := reloadFade_translated s a va
  unfold State.locate
  extract_lets u
  split
  · exact hr
  · have hk := hr.trans (locateKey_translated u k b a v va)
    split
    · next w hw =>
      rw [hw] at hk
      split
      · split
        · exact hk
        · exact hk.trans (locateKey_translated w _ _ _ _ _)
      · exact hk
    · exact hk

/-! ### The handler word of a group (R394) -/

theorem newReq_translated (s : State) (a v va : Nat) (k : AccKind) (hint : Nat) (w : ReqWho) (st : ReqState) (d : Stamp) :
    Translated s (s.newReq a v va k hint w st d) := .of rfl

theorem addReq_translated (s : State) (a v va : Nat) (k : AccKind) (hint : Nat) (w : ReqWho) (st : ReqState) :
    Translated s (s.addReq a v va k hint w st) := by
  unfold State.addReq
  extract_lets d
  split
  · extract_lets same
    split
    · exact .of rfl
    · exact newReq_translated ..
  · exact newReq_translated ..
  · split
    · exact .refl s
    · exact newReq_translated ..

theorem handlerRead_translated (s : State) (k : Nat) : Translated s (s.handlerRead k).1 := by
  unfold State.handlerRead
  split
  · exact .refl s
  · next g _ =>
    extract_lets a act take ky
    split
    · exact .refl s
    · split
      · split <;> exact .refl s
      · have h := locate_translated s .load false ky.1 ky.2 a
        split <;> next u _ hu =>
          rw [hu] at h
          exact h

/-- R394: the handler word of a group is all that its read changes of the groups. -/
theorem readHandler_getG {s : State} {k : Nat} {g : Group} (h : s.getG k = some g) (q : Nat) :
    ∃ ho hd, (s.readHandler k).getG q = if q = k then some { g with hold := ho, handler := hd } else s.getG q := by
  have ht := handlerRead_translated s k
  unfold State.readHandler
  split
  · next u w hu =>
    rw [hu] at ht
    rw [State.setHandler, getG_modG, ht.getG, ht.getG, h]
    exact ⟨_, _, rfl⟩
  · next u st hu =>
    rw [hu] at ht
    rw [show u.getG k = some g from (ht.getG k).trans h]
    dsimp only
    rw [(addReq_translated ..).getG, getG_modG, ht.getG, ht.getG, h]
    exact ⟨_, _, rfl⟩

theorem readHandler_tiles (s : State) (k : Nat) : (s.readHandler k).tiles = s.tiles ∧ (s.readHandler k).dev = s.dev := by
  have ht := handlerRead_translated s k
  unfold State.readHandler
  split
  · next u w hu =>
    rw [hu] at ht
    exact ⟨(modG_tiles ..).trans ht.tiles, (modG_dev ..).trans ht.dev⟩
  · next u st hu =>
    rw [hu] at ht
    split
    · exact ⟨ht.tiles, ht.dev⟩
    · have ha := addReq_translated (u.modG k (fun g => { g with hold := .handlerWord }))
      exact ⟨(ha ..).tiles.trans ((modG_tiles ..).trans ht.tiles), (ha ..).dev.trans ((modG_dev ..).trans ht.dev)⟩

theorem markDirty_translated (s : State) (a v va : Nat) : Translated s (s.markDirty a v va) := by
  unfold State.markDirty
  extract_lets lk u st
  have hu : Translated s u := by
    unfold u
    split <;> exact .of rfl
  split
  · exact hu
  · extract_lets fk v x w
    have hv : Translated u v := by
      unfold v
      split <;> exact .of rfl
    split
    · exact hu.trans hv
    · split
      · exact (hu.trans hv).andThen rfl
      · split <;> exact (hu.trans hv).andThen rfl

end Sys2Proof.Machine
end

section
/-! PROOF. Writes of machine registers, field by field (R7, R18, R109, R110). -/

namespace Sys2Proof.Machine

theorem getLsbD_fieldWrite {w : Nat} (m c old x : BitVec w) {n : Nat} (hn : n < w) :
    (fieldWrite m c old x).getLsbD n =
      if m.getLsbD n then x.getLsbD n else old.getLsbD n && !(c.getLsbD n && x.getLsbD n) := by
  simp only [fieldWrite, BitVec.getLsbD_or, BitVec.getLsbD_and, BitVec.getLsbD_not, hn, decide_true, Bool.true_and]
  cases m.getLsbD n <;> simp

/-- A field-wise write without writable bits clears where 1 is written. -/
theorem fieldWrite_zero {w : Nat} (c old x : BitVec w) : fieldWrite 0 c old x = old &&& ~~~(x &&& c) := by
  simp [fieldWrite, BitVec.and_comm c x]

section
variable {n : Nat} (hn : n < 32) (old : Word) (x : DWord)
include hn

theorem mstatWrite_bit : (fieldWrite 0x000000C0#32 0x00008000#32 old (x.extractLsb' 0 32)).getLsbD n =
    if n = 6 ∨ n = 7 then x.getLsbD n else if n = 15 then old.getLsbD 15 && !x.getLsbD 15 else old.getLsbD n := by
  have hw : ∀ n, n < 32 → (0x000000C0#32).getLsbD n = decide (n = 6 ∨ n = 7) := by decide
  have hc : ∀ n, n < 32 → (0x00008000#32).getLsbD n = decide (n = 15) := by decide
  rw [getLsbD_fieldWrite _ _ _ _ hn, hw n hn, hc n hn]
  by_cases h15 : n = 15 <;> simp [h15, hn]

theorem fpctlWrite_bit : (fieldWrite 0x00C31F00#32 0x0000001F#32 old (x.extractLsb' 0 32)).getLsbD n =
    if (8 ≤ n ∧ n ≤ 12) ∨ n = 16 ∨ n = 17 ∨ n = 22 ∨ n = 23 then x.getLsbD n
    else if n ≤ 4 then old.getLsbD n && !x.getLsbD n else old.getLsbD n := by
  have hw : ∀ n, n < 32 → (0x00C31F00#32).getLsbD n =
      decide ((8 ≤ n ∧ n ≤ 12) ∨ n = 16 ∨ n = 17 ∨ n = 22 ∨ n = 23) := by decide
  have hc : ∀ n, n < 32 → (0x0000001F#32).getLsbD n = decide (n ≤ 4) := by decide
  rw [getLsbD_fieldWrite _ _ _ _ hn, hw n hn, hc n hn]
  by_cases h4 : n ≤ 4 <;> simp [h4, hn]
end

theorem setHandler_g (s : State) (w : Option DWord) :
    ∃ hd, (s.setHandler s.gid w).g = { s.g with hold := .none, handler := hd } :=
  ⟨_, congrArg State.g (if_pos rfl)⟩

/-- R18, R394: past `CODE_BASE` a write of it changes the handler word of the group, or holds the group until it is read. -/
theorem codeBaseWrite_g (s : State) (x : DWord) : ∃ ho hd, (s.codeBaseWrite x).g =
    { s.g with r := { s.g.r with codeBase := x &&& 0xFFFFFFFFFFFFF000#64 }, hold := ho, handler := hd } := by
  unfold State.codeBaseWrite
  extract_lets u
  split
  · exact ⟨u.g.hold, u.g.handler, rfl⟩
  · have h := handlerRead_translated u u.gid
    split
    · next v w hv =>
      have hg : v.g = u.g := (hv ▸ h).g
      obtain ⟨hd, hw⟩ := setHandler_g v w
      rw [hg] at hw
      exact ⟨.none, hd, hw⟩
    · next v st hv =>
      have hg : v.g = u.g := (hv ▸ h).g
      exact ⟨_, _, congrArg (fun g : Group => { g with hold := .handlerWord }) ((addReq_translated v ..).g.trans hg)⟩

end Sys2Proof.Machine
end

section
open Sys2Proof Sys2Proof.Machine

/-- Settles O22: the word is `issued` with the write of its register, number by number. -/
theorem machineWrites : Obligations.MachineWrites := by
  unfold Obligations.MachineWrites
  intro a i s h x
  have he : exec (.mwr a i) s = .next (s.mregWrite i.unsigned x) :=
    exec_of_ready (i := .mwr a i) (show execMwr a i s = issued (infMwr a i) s _ from rfl) h rfl rfl
  refine ⟨fun e => ⟨_, by rw [he, e], rfl, fun n hn => mstatWrite_bit hn _ x⟩,
    fun e => ⟨_, by rw [he, e], rfl, fun n hn => fpctlWrite_bit hn _ x⟩, fun e => ?_, fun e => ⟨_, by rw [he, e], ?_⟩,
    ?_, ?_, fun e => ⟨_, by rw [he, e], fun y hy => ?_⟩, fun e => ?_, ?_, ?_, ?_, ?_⟩
  · rcases e with e | e | e | e | e <;> (rw [he, e]; rfl)
  · obtain ⟨ho, hd, hg⟩ := codeBaseWrite_g s x
    exact ⟨congrArg Group.r hg, (congrArg Group.pcv hg).trans rfl, (congrArg Group.lsv hg).trans rfl⟩
  · exact fun e => by rw [he, e]; rfl
  · exact fun e => by rw [he, e]; rfl
  · exact ⟨_, (setTeam_team ..).trans (by rw [if_pos rfl, hy]; rfl), fieldWrite_zero _ y.mbox x⟩
  · rw [he, e]
    simp [State.mregWrite]
  all_goals exact fun e => by rw [he, e]; rfl
end

section
/-! PROOF. A change of every lane of a mask, lane by lane. -/

namespace Sys2Proof.Machine

theorem lanesOf_nodup (m : Word) : (lanesOf m).Nodup := List.nodup_range.filter _

section
variable {σ β : Type} {f : σ → Nat → σ}

/-- What no step of a fold touches stands. -/
theorem foldl_get_keep (get : σ → β) (h : ∀ s x, get (f s x) = get s) :
    ∀ (xs : List Nat) (s : σ), get (xs.foldl f s) = get s
  | [], _ => rfl
  | x :: xs, s => (foldl_get_keep get h xs (f s x)).trans (h s x)

/-- A fold whose steps each change the part of their own index reaches the indices of the list, each once. -/
theorem foldl_get_at (get : σ → Nat → β) (upd : Nat → β → β)
    (hf : ∀ s x k, get (f s x) k = if k = x then upd x (get s x) else get s k) (k : Nat) :
    ∀ (xs : List Nat) (s : σ), xs.Nodup → get (xs.foldl f s) k = if k ∈ xs then upd k (get s k) else get s k
  | [], _, _ => rfl
  | x :: xs, s, hn => by
    obtain ⟨hx, hn⟩ := List.nodup_cons.1 hn
    rw [List.foldl_cons, foldl_get_at get upd hf k xs _ hn, hf]
    by_cases e : k = x
    · subst e
      simp [hx]
    · simp [e]
end

/-- What no lane's change touches stands. -/
theorem eachLane_keep {β : Type} (get : Group → β) {f : Group → Nat → Group} (h : ∀ g l, get (f g l) = get g) (m : Word)
    (g : Group) : get (g.eachLane m f) = get g :=
  foldl_get_keep get h (lanesOf m) g

/-- A change of each lane's own part reaches the lanes of the mask, each once. -/
theorem eachLane_at {β : Type} (get : Group → Nat → β) {f : Group → Nat → Group} (upd : Nat → β → β)
    (hf : ∀ g l k, get (f g l) k = if k = l then upd l (get g l) else get g k) (m : Word) (g : Group) (k : Nat) :
    get (g.eachLane m f) k = if m.getLsbD k then upd k (get g k) else get g k := by
  simp only [Group.eachLane, foldl_get_at get upd hf k _ g (lanesOf_nodup m), mem_lanesOf]

section
variable (g : Group) (l k : Nat)

@[simp] theorem setPc_pc (x : Word) : (g.setPc l x).pc k = if k = l then x else g.pc k := mapGet_mapSet ..
@[simp] theorem setPc_lane (x : Word) : (g.setPc l x).lane k = g.lane k := rfl
@[simp] theorem setPc_blkOf (x : Word) : (g.setPc l x).blkOf k = g.blkOf k := rfl
@[simp] theorem setLane_pc (x : LaneState) : (g.setLane l x).pc k = g.pc k := rfl
@[simp] theorem setLane_lane (x : LaneState) : (g.setLane l x).lane k = if k = l then x else g.lane k := mapGet_mapSet ..
@[simp] theorem setLane_blkOf (x : LaneState) : (g.setLane l x).blkOf k = g.blkOf k := rfl
@[simp] theorem setBlk_pc (x : Blk) : (g.setBlk l x).pc k = g.pc k := rfl
@[simp] theorem setBlk_lane (x : Blk) : (g.setBlk l x).lane k = g.lane k := rfl
@[simp] theorem setBlk_blkOf (x : Blk) : (g.setBlk l x).blkOf k = if k = l then x else g.blkOf k := mapGet_mapSet ..
end

end Sys2Proof.Machine
end

section
/-! PROOF. The step runs the word at hand (R20, R46, R135, R197, R401): a chain of one word, and what its end does
to the lanes. -/

namespace Sys2Proof.Machine

theorem chainFrom_lone {p : Packet} {i n : Nat} (h : (p.word i).getLsbD 31 = false) :
    p.chainFrom (n + 1) i = ([p.chainWord i], p.after i, false) := by
  simp only [Packet.chainFrom, h, Bool.false_eq_true, if_false]

/-- R197: where the chain of a unit's first group issues, the step is that chain and the second chain of the cycle. -/
theorem step_of_issue {s s0 s1 t : State} {u k : Nat} {ks : List Nat} {ps : List Pipe}
    (hp : s.passTick.pickStep = (.quarterIssue u, s0)) (hc : s0.candidates u = k :: ks)
    (h1 : (s0.passCycle u).beginIssue u k = s1) (ht : State.tryChain exec [] s1 = .next (t, some ps)) :
    step s = t.secondChain exec u s1.gid ps := by
  have he : exec (.quarterIssue u) s0 = .next s1 := by
    rw [show exec (.quarterIssue u) s0 = execQuarterIssue u s0 from rfl, execQuarterIssue, hc, ← h1]
  rw [step, hp, he]
  simp only [andThen, State.conclude, State.finishIssue, ht]

/-- R46, R401: how a chain of one word without a trap ends. -/
theorem runOne_next {ex : Instr → State → Out} {b : Blk} {c : ChainWord} {i : Instr} {s t : State} (hd : c.d = .ok i)
    (he : ex i (s.atWord b 0 c) = .next t) (hs : t.iss.stalled = false) (hm : t.iss.mism = none) :
    runOne ex b c s = .next (if t.iss.trap.isSome then .trapped t else .done t) := by
  simp only [runOne, hd, he, andThen, hs, hm, Bool.false_eq_true, if_false]
  split <;> rfl

/-- The `pcv` of the transfer of control in a chain of one word. -/
theorem find_control {c : ChainWord} {i : Instr} (hd : c.d = .ok i) :
    ([c].find? (fun c => (c.info.map Info.control).getD false)).map ChainWord.pc =
      if (infoOf i).control then some c.pc else none := by
  cases h : (infoOf i).control <;> simp [ChainWord.info, hd, h]

theorem any_contains_nil (ps : List Pipe) : ps.any [].contains = false := by simp

theorem lone_counted (c : ChainWord) : ([c].filter (fun c => !isPblk c.word)).length = if isPblk c.word then 0 else 1 := by
  cases h : isPblk c.word <;> simp [h]

/-- R145: only the backward count and the quantum change. -/
theorem rotate_only (h g : Group) (set set0 moved : Word) (ctl : Option Word) :
    ∃ q m b, h.rotate g set set0 moved ctl = { h with quantum := q, qmask := m, btc := b } := by
  unfold Group.rotate
  extract_lets h1 live live1 back returned
  split
  · split <;> exact ⟨_, _, _, rfl⟩
  · split
    · exact ⟨_, _, _, rfl⟩
    · split <;> exact ⟨_, _, _, rfl⟩

/-- The flags that a chain raised are no scalar, lane register or predicate. -/
def Regs.flagged (r : Regs) (f : BitVec 5) (unif : Bool) : Regs :=
  let r := r.raise f
  if unif then r.setUnifFl else r

theorem flagged_only (r : Regs) (f : BitVec 5) (unif : Bool) :
    (r.flagged f unif).s = r.s ∧ (r.flagged f unif).v = r.v ∧ (r.flagged f unif).p = r.p := by
  unfold Regs.flagged
  cases unif <;> exact ⟨rfl, rfl, rfl⟩

/-- R20, R46: an end of a chain that is no step and ends no packet advances the lanes that no word moved. -/
theorem retire_g {t s : State} {n : Nat} {next last : Word} {ctl : Option Word} (hs : s.g.r.sstep = false)
    (ha : s.g.stepArmed = false) (hl : t.iss.late = none) :
    let h := { t.g with r := t.g.r.flagged t.iss.raised t.iss.unif }.eachLane (t.iss.set &&& ~~~t.iss.moved)
      (fun g l => (g.setPc l next).setBlk l ((g.blkOf l).past n))
    let u := t.retire s n next last false ctl
    u.g.pcv = h.pcv ∧ u.g.r = h.r ∧ u.g.issueNo = s.g.issueNo + 1 ∧ u.mem = t.mem := by
  intro h
  have hstep : ((s.g.r.sstep || s.g.stepArmed) && t.iss.set &&& ~~~t.iss.parked != 0#32) = false := by simp [hs, ha]
  unfold State.retire
  extract_lets set set0 adv t1 t2 num step late t3 t4 u
  obtain ⟨q, m, b, hr⟩ := rotate_only h s.g set set0 t.iss.moved ctl
  have h4 : t4 = t3 := if_neg (by rw [show step = false from hstep]; decide)
  have hlate : late = none := hl
  have hu : u = t3.endIssue := by rw [← h4]; simp only [u, hlate]
  rw [hu]
  exact ⟨(congrArg Group.pcv hr).trans rfl, (congrArg Group.r hr).trans rfl, rfl, rfl⟩
/-- The lanes that the end of a chain advances stand past it. -/
theorem advanced_pc (g : Group) (m next : Word) (n l : Nat) :
    (g.eachLane m (fun g l => (g.setPc l next).setBlk l ((g.blkOf l).past n))).pc l = if m.getLsbD l then next else g.pc l :=
  eachLane_at Group.pc (fun _ _ => next) (fun g l k => by simp) m g l

theorem advanced_r (g : Group) (m next : Word) (n : Nat) :
    (g.eachLane m (fun g l => (g.setPc l next).setBlk l ((g.blkOf l).past n))).r = g.r :=
  eachLane_keep Group.r (fun _ _ => by rfl) m g

theorem checkChain_lone {s : State} {c x : ChainWord} {cross : Bool} {b : Blk} {t : TrapReq}
    (h : s.checkChain [c] cross b = some (x, t)) : x = c := by
  simp [State.checkChain, placed] at h
  obtain ⟨a, -, rfl, -⟩ := h
  rfl

end Sys2Proof.Machine
end

section
open Sys2Proof Sys2Proof.Machine
/-- Settles O57: the event at the head is performed; a lone word is the chain of its unit's first group. -/
theorem stepRunsWord : Obligations.StepRunsWord := by
  unfold Obligations.StepRunsWord
  refine ⟨fun s s0 t e hp hq he => ?_, fun s s0 s1 u k ks p hp hc h1 hset hpkt hlit hw => ?_, fun p i hi => ?_, ?_⟩
  · rw [step, hp, he]
    cases e with
    | quarterIssue u => exact absurd rfl (hq u)
    | _ => rfl
  · dsimp only
    have hchain : p.chainFrom 3 (pcSlot s1.iss.pc) = ([p.chainWord (pcSlot s1.iss.pc)], p.after (pcSlot s1.iss.pc), false) :=
      chainFrom_lone hw
    refine ⟨fun x t hx => step_of_issue hp hc h1 ?_,
      fun hx hstall hg i t hd he hs hm => ⟨fun ht => step_of_issue hp hc h1 ?_, fun ht => step_of_issue hp hc h1 ?_⟩⟩ <;>
      simp only [State.tryChain, hpkt, if_neg hset, hlit, Bool.false_eq_true, if_false, hchain, any_contains_nil, lone_counted,
        List.map_cons, List.map_nil, List.getLast?_singleton, Option.map_some, Option.getD_some]
    · rw [hx, ← checkChain_lone hx]
    · have hr := runOne_next hd he hs hm
      rw [ht] at hr
      simp only [hx, hstall, hg, hr, andThen, find_control hd, Option.isSome_none, Bool.false_eq_true, if_false]
    · have hr := runOne_next hd he hs hm
      rw [Option.isSome_iff_ne_none.2 ht, if_pos rfl] at hr
      simp only [hx, hstall, hg, hr, andThen, Bool.false_eq_true, if_false]
  · exact ⟨rfl, rfl, fun d hd => congrArg (Except.map Decoded.instr) hd, fun r hr => congrArg (Except.map Decoded.instr) hr⟩
  · intro t s n next last ctl l hset hs ha hl hlt u
    obtain ⟨hpc, hr, hno, hmem⟩ := retire_g (next := next) (last := last) (n := n) (ctl := ctl) hs ha hl
    have hpcl : u.g.pc l = if (t.iss.set &&& ~~~t.iss.moved).getLsbD l then next else t.g.pc l :=
      (congrArg (fun m => mapGet 0 m l) hpc).trans (advanced_pc _ _ next n l)
    have hrr : u.g.r = t.g.r.flagged t.iss.raised t.iss.unif := hr.trans (advanced_r ..)
    obtain ⟨h1, h2, h3⟩ := flagged_only t.g.r t.iss.raised t.iss.unif
    rw [BitVec.getLsbD_and, BitVec.getLsbD_not, decide_eq_true hlt, Bool.true_and] at hpcl
    refine ⟨fun ha hb => ?_, fun hn => ?_, hno, hrr ▸ h1, hrr ▸ h2, hrr ▸ h3, hmem⟩
    · rw [hpcl, ha, hb]; rfl
    · rw [hpcl, if_neg]
      simpa using hn
end

section
/-! PROOF. Delivery of a trap to a handler (R286, R391, R396). -/

namespace Sys2Proof.Machine

theorem releaseBlk_idle {s : State} {b : Nat} (h : ∀ r ∈ s.reqs, r.state ≠ .onBlock b) : s.releaseBlk b = s := by
  have hq : s.reqs.filter (fun r => r.state == .onBlock b) = [] :=
    List.filter_eq_nil_iff.2 fun r hr => by simpa using h r hr
  simp [State.releaseBlk, hq]

theorem leaveQueue_idle {s : State} {k : Nat} (h : ∀ r ∈ s.reqs, r.who ≠ .take k) : s.leaveQueue k = s := by
  have hq : s.reqs.filter (fun r => r.who == .take k) = [] :=
    List.filter_eq_nil_iff.2 fun r hr => by simpa using h r hr
  simp [State.leaveQueue, hq]

/-- The cofferdams that satisfy `p`, breached (R286). -/
def breachOf (p : Dam → Bool) (ds : List Dam) : List Dam :=
  modWhere (fun d => !d.breached && p d) (fun d => { d with breached := true, buf := [] }) ds

theorem breachOf_breached {p : Dam → Bool} {ds : List Dam} {d : Dam} (h : d ∈ breachOf p ds) (hp : p d = true) :
    d.breached = true := by
  obtain ⟨x, -, rfl⟩ := List.mem_map.1 h
  by_cases hx : (!x.breached && p x) = true
  · rw [if_pos hx]
  · rw [if_neg hx] at hp ⊢
    simpa [hp] using hx

/-- A cofferdam for which no request waits is breached with no wake. -/
theorem breachDams_idle {s : State} {p : Dam → Bool}
    (h : ∀ d ∈ s.dams, p d = true → ∀ r ∈ s.reqs, r.state ≠ .onBlock d.blk) :
    s.breachDams p = { s with dams := breachOf p s.dams } := by
  have hfold : ∀ (ds : List Dam) (u : State), (∀ d ∈ ds, ∀ r ∈ u.reqs, r.state ≠ .onBlock d.blk) →
      ds.foldl (fun u d => u.releaseBlk d.blk) u = u := by
    intro ds u hd
    induction ds with
    | nil => rfl
    | cons d ds ih =>
      rw [List.foldl_cons, releaseBlk_idle (hd d (by simp))]
      exact ih fun x hx => hd x (by simp [hx])
  refine hfold _ _ fun d hd r hr => ?_
  obtain ⟨hm, hp⟩ := List.mem_filter.1 hd
  exact h d hm (Bool.and_eq_true_iff.1 hp).2 r hr

/-- The change of one lane of a handler's (R396). -/
def Group.toHandler (pc : Word) (g : Group) (l : Nat) : Group :=
  let g := (g.setPc l pc).setBlk l Blk.none
  if g.lane l = .shadow then g else g.setLane l .live

section
variable (pc : Word) (g : Group) (h : Word) (l k : Nat)

theorem toHandler_pc : (g.toHandler pc l).pc k = if k = l then pc else g.pc k := by
  by_cases hs : g.lane l = .shadow <;> simp [Group.toHandler, hs]

theorem toHandler_lane : (g.toHandler pc l).lane k =
    if k = l then (if g.lane l = .shadow then .shadow else .live) else g.lane k := by
  by_cases hs : g.lane l = .shadow <;> by_cases hk : k = l <;> simp [Group.toHandler, hs, hk]

theorem toHandler_blkOf : (g.toHandler pc l).blkOf k = if k = l then Blk.none else g.blkOf k := by
  by_cases hs : g.lane l = .shadow <;> simp [Group.toHandler, hs]

theorem toHandler_r : (g.toHandler pc l).r = g.r := by
  unfold Group.toHandler
  extract_lets
  split <;> rfl

theorem toHandlers_r : (g.eachLane h (Group.toHandler pc)).r = g.r := eachLane_keep Group.r (toHandler_r pc) h g
end

/-- The registers of a group in its handler (R391, R396). -/
def Regs.entered (r : Regs) (t : TrapReq) (async : Bool) : Regs :=
  { r.setTm true with trapCause := causeWord t async, info0 := t.i0, info1 := t.i1, info2 := t.i2, info3 := t.i3 }

/-- The group in its handler (R396). -/
def Group.entered (g : Group) (t : TrapReq) (async : Bool) (skip : Option Past) (h pc : Word) : Group :=
  let u := g.eachLane h (Group.toHandler pc)
  { u with save := some ⟨g.pcv, g.lsv, g.blk, if async then none else skip⟩, hlanes := h, r := u.r.entered t async }

section
variable {s : State} {t : TrapReq} {async : Bool} {h pc : Word} (hold : s.g.hold = .none)
  (hdams : ∀ d ∈ s.dams, d.grp = s.gid → ∀ r ∈ s.reqs, r.state ≠ .onBlock d.blk)
    (htake : ∀ r ∈ s.reqs, r.who ≠ .take s.gid)
include hold hdams htake

theorem enterHandler_calm : s.enterHandler t async h pc =
    { s with dams := breachOf (fun d => d.grp == s.gid) s.dams, g := s.g.entered t async s.iss.skip h pc } := by
  have hb := breachDams_idle (s := s) (p := fun d => d.grp == s.gid) fun d hd hg => hdams d hd (by simpa using hg)
  have ha : s.g.abandon = s.g := by simp [Group.abandon, hold]
  have hl : (s.breachDams (fun d => d.grp == s.gid)).leaveQueue s.gid =
      { s with dams := breachOf (fun d => d.grp == s.gid) s.dams } := by
    rw [hb]
    exact leaveQueue_idle htake
  rw [State.enterHandler, hl]
  unfold State.setG
  dsimp only
  rw [ha]
  rfl
end

theorem sameBytes_handler (s : State) (ds : List Dam) (g : Group) (f : Issue → Issue) :
    SameBytes s { s.setIss f with dams := ds, g := g } := by
  intro l i hl
  cases l with
  | reg k b => exact absurd rfl (hl k b)
  | _ => rfl

/-! What the group holds in its handler. -/

section
variable {g : Group} {t : TrapReq} {async : Bool} {skip : Option Past} {h pc : Word}

theorem entered_pc (l : Nat) : (g.entered t async skip h pc).pc l = if h.getLsbD l then pc else g.pc l :=
  eachLane_at Group.pc (fun _ _ => pc) (toHandler_pc pc) h g l

theorem entered_lane (l : Nat) : (g.entered t async skip h pc).lane l =
    if h.getLsbD l = true ∧ g.lane l ≠ .shadow then .live else g.lane l := by
  have he : (g.entered t async skip h pc).lane l = _ :=
    eachLane_at Group.lane (fun _ x => if x = .shadow then .shadow else .live) (toHandler_lane pc) h g l
  rw [he]
  by_cases hl : h.getLsbD l = true <;> by_cases hs : g.lane l = .shadow <;> simp [hl, hs]

theorem entered_blkOf (l : Nat) : (g.entered t async skip h pc).blkOf l = if h.getLsbD l then Blk.none else g.blkOf l :=
  eachLane_at Group.blkOf (fun _ _ => Blk.none) (toHandler_blkOf pc) h g l

theorem entered_r : (g.entered t async skip h pc).r = g.r.entered t async :=
  congrArg (fun r => Regs.entered r t async) (toHandlers_r pc g h)
end

theorem setTm_bit (r : Regs) {n : Nat} (hn : n < 32) :
    (r.setTm true).mstat.getLsbD n = if n = 0 then true else r.mstat.getLsbD n :=
  getLsbD_setBit hn

/-! The traps that a handler takes. -/

section
variable {s : State} {pc : Word} (htm : s.g.r.tm = false) (hh : s.g.handler = some pc)
include htm hh

theorem takeTrap_handler {t : TrapReq} (h6 : t.cause ≠ 6) (h13 : t.cause ≠ 13) (async : Bool) (h : Word) :
    s.takeTrap t async h = (s.setIss (fun i => { i with trap := some t })).enterHandler t async h pc := by
  simp [State.takeTrap, h6, h13, htm, hh, State.setIss]

/-- R26: a floating-point trap raises its flags, then is taken. -/
theorem fpTrap_handler (l : Nat) (f : BitVec 5) :
    let t := mkTrap 6 l (f.zeroExtend 64) 0 0 0
    s.fpTrap l f = ((s.setR (fun r => r.raise f)).setIss (fun i => { i with trap := some t })).enterHandler
      t false s.iss.set pc := by
  intro t
  have hf : (f.zeroExtend 64).extractLsb' 0 5 = f := by
    ext i hi
    simp [BitVec.getLsbD_eq_getElem hi]
    omega
  have htm' : (s.g.r.raise f).tm = false := htm
  simp [State.fpTrap, State.trap, State.takeTrap, t, mkTrap, hf, htm', hh, State.setIss, State.setR]
end

theorem fpTrap_r {s : State} {pc : Word} (htm : s.g.r.tm = false) (hh : s.g.handler = some pc) (hold : s.g.hold = .none)
    (hdams : ∀ d ∈ s.dams, d.grp = s.gid → ∀ r ∈ s.reqs, r.state ≠ .onBlock d.blk)
    (htake : ∀ r ∈ s.reqs, r.who ≠ .take s.gid)
    (l : Nat) (f : BitVec 5) : (s.fpTrap l f).g.r = (s.g.r.raise f).entered (mkTrap 6 l (f.zeroExtend 64) 0 0 0) false := by
  rw [fpTrap_handler htm hh, enterHandler_calm (s := (s.setR _).setIss _) hold hdams htake]
  exact entered_r

end Sys2Proof.Machine
end

section
open Sys2Proof Sys2Proof.Machine

/-- Settles O24: no cofferdam's request and no `dam.take` of the group waits, so the entry changes the group and the cofferdams
alone. -/
theorem handlerEntry : Obligations.HandlerEntry := by
  unfold Obligations.HandlerEntry
  constructor
  · intro s t async h pc htm hh h6 h13 _ _ hold hdams htake u
    have hu : u = { s.setIss (fun i => { i with trap := some t }) with
        dams := breachOf (fun d => d.grp == s.gid) s.dams, g := s.g.entered t async s.iss.skip h pc } :=
      (takeTrap_handler htm hh h6 h13 async h).trans
        (enterHandler_calm (s := s.setIss (fun i => { i with trap := some t })) hold hdams htake)
    have hg : u.g = s.g.entered t async s.iss.skip h pc := congrArg State.g hu
    have hd : u.dams = breachOf (fun d => d.grp == s.gid) s.dams := congrArg State.dams hu
    have hbytes : SameBytes s u := hu ▸ sameBytes_handler s _ _ _
    rw [hg, hd, entered_r]
    exact ⟨rfl, rfl, rfl, rfl, rfl, rfl, rfl, entered_pc, entered_lane, entered_blkOf, setTm_bit _ (by decide),
      fun n h0 hn => (setTm_bit _ hn).trans (if_neg h0.ne'), rfl, rfl, rfl, rfl, rfl, rfl,
      fun d hd hp => breachOf_breached hd (beq_iff_eq.2 hp), hbytes⟩
  · intro s l f pc htm hh hold hdams htake
    rw [fpTrap_r htm hh hold hdams htake]
    exact ⟨rfl, rfl, rfl, rfl⟩
end

section
/-! PROOF. Start-up, resets and wakes (R33, R409, R493 to R497). -/

namespace Sys2Proof.Machine

/-! ### Power-on (R493) -/

theorem linkFrame_tiles (s : State) (st f : Nat) (e : Frame) :
    (s.linkFrame st f e).tiles = s.tiles ∧ (s.linkFrame st f e).dev = s.dev := ⟨rfl, rfl⟩

theorem bootFrame_tiles (s : State) (rg : Nat) : (s.bootFrame rg).tiles = s.tiles ∧ (s.bootFrame rg).dev = s.dev := by
  unfold State.bootFrame
  extract_lets va st
  split
  · exact ⟨rfl, rfl⟩
  · split
    · exact ⟨rfl, rfl⟩
    · exact linkFrame_tiles ..

theorem bootFrames_tiles (s : State) (rs : List Nat) :
    (rs.foldl State.bootFrame s).tiles = s.tiles ∧ (rs.foldl State.bootFrame s).dev = s.dev :=
  ⟨foldl_get_keep State.tiles (fun s x => (bootFrame_tiles s x).1) rs s,
    foldl_get_keep State.dev (fun s x => (bootFrame_tiles s x).2) rs s⟩

/-- `State.loadImage` of an image of `n` bytes in regions `rs`: its length is the host's, and its evaluation is not wanted. -/
def State.loadRegions (s : State) (k n : Nat) (rs : List Nat) : State :=
  let s := rs.foldl State.bootFrame s
  let s := { s with mem := mapSetBytes s.mem (memKey 0 0 (imageBase k)) ((List.range n).map (Config.firmwareByte k)) }
  { s with pins := s.pins ++ [⟨0, rs.headD 0, rs.length, .boot⟩] }

theorem loadImage_eq (s : State) (k : Nat) : ∃ n rs, s.loadImage k = s.loadRegions k n rs := ⟨_, _, rfl⟩

theorem loadImage_tiles (s : State) (k : Nat) : (s.loadImage k).tiles = s.tiles ∧ (s.loadImage k).dev = s.dev := by
  obtain ⟨n, rs, h⟩ := loadImage_eq s k
  obtain ⟨ht, hd⟩ := bootFrames_tiles s rs
  rw [h]
  exact ⟨ht, hd⟩

/-- What start-up decides of a tile: its stage, its measurement and its failure. -/
def State.bootView (s : State) (k : Nat) : Nat × BitVec 512 × Nat := ((s.tile k).stage, (s.tile k).meas, (s.tile k).failcode)

/-- What the boot ROM of tile `k` makes of it. -/
def bootUpd (k : Nat) (v : Nat × BitVec 512 × Nat) : Nat × BitVec 512 × Nat :=
  if Config.startUp k % 3 = 0 then (2, Config.shake512 0 (Config.imageDigest k), v.2.2) else (15, v.2.1, Config.startUp k % 3)

theorem bootTile_view (s : State) (t k : Nat) :
    (s.bootTile t).bootView k = if k = t then bootUpd t (s.bootView t) else s.bootView k := by
  have hr (u : State) : ((u.readHandler t).readHandler (8 + t)).bootView k = u.bootView k := by
    simp only [State.bootView, State.tile, (readHandler_tiles ..).1]
  unfold State.bootTile
  split
  · next h =>
    rw [hr]
    by_cases e : k = t <;> simp [State.bootView, bootUpd, h, e]
  · next c hc =>
    have h : ¬ Config.startUp t % 3 = 0 := hc
    by_cases e : k = t <;> simp [State.bootView, bootUpd, h, e]

theorem bootTile_dev (s : State) (t : Nat) : (s.bootTile t).dev = s.dev := by
  unfold State.bootTile
  split
  · exact (readHandler_tiles ..).2.trans (readHandler_tiles ..).2
  · rfl

/-- Power-on's state once every boot ROM has run. -/
def State.afterBoot (s : State) : State := (List.range 8).foldl State.bootTile ((s.loadImage 0).loadImage 1)

theorem afterBoot_view (s : State) {k : Nat} (hk : k < 8) : s.afterBoot.bootView k = bootUpd k (s.bootView k) := by
  have hl : ((s.loadImage 0).loadImage 1).bootView k = s.bootView k := by
    simp only [State.bootView, State.tile, (loadImage_tiles ..).1]
  have h := foldl_get_at State.bootView bootUpd bootTile_view k (List.range 8) ((s.loadImage 0).loadImage 1) List.nodup_range
  rw [if_pos (List.mem_range.2 hk), hl] at h
  exact h

theorem afterBoot_dev (s : State) : s.afterBoot.dev = s.dev :=
  (foldl_get_keep State.dev bootTile_dev _ _).trans ((loadImage_tiles ..).2.trans (loadImage_tiles ..).2)

/-- R493: the device is on; the tiles are as their boot ROMs left them. -/
theorem execPowerOnBoot_on {s : State} (hp : s.dev.poweredOn = false) (hf : s.dev.failcode = 0) :
    ∃ t, exec .powerOnBoot s = .next t ∧ t.tiles = s.afterBoot.tiles ∧ t.dev.poweredOn = true ∧ t.dev.run = s.dev.run := by
  have he : exec .powerOnBoot s = execPowerOnBoot s := rfl
  have hd : s.afterBoot.dev.run = s.dev.run := congrArg Dev.run (afterBoot_dev s)
  have hc : ¬ (s.dev.poweredOn || s.dev.failcode != 0) = true := by simp [hp, hf]
  rw [he, execPowerOnBoot, if_neg hc]
  have hb : (List.range 8).foldl State.bootTile ((s.loadImage 0).loadImage 1) = s.afterBoot := rfl
  dsimp only
  rw [hb]
  generalize s.afterBoot = b at hd ⊢
  split
  · exact ⟨_, rfl, rfl, rfl, hd⟩
  · split <;> exact ⟨_, rfl, rfl, rfl, hd⟩

theorem fatal_tile (s : State) (k : Nat) : s.fatal.tile k = s.tile k := rfl

/-- Start-up's end is the lead core's (R495). -/
theorem execRun_of {s : State} (hp : s.dev.poweredOn = true) (hr : s.dev.run = false) (hf : s.dev.failcode = 0) :
    ∃ t, exec .run s = .next t ∧
      if Config.startUpEnd % 3 = 0 then t.dev.run = true ∧ (t.tile 0).stage = 3 ∧ t.dev.fatal = s.dev.fatal
      else t.dev.run = false ∧ (t.tile 0).stage = 15 ∧ t.dev.failcode = Config.startUpEnd % 3 + 2 ∧ t.dev.fatal = true := by
  have hc : ¬ (!s.dev.poweredOn || s.dev.run || s.dev.failcode != 0) = true := by simp [hp, hr, hf]
  rw [show exec .run s = execRun s from rfl, execRun, if_neg hc]
  generalize Config.startUpEnd % 3 = n
  cases n with
  | zero => exact ⟨_, rfl, rfl, congrArg Tile.stage ((setTile_tile ..).trans (if_pos rfl)), rfl⟩
  | succ n =>
    refine ⟨_, rfl, hr, ?_, rfl, rfl⟩
    rw [fatal_tile, setTile_tile, if_pos rfl]

/-! ### The wake of a base-tile core (R497) -/

/-- A woken core is LIVE at packet 0 with what woke it in `s4`. -/
theorem wakeBase_getG {s : State} {u : Nat} {x : DWord} {y : Group} (h : s.getG u = some y) :
    ∃ g, (s.wakeBase u x).getG u = some g ∧ g.lane 0 = .live ∧ g.pc 0 = 0 ∧ g.r.rdS 4 = x := by
  have hg : (s.wakeBase u x).getG u = Option.map _ (some y) := (getG_modG ..).trans (by rw [if_pos rfl, h])
  exact ⟨_, hg, (setLane_lane y 0 0 .live).trans (if_pos rfl),
    (setPc_pc _ 0 0 0).trans (if_pos rfl), rdS_wrS.trans (if_pos rfl)⟩

/-- R33: a base-tile core's reset leaves of it what `Group.baseReset` is, and its handler word to be read. -/
theorem execCoreReset_of {u : Nat} {s : State} (hu : u < 16) (hst : (s.tile (u % 8)).stage ≠ 15)
    (htaken : 8 ≤ u → s.coreTaken (u - 8) = false) (hg : (s.getG u).isSome = true)
    (hl : ∀ x, s.getG u = some x → x.laneAt 0 ≠ .halted) :
    ∃ t ho hd, exec (.coreReset u) s = .next t ∧ t.getG u = some { Group.baseReset u with hold := ho, handler := hd } := by
  obtain ⟨y, hy⟩ := Option.isSome_iff_exists.1 hg
  have hc : ¬ (16 ≤ u || (s.tile (u % 8)).stage = 15 || (8 ≤ u && s.coreTaken (u - 8))
    || ((s.getG u).map (fun g => g.laneAt 0 == .halted)).getD false) = true := by
    have := hl y hy
    by_cases h8 : 8 ≤ u
    · simp [hst, hy, htaken h8, this]; omega
    · simp [hst, hy, this]; omega
  rw [show exec (.coreReset u) s = execCoreReset u s from rfl, execCoreReset, if_neg hc]
  extract_lets mine v w
  have hm : (w.modG u (fun _ => Group.baseReset u)).getG u = some (Group.baseReset u) :=
    (getG_modG ..).trans (by rw [if_pos rfl, show w.getG u = some y from hy]; rfl)
  obtain ⟨ho, hd, hr⟩ := readHandler_getG hm u
  exact ⟨_, ho, hd, rfl, hr.trans (if_pos rfl)⟩

theorem asleep_getG {s : State} {u : Nat} (h : s.asleep u = true) : ∃ y, s.getG u = some y ∧ y.lane 0 = .exited := by
  have hl := (Bool.and_eq_true_iff.1 h).2
  cases hg : s.getG u with
  | none => simp [hg] at hl
  | some y => exact ⟨y, rfl, by simpa [hg] using hl⟩

/-! ### What is written into a tile's rings (R405, R497) -/

/-- Tiles and the states of lanes stand. -/
structure LanesStand (s t : State) : Prop where
  tiles : t.tiles = s.tiles
  lanes : ∀ k, (t.getG k).map Group.lsv = (s.getG k).map Group.lsv

namespace LanesStand
variable {s t u : State}

theorem refl : LanesStand s s := ⟨rfl, fun _ => rfl⟩

theorem trans (h : LanesStand s t) (h' : LanesStand t u) : LanesStand s u :=
  ⟨h'.tiles.trans h.tiles, fun k => (h'.lanes k).trans (h.lanes k)⟩

theorem of_translated (h : Translated s t) : LanesStand s t := ⟨h.tiles, fun k => by rw [h.getG]⟩

theorem wrByte (s : State) (l : Loc) (i : Nat) (b : Byte) : LanesStand s (s.wrByte l i b) := by
  cases l with
  | reg q x =>
    refine ⟨modG_tiles .., fun k => ?_⟩
    simp only [State.wrByte, getG_modG]
    split
    · next e => cases hg : s.getG q <;> simp [e, hg]
    · rfl
  | _ => exact ⟨rfl, fun _ => rfl⟩

theorem wrBytesFrom (l : Loc) : ∀ (bs : List Byte) (s : State) (i : Nat), LanesStand s (s.wrBytesFrom l i bs)
  | [], _, _ => refl
  | b :: bs, s, i => (wrByte s l i b).trans (wrBytesFrom l bs _ _)

theorem ringWrite (s : State) (w : ReqWho) (va n x : Nat) : LanesStand s (s.ringWrite w va n x).1 := by
  have h := of_translated (locate_translated s .store false 0 0 va)
  unfold State.ringWrite
  split
  · next u l hu =>
    rw [hu] at h
    split
    · exact h.trans (of_translated (addReq_translated ..))
    · have hw : LanesStand u (u.wrLoc l n x) := wrBytesFrom l _ u 0
      dsimp only
      split
      · exact (h.trans hw).trans (of_translated (markDirty_translated ..))
      · exact h.trans hw
  · next u hu =>
    rw [hu] at h
    exact h.trans (of_translated (addReq_translated ..))
  · next u r hu =>
    rw [hu] at h
    exact h.trans (of_translated (addReq_translated ..))
end LanesStand

/-- What the pump of a tile's rings keeps for pager core `k`: the state of its tile and of its lane, and that its ring is not
empty. -/
structure RingKept (k : Nat) (s t : State) : Prop where
  stage : (t.tile k).stage = (s.tile k).stage
  lost : (t.tile k).lost = (s.tile k).lost
  cons : (t.tile k).prCons = (s.tile k).prCons
  ring : (t.tile k).pagerRing = (s.tile k).pagerRing
  prod : (s.tile k).prProd ≠ (s.tile k).prCons → (t.tile k).prProd ≠ (t.tile k).prCons
  lanes : (t.getG k).map Group.lsv = (s.getG k).map Group.lsv

/-- A ring with room does not come to look empty. -/
theorem ring_not_empty {p c n : Nat} (hn : n ≤ 2 ^ 16) (hroom : ¬ n ≤ (p + 2 ^ 32 - c) % 2 ^ 32) : (p + 1) % 2 ^ 32 ≠ c := by
  omega

theorem ringSize_le (d : DWord) : ringSize d ≤ 2 ^ 16 := by
  unfold ringSize
  exact Nat.pow_le_pow_right (by decide) (by omega)

namespace RingKept
variable {k : Nat} {s t u : State}

theorem of_stand (h : LanesStand s t) : RingKept k s t :=
  have ht : t.tile k = s.tile k := congrArg (mapGet Tile.dflt · k) h.tiles
  ⟨by rw [ht], by rw [ht], by rw [ht], by rw [ht], fun hp => by rwa [ht], h.lanes k⟩

theorem refl : RingKept k s s := of_stand .refl

theorem trans (h : RingKept k s t) (h' : RingKept k t u) : RingKept k s u where
  stage := h'.stage.trans h.stage
  lost := h'.lost.trans h.lost
  cons := h'.cons.trans h.cons
  ring := h'.ring.trans h.ring
  prod := h'.prod ∘ h.prod
  lanes := h'.lanes.trans h.lanes

theorem foldl {α : Type} {f : State → α → State} (hf : ∀ s x, RingKept k s (f s x)) :
    ∀ (xs : List α) (s : State), RingKept k s (xs.foldl f s)
  | [], _ => refl
  | x :: xs, s => (hf s x).trans (foldl hf xs (f s x))

theorem setTile {q : Nat} {f : Tile → Tile} (hstage : (f (s.tile q)).stage = (s.tile q).stage)
    (hlost : (f (s.tile q)).lost = (s.tile q).lost) (hcons : (f (s.tile q)).prCons = (s.tile q).prCons)
    (hring : (f (s.tile q)).pagerRing = (s.tile q).pagerRing)
    (hprod : (s.tile q).prProd ≠ (s.tile q).prCons → (f (s.tile q)).prProd ≠ (s.tile q).prCons) :
    RingKept k s (s.setTile q f) := by
  have ht : (s.setTile q f).tile k = if k = q then f (s.tile q) else s.tile k := setTile_tile ..
  by_cases e : k = q
  · subst e
    rw [if_pos rfl] at ht
    exact ⟨ht ▸ hstage, ht ▸ hlost, ht ▸ hcons, ht ▸ hring, fun h => by rw [ht, hcons]; exact hprod h, rfl⟩
  · rw [if_neg e] at ht
    exact ⟨by rw [ht], by rw [ht], by rw [ht], by rw [ht], fun h => by rwa [ht], rfl⟩

/-- R405: an error record is no item, and moves no lane. -/
theorem pumpRec (s : State) (q : Nat) : RingKept k s (s.pumpRec q) := by
  unfold State.pumpRec
  split
  · exact refl
  · next e _ =>
    extract_lets tl base va rest
    have hrest : ∀ u, LanesStand u (rest u) := fun u => ⟨rfl, fun _ => rfl⟩
    split
    · exact (of_stand (hrest s)).trans (setTile rfl rfl rfl rfl id)
    · split
      · exact refl
      · have h := LanesStand.ringWrite s (.errRec q) va 64
        split
        · next u hu => exact of_stand (hu ▸ h _ :)
        · next u hu =>
          have hu : LanesStand s u := (hu ▸ h _ : LanesStand s (u, true).1)
          exact (of_stand (hu.trans (hrest u))).trans (setTile rfl rfl rfl rfl id)

/-- R497: an item enters the ring of its tile only where the ring has room. -/
theorem pumpItem (s : State) (it : Item) : RingKept k s (s.pumpItem it) := by
  unfold State.pumpItem
  extract_lets t n va
  split
  · exact refl
  · next hc =>
    have hroom : ¬ n ≤ (t.prProd + 2 ^ 32 - t.prCons) % 2 ^ 32 := fun hn =>
      hc (by simp only [Bool.or_eq_true, decide_eq_true_eq]; exact .inl (.inr hn))
    have h := LanesStand.ringWrite s (.ring it.tile) va 64 it.bytes
    split
    · next u hu =>
      rw [hu] at h
      exact of_stand h
    · next u hu =>
      rw [hu] at h
      extract_lets up v
      have hv : LanesStand s v := h.trans ⟨rfl, fun _ => rfl⟩
      have ht : v.tile it.tile = t := congrArg (mapGet Tile.dflt · it.tile) hv.tiles
      refine (of_stand hv).trans (setTile rfl rfl rfl rfl fun _ => ?_)
      rw [ht]
      exact ring_not_empty (ringSize_le _) hroom

theorem pump (s : State) (q : Nat) : RingKept k s (s.pump q) :=
  (foldl (fun s _ => pumpRec s q) _ s).trans (foldl pumpItem _ _)
end RingKept

theorem asleep_of_ringKept {k : Nat} {s t : State} (hk : k < 8) (h : RingKept k s t) (ha : s.asleep k = true) :
    t.asleep k = true := by
  have hm : k % 8 = k := Nat.mod_eq_of_lt hk
  have h8 : ¬ 8 ≤ k := by omega
  have hl : (t.getG k).map (fun g => g.lane 0 == .exited) = (s.getG k).map (fun g => g.lane 0 == .exited) := by
    have := congrArg (Option.map (fun m : Map LaneState => mapGet .exited m 0 == .exited)) h.lanes
    simpa [Option.map_map, Function.comp_def, Group.lane] using this
  simp only [State.asleep, hm, h8] at ha ⊢
  rw [h.stage, h.lost, hl]
  exact ha

theorem execPagerWake_of {k : Nat} {s : State} (hk : k < 8) (ha : s.asleep k = true)
    (hp : (s.tile k).prProd ≠ (s.tile k).prCons) :
    ∃ t : State, exec (.pagerWake k) s = .next (t.wakeBase k (BitVec.ofNat 64
      (ringBase (s.tile k).pagerRing + 64 * ((s.tile k).prCons % ringSize (s.tile k).pagerRing)))) ∧ t.asleep k = true := by
  have h := RingKept.pump (k := k) s k
  have ha' := asleep_of_ringKept hk h ha
  refine ⟨s.pump k, ?_, ha'⟩
  have h8 : ¬ 8 ≤ k := by omega
  rw [show exec (.pagerWake k) s = execPagerWake k s from rfl, execPagerWake]
  have hne : ¬ (((s.pump k).tile k).prProd == (s.tile k).prCons) = true := by
    rw [← h.cons]
    simpa using h.prod hp
  simp only [h8, if_false, decide_false, Bool.false_or, ha', Bool.not_true, h.cons, h.ring, if_neg hne]

theorem execTmcWake_of {k c : Nat} {s : State} (hk : k < 8) (ha : s.asleep (8 + (s.tile k).owner) = true)
    (hw : s.wakeDue k c = true) :
    ∃ t : State, exec (.tmcWake k c) s = .next (t.wakeBase (8 + (s.tile k).owner) (BitVec.ofNat 64 c)) ∧
      ∀ q, t.getG q = s.getG q := by
  have h8 : ¬ 8 ≤ k := by omega
  rw [show exec (.tmcWake k c) s = execTmcWake k c s from rfl, execTmcWake, if_neg (by simp [h8, ha, hw])]
  exact ⟨_, rfl, fun _ => rfl⟩

theorem length_leBytes : ∀ n x : Nat, (leBytes n x).length = n
  | 0, _ => rfl
  | n + 1, x => congrArg (· + 1) (length_leBytes n (x / 256))

theorem report_length (s : State) (n : Nat) : (s.report n).length = 1856 := by
  simp [State.report, length_leBytes]

/-- R494: the report stands in host memory. -/
theorem attestation_host (s : State) (a : DWord) {i : Nat} (hi : i < 1856) :
    mapGet 0 (mapSetBytes s.host (hostKey 0 a.toNat) (s.report s.free)) (hostKey 0 a.toNat + i) = (s.report s.free).getD i 0 := by
  have hr : hostKey 0 a.toNat ≤ hostKey 0 a.toNat + i ∧
      hostKey 0 a.toNat + i < hostKey 0 a.toNat + (s.report s.free).length := by rw [report_length]; omega
  rw [mapGet_mapSetBytes, if_pos hr, Nat.add_sub_cancel_left]

theorem execAttestation_of {a : DWord} {s : State} (h : s.dev.attestBusy = some a) : exec (.attestation a) s =
    .next ({ s with host := mapSetBytes s.host (hostKey 0 a.toNat) (s.report s.free), free := s.free + 1 }.setDev
      (fun d => { d with attestBusy := none, attest := 1 })) := by
  rw [show exec (.attestation a) s = execAttestation a s from rfl, execAttestation, h]
  simp

end Sys2Proof.Machine
end

section
open Sys2Proof Sys2Proof.Machine

/-- Settles O42: what each event of start-up does; the pump of a ring before a pager's wake keeps the core asleep and its ring
not empty. -/
theorem startUp : Obligations.StartUp := by
  unfold Obligations.StartUp
  refine ⟨fun s hp hf _ => ?power, fun s hp hr hf => execRun_of hp hr hf, fun u s hu hst htaken hg hl => ?core,
    fun s => ⟨_, show exec .deviceReset s = execDeviceReset s from rfl, ?device⟩,
    fun a s h => ⟨_, execAttestation_of h, ?attest⟩, fun k s hk ha hp => ?pager, fun k c s hk ha hw => ?tmc⟩
  case power =>
    obtain ⟨t, he, ht, hon, hrun⟩ := execPowerOnBoot_on hp hf
    refine ⟨t, he, hon, hrun, fun k hk => ?_⟩
    have hv : t.bootView k = bootUpd k (s.bootView k) := by
      rw [← afterBoot_view s hk, State.bootView, State.tile, ht]
      rfl
    unfold State.bootView bootUpd at hv
    by_cases h : Config.startUp k % 3 = 0
    · rw [if_pos h] at hv ⊢
      exact ⟨congrArg Prod.fst hv, congrArg (fun v => v.2.1) hv⟩
    · rw [if_neg h] at hv ⊢
      exact ⟨congrArg Prod.fst hv, congrArg (fun v => v.2.2) hv⟩
  case core =>
    obtain ⟨t, ho, hd, he, hr⟩ := execCoreReset_of hu hst htaken hg hl
    obtain ⟨kind, tile, hb⟩ := baseReset_eq u
    rw [hb] at hr
    exact ⟨t, _, he, hr, rfl, rfl, rfl, rfl, rfl, rfl, rfl, rfl, rfl, rfl⟩
  case device => exact ⟨rfl, rfl, rfl, rfl, rfl, rfl, rfl, rfl, rfl, rfl, rfl, rfl, rfl, rfl⟩
  case attest =>
    refine ⟨rfl, rfl, fun i hi => ?_, rfl⟩
    dsimp only [State.setDev]
    exact attestation_host s a hi
  case pager =>
    obtain ⟨t, he, hs⟩ := execPagerWake_of hk ha hp
    obtain ⟨y, hy, -⟩ := asleep_getG hs
    obtain ⟨g, hg, hlane, hpc, hs4⟩ := wakeBase_getG hy
    exact ⟨_, g, he, hg, hlane, hpc, hs4⟩
  case tmc =>
    obtain ⟨t, he, ht⟩ := execTmcWake_of hk ha hw
    obtain ⟨y, hy, -⟩ := asleep_getG ha
    obtain ⟨g, hg, hlane, hpc, hs4⟩ := wakeBase_getG ((ht _).trans hy)
    exact ⟨_, g, he, hg, hlane, hpc, hs4⟩
end

section
/-! PROOF. The fetch of the issue set's packet (R18 to R20, R37, R136, R142, R404, R405). -/

namespace Sys2Proof.Machine

/-! ### Little-endian numbers (R3) -/

theorem leNat_drop : ∀ (k : Nat) (bs : List Byte), leNat (bs.drop k) = leNat bs / 256 ^ k
  | 0, bs => by simp
  | k + 1, [] => by simp [leNat]
  | k + 1, b :: bs => by
    have hb : (b.toNat + 256 * leNat bs) / 256 = leNat bs := by have := b.isLt; omega
    rw [List.drop_succ_cons, leNat_drop k bs, leNat, Nat.pow_succ', ← Nat.div_div_eq_div_mul, hb]

theorem leNat_take : ∀ (k : Nat) (bs : List Byte), leNat (bs.take k) = leNat bs % 256 ^ k
  | 0, bs => by simp [leNat, Nat.mod_one]
  | k + 1, [] => by simp [leNat]
  | k + 1, b :: bs => by
    have hm : (b.toNat + 256 * leNat bs) % 256 = b.toNat := by have := b.isLt; omega
    have hd : (b.toNat + 256 * leNat bs) / 256 = leNat bs := by have := b.isLt; omega
    rw [List.take_succ_cons, leNat, leNat, leNat_take k bs, Nat.pow_succ', Nat.mod_mul, hm, hd]

theorem leNat_lt : ∀ bs : List Byte, leNat bs < 256 ^ bs.length
  | [] => by simp [leNat]
  | b :: bs => by
    have := leNat_lt bs
    have := b.isLt
    rw [leNat, List.length_cons, Nat.pow_succ']
    omega

theorem rdLoc_lt (s : State) (l : Loc) : s.rdLoc l 12 < 2 ^ 96 := by
  have h := leNat_lt (s.rdBytes l 12)
  rwa [show (s.rdBytes l 12).length = 12 by simp [State.rdBytes], show (256 : Nat) ^ 12 = 2 ^ 96 by norm_num] at h

theorem leNat_digits (n : Nat) : ∀ x : Nat,
    leNat ((List.range n).map (fun i => BitVec.ofNat 8 (x / 256 ^ i))) = x % 256 ^ n := by
  induction n with
  | zero => simp [leNat, Nat.mod_one]
  | succ n ih =>
    intro x
    have ht : (fun i => BitVec.ofNat 8 (x / 256 ^ (i + 1))) = fun i => BitVec.ofNat 8 (x / 256 / 256 ^ i) :=
      funext fun i => by rw [Nat.div_div_eq_div_mul, ← Nat.pow_succ']
    rw [List.range_succ_eq_map, List.map_cons, List.map_map, leNat, Function.comp_def]
    simp only [Nat.succ_eq_add_one]
    rw [ht, ih, Nat.pow_succ', Nat.mod_mul]
    simp

/-- The words of a packet are those of its 12 bytes (R37). -/
theorem packetWord {bs : List Byte} {x i : Nat} (hx : leNat bs = x % 2 ^ 96) (hi : i < 3) :
    BitVec.ofNat 32 (leNat ((bs.drop (4 * i)).take 4)) = BitVec.ofNat 32 (x / 2 ^ (32 * i)) := by
  apply BitVec.eq_of_toNat_eq
  rw [leNat_take, leNat_drop, hx, BitVec.toNat_ofNat, BitVec.toNat_ofNat]
  interval_cases i <;> omega

/-- The bits of `CODE_BASE` past the address space (R18). -/
theorem codeBase_reach (x : DWord) : (x.extractLsb' 57 7 != 0) = decide (x.toNat / 2 ^ 57 ≠ 0) := by
  have hx : x.toNat / 2 ^ 57 < 2 ^ 7 := by have := x.isLt; omega
  rw [bne, beq_eq_decide, ← decide_not, decide_eq_decide]
  refine not_congr ⟨fun h => ?_, fun h => ?_⟩
  · have := congrArg BitVec.toNat h
    rw [BitVec.extractLsb'_toNat, Nat.shiftRight_eq_div_pow, Nat.mod_eq_of_lt hx] at this
    exact this
  · apply BitVec.eq_of_toNat_eq
    rw [BitVec.extractLsb'_toNat, Nat.shiftRight_eq_div_pow, Nat.mod_eq_of_lt hx, h]
    rfl

/-! ### From the fetch of a packet to the read of its bytes -/

section
variable {s u : State} {a : Nat}

/-- A packet within reach of `CODE_BASE` raises no fetch-address trap. -/
theorem fetch_inReach {x : DWord} (hb : x.toNat < 2 ^ 57) (hl : a + 12 ≤ 2 ^ 57) :
    ¬ (x.extractLsb' 57 7 != 0 || decide (2 ^ 57 < a + 12)) = true := by
  rw [codeBase_reach]
  simp
  omega

section
variable (hpc : pcSlot s.iss.pc ≠ 3) (ha : a = packetAddr s.g.r.codeBase (pcPacket s.iss.pc))
  (hb : s.g.r.codeBase.toNat < 2 ^ 57) (hl : a + 12 ≤ 2 ^ 57)
include hpc ha hb hl

theorem fetchPacket_hand {p : Packet} (hp : s.g.pkt = some p) (hi : p.idx = pcPacket s.iss.pc) : s.fetchPacket = s := by
  subst ha
  rw [State.fetchPacket, if_neg hpc, if_neg (fetch_inReach hb hl), hp]
  exact if_pos hi

theorem fetchPacket_new (hp : ∀ p, s.g.pkt = some p → p.idx ≠ pcPacket s.iss.pc) : s.fetchPacket = s.fetchNew a := by
  subst ha
  rw [State.fetchPacket, if_neg hpc, if_neg (fetch_inReach hb hl)]
  split
  · next p hk => exact if_neg (hp p hk)
  · rfl
end

theorem fetchBytes_one (h : a % 64 ≤ 52) : s.fetchBytes a = s.fetchPart a 12 := by
  have hn : (a % 64 + 12 + 63) / 64 = 1 := by omega
  have hlo : max a (alignDown a 64 + 64 * 0) = a := by unfold alignDown; omega
  have hlen : min (a + 12) (alignDown a 64 + 64 * (0 + 1)) - a = 12 := by unfold alignDown; omega
  have hp : blockParts a 12 = [(a, 12)] := by
    simp only [blockParts, hn, List.range_one, List.map_cons, List.map_nil, hlo, hlen]
  rw [State.fetchBytes, hp]
  simp only [List.foldl_cons, List.foldl_nil]
  rcases s.fetchPart a 12 with ⟨u, _ | _ | _⟩ <;> simp

theorem fetchNew_bytes {bs : List Byte} {x : Nat} (h : s.fetchBytes a = (u, .bytes bs false)) (hx : leNat bs = x % 2 ^ 96) :
    s.fetchNew a = u.setG (fun g => { g with pkt := some ⟨pcPacket u.iss.pc, BitVec.ofNat 32 (x / 2 ^ (32 * 0)),
      BitVec.ofNat 32 (x / 2 ^ (32 * 1)), BitVec.ofNat 32 (x / 2 ^ (32 * 2))⟩ }) := by
  rw [State.fetchNew, h]
  simp only [Bool.false_eq_true, if_false, packetWord hx (show 0 < 3 by decide), packetWord hx (show 1 < 3 by decide),
    packetWord hx (show 2 < 3 by decide)]

end

/-! ### Bytes that stand at home (R404) -/

theorem countNow_only (s : State) (gr : Option Nat) (a va : Nat) : ∃ ps, s.countNow gr a va = { s with polders := ps } := by
  unfold State.countNow State.countSlack
  dsimp only
  split
  · exact ⟨_, rfl⟩
  · split <;> exact ⟨_, rfl⟩

theorem settleUndo_only (s : State) (l : Loc) (n : Nat) : ∃ ss, s.settleUndo l n = { s with stores := ss } := by
  unfold State.settleUndo State.settleKeys
  split
  · split <;> exact ⟨_, rfl⟩
  · exact ⟨_, rfl⟩

/-- `s` with other grids, polders and stores: what an access that is served leaves behind. -/
def State.withServed (s : State) (gs : Map (Option Grid)) (ps : Map Polder) (ss : List PendStore) : State :=
  { s with grids := gs, polders := ps, stores := ss }

theorem served_only (s : State) (gr : Option Nat) (a va n : Nat) (l : Loc) :
    ∃ gs ps ss, ((s.reloadFade a va).countNow gr a va).settleUndo l n = s.withServed gs ps ss := by
  obtain ⟨gs, hgs, -⟩ := reloadFade_only s a va
  obtain ⟨ps, hps⟩ := countNow_only (s.reloadFade a va) gr a va
  obtain ⟨ss, hss⟩ := settleUndo_only ((s.reloadFade a va).countNow gr a va) l n
  exact ⟨gs, ps, ss, by rw [hss, hps, hgs]; rfl⟩

section
variable {s : State} {a : Nat}

theorem fetchPart_off {n : Nat} (hon : onChip a = false) (ht : inTable a = false) : s.fetchPart a n = s.fetchOff a n := by
  simp [State.fetchPart, hon, ht]

theorem pieceByte_home {l : Loc} {n i : Nat} (hl : ∀ o, l ≠ .mgmt o) (hv : s.g.view = 0) (hd : s.ownDam l = none) :
    s.pieceByte ⟨a, n, l, none, false⟩ i = s.rdByte l i := by
  unfold State.pieceByte
  simp only [hd, hv, if_true]

theorem pieceByte_copy {l : Loc} {n i : Nat} {b : L1Block} (hv : s.g.view = 0) (hd : s.ownDam l = none) :
    s.pieceByte ⟨a, n, l, some b, false⟩ i = BitVec.ofNat 8 (recField b.data ((a + i) % 64) 1) := by
  simp only [State.pieceByte, hd, hv, if_true]

/-- A core without level-1 finds the packet at home (R202, R240). -/
theorem fetchOff_home (ht : inTable a = false) (hv : s.g.view = 0) (hc : s.g.isCompute = false) (hs : Stands s s.g.asid a 12)
    (hd : s.ownDam (.home s.g.asid 0 a) = none) :
    s.fetchOff a 12 = (((s.reloadFade s.g.asid a).countNow none s.g.asid a).settleUndo (.home s.g.asid 0 a) 12,
      .bytes (s.rdBytes (.home s.g.asid 0 a) 12) (s.locPois (.home s.g.asid 0 a) 12)) := by
  obtain ⟨gs, hgs, -⟩ := reloadFade_only s s.g.asid a
  have hgr : (s.reloadFade s.g.asid a).gridOfWho (.lanes (s.reloadFade s.g.asid a).gid 0) = none := by
    rw [hgs]
    simp [State.gridOfWho, State.getG, State.withGrids, hc]
  have hl := locate_of_stands .fetch false hs
  unfold State.fetchOff
  simp only [ht, hv, hc, Bool.false_eq_true, if_false, if_true, Bool.false_and, Option.bind_none, hl, hgr]
  obtain ⟨gs, ps, ss, hu⟩ := served_only s none s.g.asid a 12 (.home s.g.asid 0 a)
  rw [hu]
  have hb : ∀ i, (s.withServed gs ps ss).pieceByte ⟨a, 12, .home s.g.asid 0 a, none, false⟩ i =
      s.rdByte (.home s.g.asid 0 a) i :=
    fun i => pieceByte_home (fun _ => nofun) hv hd
  rw [funext hb]
  rfl

/-- The bytes of a level-1 block from `a` on, where they end in it. -/
theorem copy_bytes {l : Loc} {b : L1Block} (hm : a % 64 ≤ 52) (hv : s.g.view = 0) (hd : s.ownDam l = none) :
    leNat ((List.range 12).map (s.pieceByte ⟨a, 12, l, some b, false⟩)) = b.data / 2 ^ (8 * (a % 64)) % 2 ^ 96 := by
  have hb : (List.range 12).map (s.pieceByte ⟨a, 12, l, some b, false⟩) =
      (List.range 12).map (fun i => BitVec.ofNat 8 (b.data / 2 ^ (8 * (a % 64)) / 256 ^ i)) := by
    refine List.map_congr_left fun i hi => ?_
    have hi : i < 12 := List.mem_range.1 hi
    have hmod : (a + i) % 64 = a % 64 + i := by omega
    rw [pieceByte_copy hv hd, hmod, recField, Nat.pow_mul, Nat.div_div_eq_div_mul, ← Nat.pow_add]
    apply BitVec.eq_of_toNat_eq
    simp
  rw [hb, leNat_digits, show (256 : Nat) ^ 12 = 2 ^ 96 by norm_num]

/-- A level-1 block that is still there serves the packet (R201, R240). -/
theorem fetchOff_copy {b : L1Block} (ht : inTable a = false) (hv : s.g.view = 0) (hc : s.g.isCompute = true)
    (hd : s.ownDam (.home s.g.asid 0 a) = none) (hx : b.x = true) {s' : State}
    (hl : s.l1Serve s.g.asid 0 a 12 = (s', some b)) :
    s.fetchOff a 12 = (s', .bytes ((List.range 12).map (s'.pieceByte ⟨a, 12, .home s.g.asid 0 a, some b, false⟩)) false) := by
  unfold State.fetchOff
  simp only [ht, hv, hc, Bool.false_eq_true, if_false, if_true, Bool.not_false, Bool.and_self, hd, Option.isNone_none, hl,
    Option.bind_some, hx]

/-- A block that level-1 finds is still there, or was evicted (log 10). -/
theorem l1Serve_cases {b : L1Block} {asid view va n : Nat}
    (hf : s.l1Find s.gid s.core (blkKey asid view va) (va % 64) n = some b) :
    (∃ u, s.l1Serve asid view va n = (u, none) ∧ ∀ c ∈ u.l1, ¬ (c.core = s.core ∧ c.blk = blkKey asid view va)) ∨
      s.l1Serve asid view va n = ((s.choose 2).1, some b) := by
  simp only [State.l1Serve, hf]
  split
  · next u hu => exact .inr (by rw [hu])
  · next u k hk hu =>
    refine .inl ⟨_, rfl, fun c hc => ?_⟩
    have hcore : u.core = s.core := (congrArg (fun x => State.core x.1) hu).symm
    have hb : (!(c.core == u.core && c.blk == blkKey asid view va)) = true := (List.mem_filter.1 hc).2
    rintro ⟨h1, h2⟩
    simp [hcore, h1, h2] at hb

theorem locate_of_absent {k : AccKind} {bypass : Bool} (h : Absent s s.g.asid a) :
    s.locate k bypass s.g.asid 0 a = (s.reloadFade s.g.asid a, .miss) := by
  obtain ⟨gs, hs, -⟩ := reloadFade_only s s.g.asid a
  have hf : (s.withGrids gs).findFrame ((s.withGrids gs).stackOf s.g.asid a) s.g.asid 0 a = none := by
    rw [findFrame_congr (t := s.withGrids gs) (s := s) rfl rfl, stackOf_congr (t := s.withGrids gs) (s := s) rfl]
    exact h.frame
  have hg : Absent (s.withGrids gs) s.g.asid a := ⟨h.line, hf, h.cached, h.calm⟩
  simp only [State.locate, State.locateKey, State.locateFrame, hs, cowBusy_calm hg.calm, hg.line, hg.frame, hg.cached,
    Bool.false_eq_true, if_false]

theorem fetchOff_absent (ht : inTable a = false) (hv : s.g.view = 0) (hc : s.g.isCompute = false) (h : Absent s s.g.asid a) :
    s.fetchOff a 12 = (s.reloadFade s.g.asid a, .park s.g.asid 0 a .fresh) := by
  unfold State.fetchOff
  simp only [ht, hv, hc, Bool.false_eq_true, if_false, if_true, Bool.false_and, Option.bind_none, locate_of_absent h]

/-- R142: lanes park on a packet that is not resident. -/
theorem fetchNew_absent (hm : a % 64 ≤ 52) (hon : onChip a = false) (ht : inTable a = false) (hv : s.g.view = 0)
    (hc : s.g.isCompute = false) (h : Absent s s.g.asid a) :
    s.fetchNew a = (((s.reloadFade s.g.asid a).addReq s.g.asid 0 a .fetch 0 (.lanes s.gid s.iss.set) .fresh).leaveChain
      s.iss.set .parked).endIssue := by
  have hf := (fetchBytes_one hm).trans ((fetchPart_off hon ht).trans (fetchOff_absent ht hv hc h))
  obtain ⟨gs, hs, -⟩ := reloadFade_only s s.g.asid a
  rw [State.fetchNew, hf, hs]
  rfl

theorem fetchBytes_home (hm : a % 64 ≤ 52) (hon : onChip a = false) (ht : inTable a = false) (hv : s.g.view = 0)
    (hc : s.g.isCompute = false) (hs : Stands s s.g.asid a 12) (hd : s.ownDam (.home s.g.asid 0 a) = none) :
    s.fetchBytes a = (((s.reloadFade s.g.asid a).countNow none s.g.asid a).settleUndo (.home s.g.asid 0 a) 12,
      .bytes (s.rdBytes (.home s.g.asid 0 a) 12) (s.locPois (.home s.g.asid 0 a) 12)) :=
  (fetchBytes_one hm).trans ((fetchPart_off hon ht).trans (fetchOff_home ht hv hc hs hd))

end

end Sys2Proof.Machine
end

section
open Sys2Proof Sys2Proof.Machine

/-- Settles O56: the packet lies in one 64-byte block, so its one part decides the fetch. -/
theorem fetches : Obligations.Fetches := by
  unfold Obligations.Fetches
  intro s a ha l put
  refine ⟨fun h3 => ?slot, fun h3 h => ?address, fun h3 hb hl => ⟨fun p hp hi => ?hand,
    fun hp hm hon => ⟨fun ht hv hc hs hd => ?home, fun b ht hv hc hd hf hx => ?copy, fun ht hv hc h => ?absent,
      fun ht hprv => ?table⟩⟩⟩
  case slot => rw [State.fetchPacket, if_pos h3]
  case address =>
    rw [State.fetchPacket, if_neg h3, if_pos]
    rw [codeBase_reach, ← ha]
    simpa using h
  case hand => exact fetchPacket_hand h3 ha hb hl hp hi
  case home =>
    intro v u
    have hn := fetchPacket_new h3 ha hb hl hp
    have hf : s.fetchBytes a = (u, .bytes (s.rdBytes l 12) (s.locPois l 12)) := fetchBytes_home hm hon ht hv hc hs hd
    obtain ⟨gs, ps, ss, hu⟩ := served_only s none s.g.asid a 12 l
    have hi : u.iss = s.iss := (congrArg State.iss hu).trans rfl
    refine ⟨fun hq => ?_, fun hq => ?_⟩ <;> rw [hq] at hf
    · have hx : leNat (s.rdBytes l 12) = s.rdLoc l 12 % 2 ^ 96 := (Nat.mod_eq_of_lt (rdLoc_lt s l)).symm
      rw [hn, fetchNew_bytes hf hx, hi]
    · rw [hn, State.fetchNew, hf]
      rfl
  case copy =>
    rcases l1Serve_cases hf with ⟨u, hu, hgone⟩ | hu
    · exact .inl ⟨u, hu, hgone⟩
    · refine .inr ⟨(s.choose 2).1, fun l i _ => by cases l <;> rfl, ?_⟩
      have hf := (fetchBytes_one hm).trans ((fetchPart_off hon ht).trans (fetchOff_copy ht hv hc hd hx hu))
      rw [fetchPacket_new h3 ha hb hl hp, fetchNew_bytes hf (copy_bytes hm hv hd)]
      rfl
  case absent => exact (fetchPacket_new h3 ha hb hl hp).trans (fetchNew_absent hm hon ht hv hc h)
  case table =>
    have hf : s.fetchBytes a = (s, .trap (s.trapOf 9 0 a 9 0)) := by
      rw [fetchBytes_one hm]
      simp [State.fetchPart, hon, ht, hprv]
    rw [fetchPacket_new h3 ha hb hl hp, State.fetchNew, hf]
end

section
/-! PROOF. What completes of itself: issues, quanta, loads, stores, joins, groups, watermarks, sweeps (R27, R135, R143, R145, R176,
R267, R271). -/

namespace Sys2Proof.Machine

theorem foldl_laneBit (p : Nat → Bool) {k : Nat} (hk : k < 32) : ∀ (ls : List Nat) (m : Word),
    (ls.foldl (fun m l => if p l then m ||| laneBit l else m) m).getLsbD k = (m.getLsbD k || (ls.contains k && p k))
  | [], m => by simp
  | l :: ls, m => by
    have hb : (if p l then m ||| laneBit l else m).getLsbD k = (m.getLsbD k || (k == l && p l)) := by
      cases p l <;> simp [-BitVec.getLsbD_eq_getElem, getLsbD_laneBit hk]
    rw [List.foldl_cons, foldl_laneBit p hk ls, hb, List.contains_cons]
    by_cases e : k = l
    · subst e
      cases p k <;> simp
    · simp [beq_eq_false_iff_ne.2 e]

theorem getLsbD_maskOf (p : Nat → Bool) {k : Nat} (hk : k < 32) : (maskOf p).getLsbD k = p k := by
  rw [maskOf, foldl_laneBit p hk]
  simp [hk]

theorem getG_modG_same {s : State} {k : Nat} {x : Group} (h : s.getG k = some x) (f : Group → Group) :
    (s.modG k f).getG k = some (f x) :=
  getG_modG.trans (by rw [if_pos rfl, h]; rfl)

/-! ### Issues and quanta (R135, R145) -/

/-- R145: the lanes that a quantum may be for. -/
def Group.quantumLanes (g : Group) : List Nat :=
  let live := g.lanesIn .live
  lanesOf ((if g.save.isSome then live &&& g.hlanes else live) &&& ~~~g.lastSet)

theorem mem_quantumLanes {g : Group} {l : Nat} : l ∈ g.quantumLanes ↔
    l < 32 ∧ g.lane l = .live ∧ (g.save.isSome = true → g.hlanes.getLsbD l = true) ∧ g.lastSet.getLsbD l = false := by
  by_cases hl : l < 32
  · have hlive := getLsbD_maskOf (fun l => g.lane l == .live) hl
    cases hs : g.save.isSome <;>
      simp [-BitVec.getLsbD_eq_getElem, Group.quantumLanes, mem_lanesOf, Group.lanesIn, hlive, hl, hs, and_assoc]
  · have hn : l ∉ g.quantumLanes := fun h => hl (lt_of_mem_lanesOf h)
    simp [hl, hn]

/-- The lanes of the quantum that begins for lane `l`: those at its `pcv` and block state. -/
def Group.quantumMask (g : Group) (l : Nat) : Word :=
  maskOf (fun k => g.quantumLanes.contains k && g.pc k == g.pc l && g.blkOf k == g.blkOf l)

theorem quantumMask_bit {g : Group} {l j : Nat} (hj : j < 32) :
    (g.quantumMask l).getLsbD j = true ↔ j ∈ g.quantumLanes ∧ g.pc j = g.pc l ∧ g.blkOf j = g.blkOf l := by
  rw [Group.quantumMask, getLsbD_maskOf _ hj, Bool.and_eq_true, Bool.and_eq_true, List.contains_iff_mem, beq_iff_eq, beq_iff_eq,
    and_assoc]

theorem beginQuantum_of {g : Group} (h : ∃ l, l ∈ g.quantumLanes) :
    ∃ l, l ∈ g.quantumLanes ∧ (∀ j ∈ g.quantumLanes, mapGet 0 g.lastIssue l ≤ mapGet 0 g.lastIssue j) ∧
      g.beginQuantum = { g with btc := 0, quantum := 64, qmask := g.quantumMask l } := by
  obtain ⟨l₀, h₀⟩ := h
  obtain ⟨l, hl⟩ : ∃ l, leastBy (fun l => mapGet 0 g.lastIssue l) g.quantumLanes = some l := by
    cases hq : g.quantumLanes with
    | nil => simp [hq] at h₀
    | cons x xs => exact Option.isSome_iff_exists.1 (leastBy_isSome _ x xs)
  obtain ⟨hm, hle⟩ := leastBy_spec hl
  refine ⟨l, hm, hle, ?_⟩
  unfold Group.beginQuantum
  have hl' : leastBy (fun l => mapGet 0 g.lastIssue l)
    (lanesOf ((if g.save.isSome then g.lanesIn .live &&& g.hlanes else g.lanesIn .live) &&& ~~~g.lastSet)) = some l := hl
  dsimp only
  rw [hl']
  rfl

theorem execRotationQuantum_of {k : Nat} {x : Group} {s : State} (hx : s.getG k = some x) (hb : 64 ≤ x.btc) (hq : x.quantum = 0) :
    ∃ t, exec (.rotationQuantum k) s = .next t ∧ t.getG k = some x.beginQuantum := by
  refine ⟨_, rfl, (getG_modG_same hx _).trans ?_⟩
  simp [hb, hq]

/-- R135: an issue whose packet is at hand begins. -/
theorem beginIssue_hand {s : State} {u k : Nat} :
    let a := (s.focusOn k).setG Group.turn
    let pc := a.g.pc (lowestLane a.g.issueSet)
    let b := { a with iss := { Issue.none with unit := u, set := a.g.issueSet, eff := a.g.issueSet, pc := pc, chainPc := pc } }
    a.g.issueSet ≠ 0 → b.asyncTrap = none → pcSlot pc ≠ 3 → a.g.r.codeBase.toNat + 12 * pcPacket pc + 12 ≤ 2 ^ 57 →
    (∃ p, a.g.pkt = some p ∧ p.idx = pcPacket pc) → s.beginIssue u k = b := by
  intro a pc b hset hasync hslot hreach ⟨p, hp, hi⟩
  have hb : b.g.r.codeBase.toNat < 2 ^ 57 := by
    have : b.g.r.codeBase = a.g.r.codeBase := rfl
    rw [this]
    omega
  have hf : b.fetchPacket = b := fetchPacket_hand hslot rfl hb hreach hp hi
  unfold State.beginIssue
  rw [if_neg hset]
  dsimp only
  rw [show State.asyncTrap _ = none from hasync]
  exact hf

/-! ### Loads and stores (R27) -/

theorem execLoadComplete_of {k i : Nat} {x : Group} {ld : PendLoad} {s : State} (hx : s.getG k = some x)
    (hi : x.loads[i]? = some ld) (hl : ld.late = none) :
    exec (.loadComplete k i) s = .next (s.modG k (fun x => { x with
      ldcnt := x.ldcnt - 1, loads := x.loads.eraseIdx i, r := ld.writes.foldl Regs.loadPut x.r })).settleHolds := by
  rw [show exec (.loadComplete k i) s = execLoadComplete k i s from rfl, execLoadComplete, hx]
  simp [hi, hl]

theorem execStoreAck_done {x : PendStore} {s : State}
    (h : s.stores.find? (fun y => y.id == x.id) = some x) (hk : x.kind = .write []) :
    exec (.storeAck x.id) s = .next (s.storeDone x) := by
  rw [show exec (.storeAck x.id) s = execStoreAck x.id s from rfl, execStoreAck, h]
  simp [hk]

theorem execStoreAck_early {x : PendStore} {i : Nat} {is : List Nat} {s : State}
    (h : s.stores.find? (fun y => y.id == x.id) = some x) (hk : x.kind = .write (i :: is)) : exec (.storeAck x.id) s = .next s := by
  rw [show exec (.storeAck x.id) s = execStoreAck x.id s from rfl, execStoreAck, h]
  simp [hk]

theorem storeDone_of {x : PendStore} {k : Nat} {g : Group} {s : State} (hg : x.grp = some k) (hk : s.getG k = some g) :
    ∃ u : State, s.storeDone x = u.settleHolds ∧
      u.stores.map (·.id) = (s.stores.filter (fun y => y.id != x.id)).map (·.id) ∧
      u.getG k = some { g with stcnt := g.stcnt - 1 } := by
  unfold State.storeDone
  extract_lets under other v
  rw [hg]
  refine ⟨_, rfl, ?_, getG_modG_same (s := v) hk _⟩
  rw [modG_stores, List.map_map]
  refine List.map_congr_left fun y _ => ?_
  show (under y).id = y.id
  unfold under
  split <;> rfl

/-! ### Joins (R176) -/

/-- Where a lane goes on past its join. -/
def Group.pastJoin (g : Group) (l : Nat) : Past := (mapGet none g.joinNext l).getD ⟨g.pc l, 0, false⟩

theorem pastJoin_pc (g : Group) (l : Nat) : (g.pastJoin l).pc = ((mapGet none g.joinNext l).map Past.pc).getD (g.pc l) := by
  unfold Group.pastJoin
  cases mapGet none g.joinNext l <;> rfl

/-- What a join's release makes of lane `l` of `g`, in the state of the group that the lanes before it have left. -/
def Group.leaveJoin (g x : Group) (l : Nat) : Group :=
  let x := (x.setLane l .live).setPc l (g.pastJoin l).pc
  let x := if l % 2 = 0 ∧ x.lane (l + 1) = .shadow then x.setPc (l + 1) (x.pc l) else x
  { x with joinNext := mapSet none x.joinNext l none }

theorem leaveJoin_lane (g x : Group) (l k : Nat) : (g.leaveJoin x l).lane k = if k = l then .live else x.lane k := by
  unfold Group.leaveJoin
  extract_lets y z
  have hy : y.lane k = if k = l then .live else x.lane k := setLane_lane x l k .live
  show z.lane k = _
  unfold z
  split <;> exact hy

/-- No lane but its own and the shadow after it moves. -/
theorem leaveJoin_pc (g x : Group) (l k : Nat) (hk : k = l ∨ x.lane k ≠ .shadow) :
    (g.leaveJoin x l).pc k = if k = l then (g.pastJoin l).pc else x.pc k := by
  unfold Group.leaveJoin
  extract_lets y z
  have hy : y.pc k = if k = l then (g.pastJoin l).pc else x.pc k := setPc_pc ..
  show z.pc k = _
  unfold z
  split
  · next h =>
    have hne : k ≠ l + 1 := by
      rintro rfl
      have hl : y.lane (l + 1) = x.lane (l + 1) := (setLane_lane x l (l + 1) .live).trans (if_neg (by omega))
      exact hk.elim (by omega) fun hk => hk (hl.symm.trans h.2)
    rw [setPc_pc, if_neg hne, hy]
  · exact hy

theorem leaveJoins_lane (g : Group) (m : Word) (k : Nat) :
    (g.eachLane m (Group.leaveJoin g)).lane k = if m.getLsbD k then .live else g.lane k :=
  eachLane_at Group.lane (fun _ _ => .live) (leaveJoin_lane g) m g k

/-- Where a lane stands that is no shadow. -/
def Group.ownPc (g : Group) (k : Nat) : Option Word := if g.lane k = .shadow then none else some (g.pc k)

theorem leaveJoin_ownPc (g x : Group) (l k : Nat) :
    (g.leaveJoin x l).ownPc k = if k = l then some (g.pastJoin l).pc else x.ownPc k := by
  unfold Group.ownPc
  rw [leaveJoin_lane]
  by_cases e : k = l
  · simp [e, leaveJoin_pc]
  · by_cases hs : x.lane k = .shadow
    · simp [e, hs]
    · simp [e, hs, leaveJoin_pc]

theorem leaveJoins_pc (g : Group) (m : Word) {k : Nat} (hk : g.lane k ≠ .shadow) :
    (g.eachLane m (Group.leaveJoin g)).pc k = if m.getLsbD k then (g.pastJoin k).pc else g.pc k := by
  have h := eachLane_at Group.ownPc (fun l _ => some (g.pastJoin l).pc) (leaveJoin_ownPc g) m g k
  have hl := leaveJoins_lane g m k
  unfold Group.ownPc at h
  cases hm : m.getLsbD k <;> simp [hm] at hl <;> simpa [hm, hl, hk] using h

theorem joinDue_bit {x : Group} (hs : x.save = none) {l : Nat} (hl : l < 32) (hj : x.lane l = .joinWait) :
    x.joinDue.getLsbD l = true ↔
      ¬ ∃ j, j < 32 ∧ (x.lane j = .live ∨ x.lane j = .parked) ∧ (x.pc j).toNat ≤ (x.pc l).toNat := by
  unfold Group.joinDue
  rw [getLsbD_maskOf _ hl]
  simp [hs, hj]

theorem execJoinRelease_of {k : Nat} {x : Group} {s : State} (hx : s.getG k = some x)
    (hends : ∀ l p, mapGet none x.joinNext l = some p → p.ends = false) :
    exec (.joinRelease k) s = .next ((s.modG k (fun y => y.eachLane x.joinDue (Group.leaveJoin x))).settleHalts k) := by
  have hpast : ∀ l, (x.pastJoin l).ends = false := fun l => by
    unfold Group.pastJoin
    cases h : mapGet none x.joinNext l with
    | none => rfl
    | some p => exact hends l p h
  have hout : maskOf (fun l => x.joinDue.getLsbD l && (x.pastJoin l).ends) = 0 := by
    simp only [hpast, Bool.and_false]
    rfl
  rw [show exec (.joinRelease k) s = execJoinRelease k s from rfl, execJoinRelease, hx]
  show Host.Outcome.next ((if maskOf (fun l => x.joinDue.getLsbD l && (x.pastJoin l).ends) = 0
    then s.modG k (fun y => y.eachLane x.joinDue (Group.leaveJoin x)) else _).settleHalts k) = _
  rw [if_pos hout]

/-! ### Watermarks and signatures (R267, R271) -/

/-- The dies once they know a watermark of die `d`. -/
def State.toldMark (s : State) (d m : Nat) : State :=
  (List.range 32).foldl (fun s e => s.setDie e (fun x => { x with known := mapSet 0 x.known d m })) s

theorem toldMark_mark (s : State) (d m k : Nat) : ((s.toldMark d m).die k).mark = (s.die k).mark :=
  foldl_get_keep (fun s : State => (s.die k).mark) (fun s e => by rw [setDie_die]; split <;> simp [*]) _ s

theorem toldMark_known (s : State) (d m : Nat) {e : Nat} (he : e < 32) :
    ((s.toldMark d m).die e).known = mapSet 0 (s.die e).known d m := by
  have h := foldl_get_at (f := fun (s : State) e => s.setDie e (fun x => { x with known := mapSet 0 x.known d m }))
    (fun s e => (s.die e).known) (fun _ x => mapSet 0 x d m)
    (fun s x k => by rw [setDie_die]; split <;> rfl) e (List.range 32) s List.nodup_range
  exact h.trans (if_pos (List.mem_range.2 he))

theorem execWatermarkPublish_of (d : Nat) (s : State) : ∃ u : State, exec (.watermarkPublish d) s = .next u.settleHolds ∧
    (u.die d).mark = s.watermark d ∧ ∀ e, e < 32 → mapGet 0 (u.die e).known d = s.watermark d := by
  refine ⟨(s.setDie d (fun x => { x with mark := s.watermark d })).toldMark d (s.watermark d), rfl, ?_, fun e he => ?_⟩
  · rw [toldMark_mark, setDie_die, if_pos rfl]
  · rw [toldMark_known _ _ _ he, mapGet_mapSet_same]

theorem sweepBegin_of {d : Nat} {s : State} (h : ∃ i, i < 32 ∧ 1024 ≤ sigCount (s.coreSt (32 * d + i)).sig)
    (hm : ((s.die d).epoch + 2 ^ 32 - s.watermark d) % 2 ^ 32 < 2 ^ 29) :
    s.sweepBegin d = (s.bumpEpoch d).setDie d (fun x => { x with sweep := some (s.die d).epoch }) := by
  obtain ⟨i, hi, hc⟩ := h
  have hfull : ((List.range 32).map (fun i => 32 * d + i)).any (fun c => 1024 ≤ sigCount (s.coreSt c).sig) = true :=
    List.any_eq_true.2 ⟨_, List.mem_map_of_mem (List.mem_range.2 hi), decide_eq_true hc⟩
  unfold State.sweepBegin
  dsimp only
  rw [hfull, if_neg]
  simp only [Bool.not_true, Bool.false_or, decide_eq_true_eq, not_le]
  exact hm

/-- The cores of a die. -/
def coresOf (d : Nat) : List Nat := (List.range 32).map (fun i => 32 * d + i)

theorem mem_coresOf {d i : Nat} (hi : i < 32) : 32 * d + i ∈ coresOf d := List.mem_map_of_mem (List.mem_range.2 hi)

/-- The level-1 of core `c` is emptied and its signature cleared. -/
def State.clearCore (s : State) (c : Nat) : State := (s.l1Drop c (fun _ => true)).setCore c (fun x => { x with sig := 0 })

theorem clearCores_sig (s : State) {c : Nat} {cs : List Nat} (hn : cs.Nodup) (hc : c ∈ cs) :
    ((cs.foldl State.clearCore s).coreSt c).sig = 0 := by
  have h := foldl_get_at (f := State.clearCore) (fun s c => (s.coreSt c).sig) (fun _ _ => 0)
    (fun s x k => by unfold State.clearCore; rw [setCore_coreSt]; split <;> rfl) c cs s hn
  exact h.trans (if_pos hc)

theorem clearCores_l1 : ∀ (cs : List Nat) (s : State), ∀ b ∈ (cs.foldl State.clearCore s).l1, b ∈ s.l1 ∧ b.core ∉ cs
  | [], s, b, hb => ⟨hb, List.not_mem_nil⟩
  | c :: cs, s, b, hb => by
    obtain ⟨hm, hn⟩ := clearCores_l1 cs (s.clearCore c) b hb
    obtain ⟨hs, hc⟩ := List.mem_filter.1 (show b ∈ s.l1.filter _ from hm)
    exact ⟨hs, fun h => (List.mem_cons.1 h).elim (fun e => by simp [e] at hc) hn⟩

theorem sweepEnd_of (s : State) (d : Nat) : ((s.sweepEnd d).die d).sweep = none ∧
    ∀ i, i < 32 → ((s.sweepEnd d).coreSt (32 * d + i)).sig = 0 ∧ ∀ b ∈ (s.sweepEnd d).l1, b.core ≠ 32 * d + i := by
  have he : s.sweepEnd d =
      (coresOf d).foldl State.clearCore (s.setDie d (fun x => { x with sweep := none, sweeps := min 65535 (x.sweeps + 1) })) := rfl
  have hn : (coresOf d).Nodup := List.nodup_range.map fun i j h => by simpa using h
  rw [he]
  refine ⟨?_, fun i hi => ⟨clearCores_sig _ hn (mem_coresOf hi),
    fun b hb e => (clearCores_l1 _ _ b hb).2 (e ▸ mem_coresOf hi)⟩⟩
  rw [foldl_get_keep (f := State.clearCore) (fun s => s.die d) fun s c => rfl, setDie_die, if_pos rfl]

theorem execSignatureSweep_ends {d e : Nat} {s : State} (h : (s.die d).sweep = some e) :
    exec (.signatureSweep d) s = .next (if s.marked d e then (s.sweepEnd d).settleHolds else s) := by
  rw [show exec (.signatureSweep d) s = execSignatureSweep d s from rfl, execSignatureSweep, h]

theorem execSignatureSweep_begins {d : Nat} {s : State} (h : (s.die d).sweep = none) :
    exec (.signatureSweep d) s = .next (s.sweepBegin d) := by
  rw [show exec (.signatureSweep d) s = execSignatureSweep d s from rfl, execSignatureSweep, h]

/-! ### Groups finish (R143) -/

/-- `s` with other cofferdams, clocks and rows: what a finished group gives up. -/
def State.withGivenUp (s : State) (ds : List Dam) (r : Race) (rows : Map Word) : State :=
  { s with dams := ds, race := r, rows := rows }

/-- A finished group. -/
def Group.finish (g : Group) : Group :=
  { g with finished := true, lsv := [], save := none, loads := [], ldcnt := 0, hold := .none, faults := [] }

theorem planRelease_none {s : State} {k core num : Nat} {x : Group} (hx : s.getG k = some x) (hp : x.plans = []) :
    s.planRelease k core num = s := by
  simp [State.planRelease, hx, hp, mapGet]

theorem giveRows_only (s : State) (k : Nat) : ∃ rows, s.giveRows k = { s with rows := rows } := by
  unfold State.giveRows
  split
  · exact ⟨_, rfl⟩
  · split <;> exact ⟨_, rfl⟩

/-- Every group of a team of `n` groups has finished. -/
def State.allFinished (s : State) (t n : Nat) : Bool :=
  (List.range n).all (fun i => ((s.getG (gidOf t i)).map Group.finished).getD true)

section
variable {k : Nat} {x : Group} {tm : Team} {s : State} (hx : s.getG k = some x) (hc : x.isCompute = true) (hf : x.finished = false)
  (ho : x.over_ = true) (he : x.epa = none) (hq : x.faults = []) (hcl : s.closePending k = false) (hpl : x.plans = [])
  (ht : s.team x.team = some tm) (hrun : tm.running = true) (hdams : ∀ d ∈ s.dams, d.grp ≠ k)
include hx hc hf ho he hq hcl hpl ht hrun hdams

theorem execGroupFinish_of : ∃ ds r rows, let u := (s.withGivenUp ds r rows).modG k Group.finish
    exec (.groupFinish k) s = .next (if u.allFinished x.team tm.nGroups then u.teamOver x.team else u) := by
  have hb := breachDams_idle (s := s) (p := fun d => d.grp == k) fun d hd hg => absurd (beq_iff_eq.1 hg) (hdams d hd)
  generalize breachOf (fun d => d.grp == k) s.dams = ds at hb
  have hp : (List.range 4).foldl (fun s i => s.planRelease k x.home i) { s with dams := ds } = { s with dams := ds } :=
    List.foldl_fixed' (fun i => planRelease_none (s := { s with dams := ds }) hx hpl) _
  obtain ⟨rows, hr⟩ := giveRows_only (({ s with dams := ds } : State).hbEdge k (gridAgent tm.grid)) k
  refine ⟨ds, (({ s with dams := ds } : State).hbEdge k (gridAgent tm.grid)).race, rows, ?_⟩
  rw [show exec (.groupFinish k) s = execGroupFinish k s from rfl, execGroupFinish, hx]
  dsimp only
  rw [ht]
  simp only [hc, hf, ho, hrun, hcl, he, hq, Bool.not_true, Bool.or_self, Bool.false_eq_true, if_false, Option.isSome_none,
    List.foldl_nil, hb, hp, hr]
  rfl
end

/-- R143: one group that has not finished keeps the team's end. -/
theorem allFinished_false {u : State} {t n i : Nat} {y : Group} (hi : i < n) (hy : u.getG (gidOf t i) = some y)
    (hf : y.finished = false) : u.allFinished t n = false := by
  simp only [State.allFinished, List.all_eq_false]
  exact ⟨i, List.mem_range.2 hi, by simp [hy, hf]⟩

theorem allFinished_true {u : State} {t n : Nat} (h : ∀ i y, i < n → u.getG (gidOf t i) = some y → y.finished = true) :
    u.allFinished t n = true := by
  simp only [State.allFinished, List.all_eq_true]
  intro i hi
  cases hy : u.getG (gidOf t i) with
  | none => rfl
  | some y => exact h i y (List.mem_range.1 hi) hy

theorem dropG_keeps (s : State) (k : Nat) : (s.dropG k).teams = s.teams ∧ (s.dropG k).agenda = s.agenda := by
  unfold State.dropG
  split
  · split <;> exact ⟨rfl, rfl⟩
  · exact ⟨rfl, rfl⟩

theorem closeForks_none {s : State} {t asid : Nat} {tm : Team} (ht : s.team t = some tm) (hf : tm.forks = []) :
    s.closeForks t asid = s :=
  List.foldl_fixed' (fun i => by simp [State.closeFork, ht, Team.fork, hf, mapGet]) _

/-- R143: a team without forks is over. -/
theorem teamOver_finished {s : State} {t : Nat} {tm : Team} (ht : s.team t = some tm) (hf : tm.forks = []) :
    ((s.teamOver t).team t).map Team.place = some .finished ∧ Instr.teamRetire t ∈ (s.teamOver t).agenda := by
  unfold State.teamOver
  rw [ht]
  dsimp only
  rw [closeForks_none ht hf]
  have hteams := foldl_get_keep (f := fun s i => State.dropG s (gidOf t i)) State.teams (fun s i => (dropG_keeps s _).1)
    (List.range tm.nGroups) s
  refine ⟨?_, by rw [due_agenda]; simp⟩
  rw [due_team, setTeam_team, if_pos rfl, State.team, hteams, ← State.team, ht]
  rfl

end Sys2Proof.Machine
end

section
open Sys2Proof Sys2Proof.Machine

/-- Settles O45: what each completion does, up to the holds and halts that it settles. -/
theorem completions : Obligations.Completions := by
  unfold Obligations.Completions
  refine ⟨fun u k ks s hc => ?issue, fun u s hc => ?idle, fun k x s => ?quantum,
    fun k i x ld s hx hi hl => ?load, fun x k g s hfind hk hgrp hg => ?ack, fun x i is s hfind hk => execStoreAck_early hfind hk,
    fun k x s hx hs hends => ?join, fun k x tm i s hx hc hf ho he hq hcl hpl ht hrun hdams hi hother => ?unfinished,
    fun k x tm s hx hc hf ho he hq hcl hpl ht hrun hdams hforks hall => ?finished, fun d s _ => execWatermarkPublish_of d s,
    fun d s hs h hm => ?begins, fun d e s hs => ⟨fun hm => ?waits, fun hm => ?ends⟩⟩
  case issue =>
    intro a pc b hset hasync hslot hreach hp
    rw [show exec (.quarterIssue u) s = execQuarterIssue u s from rfl, execQuarterIssue, hc]
    exact congrArg Host.Outcome.next (beginIssue_hand hset hasync hslot hreach hp)
  case idle => rw [show exec (.quarterIssue u) s = execQuarterIssue u s from rfl, execQuarterIssue, hc]
  case quantum =>
    intro cand hx hb hq hcand
    obtain ⟨l₀, h₀⟩ := hcand
    obtain ⟨l, hm, hle, hbegin⟩ := beginQuantum_of ⟨l₀, mem_quantumLanes.2 h₀⟩
    obtain ⟨t, he, ht⟩ := execRotationQuantum_of hx hb hq
    rw [hbegin] at ht
    have hl := mem_quantumLanes.1 hm
    refine ⟨t, _, l, he, ht, rfl, rfl, hl, (quantumMask_bit hl.1).2 ⟨hm, rfl, rfl⟩,
      fun j hj => hle j (mem_quantumLanes.2 hj), fun j hj => ?_⟩
    rw [quantumMask_bit hj, mem_quantumLanes]
  case load =>
    refine ⟨_, _, execLoadComplete_of hx hi hl, getG_modG_same hx _, rfl, rfl, rfl, rfl, fun n v p hw => ?_,
      fun n l v p hlt hw => ?_⟩
    · rw [hw]
      exact ⟨rdS_wrS.trans (if_pos rfl), poisS_wrS.trans (if_pos rfl), rfl⟩
    · rw [hw]
      exact ⟨(rdV_wrV hlt hlt).trans (if_pos ⟨rfl, rfl⟩), (poisV_wrV hlt).trans (if_pos ⟨rfl, rfl⟩), rfl⟩
  case ack =>
    obtain ⟨u, hu, hids, hgu⟩ := storeDone_of hgrp hg
    exact ⟨u, _, (execStoreAck_done hfind hk).trans (congrArg _ hu), hids, hgu, rfl⟩
  case join =>
    refine ⟨_, _, execJoinRelease_of hx hends, getG_modG_same hx _, fun l hl hj => ?_⟩
    have hlane := leaveJoins_lane x x.joinDue l
    have hpc := leaveJoins_pc x x.joinDue (k := l) (by rw [hj]; decide)
    have hdue := joinDue_bit hs hl hj
    refine ⟨fun hblocked => ?_, fun hfree => ?_⟩
    · rw [hlane, if_neg fun hb => hdue.1 hb hblocked, hj]
    · rw [if_pos (hdue.2 hfree)] at hlane hpc
      exact ⟨hlane, hpc.trans (pastJoin_pc x l)⟩
  case unfinished =>
    obtain ⟨y, hy, hne, hyf⟩ := hother
    obtain ⟨ds, r, rows, hex⟩ := execGroupFinish_of hx hc hf ho he hq hcl hpl ht hrun hdams
    have hall : ((s.withGivenUp ds r rows).modG k Group.finish).allFinished x.team tm.nGroups = false :=
      allFinished_false hi (getG_modG.trans ((if_neg hne).trans hy)) hyf
    dsimp only at hex
    rw [hall] at hex
    exact ⟨_, x.finish, hex, getG_modG_same (s := s.withGivenUp ds r rows) hx _, rfl, fun _ => rfl,
      (congrArg (mapGet none · x.team) (modG_teams ..)).trans ht⟩
  case finished =>
    obtain ⟨ds, r, rows, hex⟩ := execGroupFinish_of hx hc hf ho he hq hcl hpl ht hrun hdams
    have hall' : ((s.withGivenUp ds r rows).modG k Group.finish).allFinished x.team tm.nGroups = true := by
      refine allFinished_true fun i y hi hy => ?_
      by_cases e : gidOf x.team i = k
      · rw [e, getG_modG_same (s := s.withGivenUp ds r rows) hx] at hy
        cases hy
        rfl
      · rw [getG_modG, if_neg e] at hy
        exact (hall i y hi hy).resolve_left e
    dsimp only at hex
    rw [hall'] at hex
    exact ⟨_, hex, teamOver_finished ((congrArg (mapGet none · x.team) (modG_teams ..)).trans ht) hforks⟩
  case begins =>
    refine ⟨_, (execSignatureSweep_begins hs).trans (congrArg _ (sweepBegin_of h hm)), ?_, ?_, rfl⟩
    · rw [setDie_die, if_pos rfl, State.bumpEpoch, setDie_die, if_pos rfl]
    · rw [setDie_die, if_pos rfl]
  case waits => rw [execSignatureSweep_ends hs, hm]; rfl
  case ends => exact ⟨_, by rw [execSignatureSweep_ends hs, hm]; rfl, sweepEnd_of s d⟩
end

section
/-! PROOF. The layout of words (R38, R39): bit ranges that stand side by side are the whole, so fields and word determine
each other. -/

namespace Sys2Proof.Encoding

open BitVec (extractLsb'_append_eq_of_le extractLsb'_append_eq_of_add_le)

/-! ### Bit ranges side by side -/

theorem extract_join {w i j p q : Nat} {x : BitVec w} (h : j = i + p) :
    x.extractLsb' j q ++ x.extractLsb' i p = x.extractLsb' i (q + p) :=
  BitVec.extractLsb'_append_extractLsb'_eq_extractLsb' h

theorem extract_self {w s : Nat} {x : BitVec w} (h : s = 0) : x.extractLsb' s w = x := h ▸ BitVec.extractLsb'_eq_self

section
variable {m k : Nat} {x : BitVec (m + k)} {y : BitVec m} {z : BitVec k}

theorem append_of_extract (hy : x.extractLsb' k m = y) (hz : x.extractLsb' 0 k = z) : y ++ z = x := by
  subst hy hz
  rw [extract_join (Nat.zero_add k).symm, extract_self rfl]

theorem append_of_high (h : x.extractLsb' k m = y) : y ++ x.extractLsb' 0 k = x := append_of_extract h rfl

theorem append_of_low (h : x.extractLsb' 0 k = z) : x.extractLsb' k m ++ z = x := append_of_extract rfl h
end

/-! The control byte of a shift is its kind and its amount. -/

theorem extract_control {w : Nat} (y : BitVec w) (c : BitVec 2) (m : BitVec 6) :
    (y ++ c ++ m : BitVec (w + 8)).extractLsb' 0 8 = c ++ m := by
  rw [BitVec.append_assoc]
  exact BitVec.extractLsb'_append_eq_right

theorem append_control {w : Nat} (y : BitVec w) (x : BitVec 8) :
    (y ++ x.extractLsb' 6 2 ++ x.extractLsb' 0 6 : BitVec (w + 8)) = y ++ x := by
  rw [BitVec.append_assoc, append_of_high (m := 2) (k := 6) rfl]
  rfl


/-! ### Fields and words -/

theorem unpack_pack (c : BitVec 1) (f : Fields) : unpack (pack c f) = f := by
  cases f
  simp (disch := decide) only [unpack, pack, extractLsb'_append_eq_of_le, extractLsb'_append_eq_of_add_le, extract_self]

theorem pack_unpack (w : Word) : pack (w.extractLsb' 31 1) (unpack w) = w := by
  simp (disch := decide) only [pack, unpack, extract_join]
  exact extract_self rfl

theorem pack_chain (c : BitVec 1) (f : Fields) : (pack c f).getLsbD 31 = (c == 1#1) := by
  have hc : ∀ c : BitVec 1, c.getLsbD 0 = (c == 1#1) := by decide
  simp only [pack, BitVec.getLsbD_append, Nat.reduceLT, Nat.reduceSub, if_false]
  exact hc c

theorem ofBody_body (f : Fields) : Fields.ofBody f.major f.body = f := by
  simp (disch := decide) only [Fields.ofBody, Fields.body, extractLsb'_append_eq_of_le, extractLsb'_append_eq_of_add_le,
    extract_self]

theorem body_ofBody (m : BitVec 6) (x : BitVec 25) : (Fields.ofBody m x).body = x := by
  simp (disch := decide) only [Fields.ofBody, Fields.body, extract_join]
  exact extract_self rfl

theorem ofBody_d (m : BitVec 6) (x : BitVec 25) : (Fields.ofBody m x).d = x.extractLsb' 18 7 := rfl
theorem ofBody_a (m : BitVec 6) (x : BitVec 25) : (Fields.ofBody m x).a = x.extractLsb' 11 7 := rfl
theorem ofBody_fn (m : BitVec 6) (x : BitVec 25) : (Fields.ofBody m x).fn = x.extractLsb' 0 4 := rfl

theorem body_fn (f : Fields) : f.body.extractLsb' 0 4 = f.fn := BitVec.extractLsb'_append_eq_right

/-- What stands above the displacement of format MS. -/
theorem body_disp (f : Fields) : f.body.extractLsb' 8 17 = f.d ++ f.a ++ f.body.extractLsb' 8 3 := by
  have hda : f.body.extractLsb' 11 14 = f.d ++ f.a := by
    simp (disch := decide) only [Fields.body, extractLsb'_append_eq_of_le, extract_self]
  rw [← hda]
  exact (extract_join (q := 14) (p := 3) rfl).symm

theorem ofImm_imm (f : Fields) : Fields.ofImm f.major f.d f.a f.imm = f := by
  simp only [Fields.ofImm, Fields.imm, BitVec.extractLsb'_append_eq_right, BitVec.extractLsb'_append_eq_left]

theorem imm_ofImm (m : BitVec 6) (d a : BitVec 7) (x : BitVec 11) : (Fields.ofImm m d a x).imm = x :=
  append_of_extract (m := 7) (k := 4) rfl rfl

/-! ### Well-formed instructions and their literals (R41, R54) -/

theorem wf_iff {i : Instr} : i.wf = true ↔ i.badField = none ∧ i.markerFree = true := by simp [Instr.wf]

theorem reasonUnless_none {b : Bool} {r : Nat} : reasonUnless b r = none ↔ b = true := by cases b <;> simp [reasonUnless]

theorem usesLit_of {i : Instr} {f : Fields} {l : Option Word} (h : encodeFields i = some (f, l)) : i.usesLit = l.isSome := by
  cases l <;> simp [Instr.usesLit, h]

/-! ### Readings that many majors share

`decode28` to `decode33` are `decMem`, `decode08` and `decode17` are `decShift`, each for its own instructions. -/

/-- The reading of a lane memory word's control field (R39, R289). -/
def decMem (fn : BitVec 4) (n : Option Word) (k : BitVec 1 → Option Word → BitVec 2 → Instr) : Except Nat Instr :=
  if fn.extractLsb' 2 1 == 1#1 then
    match n with
    | none => .error 7
    | some l => .ok (k (fn.extractLsb' 3 1) (some l) (fn.extractLsb' 0 2))
  else .ok (k (fn.extractLsb' 3 1) none (fn.extractLsb' 0 2))

/-- The reading of a shift's control byte (R96, R99), in its immediate or in its literal: its kind and its amount. -/
def decShift (x : BitVec 11) (n : Option Word) (k : BitVec 2 → BitVec 6 → Bool → Instr) : Except Nat Instr :=
  let pick (ctl : BitVec 8) (lit : Bool) := k (ctl.extractLsb' 6 2) (ctl.extractLsb' 0 6) lit
  if x == 0x400#11 then
    match n with
    | none => .error 7
    | some l => if l.extractLsb' 8 24 == 0#24 then .ok (pick (l.extractLsb' 0 8) true) else .error 3
  else if x.extractLsb' 8 3 == 0#3 then .ok (pick (x.extractLsb' 0 8) false) else .error 3

/-- The scalar shifts by an immediate, by their kind. -/
def shift64 (d a : BitVec 7) (c : BitVec 2) (n : BitVec 6) (lit : Bool) : Instr :=
  match c.toNat with
  | 0 => .sllB64Imm d a n lit
  | 1 => .srlB64Imm d a n lit
  | 2 => .sraB64Imm d a n lit
  | _ => .rorB64Imm d a n lit

/-- The lane shifts by an immediate, by their kind. -/
def shift32 (d a : BitVec 7) (c : BitVec 2) (n : BitVec 6) (lit : Bool) : Instr :=
  match c.toNat with
  | 0 => .sllB32Imm d a n lit
  | 1 => .srlB32Imm d a n lit
  | 2 => .sraB32Imm d a n lit
  | _ => .rorB32Imm d a n lit

theorem decode08_eq (f : Fields) (n : Option Word) : decode08 f n = decShift f.imm n (shift64 f.d f.a) := rfl
theorem decode17_eq (f : Fields) (n : Option Word) : decode17 f n = decShift f.imm n (shift32 f.d f.a) := rfl

end Sys2Proof.Encoding
end

section
/-! PROOF. Decoding the fields of a well-formed instruction gives it back (R39 to R41, R53, R54). -/

namespace Sys2Proof.Encoding

open BitVec (extractLsb'_append_eq_of_le extractLsb'_append_eq_of_add_le)

theorem ensure3_eq {b : Bool} {i j : Instr} (hb : b = true) (h : i = j) : ensure3 b i = .ok j := by
  rw [ensure3, if_pos hb, h]

/-! ### Literals and their markers (R41) -/

section
variable {n : Option Word}

theorem decImm_field {y : BitVec 11} {x : Imm} {k : Imm → Instr} (hy : y = x.field) (hx : x.ok = true)
    (hn : x.literal.isSome = true → n = x.literal) : decImm y n k = .ok (k x) := by
  subst hy
  cases x with
  | short x => exact if_neg (by simpa [Imm.ok, Imm.field] using hx)
  | lit x =>
    obtain rfl := hn rfl
    rfl

theorem decDisp_field {y : BitVec 8} {x : Disp} {k : Disp → Instr} (hy : y = x.field) (hx : x.ok = true)
    (hn : x.literal.isSome = true → n = x.literal) : decDisp y n k = .ok (k x) := by
  subst hy
  cases x with
  | short x => exact if_neg (by simpa [Disp.ok, Disp.field] using hx)
  | lit x =>
    obtain rfl := hn rfl
    rfl

theorem decMem_field {y : BitVec 1} {o : Option Word} {h : BitVec 2} {k : BitVec 1 → Option Word → BitVec 2 → Instr}
    (hn : o.isSome = true → n = o) : decMem (y ++ (if o.isSome then 1#1 else 0#1) ++ h) n k = .ok (k y o h) := by
  simp (disch := decide) only [decMem, extractLsb'_append_eq_of_le, extractLsb'_append_eq_of_add_le, extract_self]
  cases o with
  | none => rfl
  | some l =>
    obtain rfl := hn rfl
    rfl

section
variable {c : BitVec 2} {m : BitVec 6} {k : BitVec 2 → BitVec 6 → Bool → Instr}

theorem decShift_lit : decShift 0x400#11 (some (0#24 ++ c ++ m)) k = .ok (k c m true) := by
  have hz : (0#24 ++ c ++ m : Word).extractLsb' 8 24 = 0#24 := by
    simp (disch := decide) only [extractLsb'_append_eq_of_le, extract_self]
  have hl : (0#24 ++ c ++ m : Word).extractLsb' 0 8 = c ++ m := extract_control ..
  simp only [decShift, beq_self_eq_true, if_true, hz, hl, BitVec.extractLsb'_append_eq_left,
    BitVec.extractLsb'_append_eq_right]

theorem decShift_short : decShift (0#3 ++ c ++ m) n k = .ok (k c m false) := by
  have hz : (0#3 ++ c ++ m : BitVec 11).extractLsb' 8 3 = 0#3 := by
    simp (disch := decide) only [extractLsb'_append_eq_of_le, extract_self]
  have hl : (0#3 ++ c ++ m : BitVec 11).extractLsb' 0 8 = c ++ m := extract_control ..
  have hne : (0#3 ++ c ++ m : BitVec 11) ≠ 0x400#11 := fun e =>
    absurd ((congrArg (BitVec.extractLsb' 8 3) e).symm.trans hz) (by decide)
  simp only [decShift, beq_eq_false_iff_ne.2 hne, Bool.false_eq_true, if_false, beq_self_eq_true, if_true, hz, hl,
    BitVec.extractLsb'_append_eq_left, BitVec.extractLsb'_append_eq_right]

theorem decShift_field {y : BitVec 11} {lit : Bool} (hy : y = if lit then 0x400#11 else 0#3 ++ c ++ m)
    (hn : (if lit then some (0#24 ++ c ++ m) else none).isSome = true → n = if lit then some (0#24 ++ c ++ m) else none) :
    decShift y n k = .ok (k c m lit) := by
  subst hy
  cases lit with
  | true =>
    obtain rfl := hn rfl
    exact decShift_lit
  | false => exact decShift_short
end
end

/-! ### Functions that are a field of their instruction -/

section
variable {f : Fields}

theorem decode02_compare (h : f.fn.toNat < 12) : decode02 f =
    ensure3 (f.d.extractLsb' 3 4 == 0#4) (.scalarCompare (f.d.extractLsb' 0 3) f.a f.b f.fn) := by
  unfold decode02
  generalize f.fn.toNat = x at h ⊢
  interval_cases x <;> rfl

theorem decode12_compare (h : f.fn.toNat < 12) : decode12 f =
    ensure3 (f.d.extractLsb' 3 4 == 0#4) (.laneCompare (f.d.extractLsb' 0 3) f.a f.b f.fn) := by
  unfold decode12
  generalize f.fn.toNat = x at h ⊢
  interval_cases x <;> rfl

theorem decode20_cvt (h : f.fn.toNat < 8) : decode20 f = .ok (.cvt f.d f.a (f.b.extractLsb' 6 1)
    (f.b.extractLsb' 3 3) (f.b.extractLsb' 0 3) (f.fn.extractLsb' 0 3)) := by
  unfold decode20
  generalize f.fn.toNat = x at h ⊢
  interval_cases x <;> rfl
end

/-- Instruction by instruction: a value that shares its field with others is read back from its own bits of the field; any
other word decodes by the numbers of its major and its function. -/
theorem decodeFields_encodeFields {i : Instr} {f : Fields} {l n : Option Word} (hw : i.wf = true)
    (he : encodeFields i = some (f, l)) (hn : l.isSome = true → n = l) : decodeFields f n = .ok i := by
  obtain ⟨hb, hm⟩ := wf_iff.1 hw
  cases i
  -- words with a literal
  case addI64Imm | andB64Imm | orB64Imm | xorB64Imm | movI64 | mrd | mwr | addI32Imm | andB32Imm | orB32Imm | xorB32Imm |
      movB32Imm =>
    cases he
    exact decImm_field (imm_ofImm ..) hm hn
  case scalarCompareImm | laneCompareImm =>
    cases he
    refine (decImm_field (imm_ofImm ..) hm hn).trans (congrArg Except.ok ?_)
    simp only [Fields.ofImm, BitVec.extractLsb'_append_eq_left, BitVec.extractLsb'_append_eq_right]
  case sllB64Imm | srlB64Imm | sraB64Imm | rorB64Imm =>
    cases he
    exact (decode08_eq ..).trans (decShift_field (imm_ofImm ..) hn)
  case sllB32Imm | srlB32Imm | sraB32Imm | rorB32Imm =>
    cases he
    exact (decode17_eq ..).trans (decShift_field (imm_ofImm ..) hn)
  case ldN8 | ldI8 | ldN16 | ldI16 | ldB32 | ldB64 | ldB128 | stB8 | stB16 | stB32 | stB64 | stB128 =>
    cases he
    exact decMem_field hn
  case ldScalar =>
    cases he
    refine (decDisp_field ?_ hm hn).trans (congrArg Except.ok ?_) <;>
    simp (disch := decide) only [body_ofBody, ofBody_d, ofBody_a, extractLsb'_append_eq_of_le,
      extractLsb'_append_eq_of_add_le, extract_self]
  case stScalar =>
    cases he
    refine (if_pos ?_).trans ((decDisp_field ?_ hm hn).trans (congrArg Except.ok ?_)) <;>
    simp (disch := decide) only [body_ofBody, ofBody_d, ofBody_a, extractLsb'_append_eq_of_le,
      extractLsb'_append_eq_of_add_le, extract_self, beq_self_eq_true]
  -- words whose function is a field of the instruction
  case scalarCompare p a b k =>
    cases he
    have hk : k.toNat < 12 := of_decide_eq_true (reasonUnless_none.1 (show reasonUnless _ 2 = none from hb))
    refine (decode02_compare hk).trans (ensure3_eq ?_ ?_) <;>
    simp only [BitVec.extractLsb'_append_eq_left, BitVec.extractLsb'_append_eq_right, beq_self_eq_true]
  case laneCompare p a b k =>
    cases he
    have hk : k.toNat < 12 := of_decide_eq_true (reasonUnless_none.1 (show reasonUnless _ 2 = none from hb))
    refine (decode12_compare hk).trans (ensure3_eq ?_ ?_) <;>
    simp only [BitVec.extractLsb'_append_eq_left, BitVec.extractLsb'_append_eq_right, beq_self_eq_true]
  case cvt d a x m s t =>
    cases he
    have ht : (0#1 ++ t : BitVec 4).toNat < 8 := by
      rw [BitVec.toNat_append, show (0#1).toNat <<< 3 = 0 from rfl, Nat.zero_or]
      exact t.isLt
    refine (decode20_cvt ht).trans (congrArg Except.ok ?_)
    simp (disch := decide) only [extractLsb'_append_eq_of_le, extractLsb'_append_eq_of_add_le, extract_self]
  -- words with a field of several values, or of a value narrower than it
  case pand | por | pxor | pandn | kput | kget | selB32 | pgetB32 | rintF32 | rintF64 | cvtF32E4m3 | cvtF32E5m2 |
      cvt2Bf16E4m3 | cvt2Bf16E5m2 | qsc | xchLoB32 | xchHiB32 | xchFlipB32 | xchLoB64 | xchHiB64 | xchFlipB64 | lall | lany |
      lsameB32 | lmaskB32 | atomAdd | atomMinI | atomMaxI | atomMinN | atomMaxN | atomAnd | atomOr | atomXor | atomExch | atomCas |
      atomAddF | ldo | sto | wwait | wprobe | cptRes | mld | mst | mqst =>
    cases he
    refine ensure3_eq ?_ ?_ <;>
    simp (disch := decide) only [extractLsb'_append_eq_of_le, extractLsb'_append_eq_of_add_le, extract_self,
      beq_self_eq_true, Bool.and_self]
  case br | mma | compareF32 | compareF64 | scan | scanx | red | warr =>
    cases he
    refine congrArg Except.ok ?_
    simp (disch := decide) only [body_ofBody, extractLsb'_append_eq_of_le, extractLsb'_append_eq_of_add_le, extract_self]
  case pblk =>
    cases he
    refine (if_pos ?_).trans (congrArg Except.ok ?_) <;>
    simp (disch := decide) only [body_ofBody, extractLsb'_append_eq_of_le, extractLsb'_append_eq_of_add_le, extract_self,
      beq_self_eq_true]
  case wait =>
    cases he
    change decode0F _ = _
    simp (disch := decide) only [decode0F, body_ofBody, ofBody_fn, extractLsb'_append_eq_of_le,
      extractLsb'_append_eq_of_add_le, extract_self, beq_self_eq_true, BitVec.reduceToNat]
    rfl
  case brk | fenceAcq | fenceRel | fenceFull =>
    cases he
    simp (disch := decide) only [decodeFields, decode0F, decode38, BitVec.reduceToNat, extractLsb'_append_eq_of_le,
      extractLsb'_append_eq_of_add_le, extract_self, beq_self_eq_true, Bool.and_self]
    rfl
  case tput | tget =>
    cases he
    have ho := of_decide_eq_true (reasonUnless_none.1 (show reasonUnless _ 2 = none from hb))
    simp (disch := decide) only [decodeFields, decode25, BitVec.reduceToNat, extractLsb'_append_eq_of_le,
      extractLsb'_append_eq_of_add_le, extract_self, beq_self_eq_true, Bool.and_self, Nat.not_le.2 ho]
    rfl
  -- words of whole fields; a step of another agent has no encoding
  all_goals cases he <;> with_unfolding_all rfl

/-- R38, R42, R43: the word of a well-formed instruction, whatever its chain bit, before a word that is its literal if it has
one. -/
theorem decodeWord_pack {i : Instr} {f : Fields} {l n : Option Word} (c : BitVec 1) (hw : i.wf = true)
    (he : encodeFields i = some (f, l)) (hn : l.isSome = true → n = l) :
    decodeWord (pack c f) n = .ok ⟨c == 1#1, i, l.isSome⟩ := by
  have hd : decodeFields (unpack (pack c f)) n = .ok i := (unpack_pack c f).symm ▸ decodeFields_encodeFields hw he hn
  simp only [decodeWord, hd, (wf_iff.1 hw).1, pack_chain, usesLit_of he]

theorem decode_encode {i : Instr} (rest : List Word) (hw : i.wf = true) (he : encode i ≠ []) :
    decode (encode i ++ rest) = .ok ⟨false, i, i.usesLit⟩ := by
  unfold encode at he ⊢
  split
  · next h => simp [h] at he
  · next f h =>
    rw [usesLit_of h]
    exact decodeWord_pack 0#1 hw h nofun
  · next f l h =>
    rw [usesLit_of h]
    exact decodeWord_pack 0#1 hw h fun _ => rfl

end Sys2Proof.Encoding
end

section
open Sys2Proof Sys2Proof.Machine

/-- Settles O53: decoding the packed fields of an instruction gives it back, and `encode` packs them. -/
theorem decodeOfEncode : Obligations.DecodeOfEncode := by
  unfold Obligations.DecodeOfEncode
  exact ⟨fun _ _ _ _ c => Encoding.decodeWord_pack c, fun _ => Encoding.decode_encode⟩
end

section
/-! PROOF. What decodes is well formed and encodes to the fields of its word (R39 to R41, R53, R54). -/

namespace Sys2Proof.Encoding

/-- An instruction read from fields: no marker stands for a value, and its fields and its literal are those read. -/
def Reads (f : Fields) (lit : Option Word) (i : Instr) : Prop :=
  i.markerFree = true ∧ ∃ l, encodeFields i = some (f, l) ∧ (l.isSome = true → l = lit)

/-- What a reading of fields names, it reads from them. -/
def Sound (f : Fields) (lit : Option Word) (r : Except Nat Instr) : Prop := ∀ i, r = .ok i → Reads f lit i

/-! ### Fields by their numbers -/

/-- A function, value by value. -/
theorem fn_cases {P : BitVec 4 → Prop} (h0 : P 0x0#4) (h1 : P 0x1#4) (h2 : P 0x2#4) (h3 : P 0x3#4) (h4 : P 0x4#4)
    (h5 : P 0x5#4) (h6 : P 0x6#4) (h7 : P 0x7#4) (h8 : P 0x8#4) (h9 : P 0x9#4) (hA : P 0xA#4) (hB : P 0xB#4)
    (hC : P 0xC#4) (hD : P 0xD#4) (hE : P 0xE#4) (hF : P 0xF#4) (fn : BitVec 4) : P fn := by
  obtain ⟨x⟩ := fn
  fin_cases x <;> assumption

/-- A major, value by value. -/
theorem major_cases {P : BitVec 6 → Prop}
    (m00 : P 0x00#6) (m01 : P 0x01#6) (m02 : P 0x02#6) (m03 : P 0x03#6) (m04 : P 0x04#6) (m05 : P 0x05#6)
    (m06 : P 0x06#6) (m07 : P 0x07#6) (m08 : P 0x08#6) (m09 : P 0x09#6) (m0A : P 0x0A#6) (m0B : P 0x0B#6)
    (m0C : P 0x0C#6) (m0D : P 0x0D#6) (m0E : P 0x0E#6) (m0F : P 0x0F#6) (m10 : P 0x10#6) (m11 : P 0x11#6)
    (m12 : P 0x12#6) (m13 : P 0x13#6) (m14 : P 0x14#6) (m15 : P 0x15#6) (m16 : P 0x16#6) (m17 : P 0x17#6)
    (m18 : P 0x18#6) (m19 : P 0x19#6) (m1A : P 0x1A#6) (m1B : P 0x1B#6) (m1C : P 0x1C#6) (m1D : P 0x1D#6)
    (m1E : P 0x1E#6) (m1F : P 0x1F#6) (m20 : P 0x20#6) (m21 : P 0x21#6) (m22 : P 0x22#6) (m23 : P 0x23#6)
    (m24 : P 0x24#6) (m25 : P 0x25#6) (m26 : P 0x26#6) (m27 : P 0x27#6) (m28 : P 0x28#6) (m29 : P 0x29#6)
    (m2A : P 0x2A#6) (m2B : P 0x2B#6) (m2C : P 0x2C#6) (m2D : P 0x2D#6) (m2E : P 0x2E#6) (m2F : P 0x2F#6)
    (m30 : P 0x30#6) (m31 : P 0x31#6) (m32 : P 0x32#6) (m33 : P 0x33#6) (m34 : P 0x34#6) (m35 : P 0x35#6)
    (m36 : P 0x36#6) (m37 : P 0x37#6) (m38 : P 0x38#6) (m39 : P 0x39#6) (m3A : P 0x3A#6) (m3B : P 0x3B#6)
    (m3C : P 0x3C#6) (m3D : P 0x3D#6) (m3E : P 0x3E#6) (m3F : P 0x3F#6) (m : BitVec 6) : P m := by
  obtain ⟨x⟩ := m
  fin_cases x <;> assumption

theorem bit_one_of_ne {x : BitVec 1} : (x == 0#1) ≠ true → x = 1#1 := by
  revert x
  decide

theorem two_bits (x : BitVec 2) : x = 0#2 ∨ x = 1#2 ∨ x = 2#2 ∨ x = 3#2 := by
  revert x
  decide

theorem ofNat_eq_iff {b : BitVec 7} {k : Nat} (h : k < 128) : BitVec.ofNat 7 k = b ↔ b.toNat = k := by
  rw [← BitVec.toNat_inj, BitVec.toNat_ofNat, Nat.mod_eq_of_lt h, eq_comm]

/-! ### Readings of each shape -/

section
variable {f : Fields} {lit : Option Word}

theorem reads_plain {g : Fields} {i : Instr} (hm : i.markerFree = true) (he : encodeFields i = some (g, none)) (hg : g = f) :
    Reads f lit i := ⟨hm, none, hg ▸ he, nofun⟩

theorem sound_ok {i : Instr} : Sound f lit (.ok i) ↔ Reads f lit i := by simp [Sound]

theorem sound_error {r : Nat} : Sound f lit (.error r) := nofun

theorem sound_ensure3 {b : Bool} {i : Instr} : Sound f lit (ensure3 b i) ↔ (b = true → Reads f lit i) := by
  cases b <;> simp [ensure3, Sound]

theorem sound_guard {g : Fields} {i : Instr} {b : Bool} (hm : i.markerFree = true) (he : encodeFields i = some (g, none))
    (hg : b = true → g = f) : Sound f lit (ensure3 b i) := sound_ensure3.2 fun h => reads_plain hm he (hg h)

/-- A reading under a condition that the fields must meet. -/
theorem sound_if {b : Bool} {e : Nat} {r : Except Nat Instr} (h : b = true → Sound f lit r) :
    Sound f lit (if b then r else .error e) := by
  split
  · next hb => exact h hb
  · exact sound_error

theorem sound_decImm {d : BitVec 7} {k : Imm → Instr} (hd : d = f.d) (hm : ∀ x, (k x).markerFree = x.ok)
    (he : ∀ x, encodeFields (k x) = some (.ofImm f.major d f.a x.field, x.literal)) : Sound f lit (decImm f.imm lit k) := by
  subst hd
  unfold decImm
  split
  · next hx =>
    split
    · exact sound_error
    · next l =>
      refine sound_ok.2 ⟨hm _, some l, (he _).trans ?_, fun _ => rfl⟩
      rw [show (Imm.lit l).field = f.imm from (eq_of_beq hx).symm, ofImm_imm]
      rfl
  · next hx =>
    refine sound_ok.2 ⟨(hm _).trans (by simpa [Imm.ok] using hx), none, (he _).trans ?_, nofun⟩
    rw [show (Imm.short f.imm).field = f.imm from rfl, ofImm_imm]
    rfl

theorem sound_decDisp {y : BitVec 17} {k : Disp → Instr} (hy : f.body.extractLsb' 8 17 = y)
    (hm : ∀ x, (k x).markerFree = x.ok) (he : ∀ x, encodeFields (k x) = some (.ofBody f.major (y ++ x.field), x.literal)) :
    Sound f lit (decDisp (f.body.extractLsb' 0 8) lit k) := by
  have hf : ∀ {x : Disp}, f.body.extractLsb' 0 8 = x.field → Fields.ofBody f.major (y ++ x.field) = f := fun hx => by
    rw [append_of_extract (m := 17) (k := 8) hy hx, ofBody_body]
  unfold decDisp
  split
  · next hx =>
    split
    · exact sound_error
    · next l =>
      refine sound_ok.2 ⟨hm _, some l, (he _).trans ?_, fun _ => rfl⟩
      rw [hf (x := .lit l) (eq_of_beq hx)]
      rfl
  · next hx =>
    refine sound_ok.2 ⟨(hm _).trans (by simpa [Disp.ok] using hx), none, (he _).trans ?_, nofun⟩
    have hs := hf (x := .short (f.body.extractLsb' 0 8)) rfl
    rw [hs]
    rfl

theorem sound_decMem {k : BitVec 1 → Option Word → BitVec 2 → Instr} (hm : ∀ y o h, (k y o h).markerFree = true)
    (he : ∀ y o h, encodeFields (k y o h) =
      some (⟨f.major, f.d, f.a, f.b, y ++ (if o.isSome then 1#1 else 0#1) ++ h⟩, o)) : Sound f lit (decMem f.fn lit k) := by
  have hf : ∀ {z : BitVec 1}, f.fn.extractLsb' 2 1 = z → f.fn.extractLsb' 3 1 ++ z ++ f.fn.extractLsb' 0 2 = f.fn := by
    rintro z rfl
    simp (disch := decide) only [extract_join]
    exact extract_self rfl
  unfold decMem
  split
  · next hx =>
    split
    · exact sound_error
    · next l =>
      refine sound_ok.2 ⟨hm .., some l, (he ..).trans ?_, fun _ => rfl⟩
      rw [Option.isSome_some, if_pos rfl, hf (eq_of_beq hx)]
  · next hx =>
    have hz : f.fn.extractLsb' 2 1 = 0#1 := by
      generalize f.fn.extractLsb' 2 1 = z at hx ⊢
      revert z
      decide
    refine sound_ok.2 ⟨hm .., none, (he ..).trans ?_, nofun⟩
    rw [Option.isSome_none, if_neg (by decide), hf hz]

theorem sound_decShift {k : BitVec 2 → BitVec 6 → Bool → Instr} (hm : ∀ c n b, (k c n b).markerFree = true)
    (he : ∀ c n b, encodeFields (k c n b) = some (.ofImm f.major f.d f.a (if b then 0x400#11 else 0#3 ++ c ++ n),
      if b then some (0#24 ++ c ++ n) else none)) : Sound f lit (decShift f.imm lit k) := by
  unfold decShift
  extract_lets pick
  split
  · next hx =>
    split
    · exact sound_error
    · next l =>
      refine sound_if fun hz => sound_ok.2 ⟨hm .., some l, (he ..).trans ?_, fun _ => rfl⟩
      have hl : (0#24 ++ (l.extractLsb' 0 8).extractLsb' 6 2 ++ (l.extractLsb' 0 8).extractLsb' 0 6 : Word) = l :=
        (append_control ..).trans (append_of_high (m := 24) (eq_of_beq hz))
      rw [if_pos rfl, if_pos rfl, hl, ← eq_of_beq hx, ofImm_imm]
  · refine sound_if fun hz => sound_ok.2 ⟨hm .., none, (he ..).trans ?_, nofun⟩
    have hl : (0#3 ++ (f.imm.extractLsb' 0 8).extractLsb' 6 2 ++ (f.imm.extractLsb' 0 8).extractLsb' 0 6 : BitVec 11) = f.imm :=
      (append_control ..).trans (append_of_high (m := 3) (eq_of_beq hz))
    rw [if_neg Bool.false_ne_true, if_neg Bool.false_ne_true, hl, ofImm_imm]

end

theorem shift64_reads (c : BitVec 2) (d a : BitVec 7) (n : BitVec 6) (b : Bool) : (shift64 d a c n b).markerFree = true ∧
    encodeFields (shift64 d a c n b) = some (.ofImm 0x08#6 d a (if b then 0x400#11 else 0#3 ++ c ++ n),
      if b then some (0#24 ++ c ++ n) else none) := by
  obtain ⟨c⟩ := c
  fin_cases c <;> exact ⟨rfl, rfl⟩

theorem shift32_reads (c : BitVec 2) (d a : BitVec 7) (n : BitVec 6) (b : Bool) : (shift32 d a c n b).markerFree = true ∧
    encodeFields (shift32 d a c n b) = some (.ofImm 0x17#6 d a (if b then 0x400#11 else 0#3 ++ c ++ n),
      if b then some (0#24 ++ c ++ n) else none) := by
  obtain ⟨c⟩ := c
  fin_cases c <;> exact ⟨rfl, rfl⟩

/-! ### The opcode map (R53) -/

/-- Major by major, and function by function: each reading names the instruction that encodes to the fields. -/
theorem decodeFields_sound (f : Fields) (lit : Option Word) : Sound f lit (decodeFields f lit) := by
  obtain ⟨m, d, a, b, fn⟩ := f
  induction m using major_cases
  case m00 | m26 | m27 | m3D | m3E | m3F => exact sound_error
  -- majors of one reading
  case m04 | m05 | m06 | m07 | m13 | m14 | m15 | m16 => exact sound_decImm rfl (fun _ => rfl) (fun _ => rfl)
  case m09 | m18 => exact sound_decImm (append_of_high rfl) (fun _ => rfl) (fun _ => rfl)
  case m0A | m0D | m0E | m19 =>
    refine sound_if fun h => ?_
    obtain rfl := eq_of_beq h
    exact sound_decImm rfl (fun _ => rfl) (fun _ => rfl)
  case m08 => exact sound_decShift (k := shift64 d a) (fun _ _ _ => (shift64_reads ..).1) (fun _ _ _ => (shift64_reads ..).2)
  case m17 => exact sound_decShift (k := shift32 d a) (fun _ _ _ => (shift32_reads ..).1) (fun _ _ _ => (shift32_reads ..).2)
  case m28 | m29 | m2A | m2B | m2C | m2D | m2E | m2F | m30 | m31 | m32 | m33 =>
    exact sound_decMem (fun _ _ _ => rfl) (fun _ _ _ => rfl)
  case m34 => exact sound_decDisp (body_disp _) (fun _ => rfl) (fun _ => rfl)
  case m35 =>
    refine sound_if fun h => sound_decDisp ((body_disp _).trans (congrArg (d ++ a ++ ·) ?_)) (fun _ => rfl) (fun _ => rfl)
    rw [← eq_of_beq h]
    exact (extract_join (q := 2) (p := 1) rfl).symm
  case m0B =>
    refine sound_ok.2 (reads_plain rfl rfl ?_)
    simp (disch := decide) only [extract_join, extract_self]
    exact ofBody_body ⟨0x0B#6, d, a, b, fn⟩
  case m3C =>
    refine sound_if fun h => sound_ok.2 (reads_plain rfl rfl ?_)
    rw [← eq_of_beq h]
    simp (disch := decide) only [extract_join, extract_self]
    exact ofBody_body ⟨0x3C#6, d, a, b, fn⟩
  all_goals
    simp only [decodeFields, BitVec.reduceToNat]
    induction fn using fn_cases
  case m0F.h1 =>
    refine sound_guard rfl rfl fun h => ?_
    have hw := append_of_low (m := 21) (k := 4) (body_fn ⟨0x0F#6, d, a, b, 0x1#4⟩)
    rw [← eq_of_beq h]
    simp (disch := decide) only [extract_join]
    exact (congrArg (Fields.ofBody 0x0F#6) hw).trans (ofBody_body ⟨0x0F#6, d, a, b, 0x1#4⟩)
  case m0F.hB =>
    simp only [decode0F, BitVec.reduceToNat]
    split
    · next hz =>
      exact sound_guard rfl rfl fun h =>
        congrArg (Fields.mk 0x0F#6 d a · 0xB#4) (append_of_extract (eq_of_beq h) (eq_of_beq hz))
    · next hz =>
      exact sound_guard rfl rfl fun h =>
        congrArg (Fields.mk 0x0F#6 d a · 0xB#4) (append_of_extract (eq_of_beq h) (bit_one_of_ne hz))
  case m38.h9 =>
    simp only [decode38, BitVec.reduceToNat]
    rcases two_bits (b.extractLsb' 0 2) with hz | hz | hz | hz <;> rw [hz] <;>
    exact sound_guard rfl rfl fun h => congrArg (Fields.mk 0x38#6 d a · 0x9#4) (append_of_extract (eq_of_beq h) hz)
  all_goals
    simp only [decode01, decode02, decode03, decode0C, decode0F, decode10, decode11, decode12, decode1A, decode1B, decode1C,
      decode1D, decode1E, decode1F, decode20, decode21, decode22, decode23, decode24, decode25, decode36, decode37, decode38,
      decode39, decode3A, decode3B, BitVec.reduceToNat, beq_iff_eq]
    (repeat' split) <;> simp only [sound_ok, sound_error, sound_ensure3, Bool.and_eq_true, beq_iff_eq, and_imp]
  -- the guards make up the bits that no value of the instruction holds
  all_goals
    intros
    refine reads_plain rfl rfl ?_
    simp (disch := simp only [*, Nat.reduceAdd, Nat.reduceLT, BitVec.reduceExtractLsb']) only [append_of_high, append_of_low,
      extract_join, ofNat_eq_iff, Fields.mk.injEq, and_true, *]

theorem fields_of_decodeWord {w : Word} {n : Option Word} {x : Decoded} (h : decodeWord w n = .ok x) :
    decodeFields (unpack w) n = .ok x.instr ∧ x.instr.badField = none ∧ x = ⟨w.getLsbD 31, x.instr, x.instr.usesLit⟩ := by
  unfold decodeWord at h
  split at h
  · cases h
  · next i hi =>
    split at h
    · cases h
    · next hb =>
      cases h
      exact ⟨hi, hb, rfl⟩

end Sys2Proof.Encoding
end

section
open Sys2Proof Sys2Proof.Machine Encoding

/-- Settles O54: the decoder reads each instruction from the fields of its word, and the word is its fields. -/
theorem encodeOfDecode : Obligations.EncodeOfDecode := by
  unfold Obligations.EncodeOfDecode
  intro w n x h
  obtain ⟨hf, hb, hx⟩ := fields_of_decodeWord h
  obtain ⟨hm, l, he, hl⟩ := decodeFields_sound (unpack w) n x.instr hf
  exact ⟨wf_iff.2 ⟨hb, hm⟩, congrArg Decoded.chain hx, congrArg Decoded.hasLit hx, l, he, hl, pack_unpack w⟩

end

section
/-! PROOF. Words of a major that no entry assigns (R53, R55). -/

namespace Sys2Proof.Encoding

theorem decodeWord_unassigned {m : BitVec 6} (hm : m ∈ [0x00#6, 0x26#6, 0x27#6, 0x3D#6, 0x3E#6, 0x3F#6]) (c : BitVec 1)
    (x : BitVec 25) (n : Option Word) : decodeWord (c ++ m ++ x) n = .error 1 := by
  have hu : (unpack (c ++ m ++ x)).major = m := by
    simp (disch := decide) only [unpack, BitVec.extractLsb'_append_eq_of_le, BitVec.extractLsb'_append_eq_of_add_le,
      extract_self]
  have hd : decodeFields (unpack (c ++ m ++ x)) n = .error 1 := by
    simp only [List.mem_cons, List.not_mem_nil, or_false] at hm
    generalize unpack (c ++ m ++ x) = f at hu
    subst hu
    unfold decodeFields
    rcases hm with h | h | h | h | h | h <;> rw [h] <;> rfl
  simp only [decodeWord, hd]
  rfl

end Sys2Proof.Encoding
end

section
open Sys2Proof Sys2Proof.Machine

/-- Settles O55: each written word evaluates, whatever the word after it; the majors of no entry have no reading. -/
theorem decodesWords : Obligations.DecodesWords := by
  unfold Obligations.DecodesWords
  refine ⟨?_, ?_, ?_, ?_, ?_, ?noLiteral, ?_, ?_, ?_, ?_, ?_, fun _ => Encoding.decodeWord_unassigned, ?_, ?_, ?_⟩
  case noLiteral => with_unfolding_all rfl
  all_goals
    intro n
    with_unfolding_all rfl
end

section
/-! PROOF. An issue is over when its step is (R45 to R47, R141): whatever an attempt to issue comes to, it ends its issue. -/

namespace Sys2Proof.Machine

/-- A next state, where the outcome is one, has no issue under way; `p` gives the state of the outcome. -/
def EndsIdle {α : Type} (p : α → State) (o : Host.Outcome α Fault Refusal) : Prop :=
  ∀ x, o = .next x → (p x).iss = Issue.none

section
variable {α β : Type} {p : α → State} {q : β → State}

theorem endsIdle_next {x : α} (h : (p x).iss = Issue.none) : EndsIdle p (.next x) := fun _ e => by
  cases e
  exact h

/-- What follows a next state that is idle may use that it is. -/
theorem endsIdle_andThen {o : Host.Outcome α Fault Refusal} {f : α → Host.Outcome β Fault Refusal} (ho : EndsIdle p o)
    (hf : ∀ x, (p x).iss = Issue.none → EndsIdle q (f x)) : EndsIdle q (andThen o f) := by
  cases o with
  | next x => exact hf x (ho x rfl)
  | fault r => exact nofun
  | refused r => exact nofun

theorem endsIdle_andThen_of_forall {o : Host.Outcome α Fault Refusal} {f : α → Host.Outcome β Fault Refusal}
    (hf : ∀ x, EndsIdle q (f x)) : EndsIdle q (andThen o f) := by
  cases o with
  | next x => exact hf x
  | fault r => exact nofun
  | refused r => exact nofun
end

theorem retire_iss (t s : State) (n : Nat) (next last : Word) (ends : Bool) (ctl : Option Word) :
    (t.retire s n next last ends ctl).iss = Issue.none := by
  unfold State.retire
  extract_lets set set0 adv t1 t2 num step late t3 t4
  clear_value late
  cases late <;> rfl

section
variable {ex : Instr → State → Out} {busy : List Pipe} {u : Nat}

theorem tryChain_endsIdle (s : State) : EndsIdle Prod.fst (State.tryChain ex busy s) := by
  unfold State.tryChain
  split
  · exact endsIdle_next rfl
  next p hp =>
  split
  · exact endsIdle_next rfl
  split
  · exact endsIdle_next rfl
  split
  next cs j cross hc =>
  extract_lets pipes b next n last ends past ctl s1
  split
  · exact endsIdle_next rfl
  split
  · exact endsIdle_next rfl
  split
  · exact endsIdle_next rfl
  split
  · exact endsIdle_next rfl
  refine endsIdle_andThen_of_forall fun r => ?_
  cases r with
  | done t => exact endsIdle_next (retire_iss ..)
  | stalled t | trapped t | mism t l aux => exact endsIdle_next rfl

theorem tryGroups_endsIdle : ∀ (ks : List Nat) (s : State), s.iss = Issue.none →
    EndsIdle Prod.fst (tryGroups ex u busy ks s)
  | [], _, h => endsIdle_next h
  | k :: ks, s, h => by
    unfold tryGroups
    split
    · exact tryGroups_endsIdle ks s h
    · refine endsIdle_andThen (tryChain_endsIdle _) fun x hx => ?_
      split
      · exact endsIdle_next hx
      · exact tryGroups_endsIdle ks x.1 hx

theorem secondChain_endsIdle {first : Nat} {pipes : List Pipe} {s : State} (h : s.iss = Issue.none) :
    EndsIdle id (s.secondChain ex u first pipes) := by
  unfold State.secondChain
  extract_lets ks
  split
  · exact endsIdle_next h
  have hc : (s.choose 2).1.iss = Issue.none := h
  split
  · next t ht =>
    rw [ht] at hc
    exact endsIdle_next hc
  · next t ht =>
    rw [ht] at hc
    exact endsIdle_andThen (tryGroups_endsIdle ks _ hc) fun x hx => endsIdle_next hx

theorem finishIssue_endsIdle (s : State) : EndsIdle id (s.finishIssue ex u) := by
  unfold State.finishIssue
  refine endsIdle_andThen (tryChain_endsIdle s) fun x hx => ?_
  split
  · exact secondChain_endsIdle hx
  · refine endsIdle_andThen (tryGroups_endsIdle _ x.1 hx) fun y hy => ?_
    split
    · exact secondChain_endsIdle hy
    · exact endsIdle_next hy
end

theorem step_endsIdle (s : State) : EndsIdle id (step s) := by
  unfold step
  refine endsIdle_andThen_of_forall fun t => ?_
  unfold State.conclude
  split
  · exact finishIssue_endsIdle t
  · exact endsIdle_next rfl

end Sys2Proof.Machine
end

section
open Sys2Proof Sys2Proof.Machine

/-- Settles O59: a step ends the issue that it begins, whatever stood before it. -/
theorem nothingInFlight : Obligations.NothingInFlight := by
  unfold Obligations.NothingInFlight
  refine ⟨fun s t _ h => step_endsIdle s t h, fun s t h => ?_⟩
  have hi : t.iss = Issue.none := step_endsIdle s t h
  exact hi ▸ ⟨rfl, rfl, rfl, rfl⟩
end

section
/-! PROOF. Words that wait (R111, R112): what a limit on a field of `OPCNT` says. -/

namespace Sys2Proof.Machine

theorem overLimit_eq_true {c : Word} {lo len lim : Nat} :
    overLimit c lo len lim = true ↔ ¬ c.toNat / 2 ^ lo % 2 ^ len ≤ lim := by
  rw [overLimit, decide_eq_true_iff, Nat.not_le, bitsOf]

end Sys2Proof.Machine
end

section
open Sys2Proof Sys2Proof.Machine

/-- Settles O18: every word is `issued` with an effect of its own, and a wait goes on where no field exceeds its limit. -/
theorem waitsAndClocks : Obligations.WaitsAndClocks := by
  unfold Obligations.WaitsAndClocks
  refine ⟨fun s h => exec_of_ready rfl h rfl rfl, fun l x p m s h => ?wait, fun s h => ?ifence,
    fun s h => exec_of_ready (i := .yield) (show execYield s = issued _ s _ from rfl) h rfl rfl,
    fun d s h => exec_scalar rfl h rfl rfl rfl, fun d s h => exec_scalar rfl h rfl rfl rfl⟩
  case wait =>
    refine (exec_of_ready (i := .wait l x p m) (show execWait l x p m s = issued (inf0 .s) s _ from rfl) h rfl rfl).trans
      (congrArg Host.Outcome.next ?_)
    simp only [Bool.or_eq_true, overLimit_eq_true, ← Classical.not_and_iff_not_or_not, ite_not, and_assoc,
      Nat.reducePow, pow_zero, Nat.div_one]
  case ifence =>
    refine (exec_of_ready (i := .ifence) (show execIfence s = issued (inf0 .s) s _ from rfl) h rfl rfl).trans
      (congrArg Host.Outcome.next ?_)
    simp only [bne_iff_ne, ite_not]
    rfl
end

section
/-! PROOF. Block state, exits and joins (R49, R176, R178): the change of one lane, and of every lane of a mask. -/

namespace Sys2Proof.Machine

/-- The change of one lane that enters a block (R49): its predicate `m`, the pattern and the number of words. -/
def Group.toBlock (m : Nat → Bool) (t : BitVec 8) (n : Nat) (g : Group) (l : Nat) : Group := g.setBlk l ⟨m l, t, n⟩

/-- The change of one lane that exits (R178). -/
def Group.toExit (g : Group) (l : Nat) : Group := (g.setLane l .exited).setBlk l Blk.none

/-- The change of one lane that joins at `pc` and goes on past `skip` (R176). -/
def Group.toJoin (pc : Word) (skip : Option Past) (g : Group) (l : Nat) : Group :=
  { ((if g.lane l = .shadow then g else g.setLane l .joinWait).setPc l pc).setBlk l
      ((g.blkOf l).past ((skip.map Past.words).getD 1)) with joinNext := mapSet none g.joinNext l skip }

section
variable (pc : Word) (skip : Option Past) (g : Group) (l k : Nat)

theorem toJoin_lane : (g.toJoin pc skip l).lane k =
    if k = l then (if g.lane l = .shadow then .shadow else .joinWait) else g.lane k := by
  unfold Group.toJoin
  split
  · next hs => exact (ite_eq_right_iff.2 fun e => e ▸ hs.symm).symm
  · exact setLane_lane g l k .joinWait

theorem toJoin_pc : (g.toJoin pc skip l).pc k = if k = l then pc else g.pc k := by
  unfold Group.toJoin
  split
  · exact setPc_pc g l k pc
  · exact setPc_pc (g.setLane l .joinWait) l k pc

theorem toJoin_next : mapGet none (g.toJoin pc skip l).joinNext k = if k = l then skip else mapGet none g.joinNext k :=
  mapGet_mapSet ..

/-- Of a group that joins, only what the lanes hold of their course changes. -/
theorem toJoin_keep : { g.toJoin pc skip l with lsv := [], blk := [], pcv := [], joinNext := [] } =
    { g with lsv := [], blk := [], pcv := [], joinNext := [] } := by
  unfold Group.toJoin
  split <;> rfl
end

/-! ### Every lane of a mask -/

section
variable (g : Group) (m : Word) (k : Nat)

theorem blocks_blkOf (p : Nat → Bool) (t : BitVec 8) (n : Nat) :
    (g.eachLane m (Group.toBlock p t n)).blkOf k = if m.getLsbD k then ⟨p k, t, n⟩ else g.blkOf k :=
  eachLane_at Group.blkOf (fun l _ => ⟨p l, t, n⟩) (fun _ _ _ => setBlk_blkOf ..) m g k

theorem blocks_rest (p : Nat → Bool) (t : BitVec 8) (n : Nat) {h : Group} (e : h = g.eachLane m (Group.toBlock p t n)) :
    h = { g with blk := h.blk } := by
  have hk := eachLane_keep (f := Group.toBlock p t n) (fun g => { g with blk := [] }) (fun _ _ => rfl) m g
  rw [← e] at hk
  exact congrArg (fun x : Group => { x with blk := h.blk }) hk

theorem exits_lane : (g.eachLane m Group.toExit).lane k = if m.getLsbD k then .exited else g.lane k :=
  eachLane_at Group.lane (fun _ _ => .exited) (fun g l k => by simp [Group.toExit]) m g k

theorem exits_blkOf : (g.eachLane m Group.toExit).blkOf k = if m.getLsbD k then Blk.none else g.blkOf k :=
  eachLane_at Group.blkOf (fun _ _ => Blk.none) (fun g l k => by simp [Group.toExit]) m g k

theorem exits_rest {h : Group} (e : h = g.eachLane m Group.toExit) : h = { g with lsv := h.lsv, blk := h.blk } := by
  have hk := eachLane_keep (f := Group.toExit) (fun g => { g with lsv := [], blk := [] }) (fun _ _ => rfl) m g
  rw [← e] at hk
  exact congrArg (fun x : Group => { x with lsv := h.lsv, blk := h.blk }) hk

variable (pc : Word) (skip : Option Past)

theorem joins_lane : (g.eachLane m (Group.toJoin pc skip)).lane k =
    if m.getLsbD k = true ∧ g.lane k ≠ .shadow then .joinWait else g.lane k := by
  rw [eachLane_at Group.lane (fun _ x => if x = .shadow then .shadow else .joinWait) (toJoin_lane pc skip) m g k]
  by_cases hm : m.getLsbD k = true <;> by_cases hs : g.lane k = .shadow <;> simp [hm, hs]

theorem joins_pc : (g.eachLane m (Group.toJoin pc skip)).pc k = if m.getLsbD k then pc else g.pc k :=
  eachLane_at Group.pc (fun _ _ => pc) (toJoin_pc pc skip) m g k

theorem joins_next : mapGet none (g.eachLane m (Group.toJoin pc skip)).joinNext k =
    if m.getLsbD k then skip else mapGet none g.joinNext k :=
  eachLane_at (fun g l => mapGet none g.joinNext l) (fun _ _ => skip) (toJoin_next pc skip) m g k

theorem joins_rest {h : Group} (e : h = g.eachLane m (Group.toJoin pc skip)) :
    h = { g with lsv := h.lsv, blk := h.blk, pcv := h.pcv, joinNext := h.joinNext } := by
  have hk := eachLane_keep (fun g => { g with lsv := [], blk := [], pcv := [], joinNext := [] }) (toJoin_keep pc skip) m g
  rw [← e] at hk
  exact congrArg (fun x : Group => { x with lsv := h.lsv, blk := h.blk, pcv := h.pcv, joinNext := h.joinNext }) hk
end

/-! ### The words -/

section
variable {s : State}

/-- A management core that exits notes the time (R497); the group stands. -/
theorem noteExit_mgmt (h : s.g.kind = .mgmt) :
    s.noteExit = s.setTile s.g.home (fun x => { x with lastTimer := s.tick }) := if_pos h

theorem noteExit_lastTimer (h : s.g.kind = .mgmt) : (s.noteExit.tile s.g.home).lastTimer = s.tick := by
  rw [noteExit_mgmt h, setTile_tile, if_pos rfl]

theorem noteExit_g : s.noteExit.g = s.g := by
  unfold State.noteExit
  split <;> rfl

theorem noteExit_iss : s.noteExit.iss = s.iss := by
  unfold State.noteExit
  split <;> rfl

theorem noteExit_other (h : s.g.kind ≠ .mgmt) : s.noteExit = s := if_neg h

theorem exec_exit (h : Ready .exit s) : exec .exit s =
    .next ((s.noteExit.setG (fun g => g.eachLane s.noteExit.iss.eff Group.toExit)).setIss
      (fun i => { i with moved := i.moved ||| s.noteExit.iss.eff })) :=
  exec_of_ready (i := .exit) (show execExit s = issued { pipe := .s, control := true } s _ from rfl) h rfl rfl

theorem exec_join (h : Ready .join s) : exec .join s =
    .next ((s.setG (fun g => g.eachLane s.iss.eff (Group.toJoin s.iss.chainPc s.iss.skip))).setIss
      (fun i => { i with moved := i.moved ||| s.iss.eff })) :=
  exec_of_ready (i := .join) (show execJoin s = issued { pipe := .s, base := false } s _ from rfl) h rfl rfl

theorem exec_pblk {p l : BitVec 3} {t : BitVec 8} (h : Ready (.pblk p l t) s) : exec (.pblk p l t) s =
    .next (s.setG (fun g => g.eachLane s.iss.set (Group.toBlock (s.src.rdPL p.toNat) t (l.toNat + 1)))) :=
  exec_of_ready (i := .pblk p l t) (show execPblk p l t s = issued (infPblk p) s _ from rfl) h rfl rfl
end

end Sys2Proof.Machine
end

section
open Sys2Proof Sys2Proof.Machine

/-- Settles O20: each word changes the lanes of its mask one by one, and of the group only what those changes reach. -/
theorem blocksExitsJoins : Obligations.BlocksExitsJoins := by
  unfold Obligations.BlocksExitsJoins
  refine ⟨fun p l pat s h => ⟨_, exec_pblk h, fun k _ => blocks_blkOf s.g _ k _ _ _, ?_⟩,
    fun s h hk => ⟨_, exec_exit h, ?_⟩, fun s h hk => ⟨_, exec_exit h, ?_⟩,
    fun s h => ⟨_, exec_join h, fun k => joins_lane s.g _ k _ _, fun k => joins_pc s.g _ k _ _,
      fun k hk => (joins_next s.g _ k _ _).trans (if_pos hk), ?_⟩⟩
  · exact congrArg (fun g : Group => { s with g := g }) (blocks_rest s.g _ _ _ _ rfl)
  · rw [noteExit_other hk]
    exact ⟨exits_lane s.g _, exits_blkOf s.g _, congrArg (fun g : Group =>
      ({ s with g := g, iss := { s.iss with moved := s.iss.moved ||| s.iss.eff } } : State)) (exits_rest s.g _ rfl)⟩
  · have hl : ∀ k, (s.noteExit.g.eachLane s.noteExit.iss.eff Group.toExit).lane k =
        if s.iss.eff.getLsbD k then .exited else s.g.lane k := by
      rw [noteExit_g, noteExit_iss]
      exact exits_lane s.g _
    exact ⟨noteExit_lastTimer hk, hl⟩
  · exact congrArg (fun g : Group =>
      ({ s with g := g, iss := { s.iss with moved := s.iss.moved ||| s.iss.eff } } : State)) (joins_rest s.g _ _ _ rfl)
end

section
/-! PROOF. Floating-point words in every pipe (R118), and conversions (R79 to R82, R126 to R130). -/

namespace Sys2Proof.Machine

/-- A floating-point word that reads lane registers alone ends as R26 and R118 say, with the poison of what it reads. -/
theorem fpEnds_of_reads {i : Instr} {inf : Info} {w : Nat} {d : BitVec 7} {f : Nat → FpRes} {s : State}
    {vs : List (Nat × Nat)} (h : Ready i s) (hi : infoOf i = inf) (hu : inf.uniform = [])
    (hr : inf.reads = vs.map (fun e => Reg.v e.1 e.2)) (he : exec i s = issued inf s (fpLanes inf w d f)) :
    FpEnds i s d.toNat w f (fun l => vs.any (fun e => s.src.badV e.1 e.2 l)) :=
  fpLanes_ends h hi hu he (fun _ hl => pois_lanes hr hl)

theorem fp2_of_lanes {wd wa : Nat} {pipe : Pipe} {c : BitVec 7 → BitVec 7 → Instr} {f : FpCtl → Nat → FpRes}
    (hi : ∀ d a, infoOf (c d a) = infV2 pipe wd wa d a)
    (he : ∀ d a s, exec (c d a) s =
      issued (infV2 pipe wd wa d a) s (fpLanes (infV2 pipe wd wa d a) wd d (fun l => f s.fc (s.rw wa a l)))) :
    Fp2 wd wa c f := by
  intro d a s h
  have hb := fpEnds_of_reads (vs := [(a.toNat, wa)]) h (hi d a) rfl rfl (he d a s)
  simpa only [List.any_cons, List.any_nil, Bool.or_false, State.fc, State.rw] using hb

/-- A word of two operands, whose record may ask for a feature beside its registers (R492). -/
theorem fp3_of_lanes {w : Nat} {pipe : Pipe} {feat : Option Nat} {c : BitVec 7 → BitVec 7 → BitVec 7 → Instr}
    {f : FpCtl → Nat → Nat → FpRes} (hi : ∀ d a b, infoOf (c d a b) = { infV3 pipe w w w d a b with feat := feat })
    (he : ∀ d a b s, exec (c d a b) s = issued { infV3 pipe w w w d a b with feat := feat } s
      (fpLanes (infV3 pipe w w w d a b) w d (fun l => f s.fc (s.rw w a l) (s.rw w b l)))) : Fp3 w c f := by
  intro d a b s h
  have hb := fpEnds_of_reads (vs := [(a.toNat, w), (b.toNat, w)]) h (hi d a b) rfl rfl (he d a b s)
  simpa only [List.any_cons, List.any_nil, Bool.or_false, State.fc, State.rw] using hb

theorem fp4_of_lanes {w : Nat} {pipe : Pipe} {c : BitVec 7 → BitVec 7 → BitVec 7 → Instr}
    {f : FpCtl → Nat → Nat → Nat → FpRes} (hi : ∀ d a b, infoOf (c d a b) = infV4 pipe w w w d a b)
    (he : ∀ d a b s, exec (c d a b) s = issued (infV4 pipe w w w d a b) s
      (fpLanes (infV4 pipe w w w d a b) w d (fun l => f s.fc (s.rw w a l) (s.rw w b l) (s.rw w d l)))) : Fp4 w c f := by
  intro d a b s h
  have hb := fpEnds_of_reads (vs := [(a.toNat, w), (b.toNat, w), (d.toNat, w)]) h (hi d a b) rfl rfl (he d a b s)
  simpa only [List.any_cons, List.any_nil, Bool.or_false, Bool.or_assoc, State.fc, State.rw] using hb

/-- The two bytes of half `h`, each converted into one half of the result (R128). -/
theorem packed2_bytes (f : Nat → FpRes) (x h : Nat) :
    packed2 (fun y _ => f y) (bitsOf x (16 * h) 16 % 256 + 65536 * (bitsOf x (16 * h) 16 / 256)) 0 =
      ((f (x / 2 ^ (16 * h) % 256)).1 + 2 ^ 16 * (f (x / 2 ^ (16 * h + 8) % 256)).1,
        (f (x / 2 ^ (16 * h) % 256)).2 ||| (f (x / 2 ^ (16 * h + 8) % 256)).2) := by
  have hx : x / 2 ^ (16 * h + 8) = x / 2 ^ (16 * h) / 256 := by
    rw [pow_add, ← Nat.div_div_eq_div_mul]; rfl
  have hlo : (bitsOf x (16 * h) 16 % 256 + 65536 * (bitsOf x (16 * h) 16 / 256)) % 65536 = x / 2 ^ (16 * h) % 256 := by
    unfold bitsOf; omega
  have hhi : (bitsOf x (16 * h) 16 % 256 + 65536 * (bitsOf x (16 * h) 16 / 256)) / 65536 =
      x / 2 ^ (16 * h) / 256 % 256 := by
    unfold bitsOf; omega
  simp only [packed2, hlo, hhi, hx, Nat.reducePow]

theorem rw_one (s : State) (a : BitVec 7) : s.rw 1 a = fun l => (s.src.rdV a.toNat l).toNat :=
  funext (rdW_one s.src a.toNat)

/-- Whatever its code, `qsc` names no uniform operand. -/
theorem qsc_uniform (d a : BitVec 7) (k : BitVec 2) : (infoOf (.qsc d a k)).uniform = [] := by
  unfold infoOf
  dsimp only
  split <;> rfl

/-- The shared scale of the lanes that a lane works with (R82, R129). -/
theorem exec_qsc {d a : BitVec 7} {k : BitVec 2} {s : State} (h : Ready (.qsc d a k) s) :
    ∃ t, exec (.qsc d a k) s = .next t ∧ LanesAre s.iss.eff d.toNat 1
      (fun l _ => BitVec.ofNat 32 (scaleByte s.src.daz k.toNat ((s.peers l).map (s.rw 1 a))))
      (fun l => (s.peers l).any (fun i => (s.src.poisV a.toNat).getLsbD i)) s t := by
  refine ⟨_, exec_of_ready (i := .qsc d a k) (show execQsc d a k s = issued _ s _ from rfl) h rfl (qsc_uniform d a k), ?_⟩
  simp only [wrV_eq_wrW]
  exact laneW_is.congr (fun l j _ hj => BitVec.eq_of_toNat_eq (by simp [Nat.lt_one_iff.1 hj])) (fun _ _ _ => rfl)

end Sys2Proof.Machine
end

section
open Sys2Proof Sys2Proof.Machine

/-- Settles O10: each word is `issued` with the record of its shape; a W3 code asks for its feature as well. -/
theorem conversions : Obligations.Conversions := by
  unfold Obligations.Conversions
  refine ⟨fun d a x m u v s h => ?cvt, ?_, ?_, ?_, ?_, ?_, ?_, ?_, ?_, fun k => ?_, fun k => ?_,
    fun n f i hfi => ?both, ?w4, ?w3, ?of4, fun d a k s h => ?qsc⟩
  case cvt =>
    have hb := fpEnds_of_reads (vs := [(a.toNat, cvtRegs u)]) h rfl rfl rfl (show _ = execCvt d a x m u v s from rfl)
    simpa only [List.any_cons, List.any_nil, Bool.or_false, State.fc, State.rw] using hb
  case both =>
    rcases hfi with ⟨rfl, rfl⟩ | ⟨rfl, rfl⟩ <;>
      exact fp2_of_lanes (fun _ _ => rfl) (fun d a s => by simp only [← packed2_bytes]; rfl)
  case w4 => exact fp3_of_lanes (fun _ _ _ => rfl) (fun _ _ _ _ => rfl)
  case w3 => exact fp3_of_lanes (fun _ _ _ => rfl) (fun _ _ _ _ => rfl)
  case of4 => exact fp3_of_lanes (fun _ _ _ => rfl) (fun _ _ _ _ => rfl)
  case qsc => simpa only [State.peers, rw_one] using exec_qsc h
  iterate 8 exact fp4_of_lanes (fun _ _ _ => rfl) (fun _ _ _ _ => rfl)
  iterate 2 exact fp2_of_lanes (fun _ _ => rfl) (fun _ _ _ => rfl)
end

section
/-! PROOF. NaNs among the operands (R78). -/

namespace Sys2Proof.Machine

section
variable {f : Fmt} {x y z : Nat}

/-- The bits that an operation reads fit the format (R76). -/
theorem daz_lt (f : Fmt) (b : Bool) (x : Nat) : f.daz b x < 2 * f.signBit := by
  have hs : 0 < f.signBit := Nat.two_pow_pos _
  unfold Fmt.daz Fmt.signed
  split
  · split <;> omega
  · exact Nat.mod_lt _ (by omega)

/-- A NaN keeps the bits it was read from. -/
theorem dec_eq_nan (hx : x < 2 * f.signBit) (h : (f.dec x).isNan = true) : f.dec x = .nan x (f.dec x).isSnan := by
  have he : ∀ r s, f.dec x = .nan r s → r = x := by
    intro r s hd
    unfold Fmt.dec at hd
    dsimp only at hd
    split at hd
    · have hr := (FV.nan.inj hd).1
      rw [Nat.mod_eq_of_lt hx] at hr
      exact hr.symm
    · split at hd
      · cases hd
      · split at hd <;> cases hd
  cases hd : f.dec x with
  | nan r s => rw [he r s hd]; rfl
  | inf s => rw [hd] at h; cases h
  | num s m e => rw [hd] at h; cases h

theorem isSnan_of_not_nan {v : FV} (h : v.isNan = false) : v.isSnan = false := by
  cases v with
  | nan r s => cases h
  | inf s => rfl
  | num s m e => rfl

theorem nvOf_eq (vs : List FV) : nvOf vs = if vs.any FV.isSnan then flagNV else 0 := rfl

theorem nv_or (s t : Bool) : (if s then flagNV else 0) ||| (if t then flagNV else 0) = if s || t then flagNV else 0 := by
  cases s <;> cases t <;> rfl

theorem firstNan_cons {v : FV} (h : v.isNan = false) (vs : List FV) : firstNan f (v :: vs) = firstNan f vs := by
  cases v with
  | nan r s => cases h
  | inf s => rfl
  | num s m e => rfl

/-- The first NaN of the operands is the one after those that are none. -/
theorem firstNan_append {vs : List FV} (hvs : ∀ v ∈ vs, v.isNan = false) (hx : x < 2 * f.signBit)
    (h : (f.dec x).isNan = true) (ws : List FV) : firstNan f (vs ++ f.dec x :: ws) = some (f.quiet x) := by
  induction vs with
  | nil => rw [dec_eq_nan hx h]; rfl
  | cons v vs ih =>
    rw [List.cons_append, firstNan_cons (hvs v (by simp)), ih fun w hw => hvs w (by simp [hw])]

/-- Of two operands the first is delivered quiet where it is a NaN, else the second where that is one. -/
theorem withNan_two (hx : x < 2 * f.signBit) (hy : y < 2 * f.signBit) (k : FpRes) :
    ((f.dec x).isNan = true → withNan f [f.dec x, f.dec y] k =
      (f.quiet x, if (f.dec x).isSnan || (f.dec y).isSnan then flagNV else 0)) ∧
    ((f.dec x).isNan = false → (f.dec y).isNan = true → withNan f [f.dec x, f.dec y] k =
      (f.quiet y, if (f.dec y).isSnan then flagNV else 0)) := by
  constructor
  · intro h
    have hn : firstNan f [f.dec x, f.dec y] = _ := firstNan_append (vs := []) (by simp) hx h _
    simp [withNan, hn, nvOf_eq]
  · intro h h'
    have hn : firstNan f [f.dec x, f.dec y] = _ := firstNan_append (vs := [f.dec x]) (by simpa using h) hy h' _
    simp [withNan, hn, nvOf_eq, isSnan_of_not_nan h]

/-- The fused operation delivers the quiet first NaN of three; 0 × ∞ raises NV beside a NaN addend (R125). -/
theorem fFma_nan (c : FpCtl) (n k : Bool) (x y z : Nat) :
    let a := f.dec (f.daz c.daz x)
    let b := f.dec (f.daz c.daz y)
    let d := f.dec (f.daz c.daz z)
    (a.isNan = true → fFma f c n k x y z =
      (f.quiet (f.daz c.daz x), if a.isSnan || b.isSnan || d.isSnan then flagNV else 0)) ∧
    (a.isNan = false → b.isNan = true → fFma f c n k x y z =
      (f.quiet (f.daz c.daz y), if b.isSnan || d.isSnan then flagNV else 0)) ∧
    (a.isNan = false → b.isNan = false → d.isNan = true → fFma f c n k x y z =
      (f.quiet (f.daz c.daz z), if d.isSnan || (mulExact a b).isNone then flagNV else 0)) := by
  intro a b d
  refine ⟨fun ha => ?_, fun ha hb => ?_, fun ha hb hd => ?_⟩
  · have hn : firstNan f [a, b, d] = _ := firstNan_append (vs := []) (by simp) (daz_lt ..) ha _
    simp only [fFma, a, b, d] at hn ha ⊢
    simp [hn, ha, nvOf_eq, Bool.or_assoc]
  · have hn : firstNan f [a, b, d] = _ := firstNan_append (vs := [a]) (by simpa using ha) (daz_lt ..) hb _
    simp only [fFma, a, b, d] at hn ha hb ⊢
    simp [hn, hb, nvOf_eq, isSnan_of_not_nan ha]
  · have hn : firstNan f [a, b, d] = _ := firstNan_append (vs := [a, b]) (by simp [ha, hb]) (daz_lt ..) hd _
    simp only [fFma, a, b, d] at hn ha hb ⊢
    simp only [hn, nvOf_eq, nv_or]
    simp [ha, hb, isSnan_of_not_nan ha, isSnan_of_not_nan hb]
end

end Sys2Proof.Machine
end

section
open Sys2Proof Sys2Proof.Machine

/-- Settles O13: what is read fits the format, so a NaN is its own bits, and the first one decides. -/
theorem nanOperands : Obligations.NanOperands := by
  unfold Obligations.NanOperands
  intro f hf c x y z a b d q nv
  have hq : ∀ x, q x = f.quiet (f.daz c.daz x) := by
    have hi : f.hasInf = true := (by decide : ∀ g ∈ [f64, f32, f16, bf16], g.hasInf = true) f hf
    intro x
    rw [Fmt.quiet, if_pos hi]
  simp only [hq]
  refine ⟨fun g hg => ?_, fun n k => fFma_nan c n k x y z⟩
  obtain ⟨k, hk⟩ : ∃ k, g f c x y = withNan f [a, b] k := by
    simp only [List.mem_cons, List.not_mem_nil, or_false] at hg
    rcases hg with rfl | rfl | rfl | rfl <;> exact ⟨_, rfl⟩
  rw [hk]
  exact withNan_two (daz_lt ..) (daz_lt ..) k
end

section
/-! PROOF. The special-function unit (R132). -/

namespace Sys2Proof.Machine

/-- A NaN is delivered quiet, whatever the function (R78). -/
theorem sfu_nan (fn : Nat) {c : FpCtl} {x : Nat} (h : (f32.dec (f32.daz c.daz x)).isNan = true) :
    sfu fn c x = (f32.daz c.daz x ||| 2 ^ 22, if (f32.dec (f32.daz c.daz x)).isSnan then flagNV else 0) := by
  have hf : firstNan f32 [f32.dec (f32.daz c.daz x)] = _ := firstNan_append (vs := []) (by simp) (daz_lt ..) h []
  simp only [sfu, withNan, hf, nvOf_eq, List.any_cons, List.any_nil, Bool.or_false]
  rfl

/-- Where the table gives a special value, the unit gives it, flushed as FTZ says. -/
theorem sfu_of_exact {fn : Nat} {c : FpCtl} {x : Nat} {r : FpRes} (hn : (f32.dec (f32.daz c.daz x)).isNan = false)
    (h : sfuVal fn (f32.daz c.daz x) (f32.dec (f32.daz c.daz x)) = .exact r) : sfu fn c x = sfuFtz c.ftz r := by
  have hf : firstNan f32 [f32.dec (f32.daz c.daz x)] = none := firstNan_cons hn []
  simp only [sfu, withNan, hf, h]

theorem sfuFtz_of_normal {ftz : Bool} {r : FpRes} (h : f32.mag r.1 = 0 ∨ 2 ^ 23 ≤ f32.mag r.1) : sfuFtz ftz r = r := by
  unfold sfuFtz
  rcases h with h | h
  · simp [h]
  · rw [if_neg]
    simp only [Bool.and_eq_true, decide_eq_true_eq, not_and, Nat.not_lt]
    exact fun _ => h

/-- A special value that no flush changes, whether DAZ is set or not. -/
theorem sfu_special {fn x : Nat} {r : FpRes} (h : ∀ b, (f32.dec (f32.daz b x)).isNan = false ∧
    sfuVal fn (f32.daz b x) (f32.dec (f32.daz b x)) = .exact r)
    (hr : f32.mag r.1 = 0 ∨ 2 ^ 23 ≤ f32.mag r.1) (c : FpCtl) :
    sfu fn c x = r :=
  (sfu_of_exact (h c.daz).1 (h c.daz).2).trans (sfuFtz_of_normal hr)

/-- A word without uniform operands acts at the state in which it issues. -/
theorem issued_congr {inf : Info} {s : State} {body body' : State → State} (hu : inf.uniform = [])
    (h : body s = body' s) : issued inf s body = issued inf s body' := by
  have hn : inf.noteUnif s = s := by simp [Info.noteUnif, Info.nonuniform, hu]
  simp only [issued, hn, h]

/-- A word of the unit with one result. -/
theorem fp2_of_sfuOut {fn : Nat} {c : BitVec 7 → BitVec 7 → Instr} (hi : ∀ d a, infoOf (c d a) = infV2 .t 1 1 d a)
    (he : ∀ d a s, exec (c d a) s = issued (infV2 .t 1 1 d a) s (sfuOut fn d a)) : Fp2 1 1 c (sfu fn) :=
  fp2_of_lanes hi fun d a s => (he d a s).trans (issued_congr rfl rfl)

end Sys2Proof.Machine
end

section
open Sys2Proof Sys2Proof.Machine

/-- Settles O11: every word is `issued` with the record of its shape; a NaN is its own bits, and the special values of the
table come before any approximation. -/
theorem specialFunctions : Obligations.SpecialFunctions := by
  unfold Obligations.SpecialFunctions
  refine ⟨?_, ?_, ?_, ?_, ?_, ?_, ?_, ?_, fp2_of_lanes (fun _ _ => rfl) (fun _ _ _ => rfl),
    fun fn c x h => sfu_nan fn h, fun c => ?special⟩
  case special => and_intros <;> exact sfu_special (by decide +kernel) (by decide +kernel) c
  all_goals exact fp2_of_sfuOut (fun _ _ => rfl) (fun _ _ _ => rfl)
end

section
/-! PROOF. Scans and reductions over the lanes that take part (R85, R86, R170 to R174). -/

namespace Sys2Proof.Machine

theorem poisW_eq_badV (r : Regs) (l : Nat) : ∀ w n, r.poisW w n l = r.badV n w l
  | 0, _ => rfl
  | w + 1, n => by
    rw [Regs.poisW, poisW_eq_badV r l w (n + 1), Regs.badV, Regs.badV, List.range_succ_eq_map, List.any_cons, List.any_map]
    simp [Function.comp_def, Nat.add_assoc, Nat.add_comm 1]

/-! ### How a word that combines lanes ends (R118) -/

/-- Where the results are those of `x` and `b`, and `f` are the exceptions that poison does not silence, the end of the
word is that of `CombineEnds`. -/
theorem combineEnds_of {i : Instr} {s : State} {d w : Nat} {x : Nat → Nat} {f fl : Nat → BitVec 5} {b p : Nat → Bool}
    {write : State → State} (he : exec i s = .next (fpFinishOn p fl write s))
    (hw : write s = s.eachEff (fun r l => r.wrW w d l (x l) (b l))) (hf : ∀ l, f l = if p l then 0 else fl l) :
    CombineEnds i s d w x f b := by
  have hu : (lanesOf s.iss.eff).foldl (fun u l => u ||| f l) 0 =
      (lanesOf s.iss.eff).foldl (fun u l => if p l then u else u ||| fl l) 0 :=
    List.foldl_ext _ _ _ fun u l _ => by rw [hf l]; split <;> simp
  obtain ⟨hgo, htrap⟩ := fpFinishOn_ends (p := p) (f := fl) (write := write) (s := s) hu
  refine ⟨fun h0 => ⟨_, he.trans (congrArg Host.Outcome.next (hgo h0)), ?_⟩, fun h0 => ?_⟩
  · rw [hw]
    exact laneW_is.raise _
  · obtain ⟨l, _, _, _, _, hl⟩ := htrap h0
    exact ⟨l, he.trans (congrArg Host.Outcome.next hl)⟩

/-! ### Scans -/

section
variable (op : Nat → Nat → FpRes) (x : Nat → Nat) (pois : Nat → Bool)

/-- The step that takes lane `l` in after the lanes `ls`. -/
def scanStep (ls : List Nat) (l : Nat) : ScanAt :=
  match combine op x ls with
  | none => ⟨l, x l, 0, pois l⟩
  | some v => ⟨l, (op v (x l)).1, (op v (x l)).2, ls.any pois || pois l⟩

theorem combine_concat (ls : List Nat) (l : Nat) : combine op x (ls ++ [l]) = some (scanStep op x pois ls l).val := by
  cases ls with
  | nil => rfl
  | cons a as => simp [combine, scanStep, List.foldl_append]

theorem scanStep_pois (ls : List Nat) (l : Nat) : (scanStep op x pois ls l).pois = (ls.any pois || pois l) := by
  cases ls <;> rfl

theorem scanStep_lane (ls : List Nat) (l : Nat) : (scanStep op x pois ls l).lane = l := by
  cases ls <;> rfl

/-- The scan of one lane more has one step more. -/
theorem scanSteps_concat (ls : List Nat) (l : Nat) :
    scanSteps op x pois (ls ++ [l]) = scanStep op x pois ls l :: scanSteps op x pois ls := by
  induction ls using List.reverseRecOn generalizing l with
  | nil => rfl
  | append_singleton ls m ih =>
    have hs : scanSteps op x pois (ls ++ [m] ++ [l]) = match scanSteps op x pois (ls ++ [m]) with
      | [] => [⟨l, x l, 0, pois l⟩]
      | y :: _ => ⟨l, (op y.val (x l)).1, (op y.val (x l)).2, y.pois || pois l⟩ :: scanSteps op x pois (ls ++ [m]) := by
      rw [scanSteps, List.foldl_append]
      rfl
    rw [hs, ih m]
    conv_rhs => rw [scanStep, combine_concat op x pois]
    simp [scanStep_pois]

/-- What the latest step has gathered. -/
theorem scanSteps_head (ls : List Nat) : ((scanSteps op x pois ls).head?.map ScanAt.val = combine op x ls) ∧
    ((scanSteps op x pois ls).head?.map ScanAt.pois).getD false = ls.any pois := by
  induction ls using List.reverseRecOn with
  | nil => exact ⟨rfl, rfl⟩
  | append_singleton ls l _ =>
    rw [scanSteps_concat, combine_concat op x pois]
    simp [scanStep_pois]

/-- The latest step within a bound is the latest of the scan of the lanes within it. -/
theorem find_scanSteps_bound {q : Nat → Bool} (hq : ∀ k l, k < l → q l = true → q k = true) {ls : List Nat}
    (hls : ls.Pairwise (· < ·)) :
    (scanSteps op x pois ls).find? (fun y => q y.lane) = (scanSteps op x pois (ls.filter q)).head? := by
  induction ls using List.reverseRecOn with
  | nil => rfl
  | append_singleton ls l ih =>
    obtain ⟨hp, _, hlt⟩ := List.pairwise_append.1 hls
    rw [scanSteps_concat, List.find?_cons, scanStep_lane, List.filter_append]
    cases hl : q l with
    | true =>
      have hall : ls.filter q = ls := List.filter_eq_self.2 fun k hk => hq k l (hlt k hk l (by simp)) hl
      simp [hall, hl, scanSteps_concat]
    | false => simpa [hl] using ih hp

/-- The step of a lane itself. -/
theorem find_scanSteps_lane (l : Nat) {ls : List Nat} (hls : ls.Pairwise (· < ·)) :
    (scanSteps op x pois ls).find? (fun y => y.lane == l) =
      if l ∈ ls then some (scanStep op x pois (ls.filter (· < l)) l) else none := by
  induction ls using List.reverseRecOn with
  | nil => rfl
  | append_singleton ls m ih =>
    obtain ⟨hp, _, hlt⟩ := List.pairwise_append.1 hls
    rw [scanSteps_concat, List.find?_cons, scanStep_lane, List.filter_append]
    by_cases hm : m = l
    · subst hm
      have hall : ls.filter (· < m) = ls := List.filter_eq_self.2 fun k hk => by simpa using hlt k hk m (by simp)
      simp [hall]
    · have hml : l ∈ ls → ¬ m < l := fun h => by have := hlt l h m (by simp); omega
      simp only [beq_eq_false_iff_ne.2 hm, ih hp, List.mem_append, List.mem_singleton, Ne.symm hm, or_false]
      split
      · next h => simp [hml h]
      · rfl

theorem scanStep_fl (ls : List Nat) (l : Nat) (h : l ∈ ls) :
    (scanStep op x pois (ls.filter (· < l)) l).fl = combineFlags op x ls l := by
  unfold combineFlags scanStep
  rw [if_pos (List.contains_iff_mem.2 h)]
  cases combine op x (ls.filter (· < l)) <;> rfl
end

theorem any_le_eq {pois : Nat → Bool} {ls : List Nat} {l : Nat} (h : l ∈ ls) :
    (ls.filter (· ≤ l)).any pois = ((ls.filter (· < l)).any pois || pois l) := by
  rw [Bool.eq_iff_iff, Bool.or_eq_true]
  simp only [List.any_eq_true, List.mem_filter, decide_eq_true_eq]
  constructor
  · rintro ⟨k, ⟨hk, hle⟩, hb⟩
    rcases Nat.lt_or_eq_of_le hle with hlt | rfl
    · exact .inl ⟨k, ⟨hk, hlt⟩, hb⟩
    · exact .inr hb
  · rintro (⟨k, ⟨hk, hlt⟩, hb⟩ | hb)
    · exact ⟨k, ⟨hk, hlt.le⟩, hb⟩
    · exact ⟨l, ⟨h, le_rfl⟩, hb⟩

/-- Lanes that take part come in ascending order (R86). -/
theorem takers_sorted (s : State) (p : BitVec 3) (l : Nat) : (s.takers p l).Pairwise (· < ·) :=
  ((List.pairwise_lt_range.filter _).filter _).filter _

section
variable {s : State} {a d : BitVec 7} {p : BitVec 3} {o : BitVec 4}

/-- A scan of the lanes within `q l` of lane `l`, with `z` where there is none. -/
theorem scanWord_ends {excl : Bool} {i : Instr} {q : Nat → Nat → Bool} {z : Nat} (hz : z = if excl then opIdentity o else 0)
    (hq : ∀ n l, (if excl then decide (n < l) else decide (n ≤ l)) = q l n)
    (hmono : ∀ n k l, k < l → q n l = true → q n k = true)
    (he : exec i s = .next (scanWord excl d a p o s)) :
    CombineEnds i s d.toNat (opRegs o)
      (fun l => (combine (opFn s.src.fctl o) (s.src.rdW (opRegs o) a.toNat) ((s.takers p l).filter (q l))).getD z)
      (fun l => if ((s.takers p l).filter (· ≤ l)).any (fun k => s.src.badV a.toNat (opRegs o) k) then 0
        else combineFlags (opFn s.src.fctl o) (s.src.rdW (opRegs o) a.toNat) (s.takers p l) l)
      (fun l => ((s.takers p l).filter (q l)).any (fun k => s.src.badV a.toNat (opRegs o) k)) := by
  have hp : (fun k => s.src.poisW (opRegs o) a.toNat k) = fun k => s.src.badV a.toNat (opRegs o) k :=
    funext fun k => poisW_eq_badV ..
  rw [scanWord] at he
  refine combineEnds_of he ?_ fun l => ?_
  · refine congrArg s.eachEff (funext fun r => funext fun l => ?_)
    obtain ⟨hv, hb⟩ := scanSteps_head (opFn s.fc o) (s.rw (opRegs o) a) (fun k => s.src.badV a.toNat (opRegs o) k)
      ((s.takers p l).filter (q l))
    have hy := find_scanSteps_bound (opFn s.fc o) (s.rw (opRegs o) a) (fun k => s.src.badV a.toNat (opRegs o) k) (hmono l)
      (takers_sorted s p l)
    simp only [hq, hp, hy, hv, hb, ← hz]
    rfl
  · simp only [hp, find_scanSteps_lane _ _ _ l (takers_sorted s p l)]
    by_cases hl : l ∈ s.takers p l
    · simp only [if_pos hl, Option.map_some, Option.getD_some, scanStep_pois, scanStep_fl _ _ _ _ _ hl, any_le_eq hl]
      rfl
    · simp [hl, combineFlags]

/-! ### Reductions -/

theorem reduceFor_eq (l : Nat) : s.reduceFor a p o l =
    let t := treeFold (opFn s.src.fctl o)
      (fun i => if i ∈ s.takers p l then some (s.src.rdW (opRegs o) a.toNat i) else none) 5 0
    (t.1, t.2, (s.takers p l).any (fun k => s.src.badV a.toNat (opRegs o) k)) := by
  simp only [State.reduceFor, List.contains_iff_mem, poisW_eq_badV]
  rfl

theorem foldl_or_absorbed {u v : BitVec 5} (h : u ||| v = u) : ∀ ls : List Nat, ls.foldl (fun u _ => u ||| v) u = u
  | [] => rfl
  | _ :: ls => by rw [List.foldl_cons, h, foldl_or_absorbed h ls]

/-- The union of what every lane with effect raises alike. -/
theorem foldl_union_const (b : Bool) (v : BitVec 5) {ls : List Nat} (h : ls ≠ []) :
    ls.foldl (fun u _ => if b then u else u ||| v) 0 = if b then 0 else v := by
  obtain ⟨l, ls, rfl⟩ := List.exists_cons_of_ne_nil h
  cases b with
  | true => simp
  | false => simpa using foldl_or_absorbed BitVec.or_self ls

theorem lanesOf_ne_nil {m : Word} (h : m ≠ 0) : lanesOf m ≠ [] := by
  intro hn
  refine h (BitVec.eq_of_getLsbD_eq fun k _ => ?_)
  have hk : k ∉ lanesOf m := by simp [hn]
  simpa using mt mem_lanesOf.2 hk

/-- A value put into the slot of the group, if any lane took part, with the operator and the flipped epoch (R174). -/
def State.putSlot (s : State) (o : BitVec 4) (v : Option Nat) : State :=
  (s.setG (fun g => { g with foldE := !s.g.foldE })).setTeam s.g.team (fun t =>
    { t with fold := mapSet none t.fold s.g.grp (v.map (fun v => FoldSlot.mk (BitVec.ofNat 64 v) o.toNat (!s.g.foldE))) })

theorem exec_red (h : Ready (.red d a p o) s) : exec (.red d a p o) s = .next
    (fpFinishOn (fun l => (s.reduceFor a p o l).2.2) (fun l => (s.reduceFor a p o l).2.1) (fun s =>
      s.eachEff (fun r l => r.wrW (opRegs o) d.toNat l ((s.reduceFor a p o l).1.getD 0) (s.reduceFor a p o l).2.2)) s) := by
  have he := exec_of_ready (i := .red d a p o) (show execRed d a p o s = issued (infScan d a p o) s _ from rfl) h rfl rfl
  exact he

theorem exec_tput (h : Ready (.tput a p o) s) : exec (.tput a p o) s = .next
    (fpFinishOn (fun _ => (s.reduceFor a p o 0).2.2) (fun _ => (s.reduceFor a p o 0).2.1)
      (fun s' => s'.putSlot o (s.reduceFor a p o 0).1) s) := by
  have he := exec_of_ready (i := .tput a p o) (show execTput a p o s = issued (infTput a p o) s _ from rfl) h rfl rfl
  exact he

/-- The value in slot `i`, where it is of the operator and the epoch (R174). -/
def State.getSlot (s : State) (o : BitVec 4) (i : Nat) : Option Nat :=
  ((s.myTeam.bind (fun t => mapGet none t.fold i)).filter
    (fun x => x.op == o.toNat && x.tag == s.g.foldE)).map (fun x => x.val.toNat)

theorem getSlot_eq (s : State) (o : BitVec 4) : s.getSlot o = fun i =>
    (s.myTeam.bind (fun t => mapGet none t.fold i)).bind (fun x =>
      if x.op = o.toNat ∧ x.tag = s.g.foldE then some x.val.toNat else none) := by
  funext i
  unfold State.getSlot
  cases s.myTeam.bind (fun t => mapGet none t.fold i) with
  | none => rfl
  | some x =>
    by_cases hx : x.op = o.toNat ∧ x.tag = s.g.foldE
    · simp [Option.filter, hx]
    · simp [Option.filter, hx]

theorem exec_tget (h : Ready (.tget d o) s) : exec (.tget d o) s = .next
    (fpFinishOn (fun _ => false) (fun _ => (treeFold (opFn s.src.fctl o) (s.getSlot o) 5 0).2) (fun s' =>
      s'.eachEff (fun r l => r.wrW (opRegs o) d.toNat l
        ((treeFold (opFn s.src.fctl o) (s.getSlot o) 5 0).1.getD 0) false)) s) := by
  have he := exec_of_ready (i := .tget d o) (show execTget d o s = issued (infTget d o) s _ from rfl) h rfl rfl
  rw [getSlot_eq]
  exact he

end
end Sys2Proof.Machine
end

section
open Sys2Proof Sys2Proof.Machine

/-- Settles O16: a scan keeps one step per lane, and the step that a lane receives is the latest within its bound. -/
theorem scans : Obligations.Scans := by
  unfold Obligations.Scans
  intro d a p o s _
  refine ⟨fun h => ?incl, fun h => ?excl⟩
  case incl =>
    exact scanWord_ends (q := fun l k => decide (k ≤ l)) rfl (fun _ _ => rfl) (by simp; omega)
      (exec_of_ready (show execScan d a p o s = _ from rfl) h rfl rfl)
  case excl =>
    exact scanWord_ends (q := fun l k => decide (k < l)) rfl (fun _ _ => rfl) (by simp; omega)
      (exec_of_ready (show execScanx d a p o s = _ from rfl) h rfl rfl)

/-- Settles O17: every word combines by one tree; `tput` raises what its one value raised. -/
theorem reductions : Obligations.Reductions := by
  unfold Obligations.Reductions
  intro o s _ w op red bad
  refine ⟨fun d a p h => ?red, fun a p h => ?tput, fun d h => ?tget⟩
  case red =>
    refine combineEnds_of (exec_red h) ?_ fun l => ?_
    · simp only [reduceFor_eq]
      rfl
    · simp only [reduceFor_eq]
      rfl
  case tput =>
    intro u slot
    have hr : s.reduceFor a p o 0 = ((red a p 0).1, (red a p 0).2, bad a p 0) := reduceFor_eq 0
    have he := exec_tput h
    rw [hr] at he
    obtain ⟨hgo, htrap⟩ := fpFinishOn_ends (p := fun _ => bad a p 0) (f := fun _ => (red a p 0).2)
      (write := fun s => s.putSlot o (red a p 0).1) (s := s) (foldl_union_const _ _ (lanesOf_ne_nil h.lanes)).symm
    refine ⟨fun h0 => he.trans (congrArg Host.Outcome.next (hgo h0)), fun h0 => ?_⟩
    obtain ⟨l, _, _, _, _, hl⟩ := htrap h0
    exact ⟨l, he.trans (congrArg Host.Outcome.next hl)⟩
  case tget =>
    intro slot
    exact combineEnds_of (exec_tget h) rfl fun _ => rfl
end

section
/-! PROOF. Codes of a format as numbers (R67, R68). -/

namespace Sys2Proof.Machine

section
variable (f : Fmt) (mag : Nat)

/-- Significand and exponent of a finite magnitude code (R67). -/
def Fmt.sig : Nat := if mag / 2 ^ f.fb = 0 then mag % 2 ^ f.fb else 2 ^ f.fb + mag % 2 ^ f.fb
def Fmt.exp : Int := if mag / 2 ^ f.fb = 0 then f.emin - f.fb else ((mag / 2 ^ f.fb : Nat) : Int) - f.bias - f.fb
/-- The number that a finite magnitude code stands for. -/
def Fmt.magVal : Rat := (f.sig mag : Rat) * (2 : Rat) ^ f.exp mag

theorem signBit_pos : 0 < f.signBit := Nat.two_pow_pos _

theorem infMag_lt_signBit : f.infMag < f.signBit := by
  have he := Nat.two_pow_pos f.eb
  have hf := Nat.two_pow_pos f.fb
  unfold Fmt.infMag Fmt.signBit
  rw [pow_add]
  split
  · exact Nat.mul_lt_mul_of_pos_right (by omega) hf
  · exact Nat.sub_lt (Nat.mul_pos he hf) one_pos

theorem sig_lt : f.sig mag < 2 ^ (f.fb + 1) := by
  have hm := Nat.mod_lt mag (Nat.two_pow_pos f.fb)
  unfold Fmt.sig
  rw [pow_succ]
  split <;> omega

theorem le_exp : f.emin - f.fb ≤ f.exp mag := by
  unfold Fmt.exp Fmt.emin
  split
  · exact le_rfl
  · next h =>
    generalize mag / 2 ^ f.fb = k at h
    omega

theorem magVal_nonneg : 0 ≤ f.magVal mag := by unfold Fmt.magVal; positivity
end

section
variable {f : Fmt} {x mag : Nat}

theorem mag_signed (sg : Bool) (h : mag < f.signBit) : f.mag (f.signed sg mag) = mag := by
  unfold Fmt.mag Fmt.signed
  cases sg <;> simp [Nat.mod_eq_of_lt h]

theorem sgn_signed (sg : Bool) (h : mag < f.signBit) : f.sgn (f.signed sg mag) = sg := by
  unfold Fmt.sgn Fmt.signed
  cases sg
  · simp [Nat.div_eq_of_lt h]
  · simp [Nat.add_div_right _ (signBit_pos f), Nat.div_eq_of_lt h]

theorem signed_lt (sg : Bool) (h : mag < f.signBit) : f.signed sg mag < 2 * f.signBit := by
  unfold Fmt.signed
  split <;> omega

/-- Codes below that of infinity are numbers. -/
theorem dec_of_lt (h : f.mag x < f.infMag) : f.dec x = .num (f.sgn x) (f.sig (f.mag x)) (f.exp (f.mag x)) := by
  unfold Fmt.dec Fmt.sig Fmt.exp
  dsimp only
  rw [if_neg (by omega), if_neg h.ne]
  split <;> rfl

theorem finite_iff : f.finite x ↔ x < 2 * f.signBit ∧ f.mag x < f.infMag := by
  refine and_congr_right fun _ => ⟨fun h => ?_, fun h => ⟨_, _, _, dec_of_lt h⟩⟩
  obtain ⟨s, m, e, hd⟩ := h
  by_contra hm
  unfold Fmt.dec at hd
  dsimp only at hd
  split at hd
  · cases hd
  · next hn =>
    rw [if_pos (by omega)] at hd
    cases hd

theorem val_of_dec {s : Bool} {m : Nat} {e : Int} (h : f.dec x = .num s m e) :
    f.val x = (if s then -1 else 1) * (m : Rat) * (2 : Rat) ^ e := by
  unfold Fmt.val
  rw [h]

theorem val_of_lt (h : f.mag x < f.infMag) : f.val x = (if f.sgn x then -1 else 1) * f.magVal (f.mag x) := by
  rw [val_of_dec (dec_of_lt h), Fmt.magVal, mul_assoc]

theorem abs_val (h : f.mag x < f.infMag) : |f.val x| = f.magVal (f.mag x) := by
  rw [val_of_lt h, abs_mul, abs_of_nonneg (magVal_nonneg f _)]
  split <;> simp
end

/-! ### Rounding of a magnitude (R73) -/

section
variable (f : Fmt) (rm : RMode) (sg : Bool) (m : Nat) (e : Int)

/-- The exponent of the last place that a result keeps. -/
def Fmt.lastPlace : Int := max ((Nat.log2 m : Int) + e) f.emin - f.fb

/-- The whole number of last places that a result is rounded to, and whether it is inexact. -/
def Fmt.rounded : Nat × Bool :=
  if f.lastPlace m e ≤ e then (m * 2 ^ (e - f.lastPlace m e).toNat, false) else roundShift rm sg m (f.lastPlace m e - e).toNat

/-- The magnitude code of `n` last places `q`. -/
def Fmt.encode (q : Int) (n : Nat) : Nat :=
  if n < 2 ^ f.fb then n else (q + f.fb + f.bias).toNat * 2 ^ f.fb + (n - 2 ^ f.fb)

/-- Without overflow and without flushing the result is the code of the rounded magnitude. -/
theorem roundTo_fits {c : FpCtl} {sat : Bool} (hm : m ≠ 0) (hz : c.ftz = false ∨ f.flushable = false)
    (ho : (roundTo f c sat sg m e).2 &&& flagOF = 0) :
    f.encode (f.lastPlace m e) (f.rounded c.rm sg m e).1 ≤ f.maxMag ∧
    (roundTo f c sat sg m e).1 = f.signed sg (f.encode (f.lastPlace m e) (f.rounded c.rm sg m e).1) ∧
    ((roundTo f c sat sg m e).2 &&& flagNX ≠ 0 ↔ (f.rounded c.rm sg m e).2 = true) := by
  have hr : roundTo f c sat sg m e =
      let mag := f.encode (f.lastPlace m e) (f.rounded c.rm sg m e).1
      if f.maxMag < mag then
        (f.signed sg (if !sat && overflowInf c.rm sg then f.infMag else f.maxMag), flagOF ||| flagNX)
      else if mag != 0 && decide (mag < 2 ^ f.fb) && c.ftz && f.flushable then (f.signed sg 0, flagUF ||| flagNX)
      else
        (f.signed sg mag, if (f.rounded c.rm sg m e).2 then
          (if mag != 0 && decide (mag < 2 ^ f.fb) then flagNX ||| flagUF else flagNX) else 0) := by
    unfold roundTo
    rw [if_neg hm]
    rfl
  have hf : (c.ftz && f.flushable) = false := by rcases hz with h | h <;> simp [h]
  rw [hr] at ho ⊢
  dsimp only at ho ⊢
  split at ho
  · exact absurd ho (show ¬ (flagOF ||| flagNX) &&& flagOF = 0 by decide)
  · next hle =>
    rw [if_neg hle, if_neg (by rw [Bool.and_assoc, hf, Bool.and_false]; exact Bool.false_ne_true)]
    refine ⟨not_lt.1 hle, rfl, ?_⟩
    cases (f.rounded c.rm sg m e).2 with
    | false => simp
    | true => simp only [if_true, iff_true]; split <;> decide
end

/-- Whether a directed mode takes a result of sign `sg` away from zero (R73). -/
def RMode.outward (rm : RMode) (sg : Bool) : Bool :=
  match rm with
  | .rdn => sg
  | .rup => !sg
  | _ => false

/-- A magnitude `X = n₀ × u + t` with `t` below one last place `u` is rounded to `n × u` (R73). -/
structure Rounds (rm : RMode) (sg : Bool) (u X : Rat) (n₀ : Nat) (t : Rat) (n : Nat) (nx : Bool) : Prop where
  split : X = n₀ * u + t
  nonneg : 0 ≤ t
  below : t < u
  inexact : nx = true ↔ t ≠ 0
  nearest : rm = .rne → (n = n₀ ∧ 2 * t ≤ u ∨ n = n₀ + 1 ∧ u ≤ 2 * t) ∧ (2 * t = u → n % 2 = 0)
  directed : rm ≠ .rne → n = if rm.outward sg = true ∧ t ≠ 0 then n₀ + 1 else n₀

section
variable (rm : RMode) (sg : Bool) (m k : Nat)

theorem roundShift_inexact : (roundShift rm sg m k).2 = true ↔ m % 2 ^ k ≠ 0 := by
  simp [roundShift]

theorem roundShift_rne : (roundShift .rne sg m k).1 =
    if 2 ^ k < 2 * (m % 2 ^ k) ∨ 2 * (m % 2 ^ k) = 2 ^ k ∧ m / 2 ^ k % 2 = 1 then m / 2 ^ k + 1 else m / 2 ^ k := by
  have hp := Nat.two_pow_pos k
  unfold roundShift
  refine if_congr ?_ rfl rfl
  simp only [Bool.or_eq_true, Bool.and_eq_true, decide_eq_true_eq, beq_iff_eq, bne_iff_ne]
  omega

theorem roundShift_directed (h : rm ≠ .rne) : (roundShift rm sg m k).1 =
    if rm.outward sg = true ∧ m % 2 ^ k ≠ 0 then m / 2 ^ k + 1 else m / 2 ^ k := by
  cases rm
  case rne => exact absurd rfl h
  all_goals cases sg <;> simp [roundShift, RMode.outward]

/-- A whole number of last places is rounded to itself. -/
theorem rounds_exact {u : Rat} (hu : 0 < u) (n : Nat) : Rounds rm sg u (n * u) n 0 n false where
  split := (add_zero _).symm
  nonneg := le_rfl
  below := hu
  inexact := by simp
  nearest _ := ⟨.inl ⟨rfl, by linarith⟩, fun h => absurd h (by linarith)⟩
  directed _ := by simp

/-- Rounding away the low `k` bits of a number that counts units of `v`. -/
theorem rounds_roundShift {v : Rat} (hv : 0 < v) :
    Rounds rm sg (2 ^ k * v) (m * v) (m / 2 ^ k : Nat) ((m % 2 ^ k : Nat) * v)
      (roundShift rm sg m k).1 (roundShift rm sg m k).2 := by
  have hr : ((m % 2 ^ k : Nat) : Rat) * v ≠ 0 ↔ m % 2 ^ k ≠ 0 := by simp [hv.ne']
  have hle : 2 * ((m % 2 ^ k : Nat) * v) ≤ 2 ^ k * v ↔ 2 * (m % 2 ^ k) ≤ 2 ^ k := by
    rw [← mul_assoc, mul_le_mul_iff_left₀ hv]; exact_mod_cast Iff.rfl
  have hge : 2 ^ k * v ≤ 2 * ((m % 2 ^ k : Nat) * v) ↔ 2 ^ k ≤ 2 * (m % 2 ^ k) := by
    rw [← mul_assoc, mul_le_mul_iff_left₀ hv]; exact_mod_cast Iff.rfl
  have heq : 2 * ((m % 2 ^ k : Nat) * v) = 2 ^ k * v ↔ 2 * (m % 2 ^ k) = 2 ^ k := by
    rw [← mul_assoc, mul_left_inj' hv.ne']; exact_mod_cast Iff.rfl
  constructor
  case split =>
    have hm : ((m / 2 ^ k : Nat) : Rat) * 2 ^ k + (m % 2 ^ k : Nat) = m := by exact_mod_cast Nat.div_add_mod' m (2 ^ k)
    rw [← mul_assoc, ← add_mul, hm]
  case nonneg => positivity
  case below =>
    exact mul_lt_mul_of_pos_right (by exact_mod_cast Nat.mod_lt m (Nat.two_pow_pos k)) hv
  case inexact => rw [roundShift_inexact, hr]
  case nearest =>
    rintro rfl
    rw [roundShift_rne, hle, hge, heq]
    generalize m % 2 ^ k = q
    split <;> omega
  case directed =>
    intro h
    rw [roundShift_directed rm sg m k h]
    simp only [hr]

/-- The magnitude is split at the last place and rounded there. -/
theorem rounded_rounds (f : Fmt) (e : Int) : ∃ n₀ t, Rounds rm sg ((2 : Rat) ^ f.lastPlace m e) (m * (2 : Rat) ^ e) n₀ t
    (f.rounded rm sg m e).1 (f.rounded rm sg m e).2 := by
  unfold Fmt.rounded
  split
  · next h =>
    have hx : (m : Rat) * 2 ^ e = ((m * 2 ^ (e - f.lastPlace m e).toNat : Nat) : Rat) * 2 ^ f.lastPlace m e := by
      push_cast
      rw [mul_assoc, ← zpow_natCast, ← zpow_add₀ two_ne_zero]
      congr 2
      omega
    rw [hx]
    exact ⟨_, _, rounds_exact rm sg (by positivity) _⟩
  · next h =>
    have hu : (2 : Rat) ^ f.lastPlace m e = 2 ^ (f.lastPlace m e - e).toNat * 2 ^ e := by
      rw [← zpow_natCast, ← zpow_add₀ two_ne_zero]
      congr 1
      omega
    rw [hu]
    exact ⟨_, _, rounds_roundShift rm sg m _ (by positivity)⟩
end

/-! ### The neighbours of a magnitude (R73) -/

section
variable {rm : RMode} {sg nx : Bool} {u X t : Rat} {n₀ n : Nat} (h : Rounds rm sg u X n₀ t n nx)
include h

theorem rounds_step : n = n₀ ∨ n = n₀ + 1 ∧ t ≠ 0 := by
  by_cases hr : rm = .rne
  · rcases (h.nearest hr).1 with ⟨hn, _⟩ | ⟨hn, ht⟩
    · exact .inl hn
    · exact .inr ⟨hn, fun h0 => by have := h.below; linarith⟩
  · have hd := h.directed hr
    split at hd
    · next ht => exact .inr ⟨hd, ht.2⟩
    · exact .inl hd

theorem rounds_inexact : nx = true ↔ (n : Rat) * u ≠ X := by
  rw [h.inexact, h.split]
  rcases rounds_step h with rfl | ⟨rfl, ht⟩
  · simp
  · have := h.below
    refine iff_of_true ht fun he => ?_
    push_cast at he
    linarith

variable {v : Rat} (hv : v ≤ n₀ * u ∨ (n₀ + 1) * u ≤ v)
include hv

/-- Of the values of the format none is nearer than the rounded one, and one as near only where that is even. -/
theorem rounds_nearest (hr : rm = .rne) :
    |n * u - X| ≤ |v - X| ∧ (v ≠ n * u → |n * u - X| = |v - X| → n % 2 = 0) := by
  obtain ⟨hn, heven⟩ := h.nearest hr
  have hX := h.split
  have h0 := h.nonneg
  have h1 := h.below
  rcases hn with ⟨rfl, ht⟩ | ⟨rfl, ht⟩
  · have hz : |n * u - X| = t := by rw [hX, sub_add_cancel_left, abs_neg, abs_of_nonneg h0]
    rw [hz]
    rcases hv with hv | hv
    · rw [abs_of_nonpos (by linarith)]
      exact ⟨by linarith, fun hne he => absurd (by linarith) hne⟩
    · rw [abs_of_nonneg (by linarith)]
      exact ⟨by linarith, fun _ he => heven (by linarith)⟩
  · push_cast
    have hz : |((n₀ : Rat) + 1) * u - X| = u - t := by rw [abs_of_nonneg (by linarith)]; linarith
    rw [hz]
    rcases hv with hv | hv
    · rw [abs_of_nonpos (by linarith)]
      exact ⟨by linarith, fun _ he => heven (by linarith)⟩
    · rw [abs_of_nonneg (by linarith)]
      exact ⟨by linarith, fun hne he => absurd (by linarith) hne⟩

/-- Toward zero: the greatest value of the format up to `X`. -/
theorem rounds_inward (hr : rm ≠ .rne) (ho : rm.outward sg = false) : n * u ≤ X ∧ (v ≤ X → v ≤ n * u) := by
  have hn := h.directed hr
  rw [if_neg (by simp [ho])] at hn
  subst hn
  have hX := h.split
  have h0 := h.nonneg
  have h1 := h.below
  refine ⟨by linarith, fun hle => ?_⟩
  rcases hv with hv | hv
  · exact hv
  · linarith

/-- Away from zero: the least value of the format from `X` on. -/
theorem rounds_outward (hr : rm ≠ .rne) (ho : rm.outward sg = true) : X ≤ n * u ∧ (X ≤ v → n * u ≤ v) := by
  have hn := h.directed hr
  have hX := h.split
  have h0 := h.nonneg
  have h1 := h.below
  by_cases ht : t = 0
  · rw [if_neg (by simp [ht])] at hn
    subst hn
    exact ⟨by linarith, fun hle => by linarith⟩
  · rw [if_pos ⟨ho, ht⟩] at hn
    subst hn
    push_cast
    refine ⟨by linarith, fun hle => ?_⟩
    rcases hv with hv | hv
    · have : 0 < t := lt_of_le_of_ne h0 (Ne.symm ht)
      linarith
    · exact hv
end

/-! ### The values of a format lie on the grid of last places -/

section
variable {f : Fmt} {rm : RMode} {sg nx : Bool} {m n₀ n : Nat} {e : Int} {t : Rat}

theorem le_lastPlace : f.emin - f.fb ≤ f.lastPlace m e := by
  unfold Fmt.lastPlace
  omega

/-- The whole part fits the significand, and fills it where the exponent is not the least one. -/
theorem whole_bounds (hm : m ≠ 0) (h : Rounds rm sg ((2 : Rat) ^ f.lastPlace m e) (m * (2 : Rat) ^ e) n₀ t n nx) :
    n₀ < 2 ^ (f.fb + 1) ∧ (f.emin - f.fb < f.lastPlace m e → 2 ^ f.fb ≤ n₀) := by
  have hu : (0 : Rat) < 2 ^ f.lastPlace m e := by positivity
  have hX := h.split
  have h0 := h.nonneg
  have h1 := h.below
  have hlog : (2 : Rat) ^ ((Nat.log2 m : Int) + e) ≤ m * 2 ^ e ∧ (m : Rat) * 2 ^ e < 2 ^ ((Nat.log2 m : Int) + 1 + e) := by
    have hlo : (2 : Rat) ^ (Nat.log2 m : Int) ≤ m := by exact_mod_cast Nat.log2_self_le hm
    have hhi : (m : Rat) < 2 ^ ((Nat.log2 m : Int) + 1) := by exact_mod_cast Nat.lt_log2_self
    rw [zpow_add₀ two_ne_zero, zpow_add₀ two_ne_zero _ e]
    exact ⟨mul_le_mul_of_nonneg_right hlo (by positivity), mul_lt_mul_of_pos_right hhi (by positivity)⟩
  constructor
  · have hle : (2 : Rat) ^ ((Nat.log2 m : Int) + 1 + e) ≤ 2 ^ (f.fb + 1) * 2 ^ f.lastPlace m e := by
      rw [← zpow_natCast, ← zpow_add₀ two_ne_zero]
      refine zpow_le_zpow_right₀ one_le_two ?_
      unfold Fmt.lastPlace
      push_cast
      omega
    have hlt : (n₀ : Rat) * 2 ^ f.lastPlace m e < 2 ^ (f.fb + 1) * 2 ^ f.lastPlace m e := by linarith [hlog.2]
    exact_mod_cast lt_of_mul_lt_mul_right hlt hu.le
  · intro hq
    have he : (2 : Rat) ^ ((Nat.log2 m : Int) + e) = 2 ^ f.fb * 2 ^ f.lastPlace m e := by
      rw [← zpow_natCast, ← zpow_add₀ two_ne_zero]
      congr 1
      unfold Fmt.lastPlace at hq ⊢
      omega
    have hlt : (2 : Rat) ^ f.fb * 2 ^ f.lastPlace m e < (n₀ + 1) * 2 ^ f.lastPlace m e := by linarith [hlog.1]
    have := lt_of_mul_lt_mul_right hlt hu.le
    exact Nat.lt_succ_iff.1 (by exact_mod_cast this)

/-- No value of the format lies strictly between two neighbouring multiples of the last place. -/
theorem magVal_on_grid {q : Int} (hn : f.emin - f.fb < q → 2 ^ f.fb ≤ n₀) (mag : Nat) :
    f.magVal mag ≤ n₀ * (2 : Rat) ^ q ∨ ((n₀ : Rat) + 1) * (2 : Rat) ^ q ≤ f.magVal mag := by
  unfold Fmt.magVal
  rcases le_or_gt q (f.exp mag) with hq | hq
  · have he : (f.sig mag : Rat) * 2 ^ f.exp mag = ((f.sig mag * 2 ^ (f.exp mag - q).toNat : Nat) : Rat) * 2 ^ q := by
      push_cast
      rw [mul_assoc, ← zpow_natCast, ← zpow_add₀ two_ne_zero]
      congr 2
      omega
    have hu : (0 : Rat) < 2 ^ q := by positivity
    rw [he]
    rcases Nat.lt_or_ge n₀ (f.sig mag * 2 ^ (f.exp mag - q).toNat) with hlt | hge
    · exact .inr (mul_le_mul_of_nonneg_right (by exact_mod_cast hlt) hu.le)
    · exact .inl (mul_le_mul_of_nonneg_right (by exact_mod_cast hge) hu.le)
  · left
    have hn' := hn (lt_of_le_of_lt (le_exp f mag) hq)
    have hs : (f.sig mag : Rat) ≤ 2 ^ (f.fb + 1) := by exact_mod_cast (sig_lt f mag).le
    calc (f.sig mag : Rat) * 2 ^ f.exp mag ≤ 2 ^ (f.fb + 1) * 2 ^ f.exp mag :=
          mul_le_mul_of_nonneg_right hs (by positivity)
      _ = 2 ^ f.fb * 2 ^ (f.exp mag + 1) := by rw [zpow_add₀ two_ne_zero]; ring
      _ ≤ n₀ * 2 ^ q := mul_le_mul (by exact_mod_cast hn') (zpow_le_zpow_right₀ one_le_two (by omega))
          (by positivity) (by positivity)

/-- The code of `n` last places stands for them, where `n` carries into the next exponent too. -/
theorem magVal_encode {q : Int} (hq : f.emin - f.fb ≤ q) (hn : n ≤ 2 ^ (f.fb + 1))
    (hsub : n < 2 ^ f.fb → q = f.emin - f.fb) : f.magVal (f.encode q n) = n * (2 : Rat) ^ q := by
  have hp := Nat.two_pow_pos f.fb
  unfold Fmt.encode Fmt.magVal Fmt.sig Fmt.exp
  split
  · next hlt => rw [Nat.div_eq_of_lt hlt, if_pos rfl, if_pos rfl, Nat.mod_eq_of_lt hlt, hsub hlt]
  · next hge =>
    unfold Fmt.emin at hq
    obtain ⟨k, hk, hkq⟩ : ∃ k : Nat, (q + f.fb + f.bias).toNat = k + 1 ∧ (k : Int) + 1 = q + f.fb + f.bias :=
      ⟨(q + f.fb + f.bias).toNat - 1, by omega, by omega⟩
    rw [hk]
    rcases hn.lt_or_eq with hlt | rfl
    · rw [pow_succ] at hlt
      have hd : ((k + 1) * 2 ^ f.fb + (n - 2 ^ f.fb)) / 2 ^ f.fb = k + 1 := by
        rw [Nat.add_comm, Nat.add_mul_div_right _ _ hp, Nat.div_eq_of_lt (by omega), Nat.zero_add]
      have hr : ((k + 1) * 2 ^ f.fb + (n - 2 ^ f.fb)) % 2 ^ f.fb = n - 2 ^ f.fb := by
        rw [Nat.add_comm, Nat.add_mul_mod_self_right, Nat.mod_eq_of_lt (by omega)]
      rw [hd, hr, if_neg (Nat.succ_ne_zero k), if_neg (Nat.succ_ne_zero k), Nat.add_sub_cancel' (not_lt.1 hge)]
      congr 2
      push_cast
      omega
    · have hc : (k + 1) * 2 ^ f.fb + (2 ^ (f.fb + 1) - 2 ^ f.fb) = (k + 2) * 2 ^ f.fb := by
        rw [pow_succ, Nat.mul_two, Nat.add_sub_cancel]; ring
      rw [hc, Nat.mul_div_cancel _ hp, Nat.mul_mod_left, if_neg (Nat.succ_ne_zero _), if_neg (Nat.succ_ne_zero _)]
      have he : ((k + 2 : Nat) : Int) - f.bias - f.fb = q + 1 := by push_cast; omega
      rw [he, zpow_add₀ two_ne_zero, pow_succ]
      push_cast
      ring

theorem encode_parity {q : Int} (hf : 1 ≤ f.fb) : f.encode q n % 2 = n % 2 := by
  obtain ⟨k, hk⟩ := Nat.exists_eq_add_of_le hf
  unfold Fmt.encode
  split
  · rfl
  · next hge =>
    have h2 : 2 ^ f.fb = 2 * 2 ^ k := by rw [hk, pow_add, pow_one]
    rw [h2] at hge ⊢
    rw [Nat.mul_left_comm]
    omega

theorem signed_parity (hf : 1 ≤ f.fb) (mag : Nat) : f.signed sg mag % 2 = mag % 2 := by
  obtain ⟨k, hk⟩ := Nat.exists_eq_add_of_le hf
  have h2 : f.signBit = 2 * 2 ^ (f.eb + k) := by rw [Fmt.signBit, hk]; ring
  unfold Fmt.signed
  split <;> omega
end

/-! ### The rounded result (R73) -/

/-- What `roundTo` gives without overflow: a finite code of the sign, whose magnitude is the rounded one. -/
theorem roundTo_rounds {f : Fmt} {c : FpCtl} {sg : Bool} {m : Nat} {e : Int} (hf : 1 ≤ f.fb) (hi : 0 < f.infMag) (hm : m ≠ 0)
    (hz : c.ftz = false ∨ f.flushable = false) (ho : (roundTo f c false sg m e).2 &&& flagOF = 0) :
    f.finite (roundTo f c false sg m e).1 ∧ ∃ u n₀ t n nx, (0 : Rat) ≤ u ∧ Rounds c.rm sg u (m * (2 : Rat) ^ e) n₀ t n nx ∧
      f.val (roundTo f c false sg m e).1 = (if sg then -1 else 1) * (n * u) ∧
      ((roundTo f c false sg m e).2 &&& flagNX ≠ 0 ↔ nx = true) ∧ (roundTo f c false sg m e).1 % 2 = n % 2 ∧
      ∀ w, f.finite w → |f.val w| ≤ n₀ * u ∨ (n₀ + 1) * u ≤ |f.val w| := by
  obtain ⟨hle, hcode, hnx⟩ := roundTo_fits f sg m e hm hz ho
  obtain ⟨n₀, t, hr⟩ := rounded_rounds c.rm sg m f e
  obtain ⟨hlt, hfull⟩ := whole_bounds hm hr
  have hstep := rounds_step hr
  generalize (f.rounded c.rm sg m e).1 = n at *
  have hval : f.magVal (f.encode (f.lastPlace m e) n) = n * (2 : Rat) ^ f.lastPlace m e := by
    refine magVal_encode le_lastPlace (by omega) fun hn => ?_
    by_contra hq
    have := hfull (lt_of_le_of_ne le_lastPlace (Ne.symm hq))
    omega
  have hinf : f.encode (f.lastPlace m e) n < f.infMag := by unfold Fmt.maxMag at hle; omega
  have hsb := hinf.trans (infMag_lt_signBit f)
  rw [hcode]
  refine ⟨finite_iff.2 ⟨signed_lt sg hsb, by rwa [mag_signed sg hsb]⟩, _, n₀, t, n, _, by positivity, hr, ?_, hnx, ?_,
    fun w hw => ?_⟩
  · rw [val_of_lt (by rwa [mag_signed sg hsb]), sgn_signed sg hsb, mag_signed sg hsb, hval]
  · rw [signed_parity hf, encode_parity hf]
  · rw [abs_val (finite_iff.1 hw).2]
    exact magVal_on_grid hfull _

/-- A value as far from `x` as `z`, and not `z`, does not have the magnitude of `z`. -/
theorem abs_ne_of_tie {z w x : Rat} (hx : x ≠ 0) (hne : w ≠ z) (htie : |z - x| = |w - x|) : |w| ≠ |z| := by
  intro he
  rcases abs_eq_abs.1 he with hw | hw
  · exact hne hw
  · subst hw
    rcases abs_eq_abs.1 htie with h | h
    · exact hne (by linarith)
    · exact hx (by linarith)

/-- The sign of a result, as a factor. -/
theorem sign_mul_left_inj (sg : Bool) {a b : Rat} :
    (if sg then (-1 : Rat) else 1) * a = (if sg then -1 else 1) * b ↔ a = b :=
  mul_right_inj' (by split <;> norm_num)

section
variable {rm : RMode} {sg nx : Bool} {u X t z x y : Rat} {n₀ n : Nat} (h : Rounds rm sg u X n₀ t n nx) (hu : 0 ≤ u)
  (hz : z = (if sg then -1 else 1) * (n * u)) (hx : x = (if sg then -1 else 1) * X)
  (hy : |y| ≤ n₀ * u ∨ (n₀ + 1) * u ≤ |y|)

include h hu hz hx

theorem rounds_abs : |z| = n * u ∧ |x| = X := by
  have hX : 0 ≤ X := by rw [h.split]; have := h.nonneg; positivity
  have hn : 0 ≤ n * u := by positivity
  subst hz hx
  split <;> simp [abs_of_nonneg, hX, hn]

theorem rounds_sign : 0 ≤ (if sg then -z else z) ∧ 0 ≤ (if sg then -x else x) := by
  obtain ⟨haz, hax⟩ := rounds_abs h hu hz hx
  cases sg
  · simp only [Bool.false_eq_true, if_false, one_mul] at hz hx ⊢
    rw [hz, hx, ← haz, ← hax]
    exact ⟨abs_nonneg z, abs_nonneg x⟩
  · simp only [if_true, neg_one_mul] at hz hx ⊢
    rw [hz, hx, neg_neg, neg_neg, ← haz, ← hax]
    exact ⟨abs_nonneg z, abs_nonneg x⟩

include hy

theorem rounds_nearest_signed (hr : rm = .rne) (hx0 : x ≠ 0) :
    |z - x| ≤ |y - x| ∧ (y ≠ z → |z - x| = |y - x| → n % 2 = 0) := by
  obtain ⟨haz, hax⟩ := rounds_abs h hu hz hx
  obtain ⟨hle, heven⟩ := rounds_nearest h hy hr
  have hzx : |z - x| = |n * u - X| := by
    rw [hz, hx, ← mul_sub, abs_mul]
    split <;> simp
  have hyx : |(|y|) - X| ≤ |y - x| := hax ▸ abs_abs_sub_abs_le y x
  rw [hzx]
  refine ⟨hle.trans hyx, fun hne htie => heven ?_ (le_antisymm hle (htie ▸ hyx))⟩
  exact haz ▸ abs_ne_of_tie hx0 hne (hzx.trans htie)

theorem rounds_inward_abs (hr : rm ≠ .rne) (ho : rm.outward sg = false) : |z| ≤ |x| ∧ (|y| ≤ |x| → |y| ≤ |z|) := by
  obtain ⟨haz, hax⟩ := rounds_abs h hu hz hx
  rw [haz, hax]
  exact rounds_inward h hy hr ho

theorem rounds_outward_abs (hr : rm ≠ .rne) (ho : rm.outward sg = true) : |x| ≤ |z| ∧ (|x| ≤ |y| → |z| ≤ |y|) := by
  obtain ⟨haz, hax⟩ := rounds_abs h hu hz hx
  rw [haz, hax]
  exact rounds_outward h hy hr ho
end

section
variable {z x y : Rat} (hz : 0 ≤ z) (hx : 0 ≤ x)
include hz hx

/-- Toward zero is downward for what is not negative. -/
theorem le_of_inward (h : |z| ≤ |x| ∧ (|y| ≤ |x| → |y| ≤ |z|)) : z ≤ x ∧ (y ≤ x → y ≤ z) := by
  rw [abs_of_nonneg hz, abs_of_nonneg hx] at h
  refine ⟨h.1, fun hyx => ?_⟩
  rcases le_total y 0 with hy | hy
  · exact hy.trans hz
  · rw [abs_of_nonneg hy] at h
    exact h.2 hyx

/-- Away from zero is upward for what is not negative. -/
theorem le_of_outward (h : |x| ≤ |z| ∧ (|x| ≤ |y| → |z| ≤ |y|)) : x ≤ z ∧ (x ≤ y → z ≤ y) := by
  rw [abs_of_nonneg hz, abs_of_nonneg hx] at h
  refine ⟨h.1, fun hxy => ?_⟩
  rw [abs_of_nonneg (hx.trans hxy)] at h
  exact h.2 hxy
end

section
variable {rm : RMode} {sg nx : Bool} {u X t z x y : Rat} {n₀ n : Nat} (h : Rounds rm sg u X n₀ t n nx) (hu : 0 ≤ u)
  (hz : z = (if sg then -1 else 1) * (n * u)) (hx : x = (if sg then -1 else 1) * X)
  (hy : |y| ≤ n₀ * u ∨ (n₀ + 1) * u ≤ |y|)
include h hu hz hx hy

theorem rounds_down (hr : rm = .rdn) : z ≤ x ∧ (y ≤ x → y ≤ z) := by
  obtain ⟨hzs, hxs⟩ := rounds_sign h hu hz hx
  have hne : rm ≠ .rne := by simp [hr]
  cases sg
  case false => exact le_of_inward hzs hxs (rounds_inward_abs h hu hz hx hy hne (by rw [hr]; rfl))
  case true =>
    have ho := rounds_outward_abs h hu hz hx hy hne (by rw [hr]; rfl)
    rw [if_pos rfl] at hzs hxs
    simpa only [neg_le_neg_iff] using le_of_outward (y := -y) hzs hxs (by simpa only [abs_neg] using ho)

theorem rounds_up (hr : rm = .rup) : x ≤ z ∧ (x ≤ y → z ≤ y) := by
  obtain ⟨hzs, hxs⟩ := rounds_sign h hu hz hx
  have hne : rm ≠ .rne := by simp [hr]
  cases sg
  case false => exact le_of_outward hzs hxs (rounds_outward_abs h hu hz hx hy hne (by rw [hr]; rfl))
  case true =>
    have ho := rounds_inward_abs h hu hz hx hy hne (by rw [hr]; rfl)
    rw [if_pos rfl] at hzs hxs
    simpa only [neg_le_neg_iff] using le_of_inward (y := -y) hzs hxs (by simpa only [abs_neg] using ho)
end

end Sys2Proof.Machine
end

section
/-! PROOF. The order of finite values (R122). -/

namespace Sys2Proof.Machine

theorem scaled_eq (s : Bool) (m : Nat) {e e0 : Int} (h : e0 ≤ e) :
    (scaled s m e e0 : Rat) * 2 ^ e0 = (if s then -1 else 1) * (m : Rat) * 2 ^ e := by
  have he : (2 : Rat) ^ e = 2 ^ (e - e0).toNat * 2 ^ e0 := by
    rw [← zpow_natCast, ← zpow_add₀ two_ne_zero]
    congr 1
    omega
  rw [he]
  unfold scaled
  cases s <;> simp <;> ring

variable {f : Fmt} {x y : Nat}

/-- The order of two finite codes is the sign of the difference of their values. -/
theorem cmp_eq_sign (hx : f.finite x) (hy : f.finite y) :
    ∃ (d : Int) (u : Rat), 0 < u ∧ f.val x - f.val y = d * u ∧ (f.dec x).cmp (f.dec y) = d.sign := by
  obtain ⟨_, s, m, e, hdx⟩ := hx
  obtain ⟨_, t, n, g, hdy⟩ := hy
  refine ⟨scaled s m e (min e g) - scaled t n g (min e g), 2 ^ min e g, by positivity, ?_, ?_⟩
  · rw [val_of_dec hdx, val_of_dec hdy, ← scaled_eq s m (min_le_left e g), ← scaled_eq t n (min_le_right e g)]
    push_cast
    ring
  · rw [hdx, hdy]
    rfl

theorem cmp_finite (hx : f.finite x) (hy : f.finite y) :
    ((f.dec x).cmp (f.dec y) = 0 ↔ f.val x = f.val y) ∧ ((f.dec x).cmp (f.dec y) = -1 ↔ f.val x < f.val y) ∧
      ((f.dec x).cmp (f.dec y) = 1 ↔ f.val y < f.val x) := by
  obtain ⟨d, u, hu, hd, hc⟩ := cmp_eq_sign hx hy
  rw [hc]
  refine ⟨?_, ?_, ?_⟩
  · rw [Int.sign_eq_zero_iff_zero, ← sub_eq_zero (a := f.val x), hd]
    simp [hu.ne']
  · rw [Int.sign_eq_neg_one_iff_neg, ← sub_neg (a := f.val x), hd, ← zero_mul u, mul_lt_mul_iff_left₀ hu]
    exact_mod_cast Iff.rfl
  · rw [Int.sign_eq_one_iff_pos, ← sub_pos (a := f.val x), hd, mul_pos_iff_of_pos_right hu]
    exact_mod_cast Iff.rfl

theorem isNan_of_finite (hx : f.finite x) : (f.dec x).isNan = false := by
  obtain ⟨_, s, m, e, hd⟩ := hx
  rw [hd]
  rfl

/-- Without DAZ a finite code is read as it stands. -/
theorem daz_of_finite (hx : f.finite x) : f.daz false x = x := Nat.mod_eq_of_lt hx.1

/-- Condition `k` of R122 on the order `o` of two numbers. -/
def orderCond (k : Nat) (o : Int) : Bool :=
  match k with
  | 0 => o == 0
  | 1 => o != 0
  | 2 => o == -1
  | 3 => o != -1
  | 4 => o != 1
  | 5 => o == 1
  | 6 => true
  | _ => false

/-- Finite codes compare by their order alone, and raise nothing (R122). -/
theorem fCompare_finite (rm : RMode) (ftz : Bool) (hx : f.finite x) (hy : f.finite y) (k : Nat) :
    fCompare f ⟨rm, false, ftz⟩ k x y = (orderCond k ((f.dec x).cmp (f.dec y)), 0) := by
  have hn : nvOf [f.dec x, f.dec y] = 0 := by
    simp [nvOf_eq, isSnan_of_not_nan (isNan_of_finite hx), isSnan_of_not_nan (isNan_of_finite hy)]
  unfold fCompare
  simp only [daz_of_finite hx, daz_of_finite hy, isNan_of_finite hx, isNan_of_finite hy, hn]
  rcases k with _ | _ | _ | _ | _ | _ | _ | k <;> rfl

end Sys2Proof.Machine
end

section
open Sys2Proof Sys2Proof.Machine

/-- Settles O12: the exact magnitude lies between two neighbours on the grid of last places, every value of the format lies
on that grid or outside the two, and the mode picks one; the compares give the sign of the difference. -/
theorem roundingAndOrder : Obligations.RoundingAndOrder := by
  unfold Obligations.RoundingAndOrder
  constructor
  · intro f hf c sg m e hm hz ho z x
    obtain ⟨hfb, hinf⟩ : 1 ≤ f.fb ∧ 0 < f.infMag :=
      (by decide : ∀ g ∈ [f64, f32, f16, bf16, e5m2, e4m3], 1 ≤ g.fb ∧ 0 < g.infMag) f hf
    obtain ⟨hfin, u, n₀, t, n, nx, hu, hr, hval, hnx, hpar, hgrid⟩ := roundTo_rounds hfb hinf hm hz ho
    have hx : x = (if sg then -1 else 1) * ((m : Rat) * (2 : Rat) ^ e) := mul_assoc ..
    have hx0 : x ≠ 0 := by
      have hm' : (m : Rat) ≠ 0 := Nat.cast_ne_zero.2 hm
      rw [hx]
      exact mul_ne_zero (by split <;> norm_num) (by positivity)
    refine ⟨hfin, ?_, fun hc w hw => ?_, fun hc => ⟨?_, fun w hw => ?_⟩, fun hc => ⟨?_, fun w hw => ?_⟩,
      fun hc => ⟨?_, fun w hw => ?_⟩⟩
    · rw [hnx, rounds_inexact hr, hval, hx, Ne, Ne, sign_mul_left_inj]
    · rw [hpar]
      exact rounds_nearest_signed hr hu hval hx (hgrid w hw) hc hx0
    · exact (rounds_inward_abs hr hu hval hx (hgrid _ hfin) (by simp [hc]) (by rw [hc]; rfl)).1
    · exact (rounds_inward_abs hr hu hval hx (hgrid w hw) (by simp [hc]) (by rw [hc]; rfl)).2
    · exact (rounds_down hr hu hval hx (hgrid _ hfin) hc).1
    · exact (rounds_down hr hu hval hx (hgrid w hw) hc).2
    · exact (rounds_up hr hu hval hx (hgrid _ hfin) hc).1
    · exact (rounds_up hr hu hval hx (hgrid w hw) hc).2
  · intro f _ rm ftz x y hx hy r
    obtain ⟨heq, hlt, hgt⟩ := cmp_finite hx hy
    have hr : ∀ k, r k = (orderCond k ((f.dec x).cmp (f.dec y)), 0) := fCompare_finite rm ftz hx hy
    simp only [hr, orderCond, beq_iff_eq, bne_iff_ne, Ne, heq, hlt, hgt, not_lt, ge_iff_le, gt_iff_lt, implies_true,
      and_self]
end

section
/-! PROOF. Integer operations on words as numbers (R66, R90 to R100). -/

namespace Sys2Proof.Machine

section
variable {w : Nat} (x y : BitVec w) (n : Nat)

/-! ### Sums, products and shifts -/

theorem eq_ofNat {x : BitVec w} {n : Nat} (h : x.toNat = n) : x = BitVec.ofNat w n := by
  rw [← h, BitVec.ofNat_toNat, BitVec.setWidth_eq]

theorem ofNat_toNat_self : BitVec.ofNat w x.toNat = x := (eq_ofNat rfl).symm

theorem ofNat_ite {m n : Nat} (c : Prop) [Decidable c] (hx : x.toNat = m) (hy : y.toNat = n) :
    (if c then x else y) = BitVec.ofNat w (if c then m else n) := by
  rw [apply_ite (BitVec.ofNat w), ← eq_ofNat hx, ← eq_ofNat hy]

theorem eq_zero_iff_toNat : x = 0 ↔ x.toNat = 0 := BitVec.toNat_inj.symm

theorem sub_eq_ofNat : x - y = BitVec.ofNat w (x.toNat + 2 ^ w - y.toNat) := by
  rw [BitVec.sub_def, Nat.add_comm, Nat.add_sub_assoc y.isLt.le]

theorem mul_eq_ofNat : x * y = BitVec.ofNat w (x.toNat * y.toNat) := BitVec.eq_of_toNat_eq (by simp)

theorem sub_eq_ofInt : x - y = BitVec.ofInt w (x.toNat - y.toNat) := by
  rw [sub_eq_add_neg, sub_eq_add_neg, BitVec.ofInt_add, BitVec.ofInt_neg]
  simp

theorem add_eq_ofInt : x + y = BitVec.ofInt w (x.toInt + y.toInt) := by
  rw [BitVec.ofInt_add, BitVec.ofInt_toInt, BitVec.ofInt_toInt]

theorem sub_eq_ofInt_toInt : x - y = BitVec.ofInt w (x.toInt - y.toInt) := by
  rw [sub_eq_add_neg, sub_eq_add_neg, BitVec.ofInt_add, BitVec.ofInt_neg, BitVec.ofInt_toInt, BitVec.ofInt_toInt]

theorem sll_eq_ofNat : x <<< n = BitVec.ofNat w (x.toNat * 2 ^ n) :=
  BitVec.eq_of_toNat_eq (by simp [Nat.shiftLeft_eq])

theorem srl_eq_ofNat : x >>> n = BitVec.ofNat w (x.toNat / 2 ^ n) :=
  eq_ofNat (by rw [BitVec.toNat_ushiftRight, Nat.shiftRight_eq_div_pow])

theorem sra_eq_ofInt : x.sshiftRight n = BitVec.ofInt w (x.toInt / 2 ^ n) := by
  rw [BitVec.sshiftRight, Int.shiftRight_eq_div_pow, Nat.cast_pow, Nat.cast_ofNat]

theorem add_sll_eq_ofNat : x + y <<< n = BitVec.ofNat w (x.toNat + 2 ^ n * y.toNat) := by
  rw [sll_eq_ofNat, Nat.mul_comm, BitVec.ofNat_add, ofNat_toNat_self]

theorem ror_eq_or (h : n < w) : x.rotateRight n = x >>> n ||| x <<< (w - n) := by
  rw [BitVec.rotateRight_def, Nat.mod_eq_of_lt h]

/-- The two parts of a rotated word do not overlap. -/
theorem ror_toNat (h : n < w) : (x.rotateRight n).toNat = x.toNat / 2 ^ n + x.toNat * 2 ^ (w - n) % 2 ^ w := by
  have hw : 2 ^ w = 2 ^ (w - n) * 2 ^ n := by rw [← pow_add, Nat.sub_add_cancel h.le]
  have hlo : x.toNat / 2 ^ n < 2 ^ (w - n) := Nat.div_lt_of_lt_mul (by rw [Nat.mul_comm, ← hw]; exact x.isLt)
  have hhi : x.toNat * 2 ^ (w - n) % 2 ^ w = 2 ^ (w - n) * (x.toNat % 2 ^ n) := by
    rw [hw, Nat.mul_comm, Nat.mul_mod_mul_left]
  rw [ror_eq_or x n h, BitVec.toNat_or, BitVec.toNat_ushiftRight, BitVec.toNat_shiftLeft, Nat.shiftRight_eq_div_pow,
    Nat.shiftLeft_eq, hhi, Nat.or_comm, ← Nat.two_pow_add_eq_or_of_lt hlo, Nat.add_comm]

/-! ### Least, greatest, saturated -/

theorem minS_eq : minS x y = if x.toInt ≤ y.toInt then x else y := by
  simp only [minS, BitVec.slt_iff_toInt_lt, ← Int.not_le, ite_not]

theorem maxS_eq : maxS x y = if x.toInt ≤ y.toInt then y else x := by
  unfold maxS
  rcases lt_trichotomy x.toInt y.toInt with h | h | h
  · rw [if_pos (BitVec.slt_iff_toInt_lt.2 h), if_pos h.le]
  · rw [BitVec.eq_of_toInt_eq h, ite_self, ite_self]
  · rw [if_neg (fun e => h.not_gt (BitVec.slt_iff_toInt_lt.1 e)), if_neg h.not_ge]

theorem minU_eq : minU x y = if x.toNat ≤ y.toNat then x else y := by
  simp only [minU, BitVec.ult_iff_lt, BitVec.lt_def, ← Nat.not_le, ite_not]

theorem maxU_eq : maxU x y = if x.toNat ≤ y.toNat then y else x := by
  unfold maxU
  rcases lt_trichotomy x.toNat y.toNat with h | h | h
  · rw [if_pos (BitVec.ult_iff_lt.2 h), if_pos h.le]
  · rw [BitVec.eq_of_toNat_eq h, ite_self, ite_self]
  · rw [if_neg (fun e => h.not_gt (BitVec.ult_iff_lt.1 e)), if_neg h.not_ge]

theorem satS_eq (z : Int) : satS w z = BitVec.ofInt w (max (-2 ^ (w - 1)) (min (2 ^ (w - 1) - 1) z)) := by
  have hp : (0 : Int) < 2 ^ (w - 1) := by positivity
  unfold satS
  generalize (2 : Int) ^ (w - 1) = p at *
  split
  · congr 1; omega
  · split <;> congr 1 <;> omega

/-! ### Halves of products -/

/-- A field of an integer written in two's complement (R10). -/
theorem extract_ofInt {u v : Nat} (z : Int) (h : n + u ≤ v) :
    (BitVec.ofInt v z).extractLsb' n u = BitVec.ofInt u (z / 2 ^ n) := by
  obtain ⟨k, hk⟩ : (2 : Int) ^ u ∣ 2 ^ (v - n) := pow_dvd_pow _ (by omega)
  have hv : (2 : Int) ^ v = 2 ^ n * (2 ^ u * k) := by rw [← hk, ← pow_add]; congr 1; omega
  have hq : z / 2 ^ n % 2 ^ u = z % 2 ^ v / 2 ^ n % 2 ^ u := by
    conv_lhs => rw [← Int.emod_add_mul_ediv z (2 ^ v), hv, mul_assoc, Int.add_mul_ediv_left _ _ (by positivity),
      mul_assoc, Int.add_mul_emod_self_left, ← hv]
  have h0 : 0 ≤ z % 2 ^ v := Int.emod_nonneg _ (by positivity)
  apply BitVec.eq_of_toNat_eq
  rw [BitVec.extractLsb'_toNat, BitVec.toNat_ofInt, BitVec.toNat_ofInt, Nat.shiftRight_eq_div_pow]
  zify
  rw [Int.toNat_of_nonneg h0, Int.toNat_of_nonneg (Int.emod_nonneg _ (by positivity)), hq]

theorem sext_mul {v : Nat} : x.signExtend v * y.signExtend v = BitVec.ofInt v (x.toInt * y.toInt) :=
  (BitVec.ofInt_mul ..).symm

theorem zext_mul {v : Nat} : x.zeroExtend v * y.zeroExtend v = BitVec.ofNat v (x.toNat * y.toNat) := by
  rw [BitVec.ofNat_mul, BitVec.ofNat_toNat, BitVec.ofNat_toNat]

theorem mulhS_eq : mulhS x y = BitVec.ofInt w (x.toInt * y.toInt / 2 ^ w) := by
  rw [mulhS, sext_mul, extract_ofInt w _ (by omega)]

theorem mulhU_eq : mulhU x y = BitVec.ofNat w (x.toNat * y.toNat / 2 ^ w) := by
  rw [mulhU, zext_mul, ← BitVec.ofInt_natCast, extract_ofInt w _ (by omega), ← BitVec.ofInt_natCast]
  norm_cast

/-- The low 32 bits of an integer, signed. -/
theorem low_sext (z : Int) :
    ((BitVec.ofInt 64 z).extractLsb' 0 32).signExtend 64 = BitVec.ofInt 64 (z.bmod (2 ^ 32)) := by
  rw [extract_ofInt _ _ (by decide), pow_zero, Int.ediv_one, BitVec.signExtend, BitVec.toInt_ofInt]

theorem toNat_append_add {m n : Nat} (x : BitVec m) (y : BitVec n) : (x ++ y).toNat = x.toNat * 2 ^ n + y.toNat := by
  rw [BitVec.toNat_append, ← Nat.shiftLeft_add_eq_or_of_lt y.isLt, Nat.shiftLeft_eq]

theorem pack_eq_ofNat (x y : DWord) : y.extractLsb' 0 32 ++ x.extractLsb' 0 32 =
    BitVec.ofNat 64 (x.toNat % 2 ^ 32 + 2 ^ 32 * (y.toNat % 2 ^ 32)) :=
  eq_ofNat (by
    rw [toNat_append_add, BitVec.extractLsb'_toNat, BitVec.extractLsb'_toNat, Nat.shiftRight_zero, Nat.shiftRight_zero,
      Nat.add_comm, Nat.mul_comm])

/-! ### Division (R95) -/

theorem quotU_eq : quotU x y = if y = 0 then BitVec.allOnes w else BitVec.ofNat w (x.toNat / y.toNat) :=
  ite_congr rfl (fun _ => rfl) (fun _ => BitVec.udiv_def)

theorem remU_eq : remU x y = if y = 0 then x else BitVec.ofNat w (x.toNat - x.toNat / y.toNat * y.toNat) :=
  ite_congr rfl (fun _ => rfl) (fun _ => by rw [Nat.mul_comm, ← Nat.mod_eq_sub_mul_div]; exact BitVec.umod_def)

/-- 2^(w-1) and its opposite are the same word. -/
theorem ofInt_top (hw : 0 < w) : BitVec.ofInt w (2 ^ (w - 1)) = BitVec.ofInt w (-2 ^ (w - 1)) := by
  have h : (2 : Int) ^ w = 2 * 2 ^ (w - 1) := by rw [← pow_succ']; congr 1; omega
  have hd : ((2 ^ w : Nat) : Int) ∣ 2 ^ (w - 1) - -2 ^ (w - 1) := ⟨1, by push_cast; omega⟩
  apply BitVec.eq_of_toNat_eq
  rw [BitVec.toNat_ofInt, BitVec.toNat_ofInt,
    Int.emod_eq_emod_iff_emod_sub_eq_zero.2 (Int.emod_eq_zero_of_dvd hd)]

theorem quotS_eq (hw : 0 < w) : quotS x y = if y = 0 then BitVec.allOnes w else
    if x.toInt = -2 ^ (w - 1) ∧ y.toInt = -1 then x else BitVec.ofInt w (x.toInt.tdiv y.toInt) := by
  have hq : x.sdiv y = BitVec.ofInt w (x.toInt.tdiv y.toInt) :=
    BitVec.eq_of_toInt_eq ((BitVec.toInt_sdiv x y).trans (BitVec.toInt_ofInt _).symm)
  refine ite_congr rfl (fun _ => rfl) (fun _ => ?_)
  rw [hq]
  split
  next h =>
    obtain ⟨hx, hy⟩ := h
    rw [hy, Int.tdiv_neg, Int.tdiv_one, hx, neg_neg, ofInt_top hw, ← hx, BitVec.ofInt_toInt]
  next => rfl

theorem remS_eq : remS x y = if y = 0 then x else
    if x.toInt = -2 ^ (w - 1) ∧ y.toInt = -1 then 0 else
      BitVec.ofInt w (x.toInt - x.toInt.tdiv y.toInt * y.toInt) := by
  have hr : x.srem y = BitVec.ofInt w (x.toInt - x.toInt.tdiv y.toInt * y.toInt) := by
    rw [← BitVec.ofInt_toInt (x := x.srem y), BitVec.toInt_srem, Int.tmod_def, Int.mul_comm]
  refine ite_congr rfl (fun _ => rfl) (fun _ => ?_)
  rw [hr]
  split
  next h => rw [h.2, Int.tdiv_neg, Int.tdiv_one, neg_mul_neg, mul_one, sub_self]; rfl
  next => rfl

/-! ### Bit counts and bit fields (R96) -/

theorem leadingZeros_eq (hw : 0 < w) : BitVec.ofNat w (leadingZeros x) = x.clz := by
  by_cases h0 : x = 0#w
  · have hc : x.clz = BitVec.ofNat w w := BitVec.clz_eq_iff_eq_zero.2 h0
    rw [hc, leadingZeros, List.find?_range_eq_none.2 (by simp [h0]), Option.getD_none]
  · have hc : x.clz.toNat < w := (BitVec.clz_lt_iff_ne_zero.2 h0).trans_le (by simp)
    have hz : ∀ j < x.clz.toNat, x.getLsbD (w - 1 - j) = false := fun j hj =>
      Nat.testBit_lt_two_pow (BitVec.toNat_lt_two_pow_sub_clz.trans_le (Nat.pow_le_pow_right (by decide) (by omega)))
    have hf : (List.range w).find? (fun i => x.getLsbD (w - 1 - i)) = some x.clz.toNat :=
      List.find?_range_eq_some.2 ⟨BitVec.getLsbD_true_clz_of_ne_zero hw h0, List.mem_range.2 hc,
        fun j hj => by rw [hz j hj]; rfl⟩
    rw [leadingZeros, hf, Option.getD_some, ofNat_toNat_self]

theorem lowestSet_eq (hw : 0 < w) : BitVec.ofNat w (lowestSet x) = x.reverse.clz := by
  rw [← leadingZeros_eq _ hw, leadingZeros, lowestSet]
  congr 2
  refine List.find?_congr fun i hi => ?_
  have hi := List.mem_range.1 hi
  rw [BitVec.getLsbD_reverse, BitVec.getMsbD, show w - 1 - (w - 1 - i) = i by omega,
    decide_eq_true (show w - 1 - i < w by omega), Bool.true_and]

theorem bitsOf_zero (x n : Nat) : bitsOf x 0 n = x % 2 ^ n := by rw [bitsOf, pow_zero, Nat.div_one]

theorem signedOf_eq_bmod {n : Nat} (hn : 0 < n) (x : Nat) : signedOf n x = (x : Int).bmod (2 ^ n) := by
  obtain ⟨k, rfl⟩ : ∃ k, n = k + 1 := ⟨n - 1, by omega⟩
  have hh : ((2 ^ (k + 1) : Nat) + 1 : Int) / 2 = 2 ^ k := by rw [pow_succ]; push_cast; omega
  rw [signedOf, Int.bmod, hh]
  norm_cast

variable (pos len : Nat)

theorem bextI_eq : bextI x pos len = BitVec.ofInt w (fieldI w x.toNat pos len) := by
  have hf : fieldLen w pos len = fieldOf w pos len := rfl
  simp only [bextI, fieldI, hf]
  split
  next => rfl
  next h => rw [signedOf_eq_bmod (Nat.pos_of_ne_zero h)]; rfl

/-- A number with a field replaced: what stands above the field, the field, what stands below. -/
theorem fieldIns_eq (d a : Nat) : fieldIns w d a pos len =
    2 ^ pos * (2 ^ fieldOf w pos len * (d / 2 ^ pos / 2 ^ fieldOf w pos len) + a % 2 ^ fieldOf w pos len)
      + d % 2 ^ pos := by
  have hd := Nat.div_add_mod d (2 ^ pos)
  rw [← Nat.div_add_mod (d / 2 ^ pos) (2 ^ fieldOf w pos len), mul_add] at hd
  rw [fieldIns, fieldN, mul_add, Nat.mul_comm _ (2 ^ pos), Nat.mul_comm _ (2 ^ pos)]
  omega

theorem testBit_fieldIns (d a i : Nat) : (fieldIns w d a pos len).testBit i =
    if pos ≤ i ∧ i < pos + fieldOf w pos len then a.testBit (i - pos) else d.testBit i := by
  rw [fieldIns_eq, Nat.testBit_two_pow_mul_add _ (Nat.mod_lt _ (by positivity)),
    Nat.testBit_two_pow_mul_add _ (Nat.mod_lt _ (by positivity))]
  simp only [Nat.testBit_mod_two_pow, Nat.testBit_div_two_pow]
  by_cases hi : i < pos
  · simp [hi]
  · by_cases hf : i - pos < fieldOf w pos len
    · simp [hi, hf, not_lt.1 hi, show i < pos + fieldOf w pos len by omega]
    · simp only [hi, hf, if_false, show ¬ i < pos + fieldOf w pos len by omega, and_false]
      congr 1
      omega

theorem bins_eq : bins x y pos len = BitVec.ofNat w (fieldIns w x.toNat y.toNat pos len) := by
  have hf : fieldLen w pos len = fieldOf w pos len := rfl
  apply BitVec.eq_of_getLsbD_eq
  intro i hi
  rw [BitVec.getLsbD_ofNat, testBit_fieldIns]
  simp only [bins, hf, BitVec.getLsbD_or, BitVec.getLsbD_and, BitVec.getLsbD_not, BitVec.getLsbD_shiftLeft,
    BitVec.getLsbD_ofNat, Nat.testBit_two_pow_sub_one, hi, decide_true, Bool.true_and]
  by_cases hp : pos ≤ i
  · have hw : i - pos < w := by omega
    by_cases hl : i < pos + fieldOf w pos len
    · simp [hp, hl, hw, not_lt.2 hp, show i - pos < fieldOf w pos len by omega, BitVec.getLsbD]
    · simp [hl, show ¬ i - pos < fieldOf w pos len by omega, BitVec.getLsbD]
  · simp [hp, Nat.not_le.1 hp, BitVec.getLsbD]

end

/-! ### Bytes in reverse order -/

theorem leNat_reverse (bs : List Byte) : leNat bs.reverse = bs.foldl (fun z b => z * 256 + b.toNat) 0 := by
  induction bs using List.reverseRecOn with
  | nil => rfl
  | append_singleton bs b ih =>
    rw [List.reverse_concat, leNat, ih, List.foldl_append, List.foldl_cons, List.foldl_nil, Nat.add_comm, Nat.mul_comm]

theorem leBytes_eq (n : Nat) : ∀ x : Nat, leBytes n x = (List.range n).map (fun i => BitVec.ofNat 8 (u8 x i)) := by
  induction n with
  | zero => exact fun _ => rfl
  | succ n ih =>
    intro x
    rw [leBytes, ih, List.range_succ_eq_map, List.map_cons, List.map_map]
    simp [u8, Nat.div_div_eq_div_mul, pow_succ', Function.comp_def]

theorem u8_lt (x i : Nat) : u8 x i < 256 := Nat.mod_lt _ (by decide)

theorem leNat_reverse_leBytes (n x : Nat) :
    leNat (leBytes n x).reverse = (List.range n).foldl (fun z i => z * 256 + u8 x i) 0 := by
  rw [leNat_reverse, leBytes_eq, List.foldl_map]
  simp only [BitVec.toNat_ofNat, Nat.reducePow, Nat.mod_eq_of_lt (u8_lt x _)]

theorem extract_byte_toNat {w : Nat} (x : BitVec w) (i : Nat) : (x.extractLsb' (8 * i) 8).toNat = u8 x.toNat i := by
  rw [BitVec.extractLsb'_toNat, Nat.shiftRight_eq_div_pow, u8, Nat.pow_mul]

theorem byteReverse_eight (x : DWord) : byteReverse 8 x =
    x.extractLsb' 0 8 ++ x.extractLsb' 8 8 ++ x.extractLsb' 16 8 ++ x.extractLsb' 24 8 ++
    x.extractLsb' 32 8 ++ x.extractLsb' 40 8 ++ x.extractLsb' 48 8 ++ x.extractLsb' 56 8 := by
  have hb := extract_byte_toNat x
  refine (eq_ofNat ?_).symm
  rw [leNat_reverse_leBytes]
  simp only [toNat_append_add]
  rw [hb 0, hb 1, hb 2, hb 3, hb 4, hb 5, hb 6, hb 7]
  simp [List.range_succ]

theorem byteReverse_four (x : Word) : byteReverse 4 x =
    BitVec.ofNat 32 (u8 x.toNat 0 * 2 ^ 24 + u8 x.toNat 1 * 2 ^ 16 + u8 x.toNat 2 * 2 ^ 8 + u8 x.toNat 3) := by
  rw [byteReverse, leNat_reverse_leBytes]
  exact congrArg (BitVec.ofNat 32) (by
    simp only [List.range_succ, List.range_zero, List.nil_append, List.foldl_append, List.foldl_cons, List.foldl_nil]
    ring)

/-! ### Numbers of a lane -/

theorem s32_toNat (x : Word) : s32 x.toNat = x.toInt := by
  rw [s32, ofNat_toNat_self]

theorem ofNat_u32 (z : Int) : BitVec.ofNat 32 (u32 z) = BitVec.ofInt 32 z := (eq_ofNat (BitVec.toNat_ofInt z)).symm

theorem byteOf_eq (x : Word) (i : Nat) : byteOf x i = BitVec.ofNat 8 (x.toNat / 256 ^ i) :=
  BitVec.eq_of_toNat_eq (by rw [byteOf, extract_byte_toNat, u8, BitVec.toNat_ofNat])

theorem andn_toNat (x y : Word) : (x &&& ~~~y).toNat = x.toNat &&& (y.toNat ^^^ (2 ^ 32 - 1)) := by
  rw [← BitVec.xor_allOnes, BitVec.toNat_and, BitVec.toNat_xor, BitVec.toNat_allOnes]

theorem dot4_eq (f : BitVec 8 → Int) (x y : Word) : dot4 f x y = f (byteOf x 0) * f (byteOf y 0) +
    f (byteOf x 1) * f (byteOf y 1) + f (byteOf x 2) * f (byteOf y 2) + f (byteOf x 3) * f (byteOf y 3) := by
  simp [dot4, List.range_succ]

theorem byteOf_toInt (x : Word) (i : Nat) : (byteOf x i).toInt = s8 x.toNat i := by
  rw [byteOf_eq]; rfl

theorem byteOf_toNat (x : Word) (i : Nat) : (byteOf x i).toNat = u8 x.toNat i := extract_byte_toNat x i

theorem dp4I8_eq (x y z : Word) : z + BitVec.ofInt 32 (dot4 BitVec.toInt x y) = BitVec.ofNat 32
    (u32 (z.toNat + s8 x.toNat 0 * s8 y.toNat 0 + s8 x.toNat 1 * s8 y.toNat 1 + s8 x.toNat 2 * s8 y.toNat 2 +
      s8 x.toNat 3 * s8 y.toNat 3)) := by
  simp only [ofNat_u32, dot4_eq, byteOf_toInt, BitVec.ofInt_add, BitVec.ofInt_natCast, ofNat_toNat_self, BitVec.add_assoc]

theorem dp4N8_eq (x y z : Word) : z + BitVec.ofInt 32 (dot4 (fun v => (v.toNat : Int)) x y) = BitVec.ofNat 32
    (z.toNat + u8 x.toNat 0 * u8 y.toNat 0 + u8 x.toNat 1 * u8 y.toNat 1 + u8 x.toNat 2 * u8 y.toNat 2 +
      u8 x.toNat 3 * u8 y.toNat 3) := by
  rw [← BitVec.ofInt_natCast 32]
  push_cast
  simp only [dot4_eq, byteOf_toNat, BitVec.ofInt_add, BitVec.ofInt_natCast, ofNat_toNat_self, BitVec.add_assoc]

theorem mulwI_toNat (x y : Word) :
    (x.signExtend 64 * y.signExtend 64).toNat = (s32 x.toNat * s32 y.toNat % 2 ^ 64).toNat := by
  rw [sext_mul, s32_toNat, s32_toNat, BitVec.toNat_ofInt]; rfl

theorem mulwN_toNat (x y : Word) : (x.zeroExtend 64 * y.zeroExtend 64).toNat = x.toNat * y.toNat := by
  have h : x.toNat * y.toNat < 2 ^ 64 := (Nat.mul_lt_mul'' x.isLt y.isLt).trans_eq (by norm_num)
  rw [zext_mul, BitVec.toNat_ofNat, Nat.mod_eq_of_lt h]

/-! ### Carry-less products (R131) -/

theorem xor_odd (p : Bool) (n : Nat) : (p ^^ (n % 2 == 1)) = ((n + if p then 1 else 0) % 2 == 1) := by
  cases p
  · exact Bool.false_xor _
  · rcases Nat.mod_two_eq_zero_or_one n with h | h <;> simp [Nat.add_mod, h]

/-- Bit `k` of a carry-less product is the parity of the pairs of ones that meet there. -/
theorem testBit_clmulNat (a b k : Nat) : ∀ n, (clmulNat a n b).testBit k =
    (((List.range n).filter (fun j => b.testBit j && decide (j ≤ k) && a.testBit (k - j))).length % 2 == 1)
  | 0 => by simp [clmulNat]
  | n + 1 => by
    have hs : (if b.testBit n then a * 2 ^ n else 0).testBit k =
        (b.testBit n && decide (n ≤ k) && a.testBit (k - n)) := by
      cases b.testBit n <;> simp [Nat.testBit_mul_two_pow]
    rw [clmulNat, Nat.testBit_xor, hs, testBit_clmulNat a b k n, xor_odd, List.range_succ, List.filter_append,
      List.length_append, List.filter_singleton]
    cases b.testBit n && decide (n ≤ k) && a.testBit (k - n) <;> rfl

end Sys2Proof.Machine
end

section
open Sys2Proof Sys2Proof.Machine

/-- Settles O1: each word is `issued` with the record of three scalars; the value is the operation's, as a number. -/
theorem scalarArithmetic : Obligations.ScalarArithmetic := by
  unfold Obligations.ScalarArithmetic
  and_intros <;> refine scalar3_of (fun _ _ _ => rfl) (fun _ _ _ _ => rfl) ?_
  -- sums, logic and shifts
  · exact BitVec.add_def
  · exact sub_eq_ofInt
  · exact fun _ _ => rfl
  · exact fun _ _ => rfl
  · exact fun _ _ => rfl
  · exact fun _ _ => rfl
  · exact fun x y => sll_eq_ofNat x _
  · exact fun x y => srl_eq_ofNat x _
  · exact fun x y => sra_eq_ofInt x _
  · exact fun x y => ror_eq_or x _ (Nat.mod_lt _ (by decide))
  -- least and greatest
  · exact minS_eq
  · exact maxS_eq
  · exact minU_eq
  · exact maxU_eq
  -- sums of 32 bits
  · exact fun x y => by rw [add_eq_ofInt, low_sext]
  · exact fun x y => by rw [sub_eq_ofInt_toInt, low_sext]
  -- products and addresses
  · exact mul_eq_ofNat
  · exact mulhS_eq
  · exact mulhU_eq
  · exact fun x y => add_sll_eq_ofNat x y 1
  · exact fun x y => add_sll_eq_ofNat x y 2
  · exact fun x y => add_sll_eq_ofNat x y 3
  · exact fun x y => add_sll_eq_ofNat x y 4
  · exact pack_eq_ofNat
end

section
/-! PROOF. Lane words of integers (R97 to R100): one law per number of sources, the value a word or a pair. -/

namespace Sys2Proof.Machine

/-- A word as the first of the registers of a lane result. -/
theorem first_register {x : Word} {m j : Nat} (h : x = BitVec.ofNat 32 m) (hj : j < 1) :
    BitVec.ofNat 32 (x.toNat / 2 ^ (32 * j)) = BitVec.ofNat 32 (m / 2 ^ (32 * j)) := by
  obtain rfl : j = 0 := Nat.lt_one_iff.1 hj
  rw [Nat.mul_zero, pow_zero, Nat.div_one, Nat.div_one, ← h, ofNat_toNat_self]

theorem lane2_of_word {c : BitVec 7 → BitVec 7 → Instr} {f : Nat → Nat} {g : Word → Word}
    (hi : ∀ d a, infoOf (c d a) = infV2 .v 1 1 d a)
    (he : ∀ d a s, exec (c d a) s = issued (infV2 .v 1 1 d a) s (laneU d a g))
    (hg : ∀ x, g x = BitVec.ofNat 32 (f x.toNat)) : Lane2 1 1 c f :=
  lane2_of hi he (fun _ _ _ => lane1_is) (fun a s l j hj => by rw [rdW_one]; exact first_register (hg _) hj)

theorem lane3_of_word {c : BitVec 7 → BitVec 7 → BitVec 7 → Instr} {f : Nat → Nat → Nat} {g : Word → Word → Word}
    (hi : ∀ d a b, infoOf (c d a b) = infV3 .v 1 1 1 d a b)
    (he : ∀ d a b s, exec (c d a b) s = issued (infV3 .v 1 1 1 d a b) s (lane3 d a b g))
    (hg : ∀ x y, g x y = BitVec.ofNat 32 (f x.toNat y.toNat)) : Lane3 1 1 1 c f :=
  lane3_of hi he (fun _ _ _ _ => lane1_is) (fun a b s l j hj => by
    rw [rdW_one, rdW_one]; exact first_register (hg _ _) hj)

theorem lane4_of_word {c : BitVec 7 → BitVec 7 → BitVec 7 → Instr} {f : Nat → Nat → Nat → Nat}
    {g : Word → Word → Word → Word} (hi : ∀ d a b, infoOf (c d a b) = infV4 .v 1 1 1 d a b)
    (he : ∀ d a b s, exec (c d a b) s = issued (infV4 .v 1 1 1 d a b) s (lane4 d a b g))
    (hg : ∀ x y z, g x y z = BitVec.ofNat 32 (f x.toNat y.toNat z.toNat)) : Lane4 1 1 1 c f :=
  lane4_of hi he (fun _ _ _ _ => lane1_is) (fun d a b s l j hj => by
    rw [rdW_one, rdW_one, rdW_one]; exact first_register (hg _ _ _) hj)

/-- A pair from two words. -/
theorem lane3_of_wide {c : BitVec 7 → BitVec 7 → BitVec 7 → Instr} {f : Nat → Nat → Nat} (g : Word → Word → DWord)
    (hi : ∀ d a b, infoOf (c d a b) = infV3 .v 2 1 1 d a b)
    (he : ∀ d a b s, exec (c d a b) s = issued (infV3 .v 2 1 1 d a b) s
      (lane2 (infV3 .v 2 1 1 d a b) d (fun l => g (s.rv a l) (s.rv b l))))
    (hg : ∀ x y, (g x y).toNat = f x.toNat y.toNat) : Lane3 2 1 1 c f :=
  lane3_of hi he (fun _ _ _ _ => lane2_is) (fun a b s l j _ => by rw [rdW_one, rdW_one, hg]; rfl)

/-- A window of the product of two `w`-bit values. -/
theorem lane3_of_clmul {wd wa w lo n : Nat} {c : BitVec 7 → BitVec 7 → BitVec 7 → Instr} {f : Nat → Nat → Nat}
    (hi : ∀ d a b, infoOf (c d a b) = infV3 .t wd wa wa d a b)
    (he : ∀ d a b s, exec (c d a b) s = issued (infV3 .t wd wa wa d a b) s (clOut wd wa w lo n d a b))
    (hf : ∀ a b, bitsOf (clmulNat a w b) lo n = f a b) : Lane3 wd wa wa c f :=
  lane3_of hi he (fun _ _ _ _ => laneW_is) (fun _ _ _ _ _ _ => by rw [hf]; rfl)

end Sys2Proof.Machine
end

section
open Sys2Proof Sys2Proof.Machine

/-- Settles O2: as with a register in the place of the immediate; an amount of six bits is below 64. -/
theorem immediates : Obligations.Immediates := by
  unfold Obligations.Immediates
  constructor
  · and_intros
    · exact fun i => scalar2_of (fun _ _ => rfl) (fun _ _ _ => rfl) fun x => add_eq_ofInt x _
    · exact fun i => scalar2_of (fun _ _ => rfl) (fun _ _ _ => rfl) fun _ => rfl
    · exact fun i => scalar2_of (fun _ _ => rfl) (fun _ _ _ => rfl) fun _ => rfl
    · exact fun i => scalar2_of (fun _ _ => rfl) (fun _ _ _ => rfl) fun _ => rfl
    · exact fun n _ => scalar2_of (fun _ _ => rfl) (fun _ _ _ => rfl) fun x => sll_eq_ofNat x _
    · exact fun n _ => scalar2_of (fun _ _ => rfl) (fun _ _ _ => rfl) fun x => srl_eq_ofNat x _
    · exact fun n _ => scalar2_of (fun _ _ => rfl) (fun _ _ _ => rfl) fun x => sra_eq_ofInt x _
    · exact fun n _ => scalar2_of (fun _ _ => rfl) (fun _ _ _ => rfl) fun x => ror_eq_or x _ n.isLt
    · exact fun d i s h => exec_scalar rfl h rfl rfl rfl
  · and_intros
    · exact fun i => lane2_of_word (fun _ _ => rfl) (fun _ _ _ => rfl) fun x => BitVec.add_def x _
    · exact fun i => lane2_of_word (fun _ _ => rfl) (fun _ _ _ => rfl) fun x => eq_ofNat (BitVec.toNat_and ..)
    · exact fun i => lane2_of_word (fun _ _ => rfl) (fun _ _ _ => rfl) fun x => eq_ofNat (BitVec.toNat_or ..)
    · exact fun i => lane2_of_word (fun _ _ => rfl) (fun _ _ _ => rfl) fun x => eq_ofNat (BitVec.toNat_xor ..)
    · exact fun n _ _ => lane2_of_word (fun _ _ => rfl) (fun _ _ _ => rfl) fun x => sll_eq_ofNat x _
    · exact fun n _ _ => lane2_of_word (fun _ _ => rfl) (fun _ _ _ => rfl) fun x => srl_eq_ofNat x _
    · exact fun n _ _ => lane2_of_word (fun _ _ => rfl) (fun _ _ _ => rfl) fun x => by
        rw [sra_eq_ofInt, s32_toNat, ofNat_u32]
    · exact fun n _ hn => lane2_of_word (fun _ _ => rfl) (fun _ _ _ => rfl) fun x => eq_ofNat (ror_toNat x _ hn)
    · exact fun d i s h => ⟨_, exec_of_ready rfl h rfl rfl, lane1_is.congr (fun l j _ hj =>
        (first_register (eq_ofNat rfl) hj).trans (by simp [Nat.lt_one_iff.1 hj])) (fun _ _ _ => rfl)⟩

/-- Settles O3: the quotients and remainders of `quotS`, `remS`, `quotU` and `remU`, read as numbers in the lanes. -/
theorem division : Obligations.Division := by
  unfold Obligations.Division
  refine ⟨?_, ?_, ?_, ?_, ?_, ?_, ?_, ?_⟩
  · exact scalar3_of (fun _ _ _ => rfl) (fun _ _ _ _ => rfl) fun x y => quotS_eq x y (by decide)
  · exact scalar3_of (fun _ _ _ => rfl) (fun _ _ _ _ => rfl) quotU_eq
  · exact scalar3_of (fun _ _ _ => rfl) (fun _ _ _ _ => rfl) remS_eq
  · exact scalar3_of (fun _ _ _ => rfl) (fun _ _ _ _ => rfl) remU_eq
  · refine lane3_of_word (fun _ _ _ => rfl) (fun _ _ _ _ => rfl) fun x y => ?_
    simp only [quotS_eq x y (by decide), apply_ite (BitVec.ofNat 32), s32_toNat, ofNat_u32, eq_zero_iff_toNat,
      ofNat_toNat_self]
    rfl
  · refine lane3_of_word (fun _ _ _ => rfl) (fun _ _ _ _ => rfl) fun x y => ?_
    simp only [quotU_eq, apply_ite (BitVec.ofNat 32), eq_zero_iff_toNat]
    rfl
  · refine lane3_of_word (fun _ _ _ => rfl) (fun _ _ _ _ => rfl) fun x y => ?_
    simp only [remS_eq, apply_ite (BitVec.ofNat 32), s32_toNat, ofNat_u32, eq_zero_iff_toNat, ofNat_toNat_self]
    rfl
  · refine lane3_of_word (fun _ _ _ => rfl) (fun _ _ _ _ => rfl) fun x y => ?_
    simp only [remU_eq, apply_ite (BitVec.ofNat 32), eq_zero_iff_toNat, ofNat_toNat_self]
end

section
open Sys2Proof Sys2Proof.Machine

/-- Settles O4: each count and field of the model is that of the statement, as a number. -/
theorem bitFields : Obligations.BitFields := by
  unfold Obligations.BitFields
  and_intros
  -- scalars
  · exact scalar2_of (fun _ _ => rfl) (fun _ _ _ => rfl) fun _ => rfl
  · exact scalar2_of (fun _ _ => rfl) (fun _ _ _ => rfl) fun x => leadingZeros_eq x (by decide)
  · exact scalar2_of (fun _ _ => rfl) (fun _ _ _ => rfl) fun x => lowestSet_eq x (by decide)
  · exact scalar2_of (fun _ _ => rfl) (fun _ _ _ => rfl) fun _ => rfl
  · exact scalar2_of (fun _ _ => rfl) (fun _ _ _ => rfl) byteReverse_eight
  · exact scalar3_of (fun _ _ _ => rfl) (fun _ _ _ _ => rfl) fun x y => by rw [bitsOf_zero]; rfl
  · exact scalar3_of (fun _ _ _ => rfl) (fun _ _ _ _ => rfl) fun x y => by rw [bextI_eq, bitsOf_zero]; rfl
  · intro d a b s h
    have hp : (infS4 d a b).poisAny s = (s.src.poisS a.toNat || s.src.poisS b.toNat || s.src.poisS d.toNat) := by
      rw [poisAny_scalars (ns := [a.toNat, b.toNat, d.toNat]) h.lanes rfl]
      simp [Bool.or_assoc]
    have := exec_scalar (i := .binsB64 d a b) (show execBinsB64 d a b s = issued _ s _ from rfl) h rfl rfl hp
    rwa [bins_eq, bitsOf_zero] at this
  -- lanes
  · exact lane2_of_word (fun _ _ => rfl) (fun _ _ _ => rfl) fun _ => rfl
  · exact lane2_of_word (fun _ _ => rfl) (fun _ _ _ => rfl) fun x => by
      rw [leadingZeros_eq x (by decide), ofNat_toNat_self, ofNat_toNat_self]
  · exact lane2_of_word (fun _ _ => rfl) (fun _ _ _ => rfl) fun x => by
      rw [lowestSet_eq x (by decide), ofNat_toNat_self, ofNat_toNat_self]
  · exact lane2_of_word (fun _ _ => rfl) (fun _ _ _ => rfl) fun x => by
      rw [ofNat_toNat_self, ofNat_toNat_self]; rfl
  · exact lane2_of_word (fun _ _ => rfl) (fun _ _ _ => rfl) byteReverse_four
  · exact lane3_of_word (fun _ _ _ => rfl) (fun _ _ _ _ => rfl) fun x y => by rw [bitsOf_zero]; rfl
  · exact lane3_of_word (fun _ _ _ => rfl) (fun _ _ _ _ => rfl) fun x y => by rw [bextI_eq, bitsOf_zero, ofNat_u32]; rfl
  · exact lane4_of_word (fun _ _ _ => rfl) (fun _ _ _ _ => rfl) fun x y z => by rw [bins_eq, bitsOf_zero]; rfl
end

section
open Sys2Proof Sys2Proof.Machine

/-- Settles O5: each operation on words is that on their numbers; a carry-less product is a window of `clmulNat`. -/
theorem laneArithmetic : Obligations.LaneArithmetic := by
  unfold Obligations.LaneArithmetic
  constructor
  · refine ⟨?_, ?_, ?_, ?_, ?_, ?_, ?_, ?_, ?_, ?_, ?_, ?_, ?_, ?_, ?_, ?_, ?_, ?_,
      lane3_of_wide (fun x y => x.signExtend 64 * y.signExtend 64) (fun _ _ _ => rfl) (fun _ _ _ _ => rfl) mulwI_toNat,
      lane3_of_wide (fun x y => x.zeroExtend 64 * y.zeroExtend 64) (fun _ _ _ => rfl) (fun _ _ _ _ => rfl) mulwN_toNat,
      lane4_of_word (fun _ _ _ => rfl) (fun _ _ _ _ => rfl) fun x y z => ?mad,
      lane4_of (fun _ _ _ => rfl) (fun _ _ _ _ => rfl) (fun _ _ _ _ => lane2_is) fun d a b s l j _ => ?madw,
      lane4_of_word (fun _ _ _ => rfl) (fun _ _ _ _ => rfl) dp4I8_eq,
      lane4_of_word (fun _ _ _ => rfl) (fun _ _ _ _ => rfl) dp4N8_eq⟩
    case mad => rw [BitVec.ofNat_add, ofNat_toNat_self, ← mul_eq_ofNat]
    case madw => rw [BitVec.toNat_add, mulwN_toNat, rdW_one, rdW_one, rdW_two]; rfl
    all_goals refine lane3_of_word (fun _ _ _ => rfl) (fun _ _ _ _ => rfl) ?_
    · exact BitVec.add_def
    · exact sub_eq_ofNat
    · exact fun _ _ => eq_ofNat (BitVec.toNat_and ..)
    · exact fun _ _ => eq_ofNat (BitVec.toNat_or ..)
    · exact fun _ _ => eq_ofNat (BitVec.toNat_xor ..)
    · exact fun x y => eq_ofNat (andn_toNat x y)
    · exact fun x y => sll_eq_ofNat x _
    · exact fun x y => srl_eq_ofNat x _
    · exact fun x y => by rw [sra_eq_ofInt, s32_toNat, ofNat_u32]
    · exact fun x y => by rw [minS_eq, s32_toNat, s32_toNat]; exact ofNat_ite x y _ rfl rfl
    · exact fun x y => by rw [maxS_eq, s32_toNat, s32_toNat]; exact ofNat_ite y x _ rfl rfl
    · exact fun x y => by rw [minU_eq, Nat.min_def]; exact ofNat_ite x y _ rfl rfl
    · exact fun x y => by rw [maxU_eq, Nat.max_def]; exact ofNat_ite y x _ rfl rfl
    · exact fun x y => by rw [satS_eq, s32_toNat, s32_toNat, ofNat_u32]
    · exact fun x y => by rw [satS_eq, s32_toNat, s32_toNat, ofNat_u32]
    · exact mul_eq_ofNat
    · exact fun x y => by rw [mulhS_eq, s32_toNat, s32_toNat, ofNat_u32]
    · exact mulhU_eq
  · refine ⟨?low32, ?high32, ?whole32, ?low64, ?high64, ?whole64, ?shifted32, ?shifted64,
      fun a b n k _ => testBit_clmulNat a b k n⟩
    all_goals refine lane3_of_clmul (fun _ _ _ => rfl) (fun _ _ _ _ => rfl) ?_
    case low32 | whole32 | low64 | whole64 => exact fun _ _ => bitsOf_zero _ _
    case high32 | high64 | shifted32 | shifted64 => exact fun _ _ => rfl
end

section
/-! PROOF. Moves between lanes and scalars (R98, R105, R410): a write in some of the lanes with effect, and of one scalar. -/

namespace Sys2Proof.Machine

/-! ### Poison of what a word reads (R403) -/

/-- Whether a register is poisoned, of a lane register or a predicate in lane `l`. -/
def Reg.badIn (r : Regs) (l : Nat) : Reg → Bool
  | .v n w => r.badV n w l
  | .s n => r.poisS n
  | .p n => (r.poisP n).getLsbD l
  | .k n => r.poisK n
  | .m _ => false

theorem pois_eq_any (inf : Info) (r : Regs) {l : Nat} (hl : l < 32) : inf.pois r l = inf.reads.any (Reg.badIn r l) := by
  have hb : ∀ x : Reg, (x.poisMask r (laneBit l) != 0#32) = x.badIn r l := fun x =>
    (poisMask_laneBit r l hl x).trans (by cases x <;> rfl)
  simp only [Info.pois, hb]

theorem badV_one (r : Regs) (n l : Nat) : r.badV n 1 l = (r.poisV n).getLsbD l := by simp [Regs.badV]

/-! ### Lanes -/

theorem lanesOf_and (m k : Word) : lanesOf (m &&& k) = (lanesOf m).filter (fun l => k.getLsbD l) := by
  simp only [lanesOf, List.filter_filter, BitVec.getLsbD_and, Bool.and_comm]

/-- The chain at hand holds no lane register. -/
theorem LanesAre.setIss {m : Word} {d w : Nat} {x : Nat → Nat → Word} {b : Nat → Bool} {s t : State}
    (h : LanesAre m d w x b s t) (f : Issue → Issue) : LanesAre m d w x b (s.setIss f) (t.setIss f) where
  value := h.value
  others := h.others
  bytes := h.bytes
  rest := by
    obtain ⟨_, _, _, hr⟩ := h
    have e : ∀ r : State, (s.takeLanes r).setIss f = (s.setIss f).takeLanes (r.setIss f) := fun _ => rfl
    exact (congrArg (fun r => r.setIss f) hr).trans (e t)

/-- The one register of a lane result. -/
theorem LanesAre.one {m : Word} {d : Nat} {f : Nat → Word} {a b : Nat → Bool} {s t : State}
    (h : LanesAre m d 1 (fun l j => BitVec.ofNat 32 ((f l).toNat / 2 ^ (32 * j))) a s t) (hb : ∀ l, l < 32 → a l = b l) :
    LanesAre m d 1 (fun l _ => f l) b s t :=
  h.congr (fun l j _ hj => (first_register (eq_ofNat rfl) hj).trans (by simp [Nat.lt_one_iff.1 hj])) (fun l hl _ => hb l hl)

/-- A word written in those lanes with effect that stand in `k`. -/
theorem lanesAre_of_some {s : State} {d : Nat} {k : Word} {p a b : Nat → Bool} {x : Nat → Word}
    (hk : ∀ l, l < 32 → k.getLsbD l = p l) (hb : ∀ l, l < 32 → a l = b l) :
    LanesAre (s.iss.eff &&& k) d 1 (fun l _ => x l) b s
      (s.eachEff (fun r l => if p l then r.wrV d l (x l) (a l) else r)) := by
  have hp : lanesOf (s.iss.eff &&& k) = (lanesOf s.iss.eff).filter p :=
    (lanesOf_and ..).trans (List.filter_congr fun l hl => hk l (lt_of_mem_lanesOf hl))
  have hs : s.eachEff (fun r l => if p l then r.wrV d l (x l) (a l) else r) =
      s.setR (fun r => (lanesOf (s.iss.eff &&& k)).foldl (fun r l => r.wrW 1 d l (x l).toNat (a l)) r) := by
    simp only [State.eachEff, hp, List.foldl_filter, wrV_eq_wrW]
  rw [hs]
  have hl := laneW_is (s := s.setIss (fun i => { i with eff := i.eff &&& k })) (d := d) (w := 1)
    (x := fun l => (x l).toNat) (b := a)
  exact (hl.setIss (fun _ => s.iss)).one hb

/-- A ready word that gives one word in each lane with effect, poisoned where what it reads is. -/
theorem exec_lane1 {i : Instr} {inf : Info} {d : BitVec 7} {f : Nat → Word} {b : Nat → Bool} {s : State}
    (he : exec i s = issued inf s (lane1 inf d f)) (h : Ready i s) (hi : infoOf i = inf) (hu : inf.uniform = [])
    (hb : ∀ l, inf.reads.any (Reg.badIn s.src l) = b l) :
    ∃ t, exec i s = .next t ∧ LanesAre s.iss.eff d.toNat 1 (fun l _ => f l) b s t :=
  ⟨_, exec_of_ready he h hi hu, lane1_is.one fun l hl => (pois_eq_any inf s.src hl).trans (hb l)⟩

/-- A register of the pair that a scalar fills. -/
theorem pair_register (x : DWord) (j : Nat) : BitVec.ofNat 32 (x.toNat / 2 ^ (32 * j)) = x.extractLsb' (32 * j) 32 := by
  rw [← Nat.shiftRight_eq_div_pow]
  rfl

/-- `sel.b32` writes the lanes with effect in which its predicate stands. -/
theorem exec_sel {d : BitVec 7} {p : BitVec 3} {b : BitVec 7} {s : State} (h : Ready (.selB32 d p b) s) :
    ∃ t, exec (.selB32 d p b) s = .next t ∧ LanesAre (s.iss.eff &&& s.src.rdP p.toNat) d.toNat 1
      (fun l _ => s.src.rdV b.toNat l) (fun l => (s.src.poisV b.toNat).getLsbD l) s t :=
  ⟨_, exec_of_ready (i := .selB32 d p b) (show execSelB32 d p b s = issued (infSel d p b) s _ from rfl) h rfl rfl,
    lanesAre_of_some (fun _ _ => rfl) fun l hl => by simp [pois_eq_any _ _ hl, infSel, Reg.badIn, badV_one]⟩

/-! ### A scalar and the lane it names (R105) -/

/-- A write of one scalar. -/
theorem wrS_is {d : Nat} {x : DWord} {b : Bool} {s : State} : ScalarIs d x b s (s.setR (fun r => r.wrS d x b)) where
  value := by simp
  poison := by simp
  others n h := by simp [h]
  bytes l i h := rdByte_setR s _ l i h
  rest := rfl

theorem laneIdx_eq (s : State) (b : BitVec 7) : s.laneIdx b = (s.src.rdS b.toNat).toNat % 32 % s.g.width := by
  rw [State.laneIdx, bitsOf_zero]; rfl

/-- The lanes that `wrl` writes, as a mask. -/
theorem wrlLane_mask (s : State) (b : BitVec 7) (l : Nat) (hl : l < 32) :
    (if s.src.prot ∧ s.laneIdx b % 2 = 0 then laneBit (s.laneIdx b) ||| laneBit (s.laneIdx b + 1)
      else laneBit (s.laneIdx b)).getLsbD l = s.wrlLane b l := by
  unfold State.wrlLane
  generalize s.laneIdx b = x
  split
  next h =>
    have ho : (l % 2 == 1 && l == x + 1) = (l == x + 1) := by
      rw [Bool.eq_iff_iff, Bool.and_eq_true, beq_iff_eq, beq_iff_eq]
      omega
    rw [BitVec.getLsbD_or, getLsbD_laneBit hl, getLsbD_laneBit hl, h.1, Bool.true_and, ho]
  next h =>
    have hn : (s.src.prot && l % 2 == 1 && l == x + 1) = false :=
      Bool.eq_false_iff.2 fun e => by
        simp only [Bool.and_eq_true, beq_iff_eq] at e
        exact h ⟨e.1.1, by omega⟩
    rw [getLsbD_laneBit hl, hn, Bool.or_false]

/-- A scalar read from a lane, poisoned where that lane's register or the index is. -/
theorem exec_rdl {i : Instr} {w : Nat} {d a b : BitVec 7} {x : DWord} {s : State}
    (he : exec i s = issued (infRdl w d a b) s (rdlOut w d a b x)) (h : Ready i s) (hi : infoOf i = infRdl w d a b) :
    ∃ t, exec i s = .next t ∧
      ScalarIs d.toNat x (s.src.badV a.toNat w (s.laneIdx b) || s.src.poisS b.toNat) s t :=
  ⟨_, exec_of_ready he h hi rfl, poisW_eq_badV .. ▸ wrS_is⟩

/-- `wrl` writes the lanes of `wrlLane`, poisoned where the value or the index is. -/
theorem exec_wrl {d a b : BitVec 7} {s : State} (h : Ready (.wrlB32 d a b) s) :
    let x := s.laneIdx b
    ∃ t, exec (.wrlB32 d a b) s = .next t ∧ LanesAre (s.iss.eff &&&
        if s.src.prot ∧ x % 2 = 0 then laneBit x ||| laneBit (x + 1) else laneBit x) d.toNat 1
      (fun _ _ => (s.src.rdS a.toNat).extractLsb' 0 32) (fun _ => s.src.poisS a.toNat || s.src.poisS b.toNat) s t := by
  have hp : (infWrl d a b).poisAny s = (s.src.poisS a.toNat || s.src.poisS b.toNat) := by
    rw [poisAny_scalars (ns := [a.toNat, b.toNat]) h.lanes rfl]
    simp
  exact ⟨_, exec_of_ready (i := .wrlB32 d a b) (show execWrlB32 d a b s = issued (infWrl d a b) s _ from rfl) h rfl rfl,
    lanesAre_of_some (wrlLane_mask s b) fun _ _ => hp⟩

end Sys2Proof.Machine
end

section
open Sys2Proof Sys2Proof.Machine

/-- Settles O6: a move writes its lanes one by one; the lane that `rdl` and `wrl` name is `laneIdx`. -/
theorem moves : Obligations.Moves := by
  unfold Obligations.Moves
  refine ⟨lane2_of_word (fun _ _ => rfl) (fun _ _ _ => rfl) fun _ => eq_ofNat rfl,
    lane2_of (fun _ _ => rfl) (fun _ _ _ => rfl) (fun _ _ _ => lane2_is) fun a s l j _ => by rw [rdW_two]; rfl,
    fun d p b s h => exec_sel h, fun d a s h => ?bcast, fun d a s h => ?bcast2, fun d p s h => ?pget,
    fun d a b s x hx => ?_⟩
  case bcast => exact exec_lane1 rfl h rfl rfl fun l => by simp [infBcast, Reg.badIn]
  case bcast2 =>
    exact ⟨_, exec_of_ready rfl h rfl rfl, lane2_is.congr (fun l j _ _ => pair_register _ j)
      fun l hl _ => by simp [pois_eq_any _ _ hl, infBcast, Reg.badIn]⟩
  case pget => exact exec_lane1 rfl h rfl rfl fun l => by simp [infPget, Reg.badIn]
  rw [← laneIdx_eq] at hx
  subst hx
  refine ⟨fun h => ?_, fun h => ?_, fun h => ?_, fun h => exec_wrl h⟩
  · exact badV_one s.src _ _ ▸ exec_rdl (i := .rdlN32 d a b) rfl h rfl
  · exact badV_one s.src _ _ ▸ exec_rdl (i := .rdlI32 d a b) rfl h rfl
  · exact exec_rdl (i := .rdlB64 d a b) rfl h rfl
end

section
/-! PROOF. Compares and predicate logic (R101 to R104). -/

namespace Sys2Proof.Machine

/-- A condition code of R101 on words is that on their numbers. -/
theorem intCond_iff {w : Nat} {k : BitVec 4} (hk : k.toNat < 12) (a b : BitVec w) :
    intCond k a b = true ↔ condHolds w k.toNat a.toNat b.toNat := by
  have hand : a &&& b = 0#w ↔ a.toNat &&& b.toNat = 0 := by
    rw [← BitVec.toNat_inj, BitVec.toNat_and, BitVec.toNat_ofNat, Nat.zero_mod]
  simp only [intCond, condHolds, ofNat_toNat_self]
  generalize k.toNat = n at hk
  interval_cases n <;> simp [BitVec.slt, BitVec.sle, BitVec.ult, BitVec.ule, hand, BitVec.toNat_inj]

/-- A predicate written in the lanes with effect, poisoned where what the word reads is. -/
theorem predIs_of_reads {inf : Info} {d : Nat} {f b : Nat → Bool} {s : State}
    (hb : ∀ l, inf.reads.any (Reg.badIn s.src l) = b l) : PredIs s.iss.eff d f b s (lanePred inf d f s) :=
  lanePred_is.congr (fun _ _ => rfl) fun l hl _ => (pois_eq_any inf s.src hl).trans (hb l)

theorem pred3_of {c : BitVec 3 → BitVec 3 → BitVec 3 → Instr} {f : Bool → Bool → Bool}
    (hi : ∀ d a b, infoOf (c d a b) = infP3 d a b)
    (he : ∀ d a b s, exec (c d a b) s = issued (infP3 d a b) s
      (lanePred (infP3 d a b) d.toNat (fun l => f (s.src.rdPL a.toNat l) (s.src.rdPL b.toNat l)))) : Pred3 c f :=
  fun d a b s h => ⟨_, exec_of_ready (he d a b s) h (hi d a b) rfl, predIs_of_reads fun l => by simp [infP3, Reg.badIn]⟩

end Sys2Proof.Machine
end

section
open Sys2Proof Sys2Proof.Machine

/-- Settles O7: a compare writes its condition, and conditions on words are those on their numbers. -/
theorem comparesAndPredicates : Obligations.ComparesAndPredicates := by
  unfold Obligations.ComparesAndPredicates
  refine ⟨fun p a b k s hk h => ?_, fun k p a i s hk h => ?_, fun p a b k s hk h => ?_, fun k p a i s hk h => ?_,
    ?_, ?_, ?_, ?_⟩
  · exact ⟨_, _, exec_of_ready rfl h rfl rfl, intCond_iff hk _ _, predIs_of_reads fun l => by simp [infSP, Reg.badIn]⟩
  · exact ⟨_, _, exec_of_ready rfl h rfl rfl, intCond_iff hk _ _, predIs_of_reads fun l => by simp [infSPI, Reg.badIn]⟩
  · exact ⟨_, _, exec_of_ready rfl h rfl rfl, fun l => intCond_iff hk _ _,
      predIs_of_reads fun l => by simp [infVP, Reg.badIn, badV_one]⟩
  · exact ⟨_, _, exec_of_ready rfl h rfl rfl, fun l => intCond_iff hk _ _,
      predIs_of_reads fun l => by simp [infVPI, Reg.badIn, badV_one]⟩
  all_goals exact pred3_of (fun _ _ _ => rfl) (fun _ _ _ _ => rfl)
end

section
/-! PROOF. Transfers of control (R51, R106 to R108, R411). -/

namespace Sys2Proof.Machine

/-- The change of one lane that goes on at `pc`, its block ended (R51). -/
def Group.toTarget (pc : Word) (g : Group) (l : Nat) : Group := (g.setPc l pc).setBlk l Blk.none

section
variable (g : Group) (m pc : Word) (k : Nat)

theorem targets_pc : (g.eachLane m (Group.toTarget pc)).pc k = if m.getLsbD k then pc else g.pc k :=
  eachLane_at Group.pc (f := Group.toTarget pc) (fun _ _ => pc) (fun g l k => setPc_pc g l k pc) m g k

theorem targets_blkOf : (g.eachLane m (Group.toTarget pc)).blkOf k = if m.getLsbD k then Blk.none else g.blkOf k :=
  eachLane_at Group.blkOf (f := Group.toTarget pc) (fun _ _ => Blk.none)
    (fun g l k => setBlk_blkOf (g.setPc l pc) l k Blk.none) m g k

theorem targets_rest {h : Group} (e : h = g.eachLane m (Group.toTarget pc)) : h = { g with pcv := h.pcv, blk := h.blk } := by
  have hk := eachLane_keep (f := Group.toTarget pc) (fun g => { g with pcv := [], blk := [] }) (fun _ _ => rfl) m g
  rw [← e] at hk
  exact congrArg (fun x : Group => { x with pcv := h.pcv, blk := h.blk }) hk
end

/-- A transfer moves its lanes, and nothing else. -/
theorem transfer_moves (s : State) (m pc : Word) : MovedTo m pc s (s.transfer m pc) where
  pcs := targets_pc s.g m pc
  blks := targets_blkOf s.g m pc
  moved := rfl
  bytes l i h := by
    cases l with
    | reg k b => exact absurd rfl (h k b)
    | _ => rfl
  rest := congrArg (fun g : Group =>
    ({ s with g := g, iss := { s.iss with moved := s.iss.moved ||| m } } : State)) (targets_rest s.g m pc rfl)

/-! ### The branch (R106, R411) -/

/-- What a branch that is taken in lanes `m` does, to slot `x` of packet `z`, once its pairs are compared. -/
def State.branchTo (s : State) (m : Word) (z : Int) (x : Nat) : Option Nat → State
  | some l => s.setIss (fun i => { i with mism := some (l, 0) })
  | none =>
    if z < 0 ∨ (2 ^ 30 : Int) ≤ z then
      s.trap { s.trapOf 4 s.iss.pc.toNat (ofInt 64 z) 0 0 with lane := lowestLane m }
    else s.transfer m (mkPc z.toNat x)

/-- The pair that a branch is found to differ in: none outside protected launches. -/
def State.branchPair (s : State) (taken : Nat → Bool) : Option Nat :=
  if s.src.prot then pairDiffer s.iss.eff taken else none

section
variable {s : State}

theorem exec_br {p : BitVec 3} {n : BitVec 1} {d : BitVec 19} {x : BitVec 2} (h : Ready (.br p n d x) s) :
    let taken := fun l => s.src.rdPL p.toNat l != (n == 1#1)
    let m := maskOf (fun l => s.iss.eff.getLsbD l && taken l)
    exec (.br p n d x) s = .next (if m = 0 then s else
      s.branchTo m (((s.iss.pc.toNat / 4 : Nat) : Int) + d.toInt) x.toNat (s.branchPair taken)) :=
  (exec_of_ready (i := .br p n d x) (show execBr p n d x s = issued (infBr p) s _ from rfl) h rfl rfl).trans rfl

theorem pairDiffer_eq_none {m : Word} {f : Nat → Bool} : pairDiffer m f = none ↔
    ∀ i, i < 16 → m.getLsbD (2 * i) = true → m.getLsbD (2 * i + 1) = true → f (2 * i) = f (2 * i + 1) := by
  simp [pairDiffer, List.findSome?_eq_none_iff]

theorem branchPair_eq_none {taken : Nat → Bool} : s.branchPair taken = none ↔
    s.src.prot = false ∨ ∀ i, i < 16 → s.iss.eff.getLsbD (2 * i) = true → s.iss.eff.getLsbD (2 * i + 1) = true →
      taken (2 * i) = taken (2 * i + 1) := by
  rw [← pairDiffer_eq_none, State.branchPair]
  cases s.src.prot <;> simp

theorem branchTo_near {m : Word} {z : Int} (h0 : 0 ≤ z) (h : z < 2 ^ 30) (x : Nat) :
    s.branchTo m z x none = s.transfer m (BitVec.ofNat 32 (4 * z.toNat + x)) :=
  if_neg (by omega)

theorem branchTo_far {m : Word} {z : Int} (h : z < 0 ∨ 2 ^ 30 ≤ z) (x : Nat) : s.branchTo m z x none =
    s.trap (mkTrap 4 (lowestLane m) (s.iss.pc.zeroExtend 64) (BitVec.ofInt 64 z) 0 0) := by
  have hz : BitVec.ofNat 64 (ofInt 64 z) = BitVec.ofInt 64 z := (eq_ofNat (BitVec.toNat_ofInt z)).symm
  refine (if_pos h).trans ?_
  rw [State.trapOf, hz, BitVec.ofNat_toNat]
  rfl
end

/-! ### Jumps through a scalar (R107, R108) -/

theorem extract_high_eq_zero (z : DWord) : z.extractLsb' 32 32 = 0 ↔ z.toNat < 2 ^ 32 := by
  rw [← BitVec.toNat_inj, BitVec.extractLsb'_toNat, Nat.shiftRight_eq_div_pow]
  have := z.isLt
  show _ = 0 ↔ _
  omega

section
variable {s : State} {a : BitVec 7}

theorem jumpTo_far {k : State → State} (h : 2 ^ 32 ≤ (s.rs a).toNat) : s.jumpTo a k =
    s.trap (mkTrap 4 (lowestLane s.iss.eff) (s.rs a) (s.iss.pc.zeroExtend 64) 0 0) := by
  have hz : (s.rs a).extractLsb' 32 32 ≠ 0 := fun e => h.not_gt ((extract_high_eq_zero _).1 e)
  rw [State.jumpTo, if_pos (bne_iff_ne.2 hz), State.trapOf, ofNat_toNat_self, BitVec.ofNat_toNat]
  rfl

theorem jumpTo_near {k : State → State} (h : (s.rs a).toNat < 2 ^ 32) :
    s.jumpTo a k = (k s).transfer s.iss.eff ((s.rs a).extractLsb' 0 32) := by
  have hz : (s.rs a).extractLsb' 32 32 = 0 := (extract_high_eq_zero _).2 h
  exact if_neg (by simp [hz])
end

end Sys2Proof.Machine
end

section
open Sys2Proof Sys2Proof.Machine

/-- Settles O19: a branch is `branchTo` where it is taken, a jump `jumpTo`; what moves lanes is `transfer`. -/
theorem branchesAndJumps : Obligations.BranchesAndJumps := by
  unfold Obligations.BranchesAndJumps
  constructor
  · intro p n d x s h taken m z alike
    have he : exec (.br p n d x) s = .next (if m = 0 then s else s.branchTo m z x.toNat (s.branchPair taken)) := exec_br h
    refine ⟨fun hm => ?_, fun hm ha h0 h1 => ?_, fun hm ha hz => ?_, fun hm ha => ?_⟩
    · rw [he, if_pos hm]
    · rw [he, if_neg hm, branchPair_eq_none.2 ha, branchTo_near h0 h1]
      exact ⟨_, rfl, transfer_moves ..⟩
    · rw [he, if_neg hm, branchPair_eq_none.2 ha, branchTo_far hz]
    · obtain ⟨l, hl⟩ := Option.ne_none_iff_exists'.1 (mt branchPair_eq_none.1 ha)
      exact ⟨l, by rw [he, if_neg hm, hl]; rfl⟩
  · intro a s z
    refine ⟨fun i hi h => ?_, fun d h => ?_⟩
    · have he : exec i s = .next (s.jumpTo a id) := by
        rcases hi with rfl | rfl
        · exact exec_of_ready (i := .jr a) (show execJr a s = issued (infJr a) s _ from rfl) h rfl rfl
        · exact exec_of_ready (i := .ret a) (show execRet a s = issued (infJr a) s _ from rfl) h rfl rfl
      exact ⟨fun hz => ⟨_, he.trans (congrArg Host.Outcome.next (jumpTo_near hz)), transfer_moves ..⟩,
        fun hz => he.trans (congrArg Host.Outcome.next (jumpTo_far hz))⟩
    · have he := exec_of_ready (i := .call d a) (show execCall d a s = issued (infCall d a) s _ from rfl) h rfl rfl
      exact ⟨fun hz => ⟨_, _, he.trans (congrArg Host.Outcome.next (jumpTo_near hz)), wrS_is, transfer_moves ..⟩,
        fun hz => he.trans (congrArg Host.Outcome.next (jumpTo_far hz))⟩
end

section
/-! PROOF. Floating-point words that raise nothing, and compares (R120 to R123). -/

namespace Sys2Proof.Machine

/-! ### Raw forms (R121) -/

theorem rdW_lt (r : Regs) (l : Nat) : ∀ w n, r.rdW w n l < 2 ^ (32 * w)
  | 0, _ => Nat.one_pos
  | w + 1, n => by
    have hx := (r.rdV n l).isLt
    have hy := rdW_lt r l w (n + 1)
    rw [Regs.rdW, Nat.mul_succ, pow_add]
    omega

section
variable {f : Fmt} {k : Nat} (hs : f.signBit = 2 ^ k) (x : Nat)
include hs

theorem fAbs_eq : fAbs f x = x % 2 ^ k := by
  rw [fAbs, Fmt.mag, hs]

/-- Adding the sign bit inverts it. -/
theorem fNeg_eq : fNeg f x = (x + 2 ^ k) % 2 ^ (k + 1) := by
  rw [fNeg, Fmt.signed, Fmt.sgn, Fmt.mag, hs, pow_succ, Nat.mod_mul, Nat.add_mod_right,
    Nat.add_div_right _ (Nat.two_pow_pos k)]
  rcases Nat.mod_two_eq_zero_or_one (x / 2 ^ k) with h | h
  · simp [h, Nat.succ_mod_two_eq_one_iff.2 h]
  · simp [h, Nat.succ_mod_two_eq_zero_iff.2 h]

theorem fCsgn_eq {y : Nat} (hy : y < 2 ^ (k + 1)) : fCsgn f x y = x % 2 ^ k + y / 2 ^ k * 2 ^ k := by
  have hq : y / 2 ^ k < 2 := Nat.div_lt_of_lt_mul (by rwa [← pow_succ])
  rw [fCsgn, Fmt.signed, Fmt.sgn, Fmt.mag, hs]
  generalize y / 2 ^ k = q at hq
  interval_cases q <;> simp
end

theorem f32_signBit : f32.signBit = 2 ^ 31 := rfl

theorem f64_signBit : f64.signBit = 2 ^ 63 := rfl

/-! ### Words that raise nothing -/

theorem flagsOf_silent (m : Word) (x : Nat → Nat) (b : Nat → Bool) : flagsOf m (fun l => (x l, 0)) b = 0 := by
  simp [flagsOf]

theorem raise_zero (s : State) : s.raise 0 = s := by
  have hz : s.iss.raised ||| 0 = s.iss.raised := BitVec.or_zero
  simp only [State.raise, State.setIss, hz]

/-- Where no lane raises an exception, the results are written. -/
theorem FpEnds.silent {i : Instr} {s : State} {d w : Nat} {x : Nat → Nat} {b : Nat → Bool}
    (h : FpEnds i s d w (fun l => (x l, 0)) b) :
    ∃ t, exec i s = .next t ∧ LanesAre s.iss.eff d w (fun l j => BitVec.ofNat 32 (x l / 2 ^ (32 * j))) b s t := by
  obtain ⟨hgo, -⟩ := h
  simp only [flagsOf_silent, raise_zero] at hgo
  exact hgo BitVec.zero_and

theorem fp2_of {w : Nat} {c : BitVec 7 → BitVec 7 → Instr} {f : FpCtl → Nat → FpRes}
    (hi : ∀ d a, infoOf (c d a) = infV2 .v w w d a)
    (he : ∀ d a s, exec (c d a) s = issued (infV2 .v w w d a) s (fp2 w d a (f s.fc))) : Fp2 w w c f :=
  fp2_of_lanes hi fun d a s => (he d a s).trans (issued_congr rfl rfl)

theorem Fp2.silent {wd wa : Nat} {c : BitVec 7 → BitVec 7 → Instr} {f g : Nat → Nat} (h : Fp2 wd wa c fun _ x => (g x, 0))
    (hg : ∀ x, g x = f x) : Lane2 wd wa c f := by
  obtain rfl : g = f := funext hg
  exact fun d a s hr => (h d a s hr).silent

/-- The values read fit their registers. -/
theorem Fp3.silent {w : Nat} {c : BitVec 7 → BitVec 7 → BitVec 7 → Instr} {f g : Nat → Nat → Nat}
    (h : Fp3 w c fun _ x y => (g x y, 0)) (hg : ∀ x y, y < 2 ^ (32 * w) → g x y = f x y) : Lane3 w w w c f := by
  intro d a b s hr
  obtain ⟨t, ht, hl⟩ := (h d a b s hr).silent
  exact ⟨t, ht, hl.congr (fun l j _ _ => by rw [hg _ _ (rdW_lt ..)]) fun _ _ _ => rfl⟩

theorem lane2_of_class {wa : Nat} {f : Fmt} {c : BitVec 7 → BitVec 7 → Instr} (hi : ∀ d a, infoOf (c d a) = infV2 .v 1 wa d a)
    (he : ∀ d a s, exec (c d a) s = issued (infV2 .v 1 wa d a) s
      (lane1 (infV2 .v 1 wa d a) d (fun l => BitVec.ofNat 32 (fClass f (s.rw wa a l))))) : Lane2 1 wa c (fClass f) :=
  lane2_of hi he (fun _ _ _ => lane1_is) fun _ _ _ _ hj => first_register rfl hj

/-! ### Scaling and compares (R121, R122) -/

/-- A value of `w` registers scaled by one register ends as R26 and R118 say. -/
theorem scl_ends {i : Instr} {w : Nat} {f : Fmt} {d a b : BitVec 7} {s : State} (h : Ready i s)
    (hi : infoOf i = infV3 .v w w 1 d a b) (he : exec i s = issued (infV3 .v w w 1 d a b) s
      (fpLanes (infV3 .v w w 1 d a b) w d (fun l => fScl f s.fc (s.rw w a l) (s.rv b l).toInt))) :
    FpEnds i s d.toNat w (fun l => fScl f s.src.fctl (s.src.rdW w a.toNat l) (s.src.rdV b.toNat l).toInt)
      (fun l => s.src.badV a.toNat w l || s.src.badV b.toNat 1 l) := by
  simpa only [List.any_cons, List.any_nil, Bool.or_false, State.fc, State.rv, State.rw] using
    fpEnds_of_reads (vs := [(a.toNat, w), (b.toNat, 1)]) h hi rfl rfl he

/-- A compare of two values of `w` registers ends as R26 and R118 say. -/
theorem compare_ends {i : Instr} {w k : Nat} {fm : Fmt} {p : BitVec 3} {a b : BitVec 7} {s : State} (h : Ready i s)
    (hi : infoOf i = infVP w p a b) (he : exec i s = issued (infVP w p a b) s
      (fpPred (infVP w p a b) p (fun l => fCompare fm s.fc k (s.rw w a l) (s.rw w b l)))) :
    let r := fun l => fCompare fm s.src.fctl k (s.src.rdW w a.toNat l) (s.src.rdW w b.toNat l)
    let x := fun l => s.src.badV a.toNat w l || s.src.badV b.toNat w l
    let u := flagsOf s.iss.eff (fun l => (0, (r l).2)) x
    (u &&& s.src.fpEnables = 0 → ∃ t, exec i s = .next t ∧ PredIs s.iss.eff p.toNat (fun l => (r l).1) x (s.raise u) t) ∧
    (u &&& s.src.fpEnables ≠ 0 → ∃ l, exec i s = .next (s.trap (mkTrap 6 l (u.zeroExtend 64) 0 0 0))) := by
  intro r x u
  have hb : ∀ l, l < 32 → (infVP w p a b).pois s.src l = x l := fun l hl => by
    simpa using pois_lanes (vs := [(a.toNat, w), (b.toNat, w)]) rfl hl
  have hn : exec i s = .next (fpPred (infVP w p a b) p r s) := exec_of_ready he h hi rfl
  have hu : u = (lanesOf s.iss.eff).foldl (fun u l => if (infVP w p a b).pois s.src l then u else u ||| (r l).2) 0 :=
    List.foldl_ext _ _ _ fun u l hl => by rw [hb l (lt_of_mem_lanesOf hl)]
  obtain ⟨hgo, htrap⟩ := fpFinishOn_ends (write := lanePred (infVP w p a b) p.toNat (fun l => (r l).1)) hu
  refine ⟨fun h0 => ⟨_, hn.trans (congrArg Host.Outcome.next (hgo h0)), ?_⟩, fun h0 => ?_⟩
  · exact (lanePred_is.congr (fun _ _ => rfl) fun l hl _ => hb l hl).raise u
  · obtain ⟨l, _, _, _, _, hl⟩ := htrap h0
    exact ⟨l, hn.trans (congrArg Host.Outcome.next hl)⟩

end Sys2Proof.Machine
end

section
open Sys2Proof Sys2Proof.Machine

/-- Settles O9: each word is `issued` with the record of its shape; the raw forms and the class raise nothing, and a
compare writes its predicate where no enabled exception is raised. -/
theorem floatOfOneAndCompares : Obligations.FloatOfOneAndCompares := by
  unfold Obligations.FloatOfOneAndCompares
  refine ⟨fp2_of (fun _ _ => rfl) (fun _ _ _ => rfl), fp2_of (fun _ _ => rfl) (fun _ _ _ => rfl),
    fun m => fp2_of (fun _ _ => rfl) (fun _ _ _ => rfl), fun m => fp2_of (fun _ _ => rfl) (fun _ _ _ => rfl),
    ?abs32, ?abs64, ?neg32, ?neg64, ?csgn32, ?csgn64,
    lane2_of_class (fun _ _ => rfl) (fun _ _ _ => rfl), lane2_of_class (fun _ _ => rfl) (fun _ _ _ => rfl),
    fun d a b s h => ?scl32, fun d a b s h => scl_ends h rfl rfl, fun k p a b s f w h => ?compare⟩
  case abs32 => exact (fp2_of (fun _ _ => rfl) (fun _ _ _ => rfl)).silent (fAbs_eq f32_signBit)
  case abs64 => exact (fp2_of (fun _ _ => rfl) (fun _ _ _ => rfl)).silent (fAbs_eq f64_signBit)
  case neg32 => exact (fp2_of (fun _ _ => rfl) (fun _ _ _ => rfl)).silent (fNeg_eq f32_signBit)
  case neg64 => exact (fp2_of (fun _ _ => rfl) (fun _ _ _ => rfl)).silent (fNeg_eq f64_signBit)
  case csgn32 => exact (fp3_of (fun _ _ _ => rfl) (fun _ _ _ _ => rfl)).silent fun x _ hy => fCsgn_eq f32_signBit x hy
  case csgn64 => exact (fp3_of (fun _ _ _ => rfl) (fun _ _ _ _ => rfl)).silent fun x _ hy => fCsgn_eq f64_signBit x hy
  case scl32 => simpa only [rdW_one] using scl_ends (f := f32) (a := a) (b := b) h rfl rfl
  case compare =>
    rcases h with ⟨rfl, rfl, h⟩ | ⟨rfl, rfl, h⟩
    · rw [if_pos rfl]
      exact compare_ends h rfl rfl
    · rw [if_neg (by decide)]
      exact compare_ends h rfl rfl
end

section
/-! PROOF. What the device's work beside the issue (translation, rings, records, the race detector, the lookup of bytes)
leaves alone. -/

namespace Sys2Proof.Machine

/-- What no step of a fold changes. -/
theorem foldl_same {σ α β : Type} {v : σ → β} {f : σ → α → σ} (h : ∀ s x, v (f s x) = v s) :
    ∀ (xs : List α) (s : σ), v (xs.foldl f s) = v s
  | [], _ => rfl
  | x :: xs, s => (foldl_same h xs (f s x)).trans (h s x)

/-- A grid but for its windows (R221) and for what the check of its record decides (R187, R216, R453). -/
def Grid.unchecked (g : Grid) : Grid := { g with windows := [], tableDue := false, status := 0, reason := 0, view := 0 }

/-- The part of the state that work beside the issue leaves alone: of grids all but what their check decides, of the
executing group all but its lane registers, of tiles whether they are lost. -/
structure Front where
  teams : Map (Option Team)
  grids : Nat → Option Grid
  tick : Nat
  cores : Map CoreSt
  dies : Map Die
  iss : Issue
  gid : Nat
  g : Group
  tileLost : Nat → Bool

def State.front (s : State) : Front where
  teams := s.teams
  grids k := (s.grid k).map Grid.unchecked
  tick := s.tick
  cores := s.cores
  dies := s.dies
  iss := s.iss
  gid := s.gid
  g := { s.g with r := { s.g.r with v := [], vPois := [] } }
  tileLost k := (s.tile k).lost

theorem front_of_translated {s t : State} (h : Translated s t) (k : TeamsStand s t) : t.front = s.front := by
  have hg : t.front.grids = s.front.grids := funext fun j => by
    obtain ⟨w, hw⟩ := k.grids j
    exact (congrArg (Option.map Grid.unchecked) hw).trans (by rw [Option.map_map]; rfl)
  have ht : ({ t with grids := s.grids } : State).front = s.front := by
    rw [h.eq]
    rfl
  calc t.front = { ({ t with grids := s.grids } : State).front with grids := t.front.grids } := rfl
    _ = s.front := by rw [ht, hg]

theorem locate_front (s : State) (k : AccKind) (b : Bool) (a v va : Nat) : (s.locate k b a v va).1.front = s.front :=
  front_of_translated (locate_translated ..) (locate_stands ..)

theorem addReq_front (s : State) (a v va : Nat) (k : AccKind) (h : Nat) (w : ReqWho) (st : ReqState) :
    (s.addReq a v va k h w st).front = s.front :=
  front_of_translated (addReq_translated ..) (addReq_stands ..)

theorem addLine_front (s : State) (lk : Nat) (w x : Bool) : (s.addLine lk w x).front = s.front :=
  front_of_translated (addLine_translated ..) (addLine_stands ..)

theorem setTile_front {s : State} {q : Nat} {f : Tile → Tile} (h : (f (s.tile q)).lost = (s.tile q).lost) :
    (s.setTile q f).front = s.front := by
  have ht : (s.setTile q f).front.tileLost = s.front.tileLost := funext fun k => by
    have e : (s.setTile q f).tile k = if k = q then f (s.tile q) else s.tile k := setTile_tile ..
    simp only [State.front, e]
    split <;> simp [*]
  calc (s.setTile q f).front = { s.front with tileLost := (s.setTile q f).front.tileLost } := rfl
    _ = s.front := by rw [ht]

/-! ### Bytes and the rings of a tile (R202, R405, R497) -/

theorem wrByte_front (s : State) (l : Loc) (i : Nat) (b : Byte) : (s.wrByte l i b).front = s.front := by
  cases l with
  | reg k x =>
    change (s.modG k _).front = s.front
    unfold State.modG
    split <;> rfl
  | _ => rfl

theorem wrBytesFrom_front (l : Loc) : ∀ (bs : List Byte) (s : State) (i : Nat), (s.wrBytesFrom l i bs).front = s.front
  | [], _, _ => rfl
  | b :: bs, s, i => (wrBytesFrom_front l bs _ _).trans (wrByte_front s l i b)

theorem wrLoc_front (s : State) (l : Loc) (n x : Nat) : (s.wrLoc l n x).front = s.front := wrBytesFrom_front l _ s 0

theorem markDirty_front (s : State) (a v va : Nat) : (s.markDirty a v va).front = s.front := by
  unfold State.markDirty
  extract_lets lk u st
  have hu : u.front = s.front := by
    unfold u
    split <;> rfl
  split
  · exact hu
  · extract_lets fk v x w
    have hv : v.front = s.front := by
      unfold v
      split <;> exact hu
    split
    · exact hv
    · split
      · exact hv
      · split <;> exact hv

theorem touchHome_front (s : State) (a v va : Nat) : (s.touchHome a v va).front = s.front := by
  have h := markDirty_front s a v va
  unfold State.touchHome
  dsimp only
  split <;> exact h

theorem ringWrite_front (s : State) (w : ReqWho) (va n x : Nat) : (s.ringWrite w va n x).1.front = s.front := by
  have h := locate_front s .store false 0 0 va
  unfold State.ringWrite
  generalize s.locate .store false 0 0 va = r at h ⊢
  obtain ⟨u, l | _ | _⟩ := r
  · dsimp only
    split
    · exact (addReq_front ..).trans h
    · split
      · exact (markDirty_front ..).trans ((wrLoc_front ..).trans h)
      · exact (wrLoc_front ..).trans h
  · exact (addReq_front ..).trans h
  · exact (addReq_front ..).trans h

theorem pumpRec_front (s : State) (t : Nat) : (s.pumpRec t).front = s.front := by
  unfold State.pumpRec
  split
  · rfl
  · next e _ =>
    extract_lets tl base va rest
    have hrest : ∀ u, (rest u).front = u.front := fun _ => rfl
    split
    · exact (setTile_front rfl).trans (hrest s)
    · split
      · rfl
      · have h := ringWrite_front s (.errRec t) va 64
        generalize s.ringWrite (.errRec t) va 64 = f at h ⊢
        split
        · next hu => exact (congrArg (fun r => State.front r.1) hu.symm).trans (h _)
        · next hu =>
          exact (setTile_front rfl).trans ((hrest _).trans ((congrArg (fun r => State.front r.1) hu.symm).trans (h _)))

theorem writeRec_front (s : State) (t : Nat) (e : ErrRec) : (s.writeRec t e).front = s.front :=
  pumpRec_front { s with errDue := s.errDue ++ [(t, e.bytes 0 s.tick false)] } t

/-! ### Orders, races and what level-1 may serve (R260 to R262, R281 to R283) -/

theorem settleKeys_front (s : State) (k n : Nat) : (s.settleKeys k n).front = s.front := by
  unfold State.settleKeys
  split <;> rfl

theorem settleUndo_front (s : State) (l : Loc) (n : Nat) : (s.settleUndo l n).front = s.front := by
  cases l with
  | home a v x => exact settleKeys_front ..
  | _ => rfl

theorem orderWrite_front (s : State) (a : Nat) (ws : List Nat) (c : Bool) : (s.orderWrite a ws c).front = s.front := by
  unfold State.orderWrite
  dsimp only
  split
  · rfl
  · exact foldl_same (fun _ _ => by rfl) ws s

theorem orderRead_front (s : State) (a : Nat) (rs : List SyncRec) : (s.orderRead a rs).front = s.front := by
  unfold State.orderRead
  split <;> rfl

theorem noteOrder_front (s : State) (a : Nat) (l : Loc) (n : Nat) (j : Joins) : (s.noteOrder a l n j).front = s.front := by
  unfold State.noteOrder
  extract_lets ws u
  have hu : u.front = s.front := by
    unfold u
    split
    · rfl
    · exact orderRead_front ..
  split
  · exact hu
  · exact (orderWrite_front ..).trans hu

theorem seeBytes_front (s : State) (a : Nat) (l : Loc) (n : Nat) : (s.seeBytes a l n).front = s.front := by
  unfold State.seeBytes
  split
  · rfl
  · split
    · refine foldl_same (fun u p => ?_) _ s
      dsimp only
      split <;> rfl
    · rfl

theorem seeHome_front (s : State) (a : Nat) (l : Loc) (n : Nat) : (s.seeHome a l n).front = s.front :=
  (seeBytes_front ..).trans (settleUndo_front ..)

theorem raceRecord_front (s : State) (u tile va : Nat) (x : SectAcc) (a : Accessor) (w : Bool) :
    (s.raceRecord u tile va x a w).front = s.front := by
  unfold State.raceRecord
  dsimp only
  split
  · rfl
  · exact writeRec_front _ _ _

theorem noteSector_front (s : State) (a : Accessor) (l : Loc) (va n : Nat) (w : Bool) (c : List (Nat × Nat)) (sec : Nat) :
    (s.noteSector a l va n w c sec).front = s.front := by
  unfold State.noteSector
  refine foldl_same (fun u x => ?_) _ { s with race := _ }
  split <;> exact raceRecord_front ..

theorem noteAccess_front (s : State) (a : Accessor) (l : Loc) (va n : Nat) (w : Bool) :
    (s.noteAccess a l va n w).front = s.front := by
  unfold State.noteAccess
  extract_lets c u v
  have hv : v.front = s.front :=
    (noteOrder_front ..).trans (foldl_same (fun u x => noteSector_front u a l va n w c x) _ s)
  split
  · exact (seeBytes_front ..).trans hv
  · exact (seeHome_front ..).trans hv

theorem noteParts_front (s : State) (l : Nat) (ps : List Piece) : (s.noteParts l ps).front = s.front := by
  refine foldl_same (fun u p => ?_) ps s
  dsimp only
  split
  · exact orderRead_front ..
  · split
    · exact (seeHome_front ..).trans (noteOrder_front ..)
    · exact noteAccess_front ..

theorem hbTake_front (s : State) (a : Nat) (c : Map Nat) : (s.hbTake a c).front = s.front := rfl

theorem hbTick_front (s : State) (a : Nat) : (s.hbTick a).front = s.front := rfl

theorem hbEdge_front (s : State) (x y : Nat) : (s.hbEdge x y).front = s.front := (hbTick_front ..).trans (hbTake_front ..)

/-! ### Where bytes are found (R201, R223, R225, R240, R439, R440, R478) -/

theorem countSlack_front (s : State) (a c n : Nat) : (s.countSlack a c n).front = s.front := by
  unfold State.countSlack
  split
  · rfl
  · split <;> rfl

theorem countNow_front (s : State) (g : Option Nat) (a va : Nat) : (s.countNow g a va).front = s.front :=
  countSlack_front ..

theorem peerTry_front (s : State) (k : AccKind) (a v va : Nat) : (s.peerTry k a v va).1.front = s.front := by
  unfold State.peerTry
  split
  case h_5 =>
    next u _ _ _ _ _ hu =>
    have hu : u.front = s.front := congrArg (fun r => State.front r.1) hu.symm
    dsimp only
    split
    · exact (writeRec_front ..).trans hu
    · exact hu
  all_goals next u hu => exact congrArg (fun r => State.front r.1) hu.symm

theorem findLoc_front (s : State) (kd : Kind) (h a v va n : Nat) : (s.findLoc kd h a v va n).1.front = s.front := by
  have hl := locate_front s kd.k (h == 2) a v va
  unfold State.findLoc
  dsimp only
  split
  · rfl
  · split
    · rfl
    · generalize s.locate kd.k (h == 2) a v va = r at hl ⊢
      obtain ⟨u, l | _ | _⟩ := r
      · dsimp only
        generalize hw : u.countNow (u.gridOfWho (.lanes u.gid 0)) a va = w
        have hw : w.front = s.front := hw ▸ (countNow_front ..).trans hl
        split
        · exact hw
        · split
          · have hp := (peerTry_front w kd.k a v va).trans hw
            generalize w.peerTry kd.k a v va = p at hp ⊢
            obtain ⟨x, _ | _ | _⟩ := p <;> exact hp
          · exact hw
      · exact hl
      · exact hl

theorem front_ite {α : Type} {c : Prop} [Decidable c] {x y : State × α} {f : Front} (hx : x.1.front = f) (hy : y.1.front = f) :
    (if c then x else y).1.front = f := by
  split
  · exact hx
  · exact hy

theorem viewFill_front (s : State) (a w va : Nat) : (s.viewFill a w va).1.front = s.front := by
  unfold State.viewFill
  extract_lets b lk add
  have hadd : ∀ u, (add u).front = u.front := fun u => addLine_front ..
  split
  · rfl
  · split
    · split
      · exact hadd (s.countAccess _)
      · exact hadd s
    · have hf := findLoc_front s (kLoad 1) 0 a 0 (alignDown va 64) 1
      split
      next v r hv =>
      have hv' : v.front = s.front := by
        refine (congrArg (fun r => State.front r.1) hv).symm.trans (front_ite ?_ (front_ite ?_ hf)) <;> rfl
      split
      · exact hv'
      · next c x h =>
        extract_lets y u
        have hu : u.front = s.front :=
          (foldl_same (v := State.front) (fun _ _ => by rfl) (List.range 4) _).trans ((settleUndo_front v _ 256).trans hv')
        exact (hadd _).trans hu
      · exact hv'

theorem l1Serve_front (s : State) (a v va n : Nat) : (s.l1Serve a v va n).1.front = s.front := by
  unfold State.l1Serve
  dsimp only
  split
  · rfl
  · split <;> next u _ hu => exact congrArg (fun r => State.front r.1) hu.symm

theorem l1Fill_front (s : State) (c a v va : Nat) (l : Loc) (f x : Bool) : (s.l1Fill c a v va l f x).front = s.front := by
  unfold State.l1Fill
  dsimp only
  split <;> exact settleUndo_front s l 64

theorem resolveOff_front (s : State) (kd : Kind) (h va n : Nat) : (s.resolveOff kd h va n).1.front = s.front := by
  unfold State.resolveOff
  extract_lets v a own w l1
  split
  · rfl
  · split
    next u c hu =>
    have hu' : u.front = s.front :=
      (congrArg (fun r => State.front r.1) hu).symm.trans (front_ite (l1Serve_front ..) rfl)
    split
    · exact hu'
    · split
      next x r hx =>
      have hx' : x.front = s.front := by
        refine Eq.trans ?_ hu'
        split at hx
        · exact (congrArg (fun r => State.front r.1) hx).symm.trans (findLoc_front ..)
        · split at hx
          · exact (congrArg (fun r => State.front r.1) hx).symm
          · have hf := viewFill_front u a w va
            generalize u.viewFill a w va = f at hf hx
            obtain ⟨y, _ | _⟩ := f
            · dsimp only at hx
              split at hx <;> exact (congrArg (fun r => State.front r.1) hx).symm.trans hf
            · exact (congrArg (fun r => State.front r.1) hx).symm.trans hf
      split
      · exact hx'
      · split
        · dsimp only
          split
          · exact (l1Fill_front ..).trans hx'
          · exact hx'
        · exact hx'

theorem resolvePart_front (s : State) (kd : Kind) (h va n : Nat) : (s.resolvePart kd h va n).1.front = s.front := by
  unfold State.resolvePart
  split
  · split
    · rfl
    · split <;> rfl
  · exact resolveOff_front ..

/-- R240: the lookup of an access's bytes. -/
theorem resolve_front (s : State) (kd : Kind) (h va n : Nat) : (s.resolve kd h va n).1.front = s.front := by
  unfold State.resolve
  refine foldl_same (v := fun r : State × Except Stop (List Piece) => r.1.front) (fun b p => ?_) _ (s, .ok [])
  obtain ⟨u, _ | ps⟩ := b
  · rfl
  · have hp := resolvePart_front u kd h p.1 p.2
    dsimp only
    generalize u.resolvePart kd h p.1 p.2 = r at hp ⊢
    obtain ⟨x, _ | _⟩ := r <;> exact hp

theorem homePlace_front (s : State) (w : ReqWho) (k : AccKind) (a va n : Nat) : (s.homePlace w k a va n).1.front = s.front := by
  have hl := locate_front s k false a 0 va
  unfold State.homePlace
  generalize s.locate k false a 0 va = r at hl ⊢
  obtain ⟨u, l | _ | _⟩ := r
  · dsimp only
    split
    · exact (addReq_front ..).trans hl
    · split
      · have hp := (peerTry_front u k a 0 va).trans hl
        generalize u.peerTry k a 0 va = p at hp ⊢
        obtain ⟨x, _ | _ | _⟩ := p
        · exact hp
        · exact (addReq_front ..).trans hp
        · exact hp
      · exact hl
  · exact (addReq_front ..).trans hl
  · exact (addReq_front ..).trans hl

end Sys2Proof.Machine
end

section
/-! PROOF. `launch` (R160, R161, R180): the answer of a lane reaches it and its shadow; a child's grid keeps what its record
and its parent give it, whatever the check of the record decides. -/

namespace Sys2Proof.Machine

/-! ### The check of a record changes only what it decides (R187, R216, R453, R492) -/

theorem setGrid_front {s : State} {k : Nat} {f : Grid → Grid} (hf : ∀ g, (f g).unchecked = g.unchecked) :
    (s.setGrid k f).front = s.front := by
  have hg : (s.setGrid k f).front.grids = s.front.grids := funext fun j => by
    have e : (s.setGrid k f).grid j = if j = k then (s.grid k).map f else s.grid j := setGrid_grid ..
    simp only [State.front, e]
    split
    · next h =>
      subst h
      cases s.grid j <;> simp [hf]
    · rfl
  calc (s.setGrid k f).front = { s.front with grids := (s.setGrid k f).front.grids } := rfl
    _ = s.front := by rw [hg]

theorem malformed_front (s : State) (gr c : Nat) : (s.malformed gr c).front = s.front :=
  setGrid_front (s := s) (k := gr) fun _ => rfl

theorem takeTag_front (s : State) (gr : Nat) : (s.takeTag gr).front = s.front := by
  unfold State.takeTag
  split
  · rfl
  · split
    · rfl
    · split
      · rfl
      · exact setGrid_front fun _ => rfl

theorem tableDone_front (s : State) (gr : Nat) (ws : List Window) : (s.tableDone gr ws).front = s.front := by
  unfold State.tableDone
  split
  · rfl
  · split
    · exact malformed_front ..
    · exact (takeTag_front ..).trans (setGrid_front fun _ => rfl)

theorem readDoubles_front (gr a : Nat) : ∀ (n : Nat) (s : State) (va : Nat), (s.readDoubles gr a va n).1.front = s.front
  | 0, _, _ => rfl
  | n + 1, s, va => by
    have hp := homePlace_front s (.table gr) .load a va 8
    unfold State.readDoubles
    generalize s.homePlace (.table gr) .load a va 8 = r at hp ⊢
    obtain ⟨u, _ | l⟩ := r
    · exact hp
    · dsimp only
      split
      · exact hp
      · have hn := (readDoubles_front gr a n u (va + 8)).trans hp
        generalize u.readDoubles gr a (va + 8) n = q at hn ⊢
        obtain ⟨x, _ | _ | _⟩ := q <;> exact hn

theorem readWindows_front (s : State) (gr a p r : Nat) : (s.readWindows gr a p r).1.front = s.front := by
  unfold State.readWindows
  extract_lets va rep
  split
  · rfl
  · split
    · rfl
    · have h1 := readDoubles_front gr a 1 s va
      generalize s.readDoubles gr a va 1 = q at h1 ⊢
      obtain ⟨u, _ | _ | h⟩ := q
      · exact h1
      · exact h1
      · dsimp only
        split
        · exact h1
        · have hn := (readDoubles_front gr a (4 * (h % 2 ^ 32)) u (va + 8)).trans h1
          generalize u.readDoubles gr a (va + 8) (4 * (h % 2 ^ 32)) = q at hn ⊢
          obtain ⟨x, _ | _ | _⟩ := q <;> exact hn

theorem tableStep_front (s : State) (gr : Nat) : (s.tableStep gr).front = s.front := by
  unfold State.tableStep
  split
  · rfl
  · next g _ =>
    split
    · rfl
    · have hr := readWindows_front s gr g.asid g.polder g.record
      generalize s.readWindows gr g.asid g.polder g.record = q at hr ⊢
      obtain ⟨u, _ | _ | _⟩ := q
      · exact hr
      · exact (malformed_front ..).trans hr
      · exact (tableDone_front ..).trans hr

theorem formGrid_front (s : State) (g : Grid) (b : Bool) : (s.formGrid g b).1.front = (s.addGrid g).front := by
  unfold State.formGrid
  dsimp only [State.fresh]
  split
  · exact malformed_front ..
  · exact tableStep_front ..

theorem formGrid_id (s : State) (g : Grid) (b : Bool) : (s.formGrid g b).2 = s.ids := by
  unfold State.formGrid
  dsimp only [State.fresh]
  split <;> rfl

/-- The grid that a record forms is the one proposed, but for what its check decides. -/
theorem formGrid_grid (s : State) (g : Grid) (b : Bool) :
    ∃ c, (s.formGrid g b).1.grid s.ids = some c ∧ c.unchecked = { g with accepted := s.ids }.unchecked := by
  have h := congrFun (congrArg Front.grids (formGrid_front s g b)) s.ids
  have ha : (s.addGrid g).front.grids s.ids = some { g with accepted := s.ids }.unchecked :=
    congrArg (Option.map Grid.unchecked) (addGrid_grid s g)
  exact Option.map_eq_some_iff.1 (h.trans ha)

/-! ### The lanes that an answer reaches (R410) -/

/-- What `withShadow` depends on: the status register and the lanes with effect. -/
def State.pairing (s : State) : Word × Word := (s.src.mstat, s.iss.eff)

theorem withShadow_of_pairing {s t : State} (h : t.pairing = s.pairing) (l : Nat) : t.withShadow l = s.withShadow l := by
  obtain ⟨hm, he⟩ := Prod.mk.inj h
  unfold State.withShadow Regs.prot
  rw [hm, he]

theorem pairing_congr {s t : State} (hp : t.iss.pre = s.iss.pre) (he : t.iss.eff = s.iss.eff)
    (hm : t.g.r.mstat = s.g.r.mstat) : t.pairing = s.pairing := by
  unfold State.pairing State.src
  rw [hp, he]
  cases s.iss.pre with
  | none => exact congrArg (·, s.iss.eff) hm
  | some r => rfl

theorem pairing_of_front {s t : State} (h : t.front = s.front) : t.pairing = s.pairing :=
  have hi : t.iss = s.iss := congrArg Front.iss h
  pairing_congr (congrArg Issue.pre hi) (congrArg Issue.eff hi) (congrArg (fun f => f.g.r.mstat) h)

/-- A lane and, where it has one, its shadow, as a mask. -/
def State.shadowMask (s : State) (l : Nat) : Word := maskOf (fun k => (s.withShadow l).contains k)

theorem lanesOf_shadowMask (s : State) {l : Nat} (hl : l < 32) : lanesOf (s.shadowMask l) = s.withShadow l := by
  have hm : lanesOf (s.shadowMask l) = (List.range 32).filter (fun k => (s.withShadow l).contains k) :=
    List.filter_congr fun k hk => getLsbD_maskOf _ (List.mem_range.1 hk)
  have alone : ∀ l < 32, (List.range 32).filter (fun k => [l].contains k) = [l] := by decide
  have both : ∀ l < 32, l % 2 = 0 → (List.range 32).filter (fun k => [l, l + 1].contains k) = [l, l + 1] := by decide
  rw [hm]
  unfold State.withShadow
  split
  next h =>
    simp only [Bool.and_eq_true, beq_iff_eq] at h
    exact both l hl h.2
  next => exact alone l hl

/-- R180: a lane's answer stands in its destination and in that of its shadow, and nowhere else. -/
theorem launchStatus_is (s : State) (d : BitVec 7) {l : Nat} (hl : l < 32) (x : Nat) :
    LanesAre (s.shadowMask l) d.toNat 1 (fun _ _ => BitVec.ofNat 32 x) (fun _ => false) s (s.launchStatus d l x) := by
  have hs : s.launchStatus d l x = s.setR (fun r => (lanesOf (s.shadowMask l)).foldl
      (fun r k => r.wrW 1 d.toNat k (BitVec.ofNat 32 x).toNat false) r) := by
    simp only [State.launchStatus, lanesOf_shadowMask s hl, wrV_eq_wrW]
  rw [hs]
  have h := laneW_is (s := s.setIss (fun i => { i with eff := s.shadowMask l })) (d := d.toNat) (w := 1)
    (x := fun _ => (BitVec.ofNat 32 x).toNat) (b := fun _ => false)
  exact (h.setIss (fun _ => s.iss)).one fun _ _ => rfl

theorem launchStatus_rest (s : State) (d : BitVec 7) {l : Nat} (hl : l < 32) (x : Nat) :
    s.launchStatus d l x = s.takeLanes (s.launchStatus d l x) := (launchStatus_is s d hl x).rest

theorem launchStatus_pairing (s : State) (d : BitVec 7) {l : Nat} (hl : l < 32) (x : Nat) :
    (s.launchStatus d l x).pairing = s.pairing := by
  rw [launchStatus_rest s d hl x]
  exact pairing_congr rfl rfl rfl

theorem leaveChain_pairing (s : State) (m : Word) (x : LaneState) : (s.leaveChain m x).pairing = s.pairing := by
  unfold State.leaveChain
  dsimp only
  split
  · rfl
  · refine pairing_congr rfl rfl ?_
    refine eachLane_keep (fun g => g.r.mstat) (fun g l => ?_) _ s.g
    dsimp only
    split <;> rfl

theorem parkOn_pairing (s : State) (m : Word) (e : Stop) : (s.parkOn m e).pairing = s.pairing := by
  cases e with
  | park a v va k h st => exact (leaveChain_pairing ..).trans (pairing_of_front (addReq_front ..))
  | refuse r => rfl

/-! ### One lane launches (R160, R161, R180) -/

theorem launchLane_misaligned {s : State} {d : BitVec 7} {l r : Nat} {g : Grid} (hg : s.myGrid = some g) (h : r % 256 ≠ 0) :
    s.launchLane d l r = s.launchStatus d l 4 := by
  simp [State.launchLane, hg, h]

theorem launchLane_deep {s : State} {d : BitVec 7} {l r : Nat} {g : Grid} (hg : s.myGrid = some g) (h : r % 256 = 0)
    (hd : g.depth = 10) : s.launchLane d l r = s.launchStatus d l 1 := by
  simp [State.launchLane, hg, h, hd]

theorem launchLane_full {s : State} {d : BitVec 7} {l r : Nat} {g : Grid} (hg : s.myGrid = some g) (h : r % 256 = 0)
    (hd : g.depth ≠ 10) (hc : 64 ≤ s.childSlots.length) : s.launchLane d l r = s.launchStatus d l 2 := by
  simp [State.launchLane, hg, h, hd, hc]

/-- The lowest free child slot (R161). -/
def State.freeChild (s : State) : Nat := ((List.range 64).find? (fun k => !s.childSlots.contains k)).getD 0

/-- The grid that the record `r` proposes as child `k` of the executing team, whose grid is `g`. -/
def State.childGrid (s : State) (g : Grid) (r k : Nat) : Grid :=
  Grid.new r none (some (s.g.team, k)) s.g.asid g.polder g.level (g.depth + 1) g.maint

/-- The child that the record at parts `ps` forms: the state and the grid's number. -/
def State.formChild (s : State) (g : Grid) (ps : List Piece) : State × Nat :=
  s.formGrid (s.childGrid g (s.piecesRead ps).1 s.freeChild) (s.piecesRead ps).2

/-- The executing team has grid `id` as child `k`. -/
def State.addChild (s : State) (team k id : Nat) : State :=
  s.setTeam team (fun t => { t with children := mapSet none t.children k (some id) })

theorem formChild_front (s : State) (g : Grid) (ps : List Piece) :
    (s.formChild g ps).1.front =
      (s.addGrid (s.childGrid g (s.piecesRead ps).1 s.freeChild)).front := formGrid_front ..

theorem formChild_team (s : State) (g : Grid) (ps : List Piece) :
    (s.formChild g ps).1.g.team = s.g.team ∧ (s.formChild g ps).1.teams = s.teams :=
  ⟨congrArg (fun f => f.g.team) (formChild_front s g ps), congrArg Front.teams (formChild_front s g ps)⟩

/-- A child's grid keeps its record, its place under its parent and what it inherits (R161). -/
theorem formChild_grid (s : State) (g : Grid) (ps : List Piece) :
    ∃ c, (s.formChild g ps).1.grid (s.formChild g ps).2 = some c ∧ c.record = (s.piecesRead ps).1 ∧
      c.parent = some (s.g.team, s.freeChild) ∧ c.depth = g.depth + 1 ∧ c.asid = s.g.asid ∧ c.level = g.level ∧
      c.polder = g.polder := by
  obtain ⟨c, hc, hu⟩ := formGrid_grid s (s.childGrid g (s.piecesRead ps).1 s.freeChild) (s.piecesRead ps).2
  have hid : (s.formChild g ps).2 = s.ids := formGrid_id ..
  exact ⟨c, hid ▸ hc, congrArg Grid.record hu, congrArg Grid.parent hu, congrArg Grid.depth hu, congrArg Grid.asid hu,
    (congrArg Grid.level hu :), (congrArg Grid.polder hu :)⟩

theorem formChild_pairing (s : State) (g : Grid) (ps : List Piece) : (s.formChild g ps).1.pairing = s.pairing :=
  (pairing_of_front (formChild_front ..)).trans rfl

theorem hbEdge_only (s : State) (x y : Nat) : ∃ r, s.hbEdge x y = { s with race := r } := by
  simp only [State.hbEdge, State.hbTick, State.hbTake]
  exact ⟨_, rfl⟩

/-- A lane whose record is found launches the child. -/
theorem launchLane_child {s u : State} {l r : Nat} {g : Grid} {ps : List Piece} (d : BitVec 7) (hg : s.myGrid = some g)
    (h : r % 256 = 0) (hd : g.depth ≠ 10) (hc : s.childSlots.length < 64) (hr : s.resolve kLaunch 0 r 256 = (u, .ok ps)) :
    let v := u.noteParts l ps
    ∃ e, s.launchLane d l r = State.launchStatus { (v.formChild g ps).1.addChild v.g.team v.freeChild (v.formChild g ps).2
      with race := e } d l (256 * v.freeChild) := by
  intro v
  obtain ⟨e, he⟩ := hbEdge_only ((v.formChild g ps).1.addChild (v.formChild g ps).1.g.team v.freeChild (v.formChild g ps).2)
    (v.formChild g ps).1.gid (gridAgent (v.formChild g ps).2)
  rw [(formChild_team v g ps).1] at he
  refine ⟨e, Eq.trans ?_ (congrArg (fun x => State.launchStatus x d l (256 * v.freeChild)) he)⟩
  rw [← (formChild_team v g ps).1]
  simp only [State.launchLane, hg, h, hd, Nat.not_le.2 hc, hr, bne_self_eq_false, Bool.false_eq_true, if_false]
  rfl

theorem launchLane_pairing (s : State) (d : BitVec 7) {l : Nat} (hl : l < 32) (r : Nat) :
    (s.launchLane d l r).pairing = s.pairing := by
  cases hg : s.myGrid with
  | none => simp [State.launchLane, hg]
  | some g =>
    by_cases h : r % 256 = 0
    swap
    · rw [launchLane_misaligned hg h]
      exact launchStatus_pairing s d hl 4
    by_cases hd : g.depth = 10
    · rw [launchLane_deep hg h hd]
      exact launchStatus_pairing s d hl 1
    by_cases hc : 64 ≤ s.childSlots.length
    · rw [launchLane_full hg h hd hc]
      exact launchStatus_pairing s d hl 2
    have hr := resolve_front s kLaunch 0 r 256
    rcases he : s.resolve kLaunch 0 r 256 with ⟨u, e | ps⟩ <;> rw [he] at hr
    · have hp : s.launchLane d l r = u.parkOn (laneBit l) e := by simp [State.launchLane, hg, h, hd, hc, he]
      rw [hp]
      exact (parkOn_pairing ..).trans (pairing_of_front hr)
    · obtain ⟨e, hx⟩ := launchLane_child d hg h hd (Nat.not_le.1 hc) he
      rw [hx]
      exact (launchStatus_pairing _ d hl _).trans
        ((formChild_pairing ..).trans (pairing_of_front ((noteParts_front ..).trans hr)))

/-! ### The child that is launched (R161) -/

theorem team_of_myGrid {s : State} {g : Grid} (h : s.myGrid = some g) : ∃ y, s.team s.g.team = some y := by
  unfold State.myGrid State.myTeam at h
  split at h
  · exact absurd h (by simp)
  · next y hy =>
    split at hy
    · exact ⟨y, hy⟩
    · exact absurd hy (by simp)

theorem childSlots_of_front {s t : State} (h : t.front = s.front) : t.childSlots = s.childSlots := by
  have ht : t.teams = s.teams := congrArg Front.teams h
  have hk : t.g.kind = s.g.kind := congrArg (fun f => f.g.kind) h
  have hg : t.g.team = s.g.team := congrArg (fun f => f.g.team) h
  unfold State.childSlots State.myTeam Group.isCompute State.team
  rw [ht, hk, hg]

/-- With fewer than 64 children some slot is free, and the least of them is taken. -/
theorem freeChild_least {s : State} (h : s.childSlots.length < 64) :
    s.freeChild < 64 ∧ s.freeChild ∉ s.childSlots ∧ ∀ i, i < s.freeChild → i ∈ s.childSlots := by
  have hex : ∃ k, (List.range 64).find? (fun k => !s.childSlots.contains k) = some k := by
    by_contra hn
    have hall : List.range 64 ⊆ s.childSlots := fun k hk => by
      by_contra hm
      have := List.find?_eq_none.1 (Option.eq_none_iff_forall_ne_some.2 fun j hj => hn ⟨j, hj⟩) k hk
      simp [hm] at this
    have := (List.subperm_of_subset List.nodup_range hall).length_le
    rw [List.length_range] at this
    omega
  obtain ⟨k, hk⟩ := hex
  have hf : s.freeChild = k := congrArg (fun o => Option.getD o 0) hk
  obtain ⟨hp, hm, hlt⟩ := List.find?_range_eq_some.1 hk
  rw [hf]
  exact ⟨List.mem_range.1 hm, by simpa using hp, fun i hi => by simpa using hlt i hi⟩

theorem addChild_team {s : State} {t : Nat} {y : Team} (h : s.team t = some y) (k id : Nat) :
    (s.addChild t k id).team t = some { y with children := mapSet none y.children k (some id) } := by
  simp [State.addChild, h]

/-- The record's grid is child `k` of the executing team, and the lane and its shadow answer `256 k`. -/
theorem launchLane_child_is {s u : State} {l r : Nat} {g : Grid} {ps : List Piece} (d : BitVec 7) (hl : l < 32)
    (hg : s.myGrid = some g) (h : r % 256 = 0) (hd : g.depth ≠ 10) (hc : s.childSlots.length < 64)
    (hr : s.resolve kLaunch 0 r 256 = (u, .ok ps)) :
    ∃ k id y z c, k < 64 ∧ k ∉ u.childSlots ∧ (∀ i, i < k → i ∈ u.childSlots) ∧ u.team u.g.team = some y ∧
      (s.launchLane d l r).team u.g.team = some z ∧ z.children = mapSet none y.children k (some id) ∧
      (s.launchLane d l r).grid id = some c ∧ c.record = ((u.noteParts l ps).piecesRead ps).1 ∧
      c.parent = some (u.g.team, k) ∧ c.depth = g.depth + 1 ∧ c.asid = u.g.asid ∧ c.level = g.level ∧ c.polder = g.polder ∧
      (∀ q, (s.shadowMask l).getLsbD q = true → (s.launchLane d l r).g.r.rdV d.toNat q = BitVec.ofNat 32 (256 * k)) := by
  have hu : u.front = s.front := by simpa [hr] using resolve_front s kLaunch 0 r 256
  obtain ⟨e, he⟩ := launchLane_child (l := l) d hg h hd hc hr
  have hvu : (u.noteParts l ps).front = u.front := noteParts_front ..
  generalize u.noteParts l ps = v at he hvu ⊢
  have hslots : v.childSlots = u.childSlots := childSlots_of_front hvu
  obtain ⟨hk, hnot, hlow⟩ := freeChild_least (s := v) (by rw [hslots, childSlots_of_front hu]; exact hc)
  have hvteam : v.g.team = u.g.team := congrArg (fun f => f.g.team) hvu
  have hvasid : v.g.asid = u.g.asid := congrArg (fun f => f.g.asid) hvu
  have hvteams : v.teams = u.teams := congrArg Front.teams hvu
  obtain ⟨y, hy⟩ : ∃ y, u.team u.g.team = some y := by
    have hteams : u.teams = s.teams := congrArg Front.teams hu
    have hteam : u.g.team = s.g.team := congrArg (fun f => f.g.team) hu
    rw [State.team, hteams, hteam]
    exact team_of_myGrid hg
  have hw : (v.formChild g ps).1.team v.g.team = some y := by
    rw [State.team, (formChild_team v g ps).2, hvteams, hvteam]
    exact hy
  obtain ⟨c, hcgrid, hrec, hpar, hdep, hasid, hlev, hpol⟩ := formChild_grid v g ps
  have hmask : ∀ x : State, x.pairing = s.pairing → x.shadowMask l = s.shadowMask l := fun x hx => by
    simp only [State.shadowMask, withShadow_of_pairing hx]
  rw [he]
  generalize hx : ({ (v.formChild g ps).1.addChild v.g.team v.freeChild (v.formChild g ps).2 with race := e } : State) = x
  have hans := launchStatus_is x d hl (256 * v.freeChild)
  have hrest := hans.rest
  refine ⟨v.freeChild, (v.formChild g ps).2, y, { y with children := mapSet none y.children v.freeChild (some _) }, c, hk,
    hslots ▸ hnot, hslots ▸ hlow, hy, ?_, rfl, ?_, hrec, hvteam ▸ hpar, hdep, hvasid ▸ hasid, hlev, hpol, fun q hq => ?_⟩
  · rw [hrest, ← hx, ← hvteam]
    exact addChild_team hw _ _
  · rw [hrest, ← hx]
    exact hcgrid
  · refine (hans.value q 0 ?_ Nat.zero_lt_one).1
    rw [hmask x]
    · exact hq
    · rw [← hx]
      exact (formChild_pairing ..).trans (pairing_of_front (hvu.trans hu))

/-! ### The lanes of the word in turn -/

/-- The state after the first `j` steps of a fold. -/
def foldTo {σ α : Type} (f : σ → α → σ) (s : σ) (xs : List α) (j : Nat) : σ := (xs.take j).foldl f s

theorem foldTo_length {σ α : Type} (f : σ → α → σ) (s : σ) (xs : List α) : foldTo f s xs xs.length = xs.foldl f s := by
  rw [foldTo, List.take_length]

theorem foldTo_succ {σ α : Type} (f : σ → α → σ) (s : σ) {xs : List α} {j : Nat} {x : α} (h : xs[j]? = some x) :
    foldTo f s xs (j + 1) = f (foldTo f s xs j) x := by
  rw [foldTo, List.take_add_one, h]
  simp [foldTo]

theorem foldTo_same {σ α β : Type} {v : σ → β} {f : σ → α → σ} (s : σ) {xs : List α}
    (h : ∀ s, ∀ x ∈ xs, v (f s x) = v s)
    (j : Nat) : v (foldTo f s xs j) = v s :=
  List.foldlRecOn (motive := fun t => v t = v s) (xs.take j) f rfl
    fun t ht x hx => (h t x (List.mem_of_mem_take hx)).trans ht

theorem paired_of_alike {s : State} {ea : Nat → Nat} (h : s.alike ea) (k : State → State) :
    s.paired (fun l => (ea l, 0)) k = k s := by
  have hm : s.pairMism (fun l => (ea l, 0)) = none := by
    unfold State.pairMism
    split
    · rfl
    · next hp =>
      rw [List.findSome?_eq_none_iff]
      intro i hi
      refine if_neg fun hc => ?_
      simp only [Bool.and_eq_true, bne_iff_ne] at hc
      rcases h with h | h
      · exact hp (by simp [h])
      · exact hc.2 (congrArg (·, 0) (h i (List.mem_range.1 hi) hc.1.1 hc.1.2))
  rw [State.paired, hm]

theorem lane_lt_of_mem {m : Word} {ea : Nat → Nat} {x : Nat × Nat} (h : x ∈ (lanesOf m).map (fun l => (l, ea l))) :
    x.1 < 32 := by
  obtain ⟨l, hl, rfl⟩ := List.mem_map.1 h
  exact lt_of_mem_lanesOf hl

theorem exec_launch_eq {d a : BitVec 7} {s : State} (h : Ready (.launch d a) s)
    (hp : s.alike (fun l => (s.src.rdV2 a.toNat l).toNat)) :
    let xs := (lanesOf s.leadLanes).map (fun l => (l, (s.src.rdV2 a.toNat l).toNat))
    (s.g.grp ≠ 0 → exec (.launch d a) s = .next (xs.foldl (fun s x => s.launchStatus d x.1 3) s)) ∧
    (s.g.grp = 0 → s.checkAccess kLaunch (if s.g.view = 0 then none else some 5) 256 false xs = none →
      s.watched false 256 xs = none → exec (.launch d a) s = .next (xs.foldl (fun s x => s.launchLane d x.1 x.2) s)) := by
  intro xs
  have he := exec_of_ready (i := .launch d a) (show execLaunch d a s = issued (infLaunch d a) s _ from rfl) h rfl rfl
  rw [paired_of_alike hp] at he
  refine ⟨fun hg => he.trans ?_, fun hg hc hw => he.trans ?_⟩
  · rw [if_pos (bne_iff_ne.2 hg)]
  · rw [if_neg (by simp [hg])]
    simp only [xs] at hc hw ⊢
    rw [hc, hw]

end Sys2Proof.Machine
end

section
open Sys2Proof Sys2Proof.Machine

/-- Settles O41: the lanes launch one after the other, and none changes which lanes share an answer. -/
theorem launches : Obligations.Launches := by
  unfold Obligations.Launches
  intro d a s hs ea xs m gives hp
  obtain ⟨hother, hlead⟩ := exec_launch_eq hs hp
  have hlane : ∀ {j l r}, xs[j]? = some (l, r) → l < 32 := fun h => lane_lt_of_mem (x := (_, _)) (List.mem_of_getElem? h)
  have hgives : ∀ {u : State} {l : Nat} (n : Nat), l < 32 → u.pairing = s.pairing → gives l n u (u.launchStatus d l n) := by
    intro u l n hl hu
    have := launchStatus_is u d hl n
    simpa only [State.shadowMask, withShadow_of_pairing hu] using this
  by_cases hg : s.g.grp = 0
  · have hpair : ∀ j, (foldTo (fun s x => s.launchLane d x.1 x.2) s xs j).pairing = s.pairing := fun j =>
      foldTo_same (v := State.pairing) s (fun u x hx => launchLane_pairing u d (lane_lt_of_mem hx) x.2) j
    refine ⟨foldTo (fun s x => s.launchLane d x.1 x.2) s xs, _, rfl, fun h => absurd hg h, fun _ hc hw =>
      ⟨hlead hg hc hw, foldTo_length .., fun j l r g hx hmg => ?_⟩⟩
    rw [foldTo_succ _ s hx]
    have hu := hpair j
    generalize foldTo (fun s x => State.launchLane s d x.1 x.2) s xs j = u at hu hmg ⊢
    refine ⟨fun h => ?_, fun h hd => ?_, fun h hd hf => ?_, fun h hd hf v ps hr => ?_⟩
    · rw [launchLane_misaligned hmg h]
      exact hgives 4 (hlane hx) hu
    · rw [launchLane_deep hmg h hd]
      exact hgives 1 (hlane hx) hu
    · rw [launchLane_full hmg h hd hf]
      exact hgives 2 (hlane hx) hu
    · have := launchLane_child_is d (hlane hx) hmg h hd hf hr
      simpa only [State.shadowMask, withShadow_of_pairing hu] using this
  · have hpair : ∀ j, (foldTo (fun s x => State.launchStatus s d x.1 3) s xs j).pairing = s.pairing := fun j =>
      foldTo_same (v := State.pairing) s (fun u x hx => launchStatus_pairing u d (lane_lt_of_mem hx) 3) j
    refine ⟨foldTo (fun s x => State.launchStatus s d x.1 3) s xs, _, rfl,
      fun _ => ⟨hother hg, foldTo_length .., fun j l r hx => ?_⟩, fun h => absurd h hg⟩
    rw [foldTo_succ _ s hx]
    exact hgives 3 (hlane hx) (hpair j)
end

section
/-! PROOF. What the saving, moving and stopping of teams leaves alone: of teams all but their mailboxes, the clock, and what
of the device is lost or retired. -/

namespace Sys2Proof.Machine

/-- Which dies are lost, and which cores retired (R409, R464). -/
structure Losses where
  die : Nat → Bool
  core : Nat → Bool

/-- Teams but for their mailboxes (R413), the clock, and what is lost. -/
structure Seats where
  team : Nat → Option Team
  tick : Nat
  losses : Losses

/-- A team but for its mailbox. -/
def Team.noMail (x : Team) : Team := { x with mbox := 0 }

theorem noMail_mbox (x : Team) (m : DWord) : { x with mbox := m }.noMail = x.noMail := rfl

def State.seats (s : State) : Seats where
  team k := (s.team k).map Team.noMail
  tick := s.tick
  losses := { die := fun d => (s.die d).lost, core := fun c => (s.coreSt c).retired }

theorem seats_of_front {s t : State} (h : t.front = s.front) : t.seats = s.seats := by
  have ht : t.teams = s.teams := congrArg Front.teams h
  have hk : t.tick = s.tick := congrArg Front.tick h
  have hc : t.cores = s.cores := congrArg Front.cores h
  have hd : t.dies = s.dies := congrArg Front.dies h
  unfold State.seats State.team State.die State.coreSt
  rw [ht, hk, hc, hd]

theorem team_of_seats {s t : State} {k : Nat} {x : Team} (h : t.seats = s.seats) (hx : s.team k = some x) :
    ∃ m, t.team k = some { x with mbox := m } := by
  have hk : (t.team k).map Team.noMail = some x.noMail :=
    (congrFun (congrArg Seats.team h) k).trans (congrArg (Option.map Team.noMail) hx)
  obtain ⟨y, hy, he⟩ := Option.map_eq_some_iff.1 hk
  refine ⟨y.mbox, hy.trans (congrArg some ?_)⟩
  calc y = { y.noMail with mbox := y.mbox } := rfl
    _ = { x with mbox := y.mbox } := by rw [he]; rfl

/-! ### Changes of one entry of a table -/

theorem setTeam_seats {s : State} {k : Nat} {f : Team → Team} (hf : ∀ x, (f x).noMail = x.noMail) :
    (s.setTeam k f).seats = s.seats := by
  have ht : (s.setTeam k f).seats.team = s.seats.team := funext fun j => by
    have e : (s.setTeam k f).team j = if j = k then (s.team k).map f else s.team j := setTeam_team ..
    simp only [State.seats, e]
    split
    · next h =>
      subst h
      cases s.team j <;> simp [hf]
    · rfl
  calc (s.setTeam k f).seats = { s.seats with team := (s.setTeam k f).seats.team } := rfl
    _ = s.seats := by rw [ht]

theorem setCore_seats {s : State} {k : Nat} {f : CoreSt → CoreSt} (hf : (f (s.coreSt k)).retired = (s.coreSt k).retired) :
    (s.setCore k f).seats = s.seats := by
  have hc : (s.setCore k f).seats.losses.core = s.seats.losses.core := funext fun j => by
    have e : (s.setCore k f).coreSt j = if j = k then f (s.coreSt k) else s.coreSt j := setCore_coreSt ..
    simp only [State.seats, e]
    split <;> simp [*]
  calc (s.setCore k f).seats =
      { s.seats with losses := { s.seats.losses with core := (s.setCore k f).seats.losses.core } } := rfl
    _ = s.seats := by rw [hc]

theorem setDie_seats {s : State} {k : Nat} {f : Die → Die} (hf : (f (s.die k)).lost = (s.die k).lost) :
    (s.setDie k f).seats = s.seats := by
  have hd : (s.setDie k f).seats.losses.die = s.seats.losses.die := funext fun j => by
    have e : (s.setDie k f).die j = if j = k then f (s.die k) else s.die j := setDie_die ..
    simp only [State.seats, e]
    split <;> simp [*]
  calc (s.setDie k f).seats =
      { s.seats with losses := { s.seats.losses with die := (s.setDie k f).seats.losses.die } } := rfl
    _ = s.seats := by rw [hd]

theorem modG_seats (s : State) (k : Nat) (f : Group → Group) : (s.modG k f).seats = s.seats := by
  unfold State.modG
  split <;> rfl

theorem setPois_seats (s : State) (b : Nat) (x : Bool) : (s.setPois b x).seats = s.seats := rfl

theorem setCtx_seats (s : State) (c x : Nat) (o : Option CopyCtx) : (s.setCtx c x o).seats = s.seats := rfl

theorem modBox_seats (s : State) (c x b : Nat) (f : CopyBox → CopyBox) : (s.modBox c x b f).seats = s.seats := rfl

theorem modCmd_seats (s : State) (c x i : Nat) (f : CopyCmd → CopyCmd) : (s.modCmd c x i f).seats = s.seats := rfl

theorem stb_seats (s : State) (a v x n y : Nat) : (s.stb a v x n y).seats = s.seats := rfl

theorem setTile_seats (s : State) (k : Nat) (f : Tile → Tile) : (s.setTile k f).seats = s.seats := rfl

theorem hbEdge_seats (s : State) (x y : Nat) : (s.hbEdge x y).seats = s.seats := seats_of_front (hbEdge_front ..)

theorem wrLoc_seats (s : State) (l : Loc) (n x : Nat) : (s.wrLoc l n x).seats = s.seats := seats_of_front (wrLoc_front ..)

theorem writeRec_seats (s : State) (t : Nat) (e : ErrRec) : (s.writeRec t e).seats = s.seats :=
  seats_of_front (writeRec_front ..)

theorem addReq_seats (s : State) (a v va : Nat) (k : AccKind) (h : Nat) (w : ReqWho) (st : ReqState) :
    (s.addReq a v va k h w st).seats = s.seats := seats_of_front (addReq_front ..)

/-! ### What waits on a block goes on (R240, R275, R284, R286, R312, R415) -/

theorem postDebug_seats (s : State) (tm e g c : Nat) (m : Word) : (s.postDebug tm e g c m).seats = s.seats :=
  setTeam_seats fun x => by
    split <;> exact noMail_mbox ..

theorem settleHalts_seats (s : State) (k : Nat) : (s.settleHalts k).seats = s.seats := by
  unfold State.settleHalts
  split
  · rfl
  · split
    · rfl
    · extract_lets live h t u v
      have hv : v.seats = s.seats := by
        unfold v
        split
        · exact modG_seats ..
        · exact (postDebug_seats ..).trans (modG_seats ..)
      split
      · exact hv
      · exact (postDebug_seats ..).trans hv

theorem wakeLanes_seats (s : State) (k : Nat) (m : Word) : (s.wakeLanes k m).seats = s.seats :=
  (settleHalts_seats ..).trans (modG_seats ..)

theorem handlerRead_front (s : State) (k : Nat) : (s.handlerRead k).1.front = s.front :=
  front_of_translated (handlerRead_translated ..) (handlerRead_stands ..)

theorem wakeWho_seats (s : State) (w : ReqWho) : (s.wakeWho w).seats = s.seats := by
  cases w with
  | lanes g m => exact wakeLanes_seats ..
  | handler g =>
    have h := seats_of_front (handlerRead_front s g)
    unfold State.wakeWho
    dsimp only
    generalize s.handlerRead g = r at h ⊢
    obtain ⟨u, _ | _⟩ := r <;> exact (modG_seats ..).trans h
  | _ => rfl

theorem dropReq_seats (s : State) (r : Req) : (s.dropReq r).seats = s.seats := by
  unfold State.dropReq
  dsimp only
  split <;> rfl

theorem wakeReq_seats (s : State) (r : Req) : (s.wakeReq r).seats = s.seats := (wakeWho_seats ..).trans (dropReq_seats ..)

theorem releaseBlk_seats (s : State) (b : Nat) : (s.releaseBlk b).seats = s.seats := by
  unfold State.releaseBlk
  dsimp only
  split
  · split
    · exact wakeWho_seats ..
    · rfl
  · exact foldl_same wakeReq_seats _ s

theorem breachDams_seats (s : State) (p : Dam → Bool) : (s.breachDams p).seats = s.seats := by
  unfold State.breachDams
  exact (foldl_same (v := State.seats) (fun _ _ => releaseBlk_seats ..) _ _).trans rfl

theorem leaveQueue_seats (s : State) (k : Nat) : (s.leaveQueue k).seats = s.seats := by
  refine foldl_same (fun u r => ?_) _ s
  dsimp only
  split
  · split
    · exact dropReq_seats ..
    · exact (releaseBlk_seats ..).trans (dropReq_seats ..)
  · exact dropReq_seats ..

theorem flushFar_seats (s : State) (k : Nat) : (s.flushFar k).seats = s.seats := rfl

theorem disown_seats (s : State) (p : Own → Bool) : (s.disown p).seats = s.seats := by
  unfold State.disown
  exact (foldl_same (v := State.seats) (fun _ _ => releaseBlk_seats ..) _ _).trans rfl

/-! ### A team stops for its save (R418) -/

/-- What stops a team before it is marked. -/
theorem saveStart_eq (s : State) (k : Nat) :
    ∃ u : State, u.seats = s.seats ∧ s.saveStart k = u.setTeam k (fun x => { x with busy := 1 }) := by
  refine ⟨_, ?_, rfl⟩
  exact (breachDams_seats ..).trans (foldl_same (v := State.seats)
    (fun u j => (flushFar_seats ..).trans ((leaveQueue_seats ..).trans (modG_seats ..))) _ s)

/-! ### What a save writes (R418 to R424) -/

theorem withReqs_seats (s : State) (rs : List Req) : ({ s with reqs := rs } : State).seats = s.seats := rfl

theorem withMemPois_seats (s : State) (m : Map Byte) (p : Map Bool) :
    ({ s with mem := m, pois := p } : State).seats = s.seats := rfl

theorem putFields_seats (s : State) (b : Nat) (fs : List (Nat × Nat × Nat)) : (s.putFields b fs).seats = s.seats :=
  foldl_same (v := State.seats) (fun u f => by split <;> rfl) fs s

theorem moveBytes_seats (s : State) (d l : Loc) (n : Nat) : (s.moveBytes d l n).seats = s.seats :=
  seats_of_front (wrBytesFrom_front ..)

theorem saveSpad_seats (s : State) (x : Team) (slot : Nat) : (s.saveSpad x slot).seats = s.seats :=
  (foldl_same (v := State.seats) (fun _ _ => setPois_seats ..) _ _).trans
    (foldl_same (v := State.seats) (fun _ _ => moveBytes_seats ..) _ s)

theorem loadSpad_seats (s : State) (x : Team) (slot : Nat) : (s.loadSpad x slot).seats = s.seats := by
  refine (foldl_same (v := State.seats) (fun u i => ?_) _ _).trans
    (foldl_same (v := State.seats) (fun _ _ => moveBytes_seats ..) _ s)
  split <;> rfl

theorem saveAcc_seats (s : State) (c b slot : Nat) : (s.saveAcc c b slot).seats = s.seats :=
  (foldl_same (v := State.seats) (fun _ _ => setPois_seats ..) _ _).trans
    (foldl_same (v := State.seats) (fun _ _ => moveBytes_seats ..) _ s)

/-- The accumulators of a team go to the slot as the shadow bank drains (R419). -/
theorem drainAcc_seats (s : State) (c b slot : Nat) :
    ((s.setCore c (fun y => { y with bank := 1 - b, draining := true })).saveAcc c b slot).seats = s.seats :=
  (saveAcc_seats ..).trans (setCore_seats rfl)

theorem loadAcc_seats (s : State) (c b slot : Nat) : (s.loadAcc c b slot).seats = s.seats :=
  (foldl_same (v := State.seats) (fun _ _ => setPois_seats ..) _ _).trans
    (foldl_same (v := State.seats) (fun _ _ => moveBytes_seats ..) _ s)

theorem saveRegs_seats (s : State) (g : Group) (slot : Nat) : (s.saveRegs g slot).seats = s.seats :=
  foldl_same (v := State.seats) (fun _ _ => wrLoc_seats ..) _ s

theorem loadRegs_seats (s : State) (k : Nat) (g : Group) (slot : Nat) : (s.loadRegs k g slot).seats = s.seats :=
  modG_seats ..

theorem giveRows_seats (s : State) (k : Nat) : (s.giveRows k).seats = s.seats := by
  unfold State.giveRows
  split
  · rfl
  · split <;> rfl

theorem saveGroup_seats (s : State) (slot k : Nat) : (s.saveGroup slot k).seats = s.seats := by
  unfold State.saveGroup
  split
  · rfl
  · extract_lets cyc u v
    have hv : v.seats = s.seats := (withReqs_seats ..).trans <| (saveRegs_seats ..).trans (putFields_seats ..)
    exact (modG_seats ..).trans ((hbEdge_seats ..).trans ((giveRows_seats ..).trans hv))

theorem nowAt_front (s : State) (k : AccKind) (a v va : Nat) : (s.nowAt k a v va).1.front = s.front := by
  unfold State.nowAt
  split
  · exact locate_front ..
  · split <;> rfl

theorem setRsw_front (s : State) (a v e : Nat) (f : Nat → Nat) : (s.setRsw a v e f).front = s.front := by
  have h := nowAt_front s .store a v (e + 16)
  unfold State.setRsw
  generalize s.nowAt .store a v (e + 16) = r at h ⊢
  obtain ⟨u, l | _ | _⟩ := r
  · cases l with
    | home b w x => exact (seeHome_front ..).trans ((touchHome_front ..).trans ((wrLoc_front ..).trans h))
    | _ => exact h
  · exact h
  · exact h

theorem recordRFault_seats (s : State) (k : Nat) (f : RFault) : (s.recordRFault k f).seats = s.seats := by
  unfold State.recordRFault
  split
  · rfl
  · exact seats_of_front ((setRsw_front ..).trans (writeRec_front ..))

theorem bumpEpoch_seats (s : State) (d : Nat) : (s.bumpEpoch d).seats = s.seats := setDie_seats rfl

/-- The copy contexts of a team go with it; nothing else of the team changes. -/
theorem pauseCtxs_eq (s : State) (t core : Nat) :
    ∃ (u : State) (i : List CopyCtx), u.seats = s.seats ∧
      s.pauseCtxs t core = u.setTeam t (fun x => { x with imgs := i }) := by
  unfold State.pauseCtxs
  extract_lets mine ids imgs s1 s2 s3 num s4
  refine ⟨s4, imgs, ?_, rfl⟩
  have h1 : s1.seats = s.seats := disown_seats ..
  have h3 : s3.seats = s.seats :=
    (foldl_same (v := State.seats) (fun _ _ => (setCtx_seats ..).trans (hbEdge_seats ..)) mine s2).trans h1
  exact (foldl_same (v := State.seats) (fun _ _ => modG_seats ..) _ s3).trans h3

theorem setTeam_tile (s : State) (k q : Nat) (f : Team → Team) : (s.setTeam k f).tile q = s.tile q := rfl

theorem team_pause_bump {s : State} {t : Nat} {x : Team} {m : DWord} (core d : Nat) (hx : s.team t = some { x with mbox := m }) :
    ∃ m' i, ((s.pauseCtxs t core).bumpEpoch d).team t = some { x with mbox := m', imgs := i } := by
  obtain ⟨u, i, hu, hp⟩ := pauseCtxs_eq s t core
  obtain ⟨m', hm⟩ := team_of_seats hu hx
  rw [hp]
  exact ⟨m', i, (setTeam_team ..).trans ((if_pos rfl).trans (congrArg (Option.map _) hm))⟩

/-- A running team's context goes to the first free slot of its tile, and the team leaves its core. -/
theorem saveTeam_eq {s : State} {t j : Nat} {js : List Nat} {x : Team} (hx : s.team t = some x) (hr : x.running = true)
    (hf : (s.tile (x.core / 128)).freeSlots = j :: js) :
    ∃ y, (s.saveTeam t).team t = some y ∧ y.place = .saved (x.core / 128) j ∧ y.busy = 0 ∧ y.pieces = [] ∧
      mapGet 0 ((s.saveTeam t).tile (x.core / 128)).slots j = t := by
  generalize hu : s.saveTeam t = u
  unfold State.saveTeam at hu
  split at hu
  · next hn => exact absurd (hx.symm.trans hn) (by simp)
  next x' hx' =>
  obtain rfl : x = x' := Option.some.inj (hx.symm.trans hx')
  extract_lets core tile at hu
  split at hu
  · next hn => exact absurd (hf.symm.trans hn) (by simp)
  next e0 c0 s1 _ k ks hk =>
  obtain ⟨rfl, rfl⟩ : j = k ∧ js = ks := List.cons.inj (hf.symm.trans hk)
  extract_lets slot s2 s3 s4 mtx bank pb s5 s6 s7 s8 s9 at hu
  have h1 : s1.seats = s.seats := foldl_same (v := State.seats) (fun _ _ => recordRFault_seats ..) _ s
  have h2 : s2.seats = s1.seats := withMemPois_seats ..
  have h3 : s3.seats = s.seats := (putFields_seats ..).trans (h2.trans h1)
  have h4 : ∃ m i, s4.team t = some { x with mbox := m, imgs := i } := by
    obtain ⟨m, hm⟩ := team_of_seats h3 hx
    exact team_pause_bump core (core / 32) hm
  clear_value s4
  have h5 : s5.seats = s4.seats := by
    unfold s5
    split
    · exact drainAcc_seats ..
    · rfl
  clear_value s5
  have h6 : s6.seats = s4.seats := (saveSpad_seats ..).trans h5
  clear_value s6
  have h7 : s7.seats = s4.seats := (foldl_same (v := State.seats) (fun _ _ => saveGroup_seats ..) _ s6).trans h6
  clear_value s7
  have h8 : s8.seats = s4.seats := (stb_seats ..).trans ((stb_seats ..).trans h7)
  clear_value s8
  have h9 : s9.seats = s4.seats := (setTile_seats ..).trans h8
  have hslot : (s9.tile tile).slots = mapSet 0 (s8.tile tile).slots j t := by
    simp only [s9, setTile_tile, if_true]
  have hs (f : Team → Team) : mapGet 0 ((s9.setTeam t f).tile tile).slots j = t := by
    rw [setTeam_tile, hslot, mapGet_mapSet, if_pos rfl]
  clear_value s9
  subst hu
  obtain ⟨m, i, hm⟩ := h4
  obtain ⟨m', hm'⟩ := team_of_seats h9 hm
  refine ⟨_, (setTeam_team ..).trans ((if_pos rfl).trans (congrArg (Option.map _) hm')), ?_⟩
  have hrun : ({ x with mbox := m', imgs := i } : Team).running = true := hr
  dsimp only
  rw [if_pos hrun]
  exact ⟨rfl, rfl, rfl, hs _⟩

/-! ### A saved team is read back (R427 to R429) -/

theorem setSlotState_seats (s : State) (slot x : Nat) : (s.setSlotState slot x).seats = s.seats := rfl

theorem takePieces_seats (s : State) (c n : Nat) : (s.takePieces c n).1.seats = s.seats := rfl

theorem dropRows_seats (s : State) (c r n : Nat) : (s.dropRows c r n).seats = s.seats := rfl

theorem takeRows_seats (s : State) (c n : Nat) : (s.takeRows c n).1.seats = s.seats := by
  unfold State.takeRows
  dsimp only
  split
  · rfl
  · exact (dropRows_seats ..).trans
      (foldl_same (v := fun a : State × Nat => a.1.seats) (fun _ _ => (modG_seats ..).trans (dropRows_seats ..)) _ (s, 0))

theorem placeGroup_seats (s : State) (core slot k : Nat) : (s.placeGroup core slot k).seats = s.seats := by
  unfold State.placeGroup
  split
  · rfl
  · next g _ =>
    have h := takeRows_seats s core g.regsN
    generalize s.takeRows core g.regsN = r at h ⊢
    exact (loadRegs_seats ..).trans ((modG_seats ..).trans h)

theorem withCodebook_seats (s : State) (b : Map (BitVec 16)) (q : Map (List CbCmd)) :
    ({ s with codebook := b, cbq := q } : State).seats = s.seats := rfl

/-- The codebook of core `c` read back (R427). -/
theorem setCodebook_seats (s : State) (b : Map (BitVec 16)) (q : Map (List CbCmd)) (c g : Nat) (a : Nat) (p : BitVec 2) :
    (({ s with codebook := b, cbq := q } : State).setCore c (fun y => { y with cbgen := g, act := a, cbPois := p })).seats =
      s.seats :=
  (setCore_seats rfl).trans (withCodebook_seats ..)

/-- A saved team stands on the core it is given, and waits there for its acquire. -/
theorem restoreTeam_eq {s : State} {k tl j : Nat} {x : Team} (c : Nat) (hx : s.team k = some x) (hp : x.place = .saved tl j) :
    ∃ y, (s.restoreTeam k c).team k = some y ∧ y.place = .resident c ∧ y.busy = 2 ∧ y.lin = x.lin := by
  have hslot : s.slotOf k = some (tl, j, (s.tile tl).slotVa j) := by simp [State.slotOf, hx, hp]
  have hrun : x.running = true := by simp [Team.running, hp]
  generalize hu : s.restoreTeam k c = u
  unfold State.restoreTeam at hu
  split at hu
  · next x' _ _ slot hx' _ =>
    obtain rfl : x = x' := Option.some.inj (hx.symm.trans hx')
    extract_lets s1 at hu
    split at hu
    next home _ s2 ps hr =>
    extract_lets y s3 s4 n s4a cb s5 at hu
    have h1 : s2.seats = s.seats :=
      (congrArg (fun r : State × List Nat => r.1.seats) hr).symm.trans ((takePieces_seats ..).trans (setSlotState_seats ..))
    obtain ⟨m, hm⟩ := team_of_seats h1 hx
    have h3 : s3.team k = _ := (setTeam_team ..).trans ((if_pos rfl).trans (congrArg (Option.map _) hm))
    clear_value s3
    have h4 : s4.seats = s3.seats := loadSpad_seats ..
    clear_value s4
    have h5 : s5.seats = s3.seats := by
      unfold s5
      split
      · exact (setCodebook_seats ..).trans ((loadAcc_seats ..).trans h4)
      · exact h4
    clear_value s5
    subst hu
    have h6 := (foldl_same (v := State.seats) (fun u i => placeGroup_seats u c slot i) ((s5.teamGroups k).map (·.1)) s5).trans h5
    obtain ⟨m', hm'⟩ := team_of_seats h6 h3
    exact ⟨_, hm', if_pos hrun, rfl, rfl⟩
  · next hno => exact (hno _ _ _ _ hx hslot).elim

/-! ### The copies of a resumed team restart (R275, R427) -/

theorem l1DropAll_seats (s : State) (c : Nat) : (s.l1DropAll c).seats = s.seats := by
  unfold State.l1DropAll
  dsimp only
  split
  · exact setDie_seats rfl
  · rfl

theorem mergeClock_seats (s : State) (c d : Nat) (v : Map Nat) (g : Option Nat) : (s.mergeClock c d v g).seats = s.seats := by
  unfold State.mergeClock
  extract_lets k above u1 u2
  have h1 : u1.seats = s.seats := by
    unfold u1
    split
    · exact l1DropAll_seats ..
    · split
      · exact l1DropAll_seats ..
      · rfl
  have h2 : u2.seats = s.seats := (setCore_seats rfl).trans h1
  split
  · exact (setDie_seats rfl).trans h2
  · exact h2

theorem engPart_front (s : State) (e : Eng) (k : AccKind) (b : Bool) (va n : Nat) : (s.engPart e k b va n).1.front = s.front := by
  unfold State.engPart
  extract_lets h wait held find own w
  have hheld : ∀ u l, (held u l).1 = u := fun u l => by
    unfold held
    split <;> rfl
  have hfind : ∀ u, (find u).1.front = u.front := fun u => by
    have hl := locate_front u k b e.asid 0 va
    unfold find
    generalize u.locate k b e.asid 0 va = r at hl ⊢
    obtain ⟨v, l | _ | _⟩ := r
    · have hc := (countNow_front v ((v.team e.team).map Team.grid) e.asid va).trans hl
      cases l with
      | peer d x o =>
        have hp := (peerTry_front (v.countNow ((v.team e.team).map Team.grid) e.asid va) k e.asid 0 va).trans hc
        dsimp only
        generalize (v.countNow ((v.team e.team).map Team.grid) e.asid va).peerTry k e.asid 0 va = q at hp ⊢
        obtain ⟨x, _ | _ | _⟩ := q <;> exact hp
      | _ => exact (congrArg State.front (hheld ..)).trans hc
    · exact hl
    · exact hl
  refine front_ite rfl (front_ite rfl (front_ite ?_ (front_ite (hfind s) ?_)))
  · split
    · rfl
    · exact congrArg State.front (hheld ..)
  · refine front_ite rfl (front_ite (hfind s) (front_ite rfl ?_))
    have hv := viewFill_front s e.asid w va
    generalize s.viewFill e.asid w va = r at hv ⊢
    obtain ⟨u, _ | _ | _⟩ := r
    · exact (congrArg State.front (hheld ..)).trans hv
    · exact hv
    · exact hv

theorem engParts_front (s : State) (e : Eng) (k : AccKind) (b : Bool) (va n : Nat) :
    (s.engParts e k b va n).1.front = s.front := by
  refine foldl_same (v := fun a : State × Except EngStop (List Piece) => a.1.front) (fun a p => ?_) _ (s, .ok [])
  obtain ⟨u, _ | ps⟩ := a
  · rfl
  · have h := engPart_front u e k b p.1 p.2
    dsimp only
    generalize u.engPart e k b p.1 p.2 = r at h ⊢
    obtain ⟨w, _ | _⟩ := r <;> exact h

theorem rowDouble_front (s : State) (e : Eng) (q : CopyCmd) (va : Nat) : (s.rowDouble e q va).1.front = s.front := by
  unfold State.rowDouble
  split
  · rfl
  · have h := engParts_front s e .engineLoad false va 8
    dsimp only
    generalize s.engParts e .engineLoad false va 8 = r at h ⊢
    obtain ⟨u, x | ps⟩ := r
    · cases x <;> exact h
    · exact h

theorem rowInfo_front (s : State) (e : Eng) (q : CopyCmd) (l : Layout) (r : Nat) : (s.rowInfo e q l r).1.front = s.front := by
  unfold State.rowInfo
  refine front_ite rfl ?_
  have h := rowDouble_front s e q (l.rowoff + 8 * r)
  generalize s.rowDouble e q (l.rowoff + 8 * r) = x at h ⊢
  obtain ⟨u, p, _ | _ | a⟩ := x
  · exact h
  · exact h
  · have h' := (rowDouble_front u e p (l.rowoff + 8 * r + 8)).trans h
    dsimp only
    generalize u.rowDouble e p (l.rowoff + 8 * r + 8) = y at h' ⊢
    obtain ⟨w, _, _ | _ | _⟩ := y <;> exact h'

theorem boxBlocks_front (s : State) (e : Eng) (q : CopyCmd) (l : Layout) (b : CopyBox) :
    (s.boxBlocks e q l b).1.front = s.front := by
  refine foldl_same (v := fun a : State × CopyCmd × Except (Nat × EngStop) (Except Nat (Map Nat)) => a.1.front)
    (fun a i => ?_) _ (s, q, .ok (.ok []))
  obtain ⟨u, p, _ | _ | m⟩ := a
  · rfl
  · rfl
  · have h := rowInfo_front u e p l (b.dr + i)
    dsimp only
    generalize u.rowInfo e p l (b.dr + i) = r at h ⊢
    obtain ⟨w, _, _ | _ | _ | _⟩ := r <;> exact h

theorem engWait_seats (s : State) (core x b what at_ : Nat) (st : EngStop) :
    (s.engWait core x b what at_ st).seats = s.seats := by
  cases st with
  | wait => exact (addReq_seats ..).trans (modBox_seats ..)
  | fault => rfl

theorem boxSkip_seats (s : State) (core x id i o : Nat) (w : Bool) : (s.boxSkip core x id i o w).seats = s.seats :=
  (modBox_seats ..).trans (disown_seats ..)

theorem skipFault_seats (s : State) (core x id i o : Nat) (f : CopyFault) : (s.skipFault core x id i o f).seats = s.seats := by
  unfold State.skipFault
  split
  · rfl
  · split
    · exact (foldl_same (v := State.seats) (fun _ _ => boxSkip_seats ..) _ _).trans (modCmd_seats ..)
    · exact boxSkip_seats ..

theorem copyFault_seats (s : State) (core x id i : Nat) (f : CopyFault) : (s.copyFault core x id i f).seats = s.seats := by
  unfold State.copyFault
  split
  · rfl
  · dsimp only
    split
    · split
      · exact modCmd_seats ..
      · exact modBox_seats ..
    · exact (skipFault_seats ..).trans (writeRec_seats ..)

theorem requestBox_seats (s : State) (e : Eng) (x : Nat) (q : CopyCmd) (i : Nat) : (s.requestBox e x q i).1.seats = s.seats := by
  unfold State.requestBox
  split
  · rfl
  next b _ =>
  split
  · rfl
  next r _ =>
  split
  · rfl
  have h := seats_of_front (boxBlocks_front s e q (Layout.ofNat r) b)
  dsimp only
  generalize s.boxBlocks e q (Layout.ofNat r) b = y at h ⊢
  obtain ⟨u, p, _ | k | m⟩ := y
  · exact (engWait_seats ..).trans ((modCmd_seats ..).trans h)
  · exact (copyFault_seats ..).trans ((modCmd_seats ..).trans h)
  · dsimp only
    refine (foldl_same (v := State.seats) ?_ m _).trans ((modBox_seats ..).trans ((modCmd_seats ..).trans h))
    exact fun _ _ => rfl

theorem reownFaulted_seats (s : State) (core x : Nat) (c : CopyCtx) (q : CopyCmd) (i : Nat) :
    (s.reownFaulted core x c q i).seats = s.seats := by
  unfold State.reownFaulted
  split
  · split
    · exact (modBox_seats ..).trans ((requestBox_seats ..).trans (modBox_seats ..))
    · rfl
  · rfl

theorem hbFresh_seats (s : State) (a : Nat) : (s.hbFresh a).seats = s.seats := rfl

/-- The contexts that went with a team come back to free contexts of its core; nothing else of the team changes. -/
theorem resumeCtxs_eq {s : State} {t : Nat} {x : Team} (core : Nat) (hx : s.team t = some x) :
    ∃ u : State, u.seats = s.seats ∧ s.resumeCtxs t core = u.setTeam t (fun x => { x with imgs := [] }) := by
  unfold State.resumeCtxs
  split
  · next hn => exact absurd (hx.symm.trans hn) (by simp)
  · extract_lets slots pairs s1 num s2 s3
    have h1 : s1.seats = s.seats := foldl_same (v := State.seats)
      (fun u p => (hbEdge_seats ..).trans ((hbFresh_seats ..).trans (setCtx_seats ..))) pairs s
    have h2 : s2.seats = s.seats := (foldl_same (v := State.seats) (fun _ _ => modG_seats ..) _ s1).trans h1
    refine ⟨s3, ?_, rfl⟩
    refine (foldl_same (v := State.seats) (fun u p => ?_) pairs s2).trans h2
    exact foldl_same (v := State.seats) (fun v q => foldl_same (v := State.seats) (fun w i => reownFaulted_seats ..) _ v) _ u

/-! ### A resumed team issues (R427, R428) -/

theorem wakeGroup_seats (s : State) (k : Nat) : (s.wakeGroup k).seats = s.seats :=
  (hbEdge_seats ..).trans ((settleHalts_seats ..).trans ((modG_seats ..).trans (modG_seats ..)))

theorem tick_of_seats {s t : State} (h : t.seats = s.seats) : t.tick = s.tick := congrArg Seats.tick h

theorem setTeam_tick (s : State) (k : Nat) (f : Team → Team) : (s.setTeam k f).tick = s.tick := rfl

/-- A team that has made its acquire issues again, on no slot and with no copy away. -/
theorem resumeTeam_eq {s : State} {k : Nat} {x : Team} (hx : s.team k = some x) :
    ∃ y, (s.resumeTeam k).team k = some y ∧ y.busy = 0 ∧ y.dest = none ∧ y.imgs = [] ∧ y.placedAt = s.tick := by
  generalize hu : s.resumeTeam k = u
  unfold State.resumeTeam at hu
  split at hu
  · next hn => exact absurd (hx.symm.trans hn) (by simp)
  next x' hx' =>
  obtain rfl : x = x' := Option.some.inj (hx.symm.trans hx')
  split at hu
  next tl j _ =>
  extract_lets slot s1 s2 s3 s4 at hu
  have h1 : s1.seats = s.seats := mergeClock_seats ..
  obtain ⟨m, hm⟩ := team_of_seats h1 hx
  obtain ⟨v, hv, he⟩ := resumeCtxs_eq x.core hm
  obtain ⟨m', hm'⟩ := team_of_seats hv hm
  have h2 : s2.seats = (v.setTeam k (fun x => { x with imgs := [] })).seats := (stb_seats ..).trans (congrArg State.seats he)
  have h2t : (v.setTeam k (fun x => { x with imgs := [] })).team k = some { x with mbox := m', imgs := [] } :=
    (setTeam_team ..).trans ((if_pos rfl).trans (congrArg (Option.map _) hm'))
  have h4 : s4.fresh.1.seats = (v.setTeam k (fun x => { x with imgs := [] })).seats :=
    (foldl_same (v := State.seats) wakeGroup_seats _ s3).trans ((setTile_seats ..).trans h2)
  have htick : s4.fresh.1.tick = s.tick := (tick_of_seats h4).trans ((setTeam_tick ..).trans (tick_of_seats (hv.trans h1)))
  obtain ⟨m'', hm''⟩ := team_of_seats h4 h2t
  subst hu
  exact ⟨_, (setTeam_team ..).trans ((if_pos rfl).trans (congrArg (Option.map _) hm'')), rfl, rfl, rfl, htick⟩

/-! ### A gang stops, is saved, is read back and issues (R157, R418, R427, R431) -/

/-- A stop marks the team that it stops, and keeps the mark of every other. -/
theorem saveStart_busy {s : State} {j k : Nat} {x : Team} (hx : s.team k = some x) (h : x.busy = 1 ∨ k = j) :
    ((s.saveStart j).team k).map Team.busy = some 1 := by
  obtain ⟨u, hu, he⟩ := saveStart_eq s j
  obtain ⟨m, hm⟩ := team_of_seats hu hx
  rw [he, setTeam_team]
  split
  · next e =>
    rw [← e, hm]
    rfl
  · next e =>
    rw [hm]
    exact congrArg some (h.resolve_right e)

theorem saveStart_team {s : State} {j k : Nat} {x : Team} (hx : s.team k = some x) : ∃ y, (s.saveStart j).team k = some y := by
  obtain ⟨u, hu, he⟩ := saveStart_eq s j
  obtain ⟨m, hm⟩ := team_of_seats hu hx
  rw [he, setTeam_team]
  split
  · next e => exact ⟨_, by rw [← e, hm]; rfl⟩
  · exact ⟨_, hm⟩

/-- Every team of a list is marked once all have been stopped. -/
theorem saveStarts_busy (ks : List Nat) : ∀ {s : State} {k : Nat} {x : Team}, s.team k = some x → x.busy = 1 ∨ k ∈ ks →
    ((ks.foldl State.saveStart s).team k).map Team.busy = some 1 := by
  induction ks with
  | nil =>
    intro s k x hx h
    rw [List.foldl_nil, hx]
    exact congrArg some (h.resolve_right List.not_mem_nil)
  | cons j js ih =>
    intro s k x hx h
    obtain ⟨y, hy⟩ := saveStart_team (j := j) hx
    refine ih (s := s.saveStart j) hy ?_
    by_cases hj : x.busy = 1 ∨ k = j
    · have hb := saveStart_busy hx hj
      rw [hy] at hb
      exact .inl (Option.some.inj hb)
    · rcases h with h | h
      · exact absurd (.inl h) hj
      · exact .inr ((List.mem_cons.1 h).resolve_left fun e => hj (.inr e))

theorem execTeamSave_starts {k : Nat} {x : Team} {s : State} (hx : s.team k = some x) (hb : x.busy = 0)
    (ha : s.available (s.gangOf k) = true) (hg : s.gangOf k = [k]) : execTeamSave k s = .next (s.saveStart k) := by
  rw [hg] at ha
  simp [execTeamSave, hx, hb, hg, ha]

theorem execTeamSave_saves {k : Nat} {x : Team} {s : State} (hx : s.team k = some x) (hb : x.busy = 1) (hg : s.gangOf k = [k])
    (hgr : (s.gridOf x).map (fun g => g.status != 0 || g.wantReplay) = some false) (hr : s.saveReady k = true) :
    execTeamSave k s = .next (s.saveTeam k) := by
  simp [execTeamSave, hx, hb, hg, hgr, hr]

theorem execTeamResume_restores {k gr c : Nat} {x : Team} {s : State} (hx : s.team k = some x) (hb : x.busy = 0)
    (hs : s.schedule = some (.resume gr [k] [c])) (hbad : s.slotBad k = false) :
    execTeamResume k s = .next (s.restoreTeam k c) := by
  simp [execTeamResume, hx, hb, hs, hbad]

theorem execTeamResume_acquires {k : Nat} {x : Team} {s : State} (hx : s.team k = some x) (hb : x.busy = 2)
    (hg : (s.gangOf k).filter (fun j => ((s.team j).map (fun y => y.busy == 2)).getD false) = [k]) :
    execTeamResume k s = .next (if s.resumeReady k then s.resumeTeam k else s) := by
  simp [execTeamResume, hx, hb, hg]

theorem execGangMapChange_stops {gr gg : Nat} {g : Grid} {ks : List Nat} {s : State} (hg : s.grid gr = some g)
    (h1 : g.gangSize ≠ 1) (hne : ks ≠ [])
    (hks : (s.teamsOf gr).filter (fun k => ((s.team k).map (fun x => x.lin / g.gangSize == gg)).getD false) = ks)
    (ha : s.available ks = true) : execGangMapChange gr gg s = .next (ks.foldl State.saveStart s) := by
  simp [execGangMapChange, hg, h1, hks, hne, ha]

/-! ### A save area becomes ready (R420) -/

theorem execCtxAreaReady_ready {k : Nat} {s : State} (hn : 32 * ctxSlots (s.tile k).ctxBase ≠ 0)
    (hp : ∃ p ∈ s.pins, p.by_ = PinBy.ctxArea k ∧ p.first = ctxAreaBase (s.tile k).ctxBase / 2 ^ 16 ∧
      p.count = 32 * ctxSlots (s.tile k).ctxBase)
    (h : ∀ i, i < 32 * ctxSlots (s.tile k).ctxBase → s.regionReady (ctxAreaBase (s.tile k).ctxBase / 2 ^ 16 + i) = true) :
    execCtxAreaReady k s = .next (s.setTile k (fun x => { x with ctxReady := true })) := by
  obtain ⟨p, hm, hby, hf, hc⟩ := hp
  refine if_pos ?_
  simp only [Bool.and_eq_true, List.any_eq_true, List.all_eq_true, List.mem_range, beq_iff_eq, bne_iff_ne]
  exact ⟨⟨⟨p, hm, ⟨hby, hf⟩, hc⟩, hn⟩, h⟩

theorem execCtxAreaReady_waits {k : Nat} {s : State} (h : ∃ i, i < 32 * ctxSlots (s.tile k).ctxBase ∧
    s.regionReady (ctxAreaBase (s.tile k).ctxBase / 2 ^ 16 + i) = false) : execCtxAreaReady k s = .next s := by
  obtain ⟨i, hi, hr⟩ := h
  refine if_neg fun hc => ?_
  simp only [Bool.and_eq_true, List.all_eq_true, List.mem_range] at hc
  exact absurd ((hc.2 i hi).symm.trans hr) (by simp)

/-! ### A view tag is freed (R432) -/

theorem execViewTagFree_frees {a w : Nat} {s : State} (hd : (s.tag a w).state = .draining)
    (hc : ∀ c ∈ s.contribs, ¬ (c.asid = a ∧ c.view = w))
    (hx : ∀ e ∈ s.ctxs, ∀ c, e.2 = some c → ∀ q ∈ c.cmds, ¬ (q.asid = a ∧ q.view = w)) :
    execViewTagFree a w s = .next ((s.discardView a w).setTag a w (fun _ => ViewTag.reset)) := by
  refine if_neg fun hb => ?_
  simp only [hd, Bool.or_eq_true, List.any_eq_true, bne_self_eq_false, Bool.false_eq_true, false_or, Bool.and_eq_true,
    beq_iff_eq] at hb
  rcases hb with ⟨c, hm, h⟩ | ⟨e, hm, h⟩
  · exact hc c hm h
  · split at h
    · next c he =>
      simp only [List.any_eq_true, Bool.and_eq_true, beq_iff_eq] at h
      obtain ⟨q, hq, hq'⟩ := h
      exact hx e hm c he q hq hq'
    · exact absurd h (by simp)

theorem execViewTagFree_busy {a w : Nat} {s : State} (hc : ∃ c ∈ s.contribs, c.asid = a ∧ c.view = w) :
    execViewTagFree a w s = .next s := by
  obtain ⟨c, hm, h⟩ := hc
  refine if_pos ?_
  simp only [Bool.or_eq_true, List.any_eq_true, Bool.and_eq_true, beq_iff_eq]
  exact .inr (.inl ⟨c, hm, h⟩)

theorem setTag_tag (s : State) (a w : Nat) (f : ViewTag → ViewTag) : (s.setTag a w f).tag a w = f (s.tag a w) := by
  simp [State.setTag, State.tag, mapMod]

/-! ### A grid starts again (R455) -/

/-- A record that asks for neither replay nor a reduced feature runs again under the windows that its grid has. -/
theorem runAgain_same {s : State} {gr : Nat} {g : Grid} (hg : s.grid gr = some g) (hr : recordReason g.record = none)
    (hc : bitsOf (recField g.record 0 4) 8 2 = 0) :
    (s.runAgain gr g g.record none false).grid gr =
      some { g.again g.record none with windows := g.windows, tableDue := false } := by
  have h8 : bitsOf (recField g.record 0 4) 8 1 = 0 := by unfold bitsOf at hc ⊢; omega
  have h9 : bitsOf (recField g.record 0 4) 9 1 = 0 := by unfold bitsOf at hc ⊢; omega
  have hrep : (g.again g.record none).isReplay = false := by
    simp only [Grid.isReplay, Grid.ctrl]
    exact beq_eq_false_iff_ne.2 fun h => by simp [Grid.again, Grid.new, h8] at h
  have hrep' : g.isReplay = false := by simp [Grid.isReplay, Grid.ctrl, h8]
  have hgrid : (s.setGrid gr (fun _ => g.again g.record none)).grid gr = some (g.again g.record none) := by
    rw [setGrid_grid, if_pos rfl, hg]
    rfl
  have hset : ((s.setGrid gr (fun _ => g.again g.record none)).setGrid gr
      (fun x => { x with windows := g.windows, tableDue := false })).grid gr =
      some { g.again g.record none with windows := g.windows, tableDue := false } := by
    rw [setGrid_grid, if_pos rfl, hgrid]
    rfl
  have h9' : bitsOf (recField (g.again g.record none).record 0 4) 9 1 = 0 := h9
  have hdone : (s.setGrid gr (fun _ => g.again g.record none)).tableDone gr g.windows =
      (s.setGrid gr (fun _ => g.again g.record none)).setGrid gr
        (fun x => { x with windows := g.windows, tableDue := false }) := by
    simp only [State.tableDone, hgrid, hrep, h9', takeTag_of_notReplay hset hrep]
    simp
  have hagain : s.runAgain gr g g.record none false =
      (s.setGrid gr (fun _ => g.again g.record none)).tableDone gr g.windows := by
    simp [State.runAgain, hr, hrep, hrep', Grid.field]
  rw [hagain, hdone, hset]

theorem execReplayRestart_teamless {gr : Nat} {g : Grid} {s : State} (hg : s.grid gr = some g) (hw : g.wantReplay = true)
    (hd : g.done = false) (h0 : g.status = 0) (hcw : s.completionWaits gr = false) (hrw : s.replayWaits gr = false)
    (hq : g.queue = none) (hv : g.view = 0) (ht : s.teams = []) :
    execReplayRestart gr s = .next (s.runAgain gr g g.record none false) := by
  have hof : s.teamsOf gr = [] := by simp [State.teamsOf, ht]
  have hsame : ({ s with teams := [] } : State) = s := congrArg (fun ts => ({ s with teams := ts } : State)) ht.symm
  unfold execReplayRestart
  rw [hg]
  simpa [hw, hd, h0, hcw, hrw, hq, hv, hof, ht, State.childless]
    using congrArg (fun u : State => u.runAgain gr g g.record none false) hsame

/-! ### A base tile is lost (R466) -/

theorem mem_of_mapGet {α : Type} {d v : α} {q : Nat} : ∀ {m : Map α}, mapGet d m q = v → v ≠ d → (q, v) ∈ m
  | [], h, hv => absurd h.symm hv
  | (k, y) :: m, h, hv => by
    rw [mapGet] at h
    split at h
    · next e =>
      subst e h
      exact List.mem_cons_self
    · exact List.mem_cons_of_mem _ (mem_of_mapGet h hv)

theorem stopBase_halts {s : State} {u : Nat} {g : Group} (h : (s.stopBase u).getG u = some g) : g.lane 0 = .halted := by
  rw [State.stopBase, getG_modG, if_pos rfl] at h
  obtain ⟨x, _, rfl⟩ := Option.map_eq_some_iff.1 h
  exact (setLane_lane x 0 0 .halted).trans (if_pos rfl)

theorem stopBase_other {s : State} {u v : Nat} (h : v ≠ u) : (s.stopBase u).getG v = s.getG v := by
  rw [State.stopBase, getG_modG, if_neg h]

theorem modG_tile (s : State) (k q : Nat) (f : Group → Group) : (s.modG k f).tile q = s.tile q := by simp [State.tile]

/-- Where every grid is over, the loss of a tile decides none. -/
theorem execBaseTileLoss_over {k : Nat} {s : State} (hk : k < 8) (hl : (s.tile k).lost = false)
    (hd : ∀ e ∈ s.grids, ∀ g, e.2 = some g → g.done = true) :
    ∃ u : State, (u.tile k).lost = true ∧
      execBaseTileLoss k s = .next ((((u.stopBase k).stopBase (8 + k)).fatal).due (.teamRetire 0)) := by
  have hlost : ((s.setTile k (fun x => { x with lost := true })).tile k).lost = true := by simp
  have hkeep : ∀ js : List Nat, js.foldl (fun s j => match s.grid j with
      | some g => if g.done then s else (s.teamsOf j).foldl (fun s t => s.failOne t 4) (s.decideGrid j 4 0)
      | none => s) (s.setTile k (fun x => { x with lost := true })) = s.setTile k (fun x => { x with lost := true }) := by
    intro js
    induction js with
    | nil => rfl
    | cons j js ih =>
      rw [List.foldl_cons]
      split
      · next g hg => rw [if_pos (hd (j, some g) (mem_of_mapGet hg (by simp)) g rfl)]; exact ih
      · exact ih
  unfold execBaseTileLoss
  rw [if_neg (by simp [hl]; omega)]
  refine ⟨_, ?_, rfl⟩
  refine (congrArg (fun f : Front => f.tileLost k) (foldl_same (v := State.front) (fun _ _ => writeRec_front ..) _ _)).trans ?_
  exact (congrArg (fun u : State => (u.tile k).lost) (hkeep _)).trans hlost

/-! ### What a store or a fence that ends leaves alone (R265, R267, R448, R449) -/

theorem focusOn_seats (s : State) (k : Nat) : (s.focusOn k).seats = s.seats := by
  unfold State.focusOn
  split
  · rfl
  · split <;> rfl

theorem asGroup_seats (s : State) (k : Nat) {f : State → State} (hf : ∀ u, (f u).seats = u.seats) :
    (s.asGroup k f).seats = s.seats :=
  (focusOn_seats ..).trans ((hf _).trans (focusOn_seats ..))

theorem setG_seats (s : State) (f : Group → Group) : (s.setG f).seats = s.seats := rfl

theorem fenceEnd_seats (s : State) : s.fenceEnd.seats = s.seats := by
  have h := l1DropAll_seats s s.core
  unfold State.fenceEnd State.mergeKnown
  split
  · exact (setCore_seats rfl).trans h
  · exact h

theorem leaveEnd_seats (s : State) (k : Nat) : (s.leaveEnd k).seats = s.seats := by
  unfold State.leaveEnd
  split
  · rfl
  · split
    · dsimp only
      split
      · rfl
      · exact modG_seats ..
    · rfl

theorem stampWords_seats (s : State) (d : Nat) (l : Loc) (n : Nat) : (s.stampWords d l n).seats = s.seats := by
  unfold State.stampWords
  split
  · split
    · rfl
    · refine foldl_same (v := State.seats) ?_ _ s
      exact fun _ _ => rfl
  · rfl

theorem plainWrite_seats (s : State) (d : Nat) (l : Loc) (n : Nat) : (s.plainWrite d l n).seats = s.seats := by
  have h := stampWords_seats s d l n
  unfold State.plainWrite
  dsimp only
  split
  · exact h
  · refine (foldl_same (v := State.seats) ?_ _ _).trans h
    exact fun _ _ => rfl

theorem signLoc_seats (s : State) (c : Nat) (l : Loc) (n : Nat) : (s.signLoc c l n).seats = s.seats :=
  foldl_same (v := State.seats) (fun _ _ => setCore_seats rfl) _ s

theorem l1DropLoc_seats (s : State) (c : Nat) (l : Loc) (n : Nat) : (s.l1DropLoc c l n).seats = s.seats := by
  unfold State.l1DropLoc
  split <;> rfl

theorem addStore_seats (s : State) (g : Option Nat) (d : Nat) (k : StoreKind) (u : List (Nat × Byte)) :
    (s.addStore g d k u).1.seats = s.seats := rfl

theorem commitMark_seats (s : State) (c : Committer) (l : Loc) (n : Nat) (u : List (Nat × Byte)) :
    (s.commitMark c l n u).1.seats = s.seats := by
  unfold State.commitMark
  extract_lets s1 s2
  have h1 : s1.seats = s.seats := by
    unfold s1
    split
    · exact seats_of_front (touchHome_front ..)
    · rfl
  have h2 : s2.seats = s.seats := by
    unfold s2
    split
    · exact h1
    · exact (l1DropLoc_seats ..).trans ((signLoc_seats ..).trans h1)
  exact (addStore_seats ..).trans h2

theorem commitNote_seats (s : State) (c : Committer) (l : Loc) (va : Nat) (rs : List (Nat × Nat)) (u : List (Nat × Byte)) :
    (s.commitNote c l va rs u).1.seats = s.seats :=
  (commitMark_seats ..).trans (foldl_same (v := State.seats)
    (fun _ _ => (seats_of_front (noteAccess_front ..)).trans (plainWrite_seats ..)) rs s)

theorem devPlace_front (s : State) (w : ReqWho) (k : AccKind) (a p va n : Nat) : (s.devPlace w k a p va n).1.front = s.front := by
  unfold State.devPlace
  refine front_ite (homePlace_front ..) ?_
  have h := viewFill_front s a p va
  generalize s.viewFill a p va = r at h ⊢
  obtain ⟨u, _ | _ | _⟩ := r
  · dsimp only
    split
    · exact (addReq_front ..).trans h
    · exact h
  · exact (addReq_front ..).trans h
  · exact h

theorem withViewBlk_seats (s : State) (m : Map Nat) : ({ s with viewBlk := m } : State).seats = s.seats := rfl

theorem commitBlock_seats (s : State) (c : Committer) (a v p va : Nat) : (s.commitBlock c a v p va).1.seats = s.seats := by
  have h := seats_of_front (devPlace_front s c.who .store a p va 64)
  unfold State.commitBlock
  split
  · next hu => exact (congrArg (fun r => State.seats r.1) hu).symm.trans h
  · next u l hu =>
    have h0 : u.seats = s.seats := (congrArg (fun r => State.seats r.1) hu).symm.trans h
    extract_lets src po undo u1 u2 u3
    have h2 : u2.seats = s.seats := (seats_of_front ((wrBytesFrom_front ..).trans (settleUndo_front ..))).trans h0
    have h3 : u3.seats = s.seats := by
      unfold u3
      split
      · exact h2
      · exact (setPois_seats ..).trans h2
    exact (withViewBlk_seats ..).trans ((commitNote_seats ..).trans h3)

theorem commitBlocks_seats (s : State) (c : Committer) (a v p : Nat) : (s.commitBlocks c a v p).1.seats = s.seats := by
  refine foldl_same (v := fun r : State × Bool × List Nat => r.1.seats) (fun r va => ?_) _ (s, true, [])
  have h := commitBlock_seats r.1 c a v p va
  split
  · generalize r.1.commitBlock c a v p va = x at h ⊢
    obtain ⟨u, _ | _⟩ := x <;> exact h
  · rfl

/-! ### What an access in order leaves alone (R260 to R264, R281 to R283) -/

theorem hbTakeAll_seats (s : State) (a sc : Nat) (rs : List SyncRec) : (s.hbTakeAll a sc rs).seats = s.seats :=
  foldl_same (v := State.seats) (fun _ _ => seats_of_front (hbTake_front ..)) _ s

theorem withRace_seats (s : State) (r : Race) : ({ s with race := r } : State).seats = s.seats := rfl

theorem hbRelease_seats (s : State) (a : Nat) (ws : List Nat) (sc : Nat) (c : Bool) : (s.hbRelease a ws sc c).seats = s.seats :=
  (seats_of_front (hbTick_front ..)).trans (withRace_seats ..)

theorem withRel_seats (s : State) (m : Map (Option RelRec)) : ({ s with rel := m } : State).seats = s.seats := rfl

theorem putRecords_seats (s : State) (sl : Nat) (ws : List Nat) (r : RelRec) : (s.putRecords sl ws r).seats = s.seats := by
  refine foldl_same (v := State.seats) (fun u w => ?_) ws s
  refine (withRel_seats ..).trans ?_
  split
  · split <;> rfl
  · rfl

theorem acquireAt_seats (s : State) (l : Loc) (n sc : Nat) : (s.acquireAt l n sc).seats = s.seats := by
  unfold State.acquireAt
  dsimp only
  split
  · split
    · split
      · exact setG_seats ..
      · rfl
    · split
      · exact mergeClock_seats ..
      · exact setG_seats ..
  · split
    · exact l1DropAll_seats ..
    · rfl
  · exact l1DropAll_seats ..
  · exact l1DropAll_seats ..
  · rfl

theorem releaseAt_seats (s : State) (c d : Nat) (l : Loc) (n : Nat) (b : Bool) : (s.releaseAt c d l n b).seats = s.seats := by
  unfold State.releaseAt
  dsimp only
  split
  · exact foldl_same (v := State.seats) (fun u w => withRel_seats ..) _ s
  · split
    · exact (bumpEpoch_seats ..).trans ((putRecords_seats ..).trans (stampWords_seats ..))
    · exact (putRecords_seats ..).trans (stampWords_seats ..)
  · rfl

theorem orderAt_seats (s : State) (p : Piece) (j : Joins) (acq rel : Bool) (sc : Nat) :
    (s.orderAt p j acq rel sc).seats = s.seats := by
  unfold State.orderAt
  extract_lets ws s1 s2 s3 s4
  have h1 : s1.seats = s.seats := by
    unfold s1
    split
    · rfl
    · exact seats_of_front (orderRead_front ..)
  have h2 : s2.seats = s.seats := by
    unfold s2
    split
    · exact (hbTakeAll_seats ..).trans ((acquireAt_seats ..).trans h1)
    · exact h1
  have h3 : s3.seats = s.seats := by
    unfold s3
    split
    · exact h2
    · exact (seats_of_front (orderWrite_front ..)).trans h2
  have h4 : s4.seats = s.seats := by
    unfold s4
    split
    · exact (seats_of_front (seeBytes_front ..)).trans h3
    · exact (seats_of_front (seeHome_front ..)).trans h3
  split
  · exact (hbRelease_seats ..).trans ((releaseAt_seats ..).trans h4)
  · exact h4

theorem poisonLoc_seats (s : State) (l : Loc) (n : Nat) : (s.poisonLoc l n).seats = s.seats := by
  refine foldl_same (v := State.seats) (fun u i => ?_) _ s
  split
  · exact modG_seats ..
  · split
    · rfl
    · exact setPois_seats ..

theorem wrWeir_seats (s : State) (l : Loc) (w : Weir) : (s.wrWeir l w).seats = s.seats := by
  have h := wrLoc_seats s l 16 w.toNat
  unfold State.wrWeir
  dsimp only
  split
  · exact (seats_of_front (touchHome_front ..)).trans h
  · exact h

/-! ### What a commit leaves alone (R432, R449) -/

/-- Which dies are lost, and which cores retired. -/
def State.losses (s : State) : Losses := s.seats.losses

theorem losses_of_seats {s t : State} (h : t.seats = s.seats) : t.losses = s.losses := congrArg Seats.losses h

theorem losses_of_front {s t : State} (h : t.front = s.front) : t.losses = s.losses := losses_of_seats (seats_of_front h)

theorem setTeam_losses (s : State) (k : Nat) (f : Team → Team) : (s.setTeam k f).losses = s.losses := rfl

theorem modG_losses (s : State) (k : Nat) (f : Group → Group) : (s.modG k f).losses = s.losses :=
  losses_of_seats (modG_seats ..)

/-- Of a line's record only its races and stamps go. -/
theorem withRace_losses (s : State) (r : Race) (m : Map Nat) :
    ({ s with race := r, stamps := m } : State).losses = s.losses := rfl

theorem dropLine_losses (s : State) (lk : Nat) : (s.dropLine lk).losses = s.losses := by
  unfold State.dropLine
  extract_lets words s1 r s2
  have h1 : s1.losses = s.losses := by
    refine foldl_same (v := State.losses) (fun u e => ?_) words s
    split <;> rfl
  have h2 : s2.losses = s.losses := (withRace_losses ..).trans h1
  clear_value s2
  split
  · exact h2
  · exact Eq.trans rfl h2

theorem unlinkFrame_losses (s : State) (st f : Nat) : (s.unlinkFrame st f).losses = s.losses := by
  unfold State.unlinkFrame
  dsimp only
  split
  · rfl
  · split <;> rfl

/-- What goes with a page: its bytes, its poison, what its view has written and its translations. -/
theorem withoutPage_losses (s : State) (m : Map Byte) (p : Map Bool) (b : Map Nat) (t : List TuEntry) :
    ({ s with mem := m, pois := p, viewBlk := b, tu := t } : State).losses = s.losses := rfl

theorem dropSub_losses (s : State) (a v va : Nat) : (s.dropSub a v va).losses = s.losses := by
  unfold State.dropSub
  extract_lets p s1 s2
  have h1 : s1.losses = s.losses := losses_of_front (settleKeys_front ..)
  have h2 : s2.losses = s.losses := (foldl_same (v := State.losses) (fun _ _ => dropLine_losses ..) _ s1).trans h1
  exact (withoutPage_losses ..).trans h2

theorem setFrame_losses (s : State) (k : Nat) (f : Frame → Frame) : (s.setFrame k f).losses = s.losses := rfl

theorem refresh_losses (s : State) (r : ReqState) : (s.refresh r).losses = s.losses := rfl

theorem freeFrame_losses (s : State) (st f : Nat) : (s.freeFrame st f).losses = s.losses := by
  unfold State.freeFrame
  extract_lets e s1 s2
  have h1 : s1.losses = s.losses := unlinkFrame_losses ..
  have h2 : s2.losses = s.losses := (foldl_same (v := State.losses) (fun _ _ => dropSub_losses ..) _ s1).trans h1
  exact (refresh_losses ..).trans ((setFrame_losses ..).trans h2)

theorem farGone_losses (s : State) (c : Contrib) : (s.farGone c).losses = s.losses := rfl

theorem setTag_losses (s : State) (a w : Nat) (f : ViewTag → ViewTag) : (s.setTag a w f).losses = s.losses := rfl

/-- What goes with a view: its bytes, its poison, what it has written, its lines in level-1 and its closings. -/
theorem withoutView_losses (s : State) (m : Map Byte) (st : List PendStore) (p : Map Bool) (b : Map Nat) (l : List L1Block)
    (c : List Closing) :
    ({ s with mem := m, stores := st, pois := p, viewBlk := b, l1 := l, closings := c } : State).losses = s.losses := rfl

theorem discardView_losses (s : State) (a v : Nat) : (s.discardView a v).losses = s.losses := by
  unfold State.discardView
  extract_lets mine s1 s2 s3 s4
  have h1 : s1.losses = s.losses := foldl_same (v := State.losses) (fun _ _ => dropLine_losses ..) mine s
  have h2 : s2.losses = s.losses := (foldl_same (v := State.losses) (fun _ _ => freeFrame_losses ..) _ s1).trans h1
  have h3 : s3.losses = s.losses := (withoutView_losses ..).trans h2
  have h4 : s4.losses = s.losses := (foldl_same (v := State.losses) (fun _ _ => farGone_losses ..) _ s3).trans h3
  exact (setTag_losses ..).trans h4

theorem closeFork_losses (s : State) (t a h : Nat) (keep : List Nat) : (s.closeFork t a h keep).losses = s.losses := by
  unfold State.closeFork
  split
  · rfl
  · exact (setTeam_losses ..).trans (foldl_same (v := State.losses) (fun _ _ => discardView_losses ..) _ s)

theorem commitEntry_losses (s : State) (c : Committer) (k t a p : Nat) (h : Held) :
    (s.commitEntry c k t a p h).1.losses = s.losses := by
  unfold State.commitEntry
  extract_lets away soil mine
  have haway : ∀ u o, (away u o).losses = u.losses := fun _ _ => setTeam_losses ..
  have hsoil : ∀ u l n, (soil u l n).losses = u.losses := fun u l n => by
    unfold soil
    split
    · exact losses_of_seats (poisonLoc_seats ..)
    · rfl
  have hplace : ∀ k va n u o, s.devPlace c.who k a p va n = (u, o) → u.losses = s.losses := fun k va n u o hu =>
    (congrArg (fun r => State.losses r.1) hu).symm.trans (losses_of_front (devPlace_front ..))
  split
  · next b d _ =>
    extract_lets here rest
    split
    · exact haway ..
    next e0 _ _ =>
    split
    · next u hu => exact hplace _ _ _ _ _ hu
    next u l hu =>
    extract_lets rs undo u1 u2 u3
    have h1 : u1.losses = s.losses := by
      unfold u1
      split
      · exact hplace _ _ _ _ _ hu
      · exact (haway ..).trans (hplace _ _ _ _ _ hu)
    have h2 : u2.losses = s.losses :=
      (foldl_same (v := State.losses) (fun _ _ => losses_of_front (wrByte_front ..)) here u1).trans h1
    have h3 : u3.losses = s.losses := by
      unfold u3
      split
      · exact h2
      · split
        · exact (losses_of_seats (setPois_seats ..)).trans h2
        · split
          · exact (losses_of_seats (setPois_seats ..)).trans h2
          · exact h2
    exact (losses_of_seats (commitNote_seats ..)).trans h3
  · split
    · exact haway ..
    split
    · rfl
    split
    · next u hu => exact hplace _ _ _ _ _ hu
    next u l hu =>
    extract_lets w undo u1
    have h1 : u1.losses = s.losses := (losses_of_seats (wrWeir_seats ..)).trans (hplace _ _ _ _ _ hu)
    have h2 : (soil (u1.plainWrite c.die l 16) l 16).losses = s.losses :=
      (hsoil ..).trans ((losses_of_seats (plainWrite_seats ..)).trans h1)
    exact (losses_of_front (seeHome_front ..)).trans ((losses_of_seats (commitMark_seats ..)).trans h2)
  · split
    · exact haway ..
    split
    · next u hu => exact hplace _ _ _ _ _ hu
    next _ _ _ _ _ _ u l hu =>
    extract_lets undo u1
    have h1 : u1.losses = s.losses := (losses_of_seats ((plainWrite_seats ..).trans (wrLoc_seats ..))).trans (hplace _ _ _ _ _ hu)
    exact (losses_of_seats (asGroup_seats _ _ fun _ => orderAt_seats ..)).trans
      ((losses_of_seats (commitMark_seats ..)).trans ((hsoil ..).trans h1))

theorem commitEntries_losses (s : State) (c : Committer) (k t a v p : Nat) :
    (s.commitEntries c k t a v p).1.losses = s.losses := by
  refine foldl_same (v := fun r : State × Bool × Nat × List Nat => r.1.losses) (fun r h => ?_) _ (s, true, 0, [])
  have hr := commitEntry_losses r.1 c k t a p h
  split
  · generalize r.1.commitEntry c k t a p h = x at hr ⊢
    obtain ⟨u, _ | _⟩ := x
    · exact hr
    · exact (setTeam_losses ..).trans hr
  · rfl

theorem commitL1_losses (s : State) (a v p : Nat) : (s.commitL1 a v p).losses = s.losses := rfl

theorem commitStep_losses (s : State) (k : Nat) : (s.commitStep k).losses = s.losses := by
  unfold State.commitStep
  split
  · rfl
  next g _ =>
  split
  · next d h v p n acks _ =>
    extract_lets put c
    have hput : ∀ u x, (put u x).losses = u.losses := fun _ _ => modG_losses ..
    split
    · split
      · rfl
      · exact modG_losses ..
    split
    · rfl
    have hb := losses_of_seats (commitBlocks_seats s c g.asid v p)
    generalize s.commitBlocks c g.asid v p = x at hb ⊢
    obtain ⟨u, _ | _, ids⟩ := x
    · exact (hput ..).trans hb
    · have he := (commitEntries_losses u c k g.team g.asid v p).trans hb
      dsimp only
      generalize u.commitEntries c k g.team g.asid v p = y at he ⊢
      obtain ⟨w, _ | _, m, ids'⟩ := y
      · exact (hput ..).trans he
      · exact (hput ..).trans ((closeFork_losses ..).trans ((commitL1_losses ..).trans he))
  · rfl

/-! ### What the end of a hold leaves alone (R263, R265, R448, R449) -/

theorem setDie_losses {s : State} {d : Nat} {f : Die → Die} (hf : (f (s.die d)).lost = (s.die d).lost) :
    (s.setDie d f).losses = s.losses := losses_of_seats (setDie_seats hf)

theorem holdDone_losses (s : State) (k : Nat) (g : Group) : (s.holdDone k g).losses = s.losses := by
  unfold State.holdDone
  split
  · split
    · exact modG_losses ..
    · rfl
  · split
    · exact losses_of_seats (asGroup_seats _ _ fun _ => (fenceEnd_seats ..).trans (setG_seats ..))
    · rfl
  · next c sig since _ =>
    split
    · extract_lets u
      have hu : u.losses = s.losses := by
        unfold u
        split
        · exact setDie_losses rfl
        · rfl
      exact (losses_of_seats (asGroup_seats _ _ fun _ => (mergeClock_seats ..).trans (setG_seats ..))).trans hu
    · rfl
  · exact losses_of_seats (leaveEnd_seats ..)
  · exact commitStep_losses ..
  · rfl

theorem settleHolds_losses (s : State) : s.settleHolds.losses = s.losses :=
  foldl_same (v := State.losses) (fun _ _ => holdDone_losses ..) _ s

theorem withStores_losses (s : State) (x : List PendStore) : ({ s with stores := x } : State).losses = s.losses := rfl

theorem storeDone_losses (s : State) (x : PendStore) : (s.storeDone x).losses = s.losses := by
  unfold State.storeDone
  dsimp only
  split
  · exact (settleHolds_losses ..).trans (withStores_losses ..)
  · exact (settleHolds_losses ..).trans ((modG_losses ..).trans (withStores_losses ..))

/-! ### A die is lost (R464, R465) -/

theorem setPois_losses (s : State) (b : Nat) (x : Bool) : (s.setPois b x).losses = s.losses := rfl

theorem undoStore_losses (s : State) (x : PendStore) : (s.undoStore x).losses = s.losses := rfl

theorem choose_losses (s : State) (n : Nat) : (s.choose n).1.losses = s.losses := rfl

theorem withOwns_losses (s : State) (o : List Own) : ({ s with owns := o } : State).losses = s.losses := rfl

theorem loseOwns_losses (s : State) (d : Nat) : (s.loseOwns d).losses = s.losses := by
  unfold State.loseOwns
  extract_lets lost u
  refine (foldl_same (v := State.losses) (fun v o => ?_) lost u).trans (withOwns_losses ..)
  split
  · refine (losses_of_seats (releaseBlk_seats ..)).trans ?_
    split
    · rfl
    · exact setPois_losses ..
  · rfl

/-- What goes with the engines of a die: their contexts and queues, its level-1 lines and the requests it waits for. -/
theorem withoutEngines_losses (s : State) (x : Map (Option CopyCtx)) (m : Map (List MuCmd)) (q : Map (List CbCmd))
    (l : List L1Block) (r : List Req) :
    ({ s with ctxs := x, mu := m, cbq := q, l1 := l, reqs := r } : State).losses = s.losses := rfl

theorem loseEngines_losses (s : State) (d : Nat) : (s.loseEngines d).losses = s.losses := by
  unfold State.loseEngines
  extract_lets idle stop
  refine (foldl_same (v := State.losses) (fun v e => ?_) s.groups _).trans (withoutEngines_losses ..)
  unfold stop
  split
  · exact modG_losses ..
  · rfl

theorem loseStores_losses (s : State) (d : Nat) : (s.loseStores d).losses = s.losses := by
  refine foldl_same (v := State.losses) (fun u x => ?_) _ s
  split
  next w c hw =>
  have h : w.losses = u.losses := (congrArg (fun r => State.losses r.1) hw).symm.trans (choose_losses u 2)
  split
  · exact (storeDone_losses ..).trans ((undoStore_losses ..).trans h)
  · exact h
  · exact (storeDone_losses ..).trans h

theorem retire_losses (s : State) (k : Nat) : (s.setCore k (fun c => { c with retired := true })).losses =
    { s.losses with core := fun q => if q = k then true else s.losses.core q } := by
  have hc : (s.setCore k (fun c => { c with retired := true })).losses.core =
      fun q => if q = k then true else s.losses.core q := funext fun q => by
    have e : (s.setCore k (fun c => { c with retired := true })).coreSt q = _ := setCore_coreSt ..
    simp only [State.losses, State.seats, e]
    split <;> rfl
  rw [← hc]
  rfl

/-- Retiring a list of cores loses no die, and retires each of them. -/
theorem retires_losses (f : Nat → Nat) (is : List Nat) : ∀ s : State,
    let t := is.foldl (fun s i => s.setCore (f i) (fun c => { c with retired := true })) s
    t.losses.die = s.losses.die ∧ ∀ q, (s.losses.core q = true ∨ ∃ i ∈ is, f i = q) → t.losses.core q = true := by
  induction is with
  | nil => exact fun s => ⟨rfl, fun q h => h.resolve_right (by simp)⟩
  | cons j js ih =>
    intro s
    obtain ⟨hd, hc⟩ := ih (s.setCore (f j) (fun c => { c with retired := true }))
    refine ⟨hd, fun q h => hc q ?_⟩
    rw [retire_losses]
    dsimp only
    by_cases hq : q = f j
    · exact .inl (if_pos hq)
    · rw [if_neg hq]
      refine h.imp_right fun ⟨i, hi, he⟩ => ⟨i, (List.mem_cons.1 hi).resolve_left fun e => hq ?_, he⟩
      rw [← he, e]

/-- Where no grid runs on die `d`, its loss retires its cores and stops what they held. -/
theorem execDieLoss_idle {d : Nat} {s : State} (hd : d < 32) (hl : (s.die d).lost = false)
    (hg : ∀ e ∈ s.grids, s.onDie d e.1 = false) :
    ∃ t : State, execDieLoss d s = .next t.settleHolds ∧ t.losses.die d = true ∧
      ∀ i, i < 32 → t.losses.core (32 * d + i) = true := by
  have hit : (s.grids.map (·.1)).filter (s.onDie d) = [] := by
    refine List.filter_eq_nil_iff.2 fun k hk => ?_
    obtain ⟨e, he, rfl⟩ := List.mem_map.1 hk
    simp [hg e he]
  unfold execDieLoss
  rw [if_neg (by simp [hl]; omega)]
  extract_lets hit' s1 s2 s3 s4 s5 s6 s7
  have h1 : s1.losses.die d = true := by
    have e : (s.setDie d (fun x => { x with lost := true })).die d = _ := setDie_die ..
    simp only [s1, State.losses, State.seats, e, if_true]
  have h2 : s2.losses = s1.losses := losses_of_seats (writeRec_seats ..)
  obtain ⟨hdie, hcore⟩ := retires_losses (fun i => 32 * d + i) (List.range 32) s2
  have h4 : s4.losses = s3.losses := losses_of_seats (breachDams_seats ..)
  have h5 : s5.losses = s3.losses := (loseOwns_losses ..).trans h4
  have h6 : s6.losses = s3.losses := (foldl_same (v := State.losses) (fun _ _ => farGone_losses ..) _ s5).trans h5
  have h7 : s7 = s6 := by
    unfold s7 hit'
    rw [hit, List.foldl_nil]
  have h : ((s7.loseEngines d).loseStores d).losses = s3.losses :=
    (loseStores_losses ..).trans ((loseEngines_losses ..).trans ((congrArg State.losses h7).trans h6))
  refine ⟨_, rfl, ?_, fun i hi => ?_⟩
  · exact (congrFun (congrArg Losses.die h) d).trans ((congrFun hdie d).trans ((congrFun (congrArg Losses.die h2) d).trans h1))
  · exact (congrFun (congrArg Losses.core h) _).trans (hcore _ (.inr ⟨i, List.mem_range.2 hi, rfl⟩))

/-! ### A base tile is lost (R466) -/

theorem fatal_getG (s : State) (k : Nat) : s.fatal.getG k = s.getG k := rfl

theorem fatal_fatal (s : State) : s.fatal.dev.fatal = true := rfl

theorem due_tile (s : State) (e : Instr) (k : Nat) : (s.due e).tile k = s.tile k := rfl

theorem due_getG (s : State) (e : Instr) (k : Nat) : (s.due e).getG k = s.getG k := rfl

theorem due_dev (s : State) (e : Instr) : (s.due e).dev = s.dev := rfl

/-- The two groups that the tile ran are halted. -/
theorem stopBases_halt {s : State} {k v : Nat} {g : Group} (hv : v = k ∨ v = 8 + k)
    (h : ((s.stopBase k).stopBase (8 + k)).getG v = some g) : g.lane 0 = .halted := by
  rcases hv with rfl | rfl
  · rw [stopBase_other (by omega)] at h
    exact stopBase_halts h
  · exact stopBase_halts h

end Sys2Proof.Machine
end

section
open Sys2Proof Sys2Proof.Machine

/-- Settles O48, clause by clause: what a save, a resume, a commit or a loss does beside its own change leaves teams but
for their mailboxes, the clock, and what is lost or retired. -/
theorem teamsMove : Obligations.TeamsMove := by
  unfold Obligations.TeamsMove
  refine ⟨fun k x s hx hb ha hg => ?_, fun k x c j js s hx hp hb hg hgr hr hf => ?_, fun k x gr tl j c s hx hb hp hs hbad => ?_,
    fun k x s hx hb hg => ⟨fun hn => ?_, fun hr => ?_⟩, fun k s => ?_, fun gr gg g ks s hg h1 hne _ hks ha => ?_,
    fun gr g s hg hw hd h0 hcw hrw hq hv ht hr hc => ?_, fun a w s hd hc hx => ?_, fun a w s hc => execViewTagFree_busy hc,
    fun d s hd hl hg => ?_, fun k s hk hl hd => ?_⟩
  -- the team stops
  · exact ⟨_, execTeamSave_starts hx hb ha hg, saveStart_busy hx (.inr rfl)⟩
  -- its context goes to a slot
  · obtain ⟨y, hy, hplace, hbusy, hpc, hslot⟩ := saveTeam_eq hx (by simp [Team.running, hp]) hf
    exact ⟨_, y, execTeamSave_saves hx hb hg hgr hr, hy, hplace, hbusy, hpc, hslot⟩
  -- its parts are read back
  · obtain ⟨y, hy, hplace, hbusy, hlin⟩ := restoreTeam_eq c hx hp
    exact ⟨_, y, execTeamResume_restores hx hb hs hbad, hy, hplace, hbusy, hlin⟩
  -- its acquire waits
  · exact (execTeamResume_acquires hx hb hg).trans (by rw [hn]; rfl)
  -- its acquire is made
  · obtain ⟨y, hy, hbusy, hdest, himgs, hat⟩ := resumeTeam_eq hx
    exact ⟨_, y, (execTeamResume_acquires hx hb hg).trans (by rw [hr]; rfl), hy, hbusy, hdest, himgs, hat⟩
  -- a save area, with and without a region that is not resident
  · intro tl first n hn hp
    exact ⟨fun h => ⟨_, execCtxAreaReady_ready hn hp h, by simp⟩, execCtxAreaReady_waits⟩
  -- every team of the gang stops
  · refine ⟨_, execGangMapChange_stops hg h1 hne hks ha, fun k hk => ?_⟩
    have hm := (List.mem_filter.1 (hks ▸ hk)).2
    cases hx : s.team k with
    | none => simp [hx] at hm
    | some x => exact saveStarts_busy ks hx (.inr hk)
  -- the grid runs its record again
  · exact ⟨_, _, execReplayRestart_teamless hg hw hd h0 hcw hrw hq hv ht, runAgain_same hg hr hc, rfl, rfl, rfl, rfl, rfl, rfl,
      rfl, rfl⟩
  -- the tag is free again
  · exact ⟨_, execViewTagFree_frees hd hc hx, setTag_tag ..⟩
  -- the die and its cores
  · exact execDieLoss_idle hd hl hg
  -- the tile, and the two groups that it ran
  · obtain ⟨u, hu, he⟩ := execBaseTileLoss_over hk hl hd
    refine ⟨_, he, ?_, ?_, fun v g hv hg => ?_⟩
    · rw [due_tile, fatal_tile, State.stopBase, State.stopBase, modG_tile, modG_tile]
      exact hu
    · rw [due_dev, fatal_fatal]
    · rw [due_getG, fatal_getG] at hg
      exact stopBases_halt hv hg
end

section
/-! PROOF. Exchanges between lanes (R168): a lane of a result of several registers is its registers. -/

namespace Sys2Proof.Machine

/-- A register of a value read from several. -/
theorem register_rdW (r : Regs) (l : Nat) : ∀ w n j, j < w → BitVec.ofNat 32 (r.rdW w n l / 2 ^ (32 * j)) = r.rdV (n + j) l
  | w + 1, n, 0, _ => BitVec.eq_of_toNat_eq (by simpa [Regs.rdW] using (r.rdV n l).isLt)
  | w + 1, n, j + 1, hj => by
    have hd : ((r.rdV n l).toNat + 2 ^ 32 * r.rdW w (n + 1) l) / 2 ^ 32 = r.rdW w (n + 1) l := by
      have := (r.rdV n l).isLt
      omega
    rw [Regs.rdW, show 32 * (j + 1) = 32 + 32 * j by omega, Nat.pow_add, ← Nat.div_div_eq_div_mul, hd,
      register_rdW r l w (n + 1) j (by omega), Nat.add_assoc, Nat.add_comm 1]

/-- An exchange gives each lane the registers of its source lane, poisoned where they or the index are. -/
theorem xchWord_is (w : Nat) (d a : BitVec 7) (idx : Option (BitVec 7)) (f : Nat → Int) (s : State) :
    LanesAre s.iss.eff d.toNat w (fun l j => s.src.rdV (a.toNat + j) (s.xchLane (f l) l))
      (fun l => s.src.badV a.toNat w (s.xchLane (f l) l) || (idx.map (fun b => (s.src.poisV b.toNat).getLsbD l)).getD false)
      s (xchWord w d a idx f s) :=
  laneW_is.congr (fun l j _ hj => register_rdW s.src (s.xchLane (f l) l) w a.toNat j hj)
    fun l _ _ => by rw [poisW_eq_badV]

/-- A ready exchange by an index register. -/
theorem exec_xchAt {i : Instr} {w : Nat} {d a b : BitVec 7} {s : State} (h : Ready i s) (hi : infoOf i = infV3 .t w w 1 d a b)
    (he : exec i s = issued (infV3 .t w w 1 d a b) s (fun s => xchWord w d a (some b) (s.laneOf b) s)) :
    ∃ t, exec i s = .next t ∧ LanesAre s.iss.eff d.toNat w (fun l j => s.src.rdV (a.toNat + j) (s.xchLane (s.laneOf b l) l))
      (fun l => s.src.badV a.toNat w (s.xchLane (s.laneOf b l) l) || (s.src.poisV b.toNat).getLsbD l) s t :=
  ⟨_, exec_of_ready he h hi rfl, xchWord_is w d a (some b) (s.laneOf b) s⟩

/-- A ready exchange by an immediate. -/
theorem exec_xch {i : Instr} {w : Nat} {d a : BitVec 7} {f : Nat → Int} {s : State} (h : Ready i s)
    (hi : infoOf i = infV2 .t w w d a) (he : exec i s = issued (infV2 .t w w d a) s (xchWord w d a none f)) :
    ∃ t, exec i s = .next t ∧ LanesAre s.iss.eff d.toNat w (fun l j => s.src.rdV (a.toNat + j) (s.xchLane (f l) l))
      (fun l => s.src.badV a.toNat w (s.xchLane (f l) l)) s t :=
  ⟨_, exec_of_ready he h hi rfl, (xchWord_is w d a none f s).congr (fun _ _ _ _ => rfl) fun _ _ _ => Bool.or_false _⟩

end Sys2Proof.Machine
end

section
open Sys2Proof Sys2Proof.Machine

/-- Settles O14: every exchange is `xchWord` of its width and its source lanes. -/
theorem exchanges : Obligations.Exchanges := by
  unfold Obligations.Exchanges
  refine ⟨fun w c hc d a b s h => ?index, fun w c f hc d a n s h => ?immediate⟩
  case index =>
    obtain ⟨rfl, rfl⟩ | ⟨rfl, rfl⟩ := hc
    all_goals exact exec_xchAt h rfl rfl
  case immediate =>
    obtain ⟨rfl, rfl, rfl⟩ | ⟨rfl, rfl, rfl⟩ | ⟨rfl, rfl, rfl⟩ | ⟨rfl, rfl, rfl⟩ | ⟨rfl, rfl, rfl⟩ | ⟨rfl, rfl, rfl⟩ := hc
    all_goals exact exec_xch h rfl rfl
end

section
/-! PROOF. Lane tests and masks (R169, R410): predicates and masks from the lanes that count for each lane. -/

namespace Sys2Proof.Machine

/-- A predicate bit and its poison written in every lane with effect. -/
theorem wrP_is {s : State} {d : Nat} {x b : Nat → Bool} :
    PredIs s.iss.eff d x b s (s.eachEff (fun r l => r.wrP d l (x l) (b l))) where
  value h7 l hl := by
    have hm := mem_lanesOf.2 hl
    have hin : ∀ k ∈ lanesOf s.iss.eff, k < 32 := fun _ h => lt_of_mem_lanesOf h
    exact ⟨(foldl_lane (fun r l => r.rdPL d l) _ x (fun r l h => by simp [rdPL_wrP h, h7])
        (fun r l k h hk e => by simp [rdPL_wrP hk, e]) _ hin s.g.r l (hin l hm)).trans (if_pos hm),
      (foldl_lane (fun r l => (r.poisP d).getLsbD l) _ b (fun r l h => by simp [poisP_wrP h, h7])
        (fun r l k h hk e => by simp [poisP_wrP hk, e]) _ hin s.g.r l (hin l hm)).trans (if_pos hm)⟩
  others n l hl hn := by
    have hne : ∀ k ∈ lanesOf s.iss.eff, ¬ (n = d ∧ l = k ∧ d ≠ 7) := by
      rintro k hk ⟨rfl, rfl, h⟩
      exact hn ⟨mem_lanesOf.1 hk, rfl, h⟩
    exact ⟨foldl_keep (fun r => r.rdPL n l) _ _ _ fun r k hk => (rdPL_wrP hl).trans (if_neg (hne k hk)),
      foldl_keep (fun r => (r.poisP n).getLsbD l) _ _ _ fun r k hk => (poisP_wrP hl).trans (if_neg (hne k hk))⟩
  bytes l i h := rdByte_setR s _ l i h
  rest := congrArg (fun r => s.setR (fun _ => r)) (foldl_wrP (lanesOf s.iss.eff) s.g.r fun r l => wrP_only r d l _ _)

/-- A ready test writes the predicate of the lanes that count, poisoned where one of them is. -/
theorem exec_test {i : Instr} {inf : Info} {d : BitVec 3} {f : State → List Nat → Bool} {b : State → Nat → Bool} {s : State}
    (h : Ready i s) (hi : infoOf i = inf) (hu : inf.uniform = [])
    (he : exec i s = issued inf s (fun s => testWord d (f s) (b s) s)) :
    ∃ t, exec i s = .next t ∧ PredIs s.iss.eff d.toNat (fun l => f s (s.mates l)) (fun l => (s.mates l).any (b s)) s t :=
  ⟨_, exec_of_ready he h hi hu, wrP_is⟩

/-- All elements agree where each agrees with the first. -/
theorem all_beq_head_iff {α : Type} [BEq α] [LawfulBEq α] (f : Nat → α) (ls : List Nat) :
    ls.all (fun k => f k == f (ls.headD 0)) = true ↔ ∀ j ∈ ls, ∀ k ∈ ls, f j = f k := by
  simp only [List.all_eq_true, beq_iff_eq]
  refine ⟨fun h j hj k hk => (h j hj).trans (h k hk).symm, fun h k hk => ?_⟩
  cases ls with
  | nil => simp at hk
  | cons a as => exact h k hk a (by simp)

/-- A mask gathered over lanes holds the bit of each. -/
theorem foldl_or_laneBit (g : Nat → Nat) {k : Nat} (hk : k < 32) : ∀ (ls : List Nat) (m : Word),
    (ls.foldl (fun m j => m ||| laneBit (g j)) m).getLsbD k = true ↔ m.getLsbD k = true ∨ ∃ j ∈ ls, k = g j
  | [], m => by simp
  | l :: ls, m => by
    rw [List.foldl_cons, foldl_or_laneBit g hk ls, BitVec.getLsbD_or, getLsbD_laneBit hk, Bool.or_eq_true, beq_iff_eq,
      or_assoc]
    simp

/-- The mask that `lmask` gives lane `l` (R169, R410). -/
def State.laneMask (s : State) (a : BitVec 3) (l : Nat) : Word :=
  ((s.mates l).filter (s.src.rdPL a.toNat)).foldl (fun m k => m ||| laneBit (if s.src.prot then k / 2 * 2 else k)) 0

theorem getLsbD_laneMask (s : State) (a : BitVec 3) (l : Nat) {k : Nat} (hk : k < 32) : (s.laneMask a l).getLsbD k = true ↔
    ∃ j ∈ s.mates l, s.src.rdPL a.toNat j = true ∧ k = if s.src.prot then j / 2 * 2 else j := by
  rw [State.laneMask, foldl_or_laneBit _ hk]
  simp [and_assoc]

/-- `lmask` writes the mask of each lane with effect. -/
theorem execLmask_is (d : BitVec 7) (a : BitVec 3) (s : State) :
    LanesAre s.iss.eff d.toNat 1 (fun l _ => s.laneMask a l) (fun l => (s.mates l).any (s.predPois a)) s
      (s.eachEff (fun r l => r.wrV d.toNat l (s.laneMask a l) ((s.mates l).any (s.predPois a)))) := by
  simp only [wrV_eq_wrW]
  exact laneW_is.one fun _ _ => rfl

end Sys2Proof.Machine
end

section
open Sys2Proof Sys2Proof.Machine

/-- Settles O15: each word writes, in every lane with effect, what the lanes that count for it give. -/
theorem laneTests : Obligations.LaneTests := by
  unfold Obligations.LaneTests
  refine ⟨fun d a s h => ?all, fun d a s h => ?any, fun d a s h => ?same, fun d a s h => ?mask⟩
  case all => exact exec_test (f := fun s ls => ls.all (s.src.rdPL a.toNat)) (b := fun s => s.predPois a) h rfl rfl rfl
  case any => exact exec_test (f := fun s ls => ls.any (s.src.rdPL a.toNat)) (b := fun s => s.predPois a) h rfl rfl rfl
  case same =>
    obtain ⟨t, ht, hp⟩ := exec_test (f := fun s ls => ls.all (fun l => s.rv a l == s.rv a (ls.headD 0)))
      (b := fun s l => (s.src.poisV a.toNat).getLsbD l) h rfl rfl rfl
    exact ⟨t, _, ht, fun l => all_beq_head_iff (s.rv a) (s.mates l), hp⟩
  case mask =>
    exact ⟨_, s.laneMask a, exec_of_ready (show execLmaskB32 d a s = issued (infMask d a) s _ from rfl) h rfl rfl,
      fun l _ hk => getLsbD_laneMask s a l hk, execLmask_is d a s⟩
end

section
/-! PROOF. A weir as 16 bytes (R309, R314): its fields, and what its update comes to. -/

namespace Sys2Proof.Machine

/-! ### Fields (R309) -/

/-- Every field of a weir fits its bits. -/
structure Weir.Fits (w : Weir) : Prop where
  atgt : w.atgt < 2 ^ 16
  arr : w.arr < 2 ^ 16
  btgt : w.btgt < 2 ^ 32
  bytes : w.bytes < 2 ^ 32
  phase : w.phase < 2 ^ 32

theorem Weir.ofNat_fits (x : Nat) : (Weir.ofNat x).Fits :=
  ⟨Nat.mod_lt _ (by decide), Nat.mod_lt _ (by decide), Nat.mod_lt _ (by decide), Nat.mod_lt _ (by decide),
    Nat.mod_lt _ (by decide)⟩

theorem rdWeir_fits (s : State) (l : Loc) : (s.rdWeir l).Fits := Weir.ofNat_fits _

theorem Weir.toNat_lt (w : Weir) : w.toNat < 256 ^ 16 := by
  unfold Weir.toNat
  omega

/-- A weir that fits is its 16 bytes. -/
theorem Weir.ofNat_toNat {w : Weir} (h : w.Fits) : Weir.ofNat w.toNat = w := by
  obtain ⟨a, b, c, d, e⟩ := w
  obtain ⟨ha, hb, hc, hd, he⟩ := h
  simp only [Weir.ofNat, Weir.toNat, bitsOf, Weir.mk.injEq] at *
  refine ⟨?_, ?_, ?_, ?_, ?_⟩ <;> omega

/-! ### The update (R314) -/

theorem Weir.update_fits {w : Weir} (h : w.Fits) (a b : Nat) : (w.update a b).Fits := by
  obtain ⟨ha, hb, hc, hd, he⟩ := h
  unfold Weir.update Weir.count Weir.advance
  dsimp only
  split
  · exact ⟨ha, Nat.two_pow_pos 16, hc, Nat.two_pow_pos 32, Nat.mod_lt _ (Nat.two_pow_pos 32)⟩
  · exact ⟨ha, by dsimp only; omega, hc, by dsimp only; omega, he⟩

/-- Arrivals alone. -/
theorem Weir.update_arrivals {w : Weir} (h : w.Fits) (n : Nat) : w.update n 0 =
    if ¬ (w.atgt = 0 ∧ w.btgt = 0) ∧ w.atgt ≤ min (w.arr + n) 65535 ∧ w.btgt ≤ w.bytes then
      { w with phase := (w.phase + 1) % 2 ^ 32, arr := 0, bytes := 0 }
    else { w with arr := min (w.arr + n) 65535 } := by
  have hb : min (w.bytes + 0) (2 ^ 32 - 1) = w.bytes := by have := h.bytes; omega
  have hf : (w.count n 0).full = true ↔
      ¬ (w.atgt = 0 ∧ w.btgt = 0) ∧ w.atgt ≤ min (w.arr + n) 65535 ∧ w.btgt ≤ w.bytes := by
    simp only [Weir.full, Weir.count, hb, Bool.and_eq_true, Bool.not_eq_true', Bool.and_eq_false_imp, beq_iff_eq,
      decide_eq_true_eq, beq_eq_false_iff_ne, and_assoc, not_and, ne_eq]
  simp only [Weir.update, hf]
  refine if_congr Iff.rfl rfl ?_
  rw [Weir.count, hb]

/-- The comparison of R315 against a phase of 32 bits. -/
theorem passed_iff (q : Nat) {p : Nat} (hp : p < 2 ^ 32) :
    passed q p = true ↔ 1 ≤ (q + 2 ^ 32 - p) % 2 ^ 32 ∧ (q + 2 ^ 32 - p) % 2 ^ 32 < 2 ^ 31 := by
  simp only [passed, Nat.mod_eq_of_lt hp, Bool.and_eq_true, decide_eq_true_eq]

/-- A wait passes after an update exactly where the update ends the phase (R315). -/
theorem Weir.passed_update {w : Weir} (h : w.Fits) (n : Nat) :
    passed (w.update n 0).phase w.phase = true ↔ (w.update n 0).phase ≠ w.phase := by
  have hp := h.phase
  rw [passed_iff _ hp, Weir.update_arrivals h]
  split
  · dsimp only
    omega
  · dsimp only
    omega

end Sys2Proof.Machine
end

section
/-! PROOF. A write of home bytes and the D bit of their leaf (R202, R241, R247): the walk ends at the entry that it read, so
the bit is all that changes beside the bytes. -/

namespace Sys2Proof.Machine

/-! ### Bytes of entries (R3) -/

theorem u8_leNat : ∀ (bs : List Byte) (i : Nat) (h : i < bs.length), u8 (leNat bs) i = bs[i].toNat := by
  intro bs i h
  have := bs[i].isLt
  rw [u8, ← leNat_drop, List.drop_eq_getElem_cons h, leNat]
  omega

theorem length_mapGetBytes (m : Map Byte) : ∀ k n, (mapGetBytes m k n).length = n
  | _, 0 => rfl
  | k, n + 1 => congrArg (· + 1) (length_mapGetBytes m (k + 1) n)

theorem getElem_mapGetBytes (m : Map Byte) : ∀ (k n i : Nat) (h : i < (mapGetBytes m k n).length),
    (mapGetBytes m k n)[i] = mapGet 0 m (k + i)
  | k, 0, i, h => by simp [mapGetBytes] at h
  | k, n + 1, 0, _ => rfl
  | k, n + 1, i + 1, h => by
    have hi : i < (mapGetBytes m (k + 1) n).length := Nat.lt_of_succ_lt_succ h
    exact (getElem_mapGetBytes m (k + 1) n i hi).trans (by rw [Nat.add_assoc, Nat.add_comm 1])

/-- Byte `i` of an entry. -/
theorem u8_ld (s : State) (a v va n : Nat) {i : Nat} (h : i < n) :
    u8 (s.ld a v va n) i = (mapGet 0 s.mem (memKey a v va + i)).toNat := by
  rw [State.ld, u8_leNat _ _ (by rwa [length_mapGetBytes]), getElem_mapGetBytes]

theorem u8_or (x y i : Nat) : u8 (x ||| y) i = u8 x i ||| u8 y i := by
  rw [u8, u8, u8, show (256 : Nat) = 2 ^ 8 by rfl, ← Nat.pow_mul, Nat.or_div_two_pow, Nat.or_mod_two_pow]

/-- D of an entry lies in its second byte (R235). -/
theorem u8_or_dirty (x : Nat) {i : Nat} (hi : i < 16) (h1 : i ≠ 1) : u8 (x ||| 0x400) i = u8 x i := by
  have hz : ∀ i, i < 16 → i ≠ 1 → u8 0x400 i = 0 := by decide
  rw [u8_or, hz i hi h1, Nat.or_zero]

/-- Setting D of an entry changes its second byte alone. -/
theorem mapGet_stb_dirty (s : State) (a q : Nat) (h : q ≠ memKey 0 0 a + 1) :
    mapGet 0 (s.stb 0 0 a 16 (s.ld 0 0 a 16 ||| 0x400)).mem q = mapGet 0 s.mem q := by
  rw [State.stb, mapGet_mapSetBytes, length_leBytes]
  split
  · next hq =>
    obtain ⟨i, rfl⟩ : ∃ i, q = memKey 0 0 a + i := ⟨q - memKey 0 0 a, by omega⟩
    have hi : i < 16 := by omega
    rw [Nat.add_sub_cancel_left, leBytes_eq, List.getD_eq_getElem _ _ (by simpa using hi)]
    simp only [List.getElem_map, List.getElem_range, u8_or_dirty _ hi (by rintro rfl; exact h rfl), u8_ld _ _ _ _ _ hi]
    exact ofNat_toNat_self _
  · rfl

/-! ### Where a walk ends (R229, R241) -/

/-- A walk has ended at an entry of the table region that stands in memory. -/
def State.EndsAt (s : State) (w : WalkOut) : Prop :=
  w.entry = s.ld 0 0 w.addr 16 ∧ ∃ k, k < 2 ^ 37 ∧ w.addr = tableBase + 16 * k

/-- An entry of a node. -/
theorem endsAt_of_node (s : State) {n i : Nat} (hn : ∃ j, j < 2 ^ 28 ∧ n = j * 8192) (hi : i < 2 ^ 9) (k : WalkKind) (l : Nat)
    (ls : List (Nat × Nat)) (ws : List WalkEntry) :
    s.EndsAt ⟨k, l, s.ld 0 0 (tableBase + (n + 16 * i)) 16, tableBase + (n + 16 * i), ls, ws⟩ := by
  obtain ⟨j, hj, rfl⟩ := hn
  refine ⟨rfl, 512 * j + i, by omega, ?_⟩
  dsimp only
  omega

theorem entNext_node (e : Nat) : ∃ j, j < 2 ^ 28 ∧ entNext e = j * 8192 := ⟨_, Nat.mod_lt _ (by decide), rfl⟩

theorem walkFrom_endsAt (s : State) (c : Bool) (a va : Nat) : ∀ l n ls ws, (∃ j, j < 2 ^ 28 ∧ n = j * 8192) →
    s.EndsAt (s.walkFrom none c a va l n ls ws).2 := by
  intro l
  induction l with
  | zero =>
    intro n ls ws hn
    have hend := endsAt_of_node s hn (i := bitsOf va (levelShift 0) 9) (Nat.mod_lt _ (by decide))
    unfold State.walkFrom
    simp only [tableRead_none, Option.bind_none, ite_self]
    split
    · exact hend ..
    · generalize entType (s.ld 0 0 _ 16) = k
      match k with
      | 0 | 1 | 2 | 3 | _ + 4 => exact hend ..
  | succ l ih =>
    intro n ls ws hn
    have hend := endsAt_of_node s hn (i := bitsOf va (levelShift (l + 1)) 9) (Nat.mod_lt _ (by decide))
    unfold State.walkFrom
    simp only [tableRead_none, Option.bind_none, ite_self]
    split
    · exact hend ..
    · generalize entType (s.ld 0 0 _ 16) = k
      match k with
      | 1 => exact ih _ _ _ (entNext_node _)
      | 0 | 2 | 3 | _ + 4 => exact hend ..

/-- A walk without trace that ends at a leaf. -/
theorem walkRaw_endsAt {s : State} {a va : Nat} (h : (s.walkRaw a va).kind = .leaf) : s.EndsAt (s.walkRaw a va) := by
  have hw : s.walkRaw a va = (s.walkOnce none true a va).2 := by simp [State.walkRaw, State.walkTo]
  rw [hw] at h ⊢
  simp only [State.walkOnce, tableRead_none] at h ⊢
  split at h
  · simp at h
  · split at h
    · simp at h
    · next hb hz =>
      rw [if_neg hb, if_neg hz]
      exact walkFrom_endsAt _ _ _ _ _ _ _ _ (entNext_node _)

/-! ### What a write of home bytes marks (R202, R247, R440) -/

theorem markDirty_mem (s : State) (a v va : Nat) {q : Nat} (h : ¬ sideByte (0, q)) :
    mapGet 0 (s.markDirty a v va).mem q = mapGet 0 s.mem q := by
  unfold State.markDirty
  extract_lets lk u st
  have hu : u.mem = s.mem := by
    unfold u
    split <;> rfl
  split
  · rw [hu]
  · extract_lets fk v x w
    have hv : v.mem = s.mem := by
      unfold v
      split <;> exact hu
    split
    · rw [hv]
    · split
      · exact congrArg (fun m => mapGet 0 m q) hv
      · split
        · next hk =>
          obtain ⟨he, k, hk, ha⟩ := walkRaw_endsAt hk
          rw [he, mapGet_stb_dirty]
          · exact congrArg (fun m => mapGet 0 m q) hv
          · rintro rfl
            exact h (.inr ⟨k, hk, by rw [ha, memKey, memKey, Nat.add_assoc]⟩)
        · exact congrArg (fun m => mapGet 0 m q) hv

theorem touchHome_mem (s : State) (a v va : Nat) {q : Nat} (h : ¬ sideByte (0, q)) :
    mapGet 0 (s.touchHome a v va).mem q = mapGet 0 s.mem q := by
  have hm := markDirty_mem s a v va h
  unfold State.touchHome
  dsimp only
  split <;> exact hm

theorem touchHome_translated (s : State) (a v va : Nat) : Translated s (s.touchHome a v va) := by
  have hm := markDirty_translated s a v va
  unfold State.touchHome
  dsimp only
  split
  · exact hm
  · exact hm.andThen rfl

/-! ### Frames by bytes -/

theorem KeptBut.trans {m : Nat × Nat → Prop} {s t u : State} (h : KeptBut m s t) (k : KeptBut m t u) : KeptBut m s u :=
  fun l i c hc hn => (k l i c hc hn).trans (h l i c hc hn)

theorem KeptBut.mono {m n : Nat × Nat → Prop} {s t : State} (h : KeptBut m s t) (hmn : ∀ c, m c → n c) : KeptBut n s t :=
  fun l i c hc hn => h l i c hc fun hm => hn (hmn c hm)

/-- A translation changes bytes of home memory alone. -/
theorem Translated.keptBut {m : Nat × Nat → Prop} {s t : State} (h : Translated s t)
    (hm : ∀ q, ¬ m (0, q) → mapGet 0 t.mem q = mapGet 0 s.mem q) : KeptBut m s t := by
  intro l i c hc hn
  cases l with
  | home a v x =>
    obtain rfl : c = (0, memKey a v x + i) := by simpa [Loc.cell] using hc.symm
    exact hm _ hn
  | _ =>
    rw [h.eq]
    rfl

theorem touchHome_kept (s : State) (a v va : Nat) : KeptBut sideByte s (s.touchHome a v va) :=
  (touchHome_translated ..).keptBut fun _ h => touchHome_mem _ _ _ _ h

end Sys2Proof.Machine
end

section
/-! PROOF. A weir written where it lies (R309, R314): it reads back, and no byte changes beside its 16 and D of its leaf. -/

namespace Sys2Proof.Machine

/-- The bytes that a write of the weir at `l` may change. -/
def Loc.weirByte (l : Loc) (c : Nat × Nat) : Prop := (∃ i, i < 16 ∧ l.cell i = some c) ∨ sideByte c

theorem holdsWeir_cell {l : Loc} (h : l.holdsWeir) (i : Nat) : ∃ c, l.cell i = some c := by
  obtain ⟨a, v, x, rfl, -⟩ | ⟨c, o, rfl⟩ := h <;> exact ⟨_, rfl⟩

theorem holdsWeir_not_side {l : Loc} (h : l.holdsWeir) {i : Nat} (hi : i < 16) {c : Nat × Nat} (hc : l.cell i = some c) :
    ¬ sideByte c := by
  obtain ⟨a, v, x, rfl, hs⟩ | ⟨k, o, rfl⟩ := h
  · obtain rfl : c = (0, memKey a v x + i) := by simpa [Loc.cell] using hc.symm
    exact hs i hi
  · obtain rfl : c = (1, k * 2 ^ 20 + o + i) := by simpa [Loc.cell] using hc.symm
    simp [sideByte]

theorem holdsWeir_not_reg {l : Loc} (h : l.holdsWeir) (s : State) : ∀ k x, l = .reg k x → (s.getG k).isSome = true := by
  rintro k x rfl
  obtain ⟨a, v, x, h, -⟩ | ⟨c, o, h⟩ := h <;> cases h

/-- Bytes written read back as their number. -/
theorem rdLoc_wrLoc {l : Loc} (h : l.holdsWeir) (s : State) (x : Nat) : (s.wrLoc l 16 x).rdLoc l 16 = x % 256 ^ 16 := by
  have hc : (l.cell 0).isSome = true := Option.isSome_iff_exists.2 (holdsWeir_cell h 0)
  rw [← leNat_digits]
  refine congrArg leNat (List.map_congr_left fun i hi => ?_)
  have hi : i < (leBytes 16 x).length := by rw [length_leBytes]; exact List.mem_range.1 hi
  have hb := rdByte_wrBytesFrom (s := s) (i := 0) (holdsWeir_not_reg h s) hc hi
  rw [Nat.zero_add] at hb
  refine hb.trans ?_
  simp only [leBytes_eq, List.getElem_map, List.getElem_range]
  exact BitVec.eq_of_toNat_eq (by simp [u8])

theorem rdWeir_congr {l : Loc} {s t : State} (h : ∀ i, i < 16 → t.rdByte l i = s.rdByte l i) : t.rdWeir l = s.rdWeir l :=
  congrArg (fun bs => Weir.ofNat (leNat bs)) (List.map_congr_left fun i hi => h i (List.mem_range.1 hi))

/-- A weir stands where none of its bytes changes. -/
theorem KeptBut.rdWeir {m : Nat × Nat → Prop} {l : Loc} {s t : State} (h : KeptBut m s t) (hl : l.holdsWeir)
    (hm : ∀ i, i < 16 → ∀ c, l.cell i = some c → ¬ m c) : t.rdWeir l = s.rdWeir l :=
  rdWeir_congr fun i hi => by
    obtain ⟨c, hc⟩ := holdsWeir_cell hl i
    exact h l i c hc (hm i hi c hc)

theorem wrLoc_kept {l : Loc} (h : l.holdsWeir) (s : State) (x : Nat) : KeptBut l.weirByte s (s.wrLoc l 16 x) :=
  (wrBytesFrom_kept (holdsWeir_not_reg h s)).mono fun c hc => by
    obtain ⟨k, hk, hc⟩ := hc
    rw [length_leBytes] at hk
    exact .inl ⟨k, hk, by rwa [Nat.zero_add] at hc⟩

/-- Where no register lies, a write changes no group. -/
theorem wrBytesFrom_group {l : Loc} (h : l.holdsWeir) : ∀ (bs : List Byte) (s : State) (i : Nat),
    (s.wrBytesFrom l i bs).g = s.g ∧ (s.wrBytesFrom l i bs).gid = s.gid
  | [], _, _ => ⟨rfl, rfl⟩
  | b :: bs, s, i => by
    obtain ⟨hg, hk⟩ := wrBytesFrom_group h bs (s.wrByte l i b) (i + 1)
    obtain ⟨a, v, x, rfl, -⟩ | ⟨c, o, rfl⟩ := h <;> exact ⟨hg, hk⟩

/-- `h` is the group `g`, held for an acquire at most. -/
structure Group.Awaits (g h : Group) : Prop where
  only : h = { g with hold := h.hold }
  hold : h.hold = g.hold ∨ ∃ c k n, h.hold = .acquire c k n

namespace Group.Awaits

theorem of_eq {g h : Group} (e : h = g) : g.Awaits h := by
  subst e
  exact ⟨rfl, .inl rfl⟩

theorem trans {g h k : Group} (x : g.Awaits h) (y : h.Awaits k) : g.Awaits k :=
  ⟨by rw [y.only, x.only], y.hold.elim (fun e => e ▸ x.hold) .inr⟩

end Group.Awaits

/-- `t` is `u` with weir `w` at `l`; of the executing group its hold at most has changed. -/
structure WeirWritten (l : Loc) (w : Weir) (u t : State) : Prop where
  weir : t.rdWeir l = w
  kept : KeptBut l.weirByte u t
  group : u.g.Awaits t.g
  gid : t.gid = u.gid

theorem wrWeir_written {l : Loc} (h : l.holdsWeir) {w : Weir} (hw : w.Fits) (s : State) : WeirWritten l w s (s.wrWeir l w) := by
  have hweir : (s.wrLoc l 16 w.toNat).rdWeir l = w := by
    rw [State.rdWeir, rdLoc_wrLoc h, Nat.mod_eq_of_lt w.toNat_lt, Weir.ofNat_toNat hw]
  obtain ⟨hg, hk⟩ := wrBytesFrom_group h (leBytes 16 w.toNat) s 0
  have hkept := wrLoc_kept h s w.toNat
  have hside := fun i (hi : i < 16) c (hc : l.cell i = some c) => holdsWeir_not_side h hi hc
  cases l with
  | home a v x =>
    have ht := touchHome_kept (s.wrLoc (.home a v x) 16 w.toNat) a v x
    have he := touchHome_translated (s.wrLoc (.home a v x) 16 w.toNat) a v x
    exact ⟨(ht.rdWeir h hside).trans hweir, hkept.trans (ht.mono fun _ => .inr), .of_eq (he.g.trans hg), he.gid.trans hk⟩
  | _ => exact ⟨hweir, hkept, .of_eq hg, hk⟩

end Sys2Proof.Machine
end

section
/-! PROOF. What an access in order changes beside bytes (R258 to R274): records of releases, epochs, level-1 copies, the
detector; of the executing group its hold at most. -/

namespace Sys2Proof.Machine

/-- A change of the executing group that leaves its registers changes no byte. -/
theorem setG_kept {s : State} {f : Group → Group} (hf : (f s.g).r = s.g.r) : KeptBut (fun _ => False) s (s.setG f) := by
  intro l i c _ _
  cases l with
  | reg k b =>
    by_cases hk : k = s.gid
    · simp [State.rdByte, State.getG, State.setG, hk, hf]
    · simp [State.rdByte, State.getG, hk]
  | _ => rfl

/-- Only what the order of accesses keeps beside the bytes has changed, and the hold of the executing group, which an
acquire may have taken. -/
structure Beside (s t : State) : Prop where
  only : t = { s with race := t.race, l1 := t.l1, stores := t.stores, stamps := t.stamps, rel := t.rel, lostClk := t.lostClk,
                      cores := t.cores, dies := t.dies, pois := t.pois, closeArr := t.closeArr, g := t.g }
  group : s.g.Awaits t.g

namespace Beside

theorem refl (s : State) : Beside s s := ⟨rfl, .of_eq rfl⟩

theorem trans {s t u : State} (h : Beside s t) (k : Beside t u) : Beside s u :=
  ⟨by rw [k.only, h.only], h.group.trans k.group⟩

theorem foldl {α : Type} {f : State → α → State} (hf : ∀ s x, Beside s (f s x)) :
    ∀ (xs : List α) (s : State), Beside s (xs.foldl f s)
  | [], s => refl s
  | x :: xs, s => (hf s x).trans (foldl hf xs (f s x))

theorem of_noted {a : Nat} {s t : State} (h : Noted a s t) : Beside s t := ⟨by rw [h.only], .of_eq (by rw [h.only])⟩

theorem gid {s t : State} (h : Beside s t) : t.gid = s.gid := (congrArg State.gid h.only).trans rfl

theorem kept {s t : State} (h : Beside s t) : KeptBut (fun _ => False) s t := by
  have hr : t.g.r = s.g.r := (congrArg Group.r h.group.only).trans rfl
  intro l i c hc hn
  rw [h.only]
  exact setG_kept (f := fun _ => t.g) hr l i c hc hn

end Beside

/-! ### Level-1, epochs and records (R258, R267 to R272) -/

theorem l1DropLoc_beside (s : State) (c : Nat) (l : Loc) (n : Nat) : Beside s (s.l1DropLoc c l n) := by
  unfold State.l1DropLoc
  split
  · exact .refl _
  · exact ⟨rfl, .of_eq rfl⟩

theorem l1DropAll_beside (s : State) (c : Nat) : Beside s (s.l1DropAll c) := by
  unfold State.l1DropAll
  dsimp only
  split <;> exact ⟨rfl, .of_eq rfl⟩

theorem signLoc_beside (s : State) (c : Nat) (l : Loc) (n : Nat) : Beside s (s.signLoc c l n) := by
  refine .foldl (fun _ _ => ?_) _ s
  exact ⟨rfl, .of_eq rfl⟩

theorem stampWords_beside (s : State) (d : Nat) (l : Loc) (n : Nat) : Beside s (s.stampWords d l n) := by
  unfold State.stampWords
  split
  · split
    · exact .refl _
    · refine .foldl (fun _ _ => ?_) _ s
      exact ⟨rfl, .of_eq rfl⟩
  · exact .refl _

theorem plainWrite_beside (s : State) (d : Nat) (l : Loc) (n : Nat) : Beside s (s.plainWrite d l n) := by
  have h := stampWords_beside s d l n
  unfold State.plainWrite
  dsimp only
  split
  · exact h
  · refine h.trans (.foldl (fun _ _ => ?_) _ _)
    exact ⟨rfl, .of_eq rfl⟩

theorem putRecords_beside (s : State) (sl : Nat) (ws : List Nat) (r : RelRec) : Beside s (s.putRecords sl ws r) := by
  refine .foldl (fun u w => ?_) ws s
  dsimp only
  split
  · split <;> exact ⟨rfl, .of_eq rfl⟩
  · exact ⟨rfl, .of_eq rfl⟩

theorem releaseAt_beside (s : State) (c d : Nat) (l : Loc) (n : Nat) (b : Bool) : Beside s (s.releaseAt c d l n b) := by
  unfold State.releaseAt
  dsimp only
  split
  · refine .foldl (fun _ _ => ?_) _ s
    exact ⟨rfl, .of_eq rfl⟩
  · split
    · exact ((stampWords_beside ..).trans (putRecords_beside ..)).trans ⟨rfl, .of_eq rfl⟩
    · exact (stampWords_beside ..).trans (putRecords_beside ..)
  · exact .refl _

theorem mergeClock_beside (s : State) (c d : Nat) (v : Map Nat) (g : Option Nat) : Beside s (s.mergeClock c d v g) := by
  unfold State.mergeClock
  extract_lets k above u1 u2
  have h1 : Beside s u1 := by
    unfold u1
    split
    · exact l1DropAll_beside ..
    · split
      · exact l1DropAll_beside ..
      · exact ⟨rfl, .of_eq rfl⟩
  split <;> exact h1.trans ⟨rfl, .of_eq rfl⟩

/-- An acquire holds its group at most (R270). -/
theorem acquireAt_beside (s : State) (l : Loc) (n sc : Nat) : Beside s (s.acquireAt l n sc) := by
  unfold State.acquireAt
  dsimp only
  split
  · split
    · split
      · refine ⟨rfl, rfl, ?_⟩
        dsimp only [State.setG]
        split
        · exact .inr ⟨_, _, _, rfl⟩
        · exact .inl rfl
      · exact .refl _
    · split
      · exact mergeClock_beside ..
      · refine ⟨rfl, rfl, .inr ?_⟩
        dsimp only [State.setG]
        split <;> exact ⟨_, _, _, rfl⟩
  · split
    · exact l1DropAll_beside ..
    · exact .refl _
  · exact l1DropAll_beside ..
  · exact l1DropAll_beside ..
  · exact .refl _

/-! ### An access in order (R260 to R262, R267 to R273) -/

theorem hbTakeAll_beside (s : State) (a sc : Nat) (rs : List SyncRec) : Beside s (s.hbTakeAll a sc rs) := by
  refine .foldl (fun _ _ => ?_) _ s
  exact ⟨rfl, .of_eq rfl⟩

theorem hbRelease_beside (s : State) (a : Nat) (ws : List Nat) (sc : Nat) (c : Bool) : Beside s (s.hbRelease a ws sc c) :=
  ⟨rfl, .of_eq rfl⟩

theorem orderAt_beside (s : State) (p : Piece) (j : Joins) (acq rel : Bool) (sc : Nat) :
    Beside s (s.orderAt p j acq rel sc) := by
  unfold State.orderAt
  extract_lets ws s1 s2 s3 s4
  have h1 : Beside s s1 := by
    unfold s1
    split
    · exact .refl _
    · exact .of_noted (orderRead_noted ..)
  have h2 : Beside s s2 := by
    unfold s2
    split
    · exact (h1.trans (acquireAt_beside ..)).trans (hbTakeAll_beside ..)
    · exact h1
  have h3 : Beside s s3 := by
    unfold s3
    split
    · exact h2
    · exact h2.trans (.of_noted (orderWrite_noted ..))
  have h4 : Beside s s4 := by
    unfold s4
    split
    · exact h3.trans (.of_noted (seeBytes_noted ..))
    · exact h3.trans (.of_noted (seeHome_noted ..))
  split
  · exact (h4.trans (releaseAt_beside ..)).trans (hbRelease_beside ..)
  · exact h4

/-! ### A group's update of a weir (R258, R271, R314, R403) -/

theorem wroteWeir_beside (s : State) (p : Piece) : Beside s (s.wroteWeir p) :=
  (l1DropLoc_beside ..).trans (signLoc_beside ..)

theorem poisonLoc_beside {l : Loc} (h : l.holdsWeir) (s : State) (n : Nat) : Beside s (s.poisonLoc l n) := by
  refine .foldl (fun u i => ?_) _ s
  obtain ⟨a, v, x, rfl, -⟩ | ⟨c, o, rfl⟩ := h <;> exact ⟨rfl, .of_eq rfl⟩

/-- The weir stands while no byte changes. -/
theorem WeirWritten.later {l : Loc} {w : Weir} {u t v : State} (h : WeirWritten l w u t) (hl : l.holdsWeir)
    (k : KeptBut (fun _ => False) t v) : v.rdWeir l = w ∧ KeptBut l.weirByte u v :=
  ⟨(k.rdWeir hl fun _ _ _ _ => id).trans h.weir, h.kept.trans (k.mono fun _ => False.elim)⟩

theorem WeirWritten.beside {l : Loc} {w : Weir} {u t v : State} (h : WeirWritten l w u t) (hl : l.holdsWeir) (k : Beside t v) :
    WeirWritten l w u v :=
  have ⟨hweir, hkept⟩ := h.later hl k.kept
  ⟨hweir, hkept, h.group.trans k.group, k.gid.trans h.gid⟩

theorem WeirWritten.after {l : Loc} {w : Weir} {s u t : State} (h : WeirWritten l w u t) (k : Beside s u) :
    WeirWritten l w s t where
  weir := h.weir
  kept := (k.kept.mono fun _ => False.elim).trans h.kept
  group := k.group.trans h.group
  gid := h.gid.trans k.gid

/-- No close of a round goes on at the weir, and none is asked for (R309). -/
def State.noClose (s : State) (l : Loc) : Prop :=
  s.closings.all (fun c => (Loc.home c.asid c.view c.epa).weirKey != l.weirKey) = true ∧ mapGet 0 s.closeArr l.weirKey = 0

/-- Arrivals at a weir that no close concerns. -/
theorem weirUpdate_written {l : Loc} (h : l.holdsWeir) {s : State} (hc : s.noClose l) (n : Nat) :
    WeirWritten l ((s.rdWeir l).update n 0) s (s.weirUpdate l n 0 false none) := by
  obtain ⟨hnone, hzero⟩ := hc
  have hfind : s.closings.find? (fun c => (Loc.home c.asid c.view c.epa).weirKey == l.weirKey) = none := by
    rw [List.find?_eq_none]
    intro c hm
    simpa using List.all_eq_true.1 hnone c hm
  have hw : s.weirUpdate l n 0 false none = ({ s with closeArr := mapSet 0 s.closeArr l.weirKey 0 } : State).wrWeir l
      ((s.rdWeir l).update n 0) := by
    unfold State.weirUpdate
    simp [hfind, hzero, Weir.update]
  rw [hw]
  exact (wrWeir_written h (Weir.update_fits (rdWeir_fits s l) n 0) _).after ⟨rfl, .of_eq rfl⟩

end Sys2Proof.Machine
end

section
/-! PROOF. The weir words (R177, R313 to R316, R404): the one access of each is served at a weir, which it sets, arrives at or
reads. -/

namespace Sys2Proof.Machine

/-! ### One access (R292, R404) -/

section
variable {kd : Kind} {pre : Option Nat} {hint n k ea l ea' : Nat} {sh : Bool} {s u : State} {ps : List Piece}

theorem resolve_of_served (h : Served kd pre hint n sh [(k, ea)] s u [(l, ea', ps)]) : s.resolve kd hint ea n = (u, .ok ps) := by
  have hf := h.found
  simp only [State.lookUps, List.foldl_cons, List.foldl_nil, List.nil_append, List.map_cons, List.map_nil, Prod.mk.injEq,
    List.cons.injEq, and_true] at hf
  obtain ⟨hu, -, -, hr⟩ := hf
  exact Prod.ext hu hr

/-- The lookup keeps the issue and the group but for its lane registers. -/
theorem front_of_served (h : Served kd pre hint n sh [(k, ea)] s u [(l, ea', ps)]) : u.front = s.front :=
  (congrArg (fun r => State.front r.1) (resolve_of_served h)).symm.trans (resolve_front ..)
end

theorem rs_of_front {s t : State} (h : t.front = s.front) (b : BitVec 7) : t.rs b = s.rs b := by
  have hi : t.iss = s.iss := congrArg Front.iss h
  have hs : t.g.r.s = s.g.r.s := congrArg (fun f => f.g.r.s) h
  unfold State.rs State.src
  rw [hi]
  cases s.iss.pre with
  | none => exact congrArg (fun m => mapGet 0 m b.toNat) hs
  | some r => rfl

section
variable {kd : Kind} {a ea l ea' : Nat} {s u : State} {p : Piece} {f : State → Piece → Weir → State}
variable (h : Served kd none 0 16 true [(s.lead, ea)] s u [(l, ea', [p])])
include h

/-- A wait or a probe whose access is served reads the weir, unless it is poisoned before the lookup or after. -/
theorem readWeir_served : s.readWeir kd a ea f = if s.locPois p.loc 16 then s.weirPoison a ea
    else if u.locPois p.loc 16 then u.weirPoison a ea else f u p (u.rdWeir p.loc) := by
  unfold State.readWeir
  dsimp only
  rw [h.checks, resolve_of_served h, accesses_served h]
  simp only [Option.isNone_none, Bool.true_and, List.any_cons, List.any_nil, Bool.or_false]
  rfl

/-- R404: the trap of a word that waits on a poisoned weir or reads it. -/
theorem exec_poisoned {i : Instr} (he : exec i s = .next (s.readWeir kd a ea f))
    (hp : (s.locPois p.loc 16 || u.locPois p.loc 16) = true) :
    ∃ t, t.cause = 13 ∧ t.i2 = BitVec.ofNat 64 (256 + a) ∧ t.addr = ea ∧ t.lane = lowestLane s.iss.eff ∧
      exec i s = .next ((if s.locPois p.loc 16 then s else u).trap t) := by
  rw [he, readWeir_served h]
  by_cases hs : s.locPois p.loc 16 = true
  · simp only [if_pos hs]
    exact ⟨_, rfl, rfl, rfl, rfl, rfl⟩
  · have hu : u.locPois p.loc 16 = true := by simpa [hs] using hp
    have hi : u.iss = s.iss := congrArg Front.iss (front_of_served h)
    simp only [if_neg hs, if_pos hu]
    exact ⟨_, rfl, rfl, rfl, congrArg (fun i => lowestLane i.eff) hi, rfl⟩

theorem exec_clean {i : Instr} (he : exec i s = .next (s.readWeir kd a ea f))
    (hc : s.locPois p.loc 16 = false ∧ u.locPois p.loc 16 = false) : exec i s = .next (f u p (u.rdWeir p.loc)) :=
  he.trans (by simp [readWeir_served h, hc])
end

/-! ### Loads and stores outstanding (R27) -/

theorem addLoad_kept (s : State) (ws : List LoadWrite) : KeptBut (fun _ => False) s (s.addLoad ws) := setG_kept rfl

theorem addLoad_sent {u v : State} (h : u.g.Awaits v.g) (ws : List LoadWrite) :
    (v.addLoad ws).g.ldcnt = u.g.ldcnt + 1 ∧ (v.addLoad ws).g.loads = u.g.loads ++ [⟨ws, none⟩] :=
  ⟨congrArg (· + 1) ((congrArg Group.ldcnt h.only).trans rfl), congrArg (· ++ _) ((congrArg Group.loads h.only).trans rfl)⟩

theorem countStore_kept (s : State) (k : StoreKind) (undo : List (Nat × Byte)) :
    KeptBut (fun _ => False) s (s.countStore k undo) :=
  fun l i c hc hn => setG_kept (s := (s.addStore (some s.gid) s.g.die k undo).1)
    (f := fun g => { g with stcnt := g.stcnt + 1 }) rfl l i c hc hn

theorem countStore_sent {u v : State} (h : u.g.Awaits v.g) (hg : v.gid = u.gid) (k : StoreKind) (undo : List (Nat × Byte)) :
    StoreSent u (v.countStore k undo) where
  count := congrArg (· + 1) ((congrArg Group.stcnt h.only).trans rfl)
  store := ⟨_, List.getLast?_concat, congrArg some hg⟩
  regs := by
    have hr : v.g.r = u.g.r := (congrArg Group.r h.only).trans rfl
    change v.g.r.s = _ ∧ v.g.r.p = _ ∧ v.g.r.mstat = _ ∧ v.g.r.fpctl = _
    rw [hr]
    exact ⟨rfl, rfl, rfl, rfl⟩
  lanes := ⟨(congrArg Group.pcv h.only).trans rfl, (congrArg Group.lsv h.only).trans rfl,
    (congrArg Group.blk h.only).trans rfl⟩

/-! ### `warm` (R316) -/

/-- What `warm` does beside the weir that it has written: the write joins the order, and is poisoned where scalar `b` is. -/
def State.warmNoted (s : State) (b : BitVec 7) (p : Piece) : State :=
  let s := s.wroteWeir p
  let s := (s.plainWrite s.g.die p.loc 16).orderAt p .write false false 0
  if s.src.poisS b.toNat then s.poisonLoc p.loc 16 else s

theorem warmNoted_beside {p : Piece} (h : p.loc.holdsWeir) (s : State) (b : BitVec 7) : Beside s (s.warmNoted b p) := by
  unfold State.warmNoted
  extract_lets s1 s2
  have h2 : Beside s s2 := ((wroteWeir_beside s p).trans (plainWrite_beside ..)).trans (orderAt_beside ..)
  split
  · exact h2.trans (poisonLoc_beside h ..)
  · exact h2

/-- A weir with its targets set and its counts cleared. -/
def Weir.withTargets (w : Weir) (x : Nat) : Weir := { w with atgt := bitsOf x 0 16, btgt := bitsOf x 16 32, arr := 0, bytes := 0 }

theorem Weir.withTargets_fits {w : Weir} (h : w.Fits) (x : Nat) : (w.withTargets x).Fits :=
  ⟨Nat.mod_lt _ (Nat.two_pow_pos 16), Nat.two_pow_pos 16, Nat.mod_lt _ (Nat.two_pow_pos 32), Nat.two_pow_pos 32, h.phase⟩

theorem Weir.withTargets_eq (w : Weir) (x : Nat) : w.withTargets x = ⟨x % 2 ^ 16, 0, x / 2 ^ 16 % 2 ^ 32, 0, w.phase⟩ := by
  rw [Weir.withTargets, bitsOf_zero]
  rfl

/-- The weir at a place with its targets set by scalar `b`. -/
def State.warmed (s : State) (b : BitVec 7) (p : Piece) : State :=
  (s.wrWeir p.loc ((s.rdWeir p.loc).withTargets (s.rs b).toNat)).warmNoted b p

theorem warmed_written {s : State} {p : Piece} (h : p.loc.holdsWeir) (b : BitVec 7) :
    WeirWritten p.loc ((s.rdWeir p.loc).withTargets (s.rs b).toNat) s (s.warmed b p) :=
  (wrWeir_written h (Weir.withTargets_fits (rdWeir_fits ..) _) s).beside h (warmNoted_beside h ..)

theorem exec_warm {a b : BitVec 7} {s u : State} {l ea : Nat} {p : Piece} (h : Ready (.warm a b) s)
    (hs : Served kWarm none 0 16 true (s.oneAccess a) s u [(l, ea, [p])]) (hp : p.hold = false) :
    exec (.warm a b) s = .next ((u.warmed b p).countStore (.write []) (u.undoBytes [p])) := by
  refine (exec_of_ready (i := .warm a b) (show execWarm a b s = issued _ s _ from rfl) h rfl rfl).trans ?_
  rw [show s.sharedEa a = s.oneAccess a from rfl, accesses_served hs]
  simp only [List.flatMap_cons, List.flatMap_nil, List.append_nil, List.foldl_cons, List.foldl_nil, hp, Bool.false_eq_true,
    if_false]
  rfl

/-! ### Arrivals (R177, R316) -/

/-- `n` arrivals of the executing group at a place, as a release at scope `sc`. -/
def State.arriveAt (s : State) (p : Piece) (n sc : Nat) : State :=
  ((s.weirUpdate p.loc n 0 false none).wroteWeir p).orderAt p .both false true sc

theorem arriveAt_written {s : State} {p : Piece} (h : p.loc.holdsWeir) (hc : s.noClose p.loc) (n sc : Nat) :
    WeirWritten p.loc ((s.rdWeir p.loc).update n 0) s (s.arriveAt p n sc) :=
  ((weirUpdate_written h hc n).beside h (wroteWeir_beside ..)).beside h (orderAt_beside ..)

theorem weirClosing_of_noClose {s : State} {l : Loc} (h : s.noClose l) : s.weirClosing l = false := by
  obtain ⟨hnone, -⟩ := h
  rw [State.weirClosing, List.any_eq_false]
  intro c hm
  simpa using List.all_eq_true.1 hnone c hm

section
variable {d a : BitVec 7} {sc : BitVec 3} {n : BitVec 4} {s u : State} {l ea : Nat} {p : Piece}
variable (h : Ready (.warr d a sc n) s) (hs : Served kWeir none 0 16 true (s.oneAccess a) s u [(l, ea, [p])])
include h hs

theorem exec_warr_stalls (hr : u.releaseWaits p.loc sc.toNat = true) : exec (.warr d a sc n) s = .next u.stall := by
  refine (exec_of_ready (i := .warr d a sc n) (show execWarr d a sc n s = issued _ s _ from rfl) h rfl rfl).trans ?_
  rw [show s.sharedEa a = s.oneAccess a from rfl, accesses_served hs]
  exact congrArg Host.Outcome.next (if_pos hr)

theorem exec_warr_arrives (hr : u.releaseWaits p.loc sc.toNat = false) (hc : u.noClose p.loc) :
    exec (.warr d a sc n) s = .next ((u.arriveAt p (n.toNat + 1) sc.toNat).addLoad
      [.scalar d.toNat (BitVec.ofNat 64 (u.rdWeir p.loc).phase) (u.locPois p.loc 16)]) := by
  refine (exec_of_ready (i := .warr d a sc n) (show execWarr d a sc n s = issued _ s _ from rfl) h rfl rfl).trans ?_
  rw [show s.sharedEa a = s.oneAccess a from rfl, accesses_served hs]
  refine congrArg Host.Outcome.next ((if_neg (by simp [hr])).trans (if_neg ?_))
  simp [weirClosing_of_noClose hc]
end

/-! ### `wwait` (R315, R316) -/

/-- What `wwait` does at the weir that it names: it acquires once the phase has passed, and else holds the group. -/
def State.waitAt (s : State) (a b : BitVec 7) (sc : Nat) (p : Piece) (w : Weir) : State :=
  if passed w.phase ((s.rs b).extractLsb' 0 32).toNat then s.orderAt p .read true false sc
  else s.setG (fun g => { g with hold := .wwait (s.rs a).toNat ((s.rs b).extractLsb' 0 32) sc s.iss.chainPc })

theorem exec_wwait {sc : BitVec 3} {a b : BitVec 7} {s : State} (h : Ready (.wwait sc a b) s) : exec (.wwait sc a b) s =
    .next (s.readWeir kWeirRead a.toNat (s.rs a).toNat (fun u p w => u.waitAt a b sc.toNat p w)) :=
  exec_of_ready (i := .wwait sc a b) (show execWwait sc a b s = issued _ s _ from rfl) h rfl rfl

/-- The phase that a scalar names (R316). -/
theorem phaseOf_toNat (x : DWord) : (x.extractLsb' 0 32).toNat = x.toNat % 2 ^ 32 := by
  rw [BitVec.extractLsb'_toNat, Nat.shiftRight_zero]

theorem waitAt_passed {s : State} {a b : BitVec 7} {sc : Nat} {p : Piece} {w : Weir}
    (h : passed w.phase ((s.rs b).toNat % 2 ^ 32) = true) : s.waitAt a b sc p w = s.orderAt p .read true false sc :=
  if_pos (by rw [phaseOf_toNat, h])

theorem waitAt_holds {s : State} {a b : BitVec 7} {sc : Nat} {p : Piece} {w : Weir}
    (h : ¬ passed w.phase ((s.rs b).toNat % 2 ^ 32) = true) : s.waitAt a b sc p w = { s with g := { s.g with
      hold := .wwait (s.rs a).toNat (BitVec.ofNat 32 ((s.rs b).toNat % 2 ^ 32)) sc s.iss.chainPc } } := by
  rw [← phaseOf_toNat, ofNat_toNat_self]
  exact if_neg (by rwa [phaseOf_toNat])

/-! ### The team barrier (R177) -/

/-- What `tbar` does at the team's weir: it arrives, and waits for the phase to change. -/
def State.barrierAt (s : State) (off : Nat) (p : Piece) (w : Weir) : State :=
  if passed ((s.arriveAt p 1 1).rdWeir p.loc).phase w.phase then (s.arriveAt p 1 1).orderAt p .read true false 1
  else (s.arriveAt p 1 1).setG (fun g => { g with hold := .tbar off (BitVec.ofNat 32 w.phase) })

theorem exec_tbar {a : BitVec 7} {s : State} (h : Ready (.tbar a) s) : exec (.tbar a) s = .next
    (if 0x100000 ≤ (s.rs a).toNat then s.trap (s.trapOf 8 s.iss.pc.toNat ((localBase + (s.rs a).toNat) % 2 ^ 64) 1 0)
    else s.readWeir ⟨.weir, 16, 16, .weir, .read⟩ a.toNat (localBase + (s.rs a).toNat)
      (fun u p w => if u.releaseWaits p.loc 1 then u.stall else u.barrierAt (s.rs a).toNat p w)) :=
  exec_of_ready (i := .tbar a) (show execTbar a s = issued _ s _ from rfl) h rfl rfl

/-- The barrier holds its group exactly where its arrival has not ended the phase. -/
theorem barrierAt_ends {s : State} {p : Piece} (hl : p.loc.holdsWeir) (hc : s.noClose p.loc) (off : Nat) :
    let t := s.barrierAt off p (s.rdWeir p.loc)
    let w := (s.rdWeir p.loc).update 1 0
    t.rdWeir p.loc = w ∧ t.g.r = s.g.r ∧ KeptBut p.loc.weirByte s t ∧
      (w.phase = (s.rdWeir p.loc).phase → t.g.hold = .tbar off (BitVec.ofNat 32 (s.rdWeir p.loc).phase)) ∧
      (w.phase ≠ (s.rdWeir p.loc).phase → t.g.hold = s.g.hold ∨ ∃ c k n, t.g.hold = .acquire c k n) := by
  intro t w
  have ha := arriveAt_written hl hc 1 1
  have hpass := Weir.passed_update (rdWeir_fits s p.loc) 1
  by_cases he : w.phase = (s.rdWeir p.loc).phase
  · have ht : t = (s.arriveAt p 1 1).setG (fun g => { g with hold := .tbar off (BitVec.ofNat 32 (s.rdWeir p.loc).phase) }) :=
      if_neg (by rw [ha.weir, hpass]; exact not_not.2 he)
    obtain ⟨hweir, hkept⟩ := ha.later hl (v := t) (ht ▸ setG_kept rfl)
    exact ⟨hweir, ht ▸ (congrArg Group.r ha.group.only).trans rfl, hkept, fun _ => ht ▸ rfl, fun hn => absurd he hn⟩
  · have ht : t = (s.arriveAt p 1 1).orderAt p .read true false 1 := if_pos (by rw [ha.weir, hpass]; exact he)
    obtain ⟨hweir, hkept, hgroup, -⟩ := ha.beside hl (orderAt_beside (s.arriveAt p 1 1) p .read true false 1)
    rw [← ht] at hweir hkept hgroup
    exact ⟨hweir, (congrArg Group.r hgroup.only).trans rfl, hkept, fun h => absurd h he, fun _ => hgroup.hold⟩

end Sys2Proof.Machine
end

section
open Sys2Proof Sys2Proof.Machine

/-- Settles O35: each word is served at one weir; what it sets or adds there reads back, and the order it joins changes of the
group its hold at most. -/
theorem weirs : Obligations.Weirs := by
  unfold Obligations.Weirs
  intro step past simple got poisoned clean
  have hstep : ∀ (u : State) (l : Loc) (n : Nat), (u.rdWeir l).update n 0 = step (u.rdWeir l) n := fun u l n =>
    Weir.update_arrivals (rdWeir_fits u l) n
  refine ⟨?warm, ?warr, ?wprobe, ?wwait, ?tbar⟩
  case warm =>
    intro a b s u l p x h hs hp hl
    have hw := warmed_written (s := u) hl b
    rw [rs_of_front (front_of_served hs), Weir.withTargets_eq] at hw
    obtain ⟨hweir, hkept⟩ := hw.later hl (countStore_kept (u.warmed b p) (.write []) (u.undoBytes [p]))
    exact ⟨_, exec_warm h hs hp, countStore_sent hw.group hw.gid .., hweir, hkept⟩
  case warr =>
    intro d a sc n s u l p h hs
    refine ⟨exec_warr_stalls h hs, fun hr ⟨hl, hc⟩ => ?_⟩
    have hw := arriveAt_written hl hc (n.toNat + 1) sc.toNat
    obtain ⟨hweir, hkept⟩ := hw.later hl (addLoad_kept (u.arriveAt p (n.toNat + 1) sc.toNat)
      [.scalar d.toNat (BitVec.ofNat 64 (u.rdWeir p.loc).phase) (u.locPois p.loc 16)])
    exact ⟨_, exec_warr_arrives h hs hr hc, hweir.trans (hstep ..), addLoad_sent hw.group _, hkept⟩
  case wprobe =>
    intro d a sc s u l p h hs
    have he := exec_of_ready (i := .wprobe d a sc) (show execWprobe d a sc s = issued _ s _ from rfl) h rfl rfl
    have ho := orderAt_beside u p .read true false sc.toNat
    exact ⟨exec_poisoned hs he, fun hc => ⟨_, exec_clean hs he hc, ho.kept.trans (addLoad_kept _ _),
      addLoad_sent ho.group _⟩⟩
  case wwait =>
    intro sc a b s u l p h ph hs
    have hf := front_of_served hs
    have hpast : passed (u.rdWeir p.loc).phase ((u.rs b).toNat % 2 ^ 32) = true ↔ past (u.rdWeir p.loc).phase ph := by
      rw [rs_of_front hf]
      exact passed_iff _ (Nat.mod_lt _ (Nat.two_pow_pos 32))
    refine ⟨exec_poisoned hs (exec_wwait h), fun hc hq => ?_, fun hc hq => ?_⟩
    · have ho := orderAt_beside u p .read true false sc.toNat
      have he := (exec_clean hs (exec_wwait h) hc).trans (congrArg Host.Outcome.next (waitAt_passed (hpast.2 hq)))
      exact ⟨_, he, ho.kept, (congrArg Group.r ho.group.only).trans rfl, ho.group.hold⟩
    · have he := (exec_clean hs (exec_wwait h) hc).trans (congrArg Host.Outcome.next (waitAt_holds (mt hpast.1 hq)))
      rw [rs_of_front hf, rs_of_front hf, show u.iss.chainPc = s.iss.chainPc from congrArg (fun f => f.iss.chainPc) hf] at he
      exact he
  case tbar =>
    intro a s h off
    refine ⟨fun ho => ⟨_, rfl, rfl, (exec_tbar h).trans (congrArg Host.Outcome.next (if_pos ho))⟩, fun ho u l p hs => ?_⟩
    have he := (exec_tbar h).trans (congrArg Host.Outcome.next (if_neg (Nat.not_le.2 ho)))
    refine ⟨exec_poisoned hs he, fun hc hr => ?_, fun hc hr ⟨hl, hn⟩ => ?_⟩
    · exact (exec_clean hs he hc).trans (congrArg Host.Outcome.next (if_pos hr))
    · have hb := barrierAt_ends hl hn off
      rw [hstep] at hb
      obtain ⟨hweir, hregs, hkept, hsame, hnew⟩ := hb
      exact ⟨_, (exec_clean hs he hc).trans (congrArg Host.Outcome.next (if_neg (by simp [hr]))), hweir, hregs, hkept, hsame,
        hnew⟩
end

section
/-! PROOF. The checks of an access in their order, and the words that they stop (R215, R228, R292 to R294, R411). -/

namespace Sys2Proof.Machine

section checks
variable {kd : Kind} {pre : Option Nat} {n l ea r : Nat} {shared : Bool} {s : State} {xs ys zs : List (Nat × Nat)}

/-- The lowest lane that fails a check, where those below it pass. -/
theorem find_lowest {α : Type} {p : α → Bool} {x : α} {ys zs : List α} (hys : ∀ y ∈ ys, p y = false) (hx : p x = true) :
    (ys ++ x :: zs).find? p = some x := by
  rw [List.find?_append, List.find?_eq_none.2 fun y hy => by simp [hys y hy], Option.none_or, List.find?_cons_of_pos hx]

/-- R292: the first check. -/
theorem checkAccess_of_far (h : xs.find? (fun x => 2 ^ 57 ≤ x.2) = some (l, ea)) :
    s.checkAccess kd pre n shared xs = some { s.trapOf 7 ea 0 0 0 with lane := l } := by
  simp only [State.checkAccess, h]

variable (hlow : ∀ x ∈ xs, x.2 < 2 ^ 57)
include hlow

theorem find_far : xs.find? (fun x => 2 ^ 57 ≤ x.2) = none :=
  List.find?_eq_none.2 fun x hx => by simpa using hlow x hx

/-- R215: the second check. -/
theorem checkAccess_of_window (h : xs.find? (fun x => (s.windowReason x.2 n).isSome) = some (l, ea)) :
    s.checkAccess kd pre n shared xs =
      some { s.trapOf 8 s.iss.pc.toNat ea ((s.windowReason ea n).getD 0) 0 with lane := l } := by
  simp only [State.checkAccess, find_far hlow, h]

variable (hwin : ∀ x ∈ xs, s.windowReason x.2 n = none)
include hwin

omit hlow in
theorem find_window : xs.find? (fun x => (s.windowReason x.2 n).isSome) = none :=
  List.find?_eq_none.2 fun x hx => by simp [hwin x hx]

/-- R228: the third check. -/
theorem checkAccess_of_table (hprv : s.g.r.prv = 0)
    (h : xs.find? (fun x => inTable x.2 || inTable (x.2 + n - 1)) = some (l, ea)) :
    s.checkAccess kd pre n shared xs = some { s.trapOf 9 0 ea 9 0 with lane := l } := by
  simp only [State.checkAccess, find_far hlow, find_window hwin, if_pos hprv, h]

/-- R293: the checks of alignment, region and view. -/
theorem checkAccess_of_kind (htab : s.g.r.prv ≠ 0 ∨ ∀ x ∈ xs, inTable x.2 = false ∧ inTable (x.2 + n - 1) = false)
    (h : xs.find? (fun x => (s.kindReason kd pre x.2 n).isSome) = some (l, ea)) :
    ∃ m, s.checkAccess kd pre n shared xs = some (s.kindTrap l ea ((s.kindReason kd pre ea n).getD 0) m shared) := by
  have ht : (if s.g.r.prv = 0 then xs.find? (fun x => inTable x.2 || inTable (x.2 + n - 1)) else none) = none := by
    split
    · next hp =>
      have hx := htab.resolve_left (not_not_intro hp)
      exact List.find?_eq_none.2 fun x hm => by simp [hx x hm]
    · rfl
  simp only [State.checkAccess, find_far hlow, find_window hwin, ht, h]
  exact ⟨_, rfl⟩

end checks

/-! ### The words that a check stops -/

theorem accesses_stopped {kd : Kind} {pre : Option Nat} {hint n : Nat} {shared : Bool} {xs : List (Nat × Nat)} {s : State}
    {t : TrapReq} (f : State → List (Nat × Nat × List Piece) → State) (h : s.checkAccess kd pre n shared xs = some t) :
    s.accesses kd pre hint n shared xs f = s.trap t := by
  simp only [State.accesses, h]

theorem exec_laneLoad_stopped {i : Instr} {s : State} {w n : Nat} {t b x : BitVec 7} {y : BitVec 1} {o : Option (BitVec 32)}
    {h : BitVec 2} {ext : Nat → Nat} {r : TrapReq} (hr : Ready i s) (hi : infoOf i = infLd w n t b x y o)
    (he : exec i s = issued (infLd w n t b x y o) s (laneLoad w n t h (memEa b x y o n s.src) ext))
    (hc : s.checkAccess (kLoad n) none n false ((lanesOf s.leadLanes).map (fun l => (l, eaOf s b x y o n l))) = some r) :
    exec i s = .next (s.trap r) :=
  (exec_of_ready he hr hi rfl).trans (congrArg Host.Outcome.next (accesses_stopped _ hc))

/-- What a lane's store would write: address and data (R411). -/
def State.storeOf (s : State) (b x : BitVec 7) (y : BitVec 1) (o : Option (BitVec 32)) (t : BitVec 7) (w n l : Nat) : Nat × Nat :=
  (eaOf s b x y o n l, s.src.rdW w t.toNat l % 256 ^ n)

theorem pairMism_eq_none {s : State} {f : Nat → Nat × Nat} : s.pairMism f = none ↔ s.alike f := by
  unfold State.pairMism State.alike
  cases s.src.prot <;> simp [List.findSome?_eq_none_iff]

theorem paired_differ {s : State} {f : Nat → Nat × Nat} {m : Nat × DWord} (h : s.pairMism f = some m) (k : State → State) :
    s.paired f k = s.setIss (fun z => { z with mism := some m }) := by
  simp only [State.paired, h]

theorem paired_agree {s : State} {f : Nat → Nat × Nat} (h : s.pairMism f = none) (k : State → State) : s.paired f k = k s := by
  simp only [State.paired, h]

section store
variable {i : Instr} {s : State} {w n : Nat} {t b x : BitVec 7} {y : BitVec 1} {o : Option (BitVec 32)} {h : BitVec 2}
  (hr : Ready i s) (hi : infoOf i = infSt w n t b x y o)
  (he : exec i s = issued (infSt w n t b x y o) s (laneStore w n t h (memEa b x y o n s.src)))
include hr hi he

/-- R411: a pair whose writes differ makes none; a check that fails stops the word. -/
theorem exec_laneStore_stopped :
    (¬ s.alike (s.storeOf b x y o t w n) → ∃ m, exec i s = .next (s.setIss (fun z => { z with mism := some m }))) ∧
    (s.alike (s.storeOf b x y o t w n) → ∀ r,
      s.checkAccess (kStore n) none n false ((lanesOf s.leadLanes).map (fun l => (l, eaOf s b x y o n l))) = some r →
      exec i s = .next (s.trap r)) := by
  have hx := exec_of_ready he hr hi rfl
  unfold laneStore at hx
  refine ⟨fun hm => ?_, fun hm r hc => ?_⟩
  · obtain ⟨m, hm⟩ := Option.ne_none_iff_exists'.1 (mt pairMism_eq_none.1 hm)
    exact ⟨m, hx.trans (congrArg Host.Outcome.next (paired_differ hm _))⟩
  · exact hx.trans (congrArg Host.Outcome.next ((paired_agree (pairMism_eq_none.2 hm) _).trans (accesses_stopped _ hc)))
end store

end Sys2Proof.Machine
end

section
open Sys2Proof Sys2Proof.Machine

/-- Settles O31: each check finds the lowest lane that fails it, and a trap of the checks is all that its word does. -/
theorem accessChecks : Obligations.AccessChecks := by
  unfold Obligations.AccessChecks
  refine ⟨fun kd pre n shared s ys l ea zs => ⟨fun hys hea => ?_, fun hlow hys r hr => ?_, fun hlow hwin hprv hys hea => ?_,
    fun hlow hwin htab hys r hr => ?_, fun ha => if_pos ha⟩, fun c n hc t b x y o h s r hr hx => ?_,
    fun c w n hc t b x y o h s hr => ?_⟩
  -- the four checks
  · exact ⟨_, checkAccess_of_far (find_lowest (fun y hy => by simpa using hys y hy) (by simpa using hea)), rfl, rfl, rfl⟩
  · refine ⟨_, checkAccess_of_window hlow (find_lowest (fun y hy => by simp [hys y hy]) (by simp [hr])), rfl, rfl, ?_, rfl, ?_⟩
    · exact (BitVec.ofNat_toNat ..)
    · exact congrArg (fun x : Option Nat => BitVec.ofNat 64 (x.getD 0)) hr
  · exact ⟨_, checkAccess_of_table hlow hwin hprv (find_lowest (fun y hy => by simp [hys y hy]) (by simpa using hea)), rfl, rfl,
      rfl⟩
  · obtain ⟨m, hm⟩ := checkAccess_of_kind (kd := kd) (pre := pre) (shared := shared) hlow hwin htab
      (find_lowest (fun y hy => by simp [hys y hy]) (by simp [hr]))
    refine ⟨_, hm, rfl, rfl, ?_, rfl, ?_⟩
    · exact (BitVec.ofNat_toNat ..)
    · exact congrArg (fun x : Option Nat => BitVec.ofNat 64 (x.getD 0)) hr
  -- loads
  · obtain ⟨rfl, rfl | rfl⟩ | ⟨rfl, rfl | rfl⟩ | ⟨rfl, rfl⟩ | ⟨rfl, rfl⟩ | ⟨rfl, rfl⟩ := hc <;>
      exact exec_laneLoad_stopped hr rfl rfl hx
  -- stores
  · obtain ⟨rfl, rfl, rfl⟩ | ⟨rfl, rfl, rfl⟩ | ⟨rfl, rfl, rfl⟩ | ⟨rfl, rfl, rfl⟩ | ⟨rfl, rfl, rfl⟩ := hc <;>
      exact exec_laneStore_stopped hr rfl rfl
end

section
/-! PROOF. The writes of the management space and what they bring about (R208, R483 to R491, R497). -/

namespace Sys2Proof.Machine

/-! ### Registers by their offset (R483, R487, R496) -/

section offsets
variable {p o n v : Nat} {w : Writer} {s : State}

/-- The block and the register that an offset names. -/
theorem mgmtPut_polder {off : Nat} (hoff : off = (16 + p) * 0x10000 + o) (hp : p < 256) (ho : o < 0x10000) :
    s.mgmtPut off n v w = s.polderPut p o n v w := by
  have hb : off / 0x10000 = 16 + p := by omega
  have hr : off % 0x10000 = o := by omega
  have h0 : ¬ 16 + p = 0 := by omega
  have h8 : ¬ 16 + p ≤ 8 := by omega
  have h15 : ¬ 16 + p = 15 := by omega
  have h16 : 16 ≤ 16 + p ∧ 16 + p < 272 := by omega
  simp only [State.mgmtPut, hb, hr, if_neg h0, if_neg h8, if_neg h15, if_pos h16, Nat.add_sub_cancel_left]

theorem mgmtWrite_four (off : Nat) : s.mgmtWrite off 4 v w = s.mgmtPut off 4 v w :=
  if_neg fun h => absurd h.1 (by decide)

theorem mgmtWrite_wide {off : Nat} (h : mgmtWide off = true) : s.mgmtWrite off n v w = s.mgmtPut off n v w :=
  if_neg (by simp [h])

theorem exec_mgmtRegisterWrite_aligned {off : Nat} {x : BitVec 64} (h : (n = 4 ∨ n = 8) ∧ off % n = 0) :
    exec (.mgmtRegisterWrite off n x w) s = .next (s.mgmtWrite off n x.toNat w) :=
  congrArg Host.Outcome.next (if_pos h)

/-- A register of 64 bits is replaced whole. -/
theorem patchAt_whole (old v : Nat) (h : old < 2 ^ 64) (hv : v < 2 ^ 64) : patchAt old 0 8 v = v := by
  have ho : bitsOf old 0 64 = old := by rw [bitsOf_zero, Nat.mod_eq_of_lt h]
  simp only [patchAt, Nat.mul_zero, pow_zero, Nat.mul_one, Nat.reduceMul, ho, Nat.sub_self, Nat.zero_add, Nat.mod_eq_of_lt hv]

theorem mgmtWide_tune (p : Nat) : mgmtWide ((16 + p) * 0x10000) = true := by
  have hb : (16 + p) * 0x10000 / 0x10000 = 16 + p := by omega
  have hr : (16 + p) * 0x10000 % 0x10000 = 0 := by omega
  have h0 : ¬ 16 + p = 0 := by omega
  have h16 : ¬ 16 + p < 16 := by omega
  simp only [mgmtWide, hb, hr, if_neg h0, if_neg h16]
  rfl

theorem polderPut_tune (p v : Nat) : s.polderPut p 0 8 v .host = s.setPolder p (fun x =>
    { x with tune := BitVec.ofNat 64 (patchAt x.tune.toNat 0 8 v) &&& 0x0007FFFFFFFF000F#64 }) := rfl

theorem exec_tune_write (hp : p < 256) (x : BitVec 64) :
    ∃ t, exec (.mgmtRegisterWrite ((16 + p) * 0x10000) 8 x .host) s = .next t ∧
      (t.polder p).tune = x &&& 0x0007FFFFFFFF000F#64 := by
  have hput := (mgmtWrite_wide (mgmtWide_tune p)).trans
    (mgmtPut_polder (s := s) (n := 8) (v := x.toNat) (w := .host) (o := 0) (Nat.add_zero _).symm hp (by decide))
  refine ⟨_, (exec_mgmtRegisterWrite_aligned (by omega)).trans (congrArg Host.Outcome.next hput), ?_⟩
  rw [polderPut_tune, setPolder_polder, if_pos rfl, patchAt_whole _ _ (BitVec.isLt _) (BitVec.isLt _), BitVec.ofNat_toNat,
    BitVec.setWidth_eq]

theorem polderPut_doorbell {q : Nat} (hq : q < 16) (v : Nat) : s.polderPut p (0x10C + 0x20 * q) 4 v .host =
    s.due (.queueDoorbell p q (BitVec.ofNat 32 v)) := by
  have h1 : (0x10C + 0x20 * q - 0x100) / 0x20 = q := by omega
  have h2 : (0x10C + 0x20 * q - 0x100) % 0x20 = 0xC := by omega
  have h3 : ¬ 0x10C + 0x20 * q < 8 := by omega
  have h4 : ¬ 0x10C + 0x20 * q < 0x10 := by omega
  have h5 : 0x100 ≤ 0x10C + 0x20 * q ∧ 0x10C + 0x20 * q < 0x300 := by omega
  have hw : ¬ (!(s.byMgmt .host || Writer.host == .host)) = true := by simp
  simp only [State.polderPut, if_neg hw, h1, h2, if_neg h3, if_neg h4, if_pos h5]
  rfl

theorem exec_doorbell_write {q : Nat} (hp : p < 256) (hq : q < 16) (x : BitVec 64) :
    exec (.mgmtRegisterWrite ((16 + p) * 0x10000 + 0x10C + 0x20 * q) 4 x .host) s =
      .next (s.due (.queueDoorbell p q (x.setWidth 32))) := by
  refine (exec_mgmtRegisterWrite_aligned (by omega)).trans (congrArg Host.Outcome.next ?_)
  rw [mgmtWrite_four, mgmtPut_polder (o := 0x10C + 0x20 * q) (by omega) hp (by omega), polderPut_doorbell hq,
    BitVec.ofNat_toNat]

end offsets

/-! ### The polder's ranges and queues (R485, R487, R488, R495) -/

/-- Ranges that share no number do not meet. -/
theorem cfgRangesMeet_eq_false {f n g m : Nat} (h : ∀ x, ¬ ((f ≤ x ∧ x < f + n) ∧ g ≤ x ∧ x < g + m)) :
    cfgRangesMeet f n g m = false := by
  have hx := h (max f g)
  simp only [cfgRangesMeet, decide_eq_false_iff_not]
  omega

section
variable {p q : Nat} {s : State}

/-- A launch or an enabled queue of the polder stands in the way (R485). -/
def State.polderBusy (s : State) (p : Nat) : Bool :=
  (s.polder p).queues.any (fun e => e.2.ctl.getLsbD 0) || s.grids.any (fun e => match e.2 with
    | some g => g.polder == p && !g.done
    | none => false)

/-- Ranges that the table of R485 does not allow, or that another enabled polder holds in part. -/
def State.rangesRefused (s : State) (p : Nat) (c : DWord) : Bool :=
  (decide (1024 < cfgAsidFirst c + cfgAsidCount c) || (cfgAsidFirst c == 0 && cfgAsidCount c != 0))
    || (decide (1024 < cfgKeyFirst c + cfgKeyCount c) || (cfgKeyFirst c == 0 && cfgKeyCount c != 0))
    || (cfgEnabled c && s.polders.any (fun e => e.1 != p && (cfgEnabled e.2.cfg &&
      (cfgRangesMeet (cfgAsidFirst c) (cfgAsidCount c) (cfgAsidFirst e.2.cfg) (cfgAsidCount e.2.cfg)
        || cfgRangesMeet (cfgKeyFirst c) (cfgKeyCount c) (cfgKeyFirst e.2.cfg) (cfgKeyCount e.2.cfg)))))

theorem polderConfig_eq (v : DWord) : s.polderConfig p v =
    if s.polderBusy p then s.setDev (fun d => { d with cfgStatus := 1 })
    else if s.rangesRefused p (v &&& 0x8000FFFFFFFFFFFF#64) then s.setDev (fun d => { d with cfgStatus := 2 })
    else (s.setPolder p (fun x => { x with cfg := v &&& 0x8000FFFFFFFFFFFF#64 })).setDev (fun d => { d with cfgStatus := 0 }) :=
  rfl

theorem polderBusy_of_enabled (h : ∃ e ∈ (s.polder p).queues, e.2.ctl.getLsbD 0 = true) : s.polderBusy p = true := by
  rw [State.polderBusy, Bool.or_eq_true, List.any_eq_true]
  exact .inl h

theorem polderBusy_idle (hq : ∀ e ∈ (s.polder p).queues, e.2.ctl.getLsbD 0 = false)
    (hg : ∀ e ∈ s.grids, ∀ g, e.2 = some g → g.polder = p → g.done = true) : s.polderBusy p = false := by
  rw [State.polderBusy, Bool.or_eq_false_iff, List.any_eq_false, List.any_eq_false]
  refine ⟨fun e he => Bool.eq_false_iff.1 (hq e he), fun e he => ?_⟩
  cases h : e.2 with
  | none => simp
  | some g => simpa using hg e he g h

theorem rangesRefused_eq_false {c : DWord} (ha : cfgAsidFirst c + cfgAsidCount c ≤ 1024)
    (ha0 : cfgAsidCount c ≠ 0 → cfgAsidFirst c ≠ 0) (hk : cfgKeyFirst c + cfgKeyCount c ≤ 1024)
    (hk0 : cfgKeyCount c ≠ 0 → cfgKeyFirst c ≠ 0)
    (hm : ∀ e ∈ s.polders, e.1 ≠ p → cfgEnabled e.2.cfg = true →
      cfgRangesMeet (cfgAsidFirst c) (cfgAsidCount c) (cfgAsidFirst e.2.cfg) (cfgAsidCount e.2.cfg) = false ∧
      cfgRangesMeet (cfgKeyFirst c) (cfgKeyCount c) (cfgKeyFirst e.2.cfg) (cfgKeyCount e.2.cfg) = false) :
    s.rangesRefused p c = false := by
  have hrange : ∀ f n : Nat, f + n ≤ 1024 → (n ≠ 0 → f ≠ 0) → (decide (1024 < f + n) || (f == 0 && n != 0)) = false := by
    intro f n hf hn
    simp only [Bool.or_eq_false_iff, decide_eq_false_iff_not, Bool.and_eq_false_iff, beq_eq_false_iff_ne, bne_eq_false_iff_eq]
    omega
  rw [State.rangesRefused, hrange _ _ ha ha0, hrange _ _ hk hk0, Bool.or_self, Bool.false_or, Bool.and_eq_false_iff,
    List.any_eq_false]
  refine .inr fun e he => ?_
  by_cases hp : e.1 = p
  · simp [hp]
  · cases hen : cfgEnabled e.2.cfg with
    | false => simp
    | true => simp [hm e he hp hen]

/-- A value of `Q_CTL` that enables a queue (R488). -/
def State.ctlGood (s : State) (p : Nat) (v : Word) : Bool :=
  bitsOf v.toNat 23 9 == 0 && 4 ≤ bitsOf v.toNat 1 5 && bitsOf v.toNat 1 5 ≤ 16 && bitsOf v.toNat 6 6 ≤ cfgPrio (s.polder p).cfg
    && cfgAsidFirst (s.polder p).cfg ≤ bitsOf v.toNat 12 10
    && bitsOf v.toNat 12 10 < cfgAsidFirst (s.polder p).cfg + cfgAsidCount (s.polder p).cfg
    && (!v.getLsbD 22 || p == 0) && cfgEnabled (s.polder p).cfg

theorem queueControl_stopped {v : Word} (h : s.dev.run = false) : s.queueControl p q v = s.polderStatus p 1 :=
  if_pos (by rw [h]; rfl)

theorem queueControl_enables {v : Word} (hr : s.dev.run = true) (hq : ((s.polder p).queue q).ctl.getLsbD 0 = false)
    (hg : s.ctlGood p v = true) : s.queueControl p q v = (s.setPolder p (fun y => y.setQueue q (fun z =>
      { z with ctl := v &&& 0x007FFFFF#32 }))).polderStatus p 0 := by
  have hgood : ¬ (v.getLsbD 0 = true ∧ (!s.ctlGood p v) = true) := fun h => by simp [hg] at h
  refine (if_neg (by simp [hr])).trans ((if_neg (Bool.eq_false_iff.1 hq)).trans ?_)
  exact if_neg hgood

@[simp] theorem setQueue_queue (x : Polder) (q k : Nat) (f : Queue → Queue) :
    (x.setQueue q f).queue k = if k = q then f (x.queue q) else x.queue k := mapGet_mapMod

@[simp] theorem setDev_polder (f : Dev → Dev) (k : Nat) : (s.setDev f).polder k = s.polder k := rfl

theorem polderStatus_polder (x : Word) : (s.polderStatus p x).polder p = { s.polder p with status := x } :=
  (setPolder_polder ..).trans (if_pos rfl)

@[simp] theorem polderStatus_status (x : Word) : ((s.polderStatus p x).polder p).status = x := by rw [polderStatus_polder]
@[simp] theorem polderStatus_queues (x : Word) : ((s.polderStatus p x).polder p).queues = (s.polder p).queues := by
  rw [polderStatus_polder]
@[simp] theorem polderStatus_queue (x : Word) : ((s.polderStatus p x).polder p).queue q = (s.polder p).queue q := by
  simp only [Polder.queue, polderStatus_queues]
@[simp] theorem polderStatus_windows (x : Word) : ((s.polderStatus p x).polder p).windows = (s.polder p).windows := by
  rw [polderStatus_polder]
@[simp] theorem polderStatus_due (x : Word) (e : Instr) : ((s.polderStatus p x).due e).polder p = (s.polderStatus p x).polder p := rfl

/-- The defined bits of `Q_CTL` are the low 23. -/
theorem low23_of_lt {v : Word} (h : v.toNat < 2 ^ 23) : v &&& 0x007FFFFF#32 = v := by
  refine BitVec.eq_of_toNat_eq ?_
  rw [BitVec.toNat_and, show (0x007FFFFF#32).toNat = 2 ^ 23 - 1 from rfl, Nat.and_two_pow_sub_one_eq_mod, Nat.mod_eq_of_lt h]

theorem doorbell_accepted {v : Word} (hp : (v - ((s.polder p).queue q).prod).toNat < 2 ^ 31)
    (hc : (v - ((s.polder p).queue q).cons).toNat ≤ 2 ^ bitsOf ((s.polder p).queue q).ctl.toNat 1 5) :
    s.doorbell p q v =
      let t := (s.setPolder p (fun y => y.setQueue q (fun z => { z with prod := v }))).polderStatus p 0
      if ((s.polder p).queue q).ctl.getLsbD 0 then t.due (.recordAccept p q) else t := by
  refine if_neg ?_
  simp only [Bool.or_eq_true, decide_eq_true_eq]
  omega

theorem installWindow_good {v : Word} {i : Nat} {old new : PWin} (hi : i = bitsOf v.toNat 0 6)
    (ho : old = pwinOf (mapGet 0 (s.polder p).windows i)) (hn : new = pwinOf (s.polder p).stage)
    (hg : pwinGood (s.polder p).stage = true)
    (hob : old.base + 2 ^ 21 * old.size ≤ onChipBase) (hnb : new.base + 2 ^ 21 * new.size ≤ onChipBase)
    (hoh : s.rangeHeld (s.polder p).cfg old.base (2 ^ 21 * old.size) = false)
    (hnh : s.rangeHeld (s.polder p).cfg new.base (2 ^ 21 * new.size) = false) :
    s.installWindow p v = (s.setPolder p (fun y => { y with windows := mapSet 0 y.windows i y.stage })).polderStatus p 0 := by
  subst hi ho hn
  have hpast : ∀ w : PWin, w.base + 2 ^ 21 * w.size ≤ onChipBase →
      (w.size != 0 && decide (onChipBase < w.base + 2 ^ 21 * w.size)) = false :=
    fun w hw => by rw [decide_eq_false (Nat.not_lt.2 hw), Bool.and_false]
  refine if_neg ?_
  simp only [hg, hpast _ hob, hpast _ hnb, hoh, hnh]
  decide
end

/-! ### Keys, and the pager's registers (R250, R489, R491, R497) -/

section
variable {k : Nat} {s : State} {x : Option (BitVec 512)}

theorem keyWrite_now (hk : k ≠ 0) (hp : s.dev.keyPending = []) (hb : s.slotBusy k = false) :
    s.keyWrite k x = s.setDev (fun d => { d with keys := mapSet none d.keys k x }) :=
  (if_neg hk).trans (if_neg (by simp [hp, hb]))

theorem keyWrite_later (hk : k ≠ 0) (hb : s.slotBusy k = true) :
    s.keyWrite k x = s.setDev (fun d => { d with keyPending := d.keyPending ++ [(k, x)] }) :=
  (if_neg hk).trans (if_pos (by simp [hb]))

theorem keyDone_first {r : List (Nat × Option (BitVec 512))} (hp : s.dev.keyPending = (k, x) :: r) (hb : s.slotBusy k = false) :
    s.keyDone k = s.setDev (fun d => { d with keyPending := r, keys := mapSet none d.keys k x }) := by
  simp [State.keyDone, hp, hb]

theorem slotVal_set (hk : k ≠ 0) {t : State} (h : t.dev.keys = mapSet none s.dev.keys k x) : t.slotVal k = x := by
  rw [State.slotVal, if_neg hk, h, mapGet_mapSet_same]

theorem refreshCow_tile (s : State) (k : Nat) : s.refreshCow.tile k = s.tile k := rfl

/-- R497: a reserve at its target takes no frame and gives none back. -/
theorem cowResvPut_at_target {t st : Nat} {v : Word} (h : s.cowCount st = min 4096 (v.toNat % 2 ^ 13)) :
    s.cowResvPut t st v =
      (s.setTile t (fun x => { x with cowTarget := mapSet 0 x.cowTarget st (min 4096 (v.toNat % 2 ^ 13)) })).refreshCow := by
  have hn : bitsOf v.toNat 0 13 = v.toNat % 2 ^ 13 := bitsOf_zero ..
  have hc : (s.setTile t (fun x => { x with cowTarget := mapSet 0 x.cowTarget st (min 4096 (v.toNat % 2 ^ 13)) })).cowCount st =
      min 4096 (v.toNat % 2 ^ 13) := h
  simp only [State.cowResvPut, hn, hc, Nat.sub_self, State.cowGrow, State.cowTrim]
end

end Sys2Proof.Machine
end

section
open Sys2Proof Sys2Proof.Machine

/-- Settles O44: each write is one update of its register where its conditions hold, and a note in the status where not. -/
theorem managementWrites : Obligations.ManagementWrites := by
  unfold Obligations.ManagementWrites
  refine ⟨fun v s => ⟨_, rfl, ?_⟩, fun p v s hp => exec_tune_write hp v, fun p q v s hp hq => exec_doorbell_write hp hq v,
    fun off n v w s h => congrArg Host.Outcome.next (if_neg h), fun p v s hq hg ha ha0 hk hk0 hm => ?_, fun p v s h => ?_,
    fun p q v s hr hq hv hn hlo hhi hpr has hp0 hen => ?_, fun p q v s hr => ?_, fun p q v s hp hc => ?_,
    fun p v s hg hob hnb hoh hnh => ?_, fun k s hk hp hb => ⟨⟨_, congrArg Host.Outcome.next (keyWrite_now hk hp hb), ?_⟩,
      ⟨_, congrArg Host.Outcome.next (keyWrite_now hk hp hb), ?_⟩⟩, fun k s hk hb => ?_, fun k x r s hk hp hb => ?_,
    fun k v s => ?_, fun k st v s h => ?_⟩
  -- the power limit
  · exact Nat.mod_eq_of_lt (by omega)
  -- the configuration of a polder
  · have hrange := rangesRefused_eq_false ha ha0 hk hk0 fun e he hp hen =>
      ⟨cfgRangesMeet_eq_false (hm e he hp hen).1, cfgRangesMeet_eq_false (hm e he hp hen).2⟩
    refine ⟨_, congrArg Host.Outcome.next ((polderConfig_eq v).trans ((if_neg (Bool.eq_false_iff.1 (polderBusy_idle hq hg))).trans
      (if_neg (Bool.eq_false_iff.1 hrange)))), ?_, rfl⟩
    rw [setDev_polder, setPolder_polder, if_pos rfl]
  · exact ⟨_, congrArg Host.Outcome.next ((polderConfig_eq v).trans (if_pos (polderBusy_of_enabled h))), rfl, rfl⟩
  -- a queue's control
  · have hgood : s.ctlGood p v = true := by
      obtain ⟨hlow, hhigh⟩ := has
      have h23 : bitsOf v.toNat 23 9 = 0 := by rw [bitsOf, Nat.div_eq_of_lt hn, Nat.zero_mod]
      have hp0' : (!v.getLsbD 22 || p == 0) = true := by
        cases h22 : v.getLsbD 22 with
        | false => rfl
        | true => simp [hp0 h22]
      rw [State.ctlGood, h23, hp0', hen, decide_eq_true hlo, decide_eq_true hhi, decide_eq_true hpr, decide_eq_true hlow,
        decide_eq_true hhigh]
      rfl
    refine ⟨_, congrArg Host.Outcome.next (queueControl_enables hr hq hgood), ?_, polderStatus_status 0⟩
    simp [low23_of_lt hn]
  · exact ⟨_, congrArg Host.Outcome.next (queueControl_stopped hr), polderStatus_status 1, polderStatus_queues 1⟩
  -- a doorbell
  · refine ⟨_, congrArg Host.Outcome.next (doorbell_accepted hp hc), ?_⟩
    cases ((s.polder p).queue q).ctl.getLsbD 0
    · exact ⟨by simp, polderStatus_status 0, (List.append_nil _).symm⟩
    · exact ⟨by simp, polderStatus_status 0, rfl⟩
  -- a placement window
  · refine ⟨_, congrArg Host.Outcome.next (installWindow_good rfl rfl rfl hg hob hnb hoh hnh), ?_, polderStatus_status 0⟩
    simp
  -- keys
  · exact slotVal_set hk rfl
  · exact slotVal_set hk rfl
  · exact ⟨_, congrArg Host.Outcome.next (keyWrite_later hk hb), rfl, rfl⟩
  · exact ⟨_, congrArg Host.Outcome.next (keyDone_first hp hb), rfl, slotVal_set hk rfl⟩
  -- the pager's registers
  · refine ⟨_, rfl, (RingKept.pump _ k).cons.trans ?_⟩
    simp
  · refine ⟨_, congrArg Host.Outcome.next (cowResvPut_at_target h), ?_, rfl⟩
    rw [refreshCow_tile, setTile_tile, if_pos rfl, mapGet_mapSet_same]
end

section
/-! PROOF. Cache control and pins: the words that name a block, a line or a region, and the status that they answer
(R202, R219 to R221, R318, R319, R439). -/

namespace Sys2Proof.Machine

/-! ### Words that name an address -/

/-- A ready word whose address passes the checks acts on it. -/
theorem exec_named {i : Instr} {inf : Info} {a : BitVec 7} {refuse : Bool} {f : State → Nat → State} {pre : Option Nat} {s : State}
    (he : exec i s = issued inf s (fun s => s.named38 a refuse f)) (hr : Ready i s) (hi : infoOf i = inf)
    (hu : inf.uniform = []) (hp : (if refuse && s.g.view != 0 then some 5 else none) = pre)
    (hc : s.checkAccess { kBlock with k := .load } pre 1 true (s.oneAccess a) = none) :
    exec i s = .next (f s (s.src.rdS a.toNat).toNat) := by
  subst hp
  have hc' : s.checkAccess { kBlock with k := .load } (if refuse && s.g.view != 0 then some 5 else none) 1 true (s.sharedEa a) =
    none := hc
  refine (exec_of_ready he hr hi hu).trans (congrArg Host.Outcome.next ?_)
  simp only [State.named38, hc']
  rfl

/-- R439: under a view the address is refused. -/
theorem refused_of_view (s : State) : (if true && s.g.view != 0 then some 5 else none) = if s.g.view = 0 then none else some 5 := by
  by_cases h : s.g.view = 0 <;> simp [h]

/-- A status that a word answers as a load does. -/
theorem status_sent (s : State) (d : BitVec 7) (x : Nat) :
    LoadSent [.scalar d.toNat (BitVec.ofNat 64 x) false] s (s.status d x) := ⟨rfl, rfl, rfl⟩

theorem status_only (s : State) (d : BitVec 7) (x : Nat) : s.status d x = { s with g := (s.status d x).g } := rfl

theorem status_l2 (s : State) (d : BitVec 7) (x : Nat) : (s.status d x).l2 = s.l2 := rfl

/-- The status counts as one more load of the group as it stood. -/
theorem status_counts {s t : State} (h : t.g = s.g) (d : BitVec 7) (x : Nat) : (t.status d x).g.ldcnt = s.g.ldcnt + 1 ∧
    (t.status d x).g.loads = s.g.loads ++ [⟨[.scalar d.toNat (BitVec.ofNat 64 x) false], none⟩] :=
  ⟨congrArg (fun g : Group => g.ldcnt + 1) h, congrArg (fun g : Group => g.loads ++ _) h⟩

/-! ### What a write-back and the end of a frame leave alone -/

/-- The executing group and what level-1 holds. -/
def State.near (s : State) : Group × List L1Block := (s.g, s.l1)

theorem near_eq {t : State} {g : Group} {l : List L1Block} (h : t.near = (g, l)) : t.g = g ∧ t.l1 = l := Prod.mk.inj h

theorem near_of_translated {s t : State} (h : Translated s t) : t.near = s.near := by
  rw [h.eq]; rfl

theorem dropLine_near (s : State) (lk : Nat) : (s.dropLine lk).near = s.near := near_of_translated (dropLine_translated ..)

theorem setPois_near (s : State) (b : Nat) (x : Bool) : (s.setPois b x).near = s.near := rfl

theorem settleKeys_near (s : State) (k n : Nat) : (s.settleKeys k n).near = s.near := by
  unfold State.settleKeys; split <;> rfl

theorem unlinkFrame_near (s : State) (st f : Nat) : (s.unlinkFrame st f).near = s.near := by
  unfold State.unlinkFrame
  extract_lets e h
  split
  · rfl
  · split <;> rfl

theorem dropSub_near (s : State) (a v va : Nat) : (s.dropSub a v va).near = s.near := by
  unfold State.dropSub
  extract_lets p s1 s2
  have h1 : s1.near = s.near := settleKeys_near ..
  have h2 : s2.near = s.near := (foldl_same (v := State.near) (fun _ _ => dropLine_near ..) _ s1).trans h1
  clear_value s2
  exact h2

theorem freeFrame_near (s : State) (st f : Nat) : (s.freeFrame st f).near = s.near := by
  unfold State.freeFrame
  extract_lets e s1 s2
  have h1 : s1.near = s.near := unlinkFrame_near ..
  have h2 : s2.near = s.near := (foldl_same (v := State.near) (fun _ _ => dropSub_near ..) _ s1).trans h1
  clear_value s2
  exact h2

theorem refresh_frame (s : State) (r : ReqState) (k : Nat) : (s.refresh r).frame k = s.frame k := rfl

theorem freeFrame_frame (s : State) (st f : Nat) : (s.freeFrame st f).frame (frameKey st f) = Frame.free := by
  unfold State.freeFrame
  extract_lets e s1 s2
  clear_value s2
  rw [refresh_frame, setFrame_frame, if_pos rfl]

theorem pagePois_near (s : State) (x y : Nat) : (s.pagePois x y).near = s.near :=
  foldl_same (v := State.near) (fun _ _ => setPois_near ..) _ s

theorem spillPool_near (s : State) (e : Frame) (w : WalkOut) (va : Nat) : (s.spillPool e w va).1.near = s.near := by
  unfold State.spillPool
  extract_lets pg lease l a
  split
  · rfl
  · split
    · rfl
    · exact pagePois_near ..

theorem nvmeSend_near (s : State) : s.nvmeSend.near = s.near := by
  refine foldl_same (v := State.near) (fun u c => ?_) _ s
  dsimp only
  split <;> rfl

theorem submit_near (s : State) (sub : Bool) (op drive ns lba count : Nat) (ps : List (Nat × Nat)) (w : NvmeFor) :
    (s.submit sub op drive ns lba count ps w).1.near = s.near := nvmeSend_near _

theorem submitRuns_near (s : State) (op : Nat) (rs : List (List FlashBlk)) (w : NvmeFor) : (s.submitRuns op rs w).1.near = s.near := by
  refine foldl_same (v := fun b : State × List Nat => b.1.near) (fun b r => ?_) rs (s, [])
  dsimp only
  split
  · rfl
  · exact submit_near ..

/-- A write-back begins: it is listed as it was asked for, and touches no group. -/
theorem spillStart_begun (s : State) (x : Spill) (only2 : Bool) : (s.spillStart x only2).near = s.near ∧
    ∃ y ∈ (s.spillStart x only2).spills, y.id = x.id ∧ y.fk = x.fk ∧ y.free = x.free ∧ y.tell = x.tell := by
  unfold State.spillStart
  extract_lets fk e va
  split
  next s1 ws h1 =>
  have n1 : s1.near = s.near := by
    have := near_of_translated (walkSubs_translated s fk e e.dirty)
    rwa [h1] at this
  extract_lets s2 takes flash subs
  have n2 : s2.near = s1.near := settleKeys_near ..
  clear_value s2
  split
  next s3 bad h3 =>
  have n3 : s3.near = s2.near := by
    have := foldl_same (v := fun b : State × List Nat => b.1.near) (f := fun acc y =>
      ((acc.1.spillPool e y.2 (va y.1)).1, acc.2 ++ (acc.1.spillPool e y.2 (va y.1)).2.toList))
      (fun b y => spillPool_near ..) (takes.filter (fun y => entKind y.2.entry == 1)) (s2, [])
    exact (congrArg (fun b : State × List Nat => b.1.near) h3).symm.trans this
  extract_lets bad' ok
  split
  next s4 cmds h4 =>
  have n4 : s4.near = s3.near := by
    have := submitRuns_near s3 1 (mergeRuns true ok) (.spill x.id)
    rwa [h4] at this
  exact ⟨n4.trans (n3.trans (n2.trans n1)), _, List.mem_append_right _ (List.mem_singleton_self _), rfl, rfl, rfl, rfl⟩

/-! ### Words on a frame (R318) -/

section frame
variable {s : State} {d a : BitVec 7} {rel : Bool} {st f : Nat}

/-- What operations 3 and 4 do with a frame that stands. -/
def State.frameWord (d : BitVec 7) (rel : Bool) (s : State) (st f : Nat) : State :=
  let e := s.frame (frameKey st f)
  match rel with
  | false => if e.unbacked then s.status d (if e.dirty = 0 then 0 else 3) else s.writeBack d st f false
  | true =>
    if !e.unbacked then s.writeBack d st f true
    else if s.pinned e.asid e.vpn then s.status d 2
    else if e.dirty != 0 && !e.table then s.status d 3
    else (s.releaseFrame st f).status d 0

theorem exec_frameWord {i : Instr} (hi : i = if rel then Instr.cctlRel d a else Instr.cctlWbf d a) (hr : Ready i s)
    (hc : s.checkAccess { kBlock with k := .load } (if s.g.view = 0 then none else some 5) 1 true (s.oneAccess a) = none) :
    exec i s = .next (s.onFrame d (s.cctlKey d) (s.src.rdS a.toNat).toNat (State.frameWord d rel)) := by
  cases rel with
  | false =>
    subst hi
    exact exec_named (i := .cctlWbf d a) (show execCctlWbf d a s = issued _ s _ from rfl) hr rfl rfl (refused_of_view s) hc
  | true =>
    subst hi
    exact exec_named (i := .cctlRel d a) (show execCctlRel d a s = issued _ s _ from rfl) hr rfl rfl (refused_of_view s) hc

theorem cctlKey_eq (s : State) (d : BitVec 7) : s.cctlKey d =
    if 1 ≤ s.g.r.prv then ((s.src.rdS d.toNat).toNat % 2 ^ 10, (s.src.rdS d.toNat).toNat / 2 ^ 16 % 2 ^ 6)
    else (s.g.asid, s.g.view) := by
  unfold State.cctlKey
  extract_lets x
  rw [bitsOf_zero]
  rfl

section search
variable {key k : Nat × Nat × Nat} {own : Nat × Nat} {ea fr : Nat} {g : State → Nat → Nat → State}

theorem onFrame_none (hk : k = s.homeKey own.1 own.2 ea) (hst : st = s.stackOf k.1 k.2.2)
    (h : onChip ea = true ∨ s.findFrame st k.1 k.2.1 k.2.2 = none) : s.onFrame d own ea g = s.status d 1 := by
  subst hst hk
  rcases h with h | h <;> simp [State.onFrame, h]

variable (hon : onChip ea = false) (hk : k = s.homeKey own.1 own.2 ea) (hst : st = s.stackOf k.1 k.2.2)
  (hf : s.findFrame st k.1 k.2.1 k.2.2 = some f)
include hon hk hst hf

theorem onFrame_busy (h : (s.frame (frameKey st f)).state ≠ 1 ∨ ∃ x ∈ s.spills, x.fk = frameKey st f) :
    s.onFrame d own ea g = s.stall := by
  subst hst hk
  have hb : ((s.frame (frameKey (s.stackOf (s.homeKey own.1 own.2 ea).1 (s.homeKey own.1 own.2 ea).2.2) f)).state != 1 ||
      s.spills.any (fun x => x.fk == frameKey (s.stackOf (s.homeKey own.1 own.2 ea).1 (s.homeKey own.1 own.2 ea).2.2) f)) =
      true := by simpa using h
  simp only [State.onFrame, hon, hf, hb, Bool.false_eq_true, if_false, if_true]

theorem onFrame_stands (h : ¬ ((s.frame (frameKey st f)).state ≠ 1 ∨ ∃ x ∈ s.spills, x.fk = frameKey st f)) :
    s.onFrame d own ea g = g s st f := by
  subst hst hk
  have hb : ((s.frame (frameKey (s.stackOf (s.homeKey own.1 own.2 ea).1 (s.homeKey own.1 own.2 ea).2.2) f)).state != 1 ||
      s.spills.any (fun x => x.fk == frameKey (s.stackOf (s.homeKey own.1 own.2 ea).1 (s.homeKey own.1 own.2 ea).2.2) f)) =
      false := by simpa using h
  simp only [State.onFrame, hon, hf, hb, Bool.false_eq_true, if_false]
end search

/-- R318: the status of a write-back comes at its end. -/
theorem writeBack_sent (s : State) (d : BitVec 7) (st f : Nat) (rel : Bool) : ∃ n,
    (s.writeBack d st f rel).g.ldcnt = s.g.ldcnt + 1 ∧
    (s.writeBack d st f rel).g.loads = s.g.loads ++ [⟨[.scalar d.toNat 0 false], some n⟩] ∧
    (s.writeBack d st f rel).g.r = s.g.r ∧
    ∃ x ∈ (s.writeBack d st f rel).spills, x.id = n ∧ x.fk = frameKey st f ∧ x.free = rel ∧ x.tell = true := by
  unfold State.writeBack
  extract_lets fk e
  split
  next s1 id h1 =>
  obtain ⟨rfl, rfl⟩ := Prod.mk.inj h1
  extract_lets s2 stamp
  have h2 : s2.g = s.g := by cases rel <;> rfl
  obtain ⟨hn, x, hx, hid, hfk, hfree, htell⟩ := spillStart_begun s2 (Spill.new s.ids fk rel true false false stamp) false
  generalize s2.spillStart _ false = t at hn hx
  have hg : t.g = s.g := (congrArg Prod.fst hn).trans h2
  refine ⟨s.ids, ?_, ?_, ?_, x, hx, hid, hfk, hfree, htell⟩
  · exact congrArg (fun g : Group => g.ldcnt + 1) hg
  · exact congrArg (fun g : Group => g.loads ++ _) hg
  · have hr : t.g.r = s.g.r := congrArg Group.r hg
    exact hr

theorem frameWord_backed (he : (s.frame (frameKey st f)).table = false) (hv : (s.frame (frameKey st f)).view = 0) :
    State.frameWord d rel s st f = s.writeBack d st f rel := by
  have hu : (s.frame (frameKey st f)).unbacked = false := by simp [Frame.unbacked, he, hv]
  cases rel <;> simp [State.frameWord, hu]

def State.withL1 (s : State) (l : List L1Block) : State := { s with l1 := l }

/-- The level-1 blocks outside the region of a frame (R318). -/
def State.blocksBeside (s : State) (e : Frame) : List L1Block :=
  s.l1.filter (fun b => !inRange b.home (blkKey e.asid e.view (e.vpn * 2 ^ 16)) 1024)

theorem releaseFrame_eq (s : State) (st f : Nat) :
    s.releaseFrame st f = (s.withL1 (s.blocksBeside (s.frame (frameKey st f)))).freeFrame st f := rfl

theorem releaseFrame_near (s : State) (st f : Nat) :
    (s.releaseFrame st f).near = (s.g, s.blocksBeside (s.frame (frameKey st f))) := by
  rw [releaseFrame_eq, freeFrame_near]
  rfl

/-- R318: a frame that goes leaves no copy of its region in level-1. -/
theorem releaseFrame_gone (s : State) (st f : Nat) : ((s.releaseFrame st f).frame (frameKey st f)).state = 0 ∧
    ∀ b ∈ (s.releaseFrame st f).l1, ¬ inRange b.home (blkKey (s.frame (frameKey st f)).asid (s.frame (frameKey st f)).view
      ((s.frame (frameKey st f)).vpn * 2 ^ 16)) 1024 = true := by
  constructor
  · rw [releaseFrame_eq, freeFrame_frame]
    rfl
  · intro b hb
    rw [(near_eq (releaseFrame_near s st f)).2] at hb
    simpa using (List.mem_filter.1 hb).2

section unbacked
variable {e : Frame} (he : s.frame (frameKey st f) = e) (hu : e.table = true ∨ e.view ≠ 0)
include he hu

theorem frameWord_clean : State.frameWord d false s st f = s.status d (if e.dirty = 0 then 0 else 3) := by
  have hb : e.unbacked = true := by simpa [Frame.unbacked] using hu
  simp [State.frameWord, he, hb]

theorem frameWord_pinned (hp : s.pinned e.asid e.vpn = true) : State.frameWord d true s st f = s.status d 2 := by
  have hb : e.unbacked = true := by simpa [Frame.unbacked] using hu
  simp [State.frameWord, he, hb, hp]

theorem frameWord_unsaved (hp : s.pinned e.asid e.vpn = false) (hd : e.dirty ≠ 0) (ht : e.table = false) :
    State.frameWord d true s st f = s.status d 3 := by
  have hb : e.unbacked = true := by simpa [Frame.unbacked] using hu
  have hd' : ¬ e.dirty = 0#16 := hd
  simp [State.frameWord, he, hb, hp, ht, hd']

theorem frameWord_freed (hp : s.pinned e.asid e.vpn = false) (hd : e.dirty = 0 ∨ e.table = true) :
    State.frameWord d true s st f = (s.releaseFrame st f).status d 0 := by
  have hb : e.unbacked = true := by simpa [Frame.unbacked] using hu
  have hd' : e.dirty = 0#16 ∨ e.table = true := hd
  rcases hd' with h | h <;> simp [State.frameWord, he, hb, hp, h]
end unbacked
end frame

/-! ### The words on lines (R202, R318) -/

section line
variable {s : State} {d a : BitVec 7} {ea lk : Nat}

/-- Operation 2. -/
def State.lineWord (d : BitVec 7) (s : State) (ea : Nat) : State :=
  let k := s.homeKey s.g.asid 0 ea
  let lk := lineKey k.1 k.2.1 k.2.2
  match if onChip ea then none else mapGet none s.l2 lk with
  | some l =>
    if l.dirty then ({ s with l2 := mapSet none s.l2 lk (some { l with dirty := false }) }).status d 0 else s.status d 1
  | none => s.status d 1

def State.cleanLine (s : State) (lk : Nat) (l : L2Line) : State :=
  { s with l2 := mapSet none s.l2 lk (some { l with dirty := false }) }

theorem cleanLine_l2 (s : State) (l : L2Line) (q : Nat) : mapGet none (s.cleanLine lk l).l2 q =
    if q = lk then some { l with dirty := false } else mapGet none s.l2 q := by
  rw [State.cleanLine, mapGet_mapSet]

theorem lineWord_dirty {l : L2Line} (hk : lk = lineKey (s.homeKey s.g.asid 0 ea).1 (s.homeKey s.g.asid 0 ea).2.1
    (s.homeKey s.g.asid 0 ea).2.2) (hon : onChip ea = false) (hl : mapGet none s.l2 lk = some l) (hd : l.dirty = true) :
    State.lineWord d s ea = (s.cleanLine lk l).status d 0 := by
  subst hk
  simp only [State.lineWord, State.cleanLine, hon, hl, hd, Bool.false_eq_true, if_false, if_true]

theorem lineWord_clean (hk : lk = lineKey (s.homeKey s.g.asid 0 ea).1 (s.homeKey s.g.asid 0 ea).2.1
    (s.homeKey s.g.asid 0 ea).2.2)
    (h : onChip ea = true ∨ mapGet none s.l2 lk = none ∨ ∃ l, mapGet none s.l2 lk = some l ∧ l.dirty = false) :
    State.lineWord d s ea = s.status d 1 := by
  subst hk
  unfold State.lineWord
  extract_lets k lk
  rcases h with h | h | ⟨l, h, hd⟩
  · rw [if_pos h]
  · simp only [lk, k, h, ite_self]
  · cases hon : onChip ea with
    | true => rfl
    | false => simp only [lk, k, h, hd, Bool.false_eq_true, if_false]
end line

/-! ### Pins (R219, R319) -/

theorem dropFirst_append {α : Type} [DecidableEq α] {p : α} {xs ys : List α} (h : p ∉ xs) :
    dropFirst (fun q => q == p) (xs ++ p :: ys) = xs ++ ys := by
  induction xs with
  | nil => simp [dropFirst]
  | cons x xs ih =>
    obtain ⟨hx, hxs⟩ := not_or.1 (mt List.mem_cons.2 h)
    simp [dropFirst, Ne.symm hx, ih hxs]

end Sys2Proof.Machine
end

section
open Sys2Proof Sys2Proof.Machine

/-- Settles O32: each word acts on what its address names, and its status is that of the case it meets. -/
theorem cacheControlAndPins : Obligations.CacheControlAndPins := by
  unfold Obligations.CacheControlAndPins
  refine ⟨fun a s => ⟨fun hr hc => ?_, fun hr => ?_, fun d hr hc => ?_, fun d i rel hi hr hc => ?_⟩, fun d a s hc => ?_⟩
  -- `cctl.l1b` and `cctl.l1all`
  · refine ⟨_, exec_named (i := .cctlL1b a) (show execCctlL1b a s = issued _ s _ from rfl) hr rfl rfl rfl hc, rfl, fun b => ?_⟩
    simp [State.l1DropBlk, State.l1Drop, imp_iff_not_or]
  · refine ⟨_, exec_of_ready (i := .cctlL1all) (show execCctlL1all s = issued _ s _ from rfl) hr rfl rfl, rfl, fun b => ?_⟩
    simp [State.l1Drop]
  -- `cctl.wbl`
  · have he := exec_named (i := .cctlWbl d a) (f := State.lineWord d) (show execCctlWbl d a s = issued _ s _ from rfl) hr rfl rfl
      (refused_of_view s) hc
    intro k lk
    by_cases hd : onChip (s.src.rdS a.toNat).toNat = false ∧ ∃ l, mapGet none s.l2 lk = some l ∧ l.dirty = true
    · obtain ⟨hon, l, hl, hdirty⟩ := hd
      rw [lineWord_dirty rfl hon hl hdirty] at he
      refine ⟨_, _, he, status_only .., rfl, fun l' hon' hl' hd' => ⟨status_sent .., ?_, fun q hq => ?_⟩,
        fun h => ?_⟩
      · obtain rfl : l = l' := Option.some.inj (hl.symm.trans hl')
        rw [status_l2, cleanLine_l2, if_pos rfl]
      · rw [status_l2, cleanLine_l2, if_neg hq]
      · exfalso
        simp [hon, hl, hdirty, lk, k] at h
    · have hclean : onChip (s.src.rdS a.toNat).toNat = true ∨ mapGet none s.l2 lk = none ∨
          ∃ l, mapGet none s.l2 lk = some l ∧ l.dirty = false := by
        cases hon : onChip (s.src.rdS a.toNat).toNat with
        | true => exact .inl rfl
        | false =>
          cases hl : mapGet none s.l2 lk with
          | none => exact .inr (.inl rfl)
          | some l => exact .inr (.inr ⟨l, rfl, Bool.eq_false_iff.2 fun h => hd ⟨hon, l, hl, h⟩⟩)
      rw [lineWord_clean rfl hclean] at he
      exact ⟨s, _, he, status_only .., rfl, fun l hon hl hdirty => absurd ⟨hon, l, hl, hdirty⟩ hd, fun _ => ⟨status_sent .., rfl⟩⟩
  -- `cctl.wbf` and `cctl.rel`
  · intro x key k st
    have he := exec_frameWord hi hr hc
    rw [cctlKey_eq] at he
    refine ⟨fun h => ⟨_, he.trans (congrArg Host.Outcome.next (onFrame_none rfl rfl h)), status_sent .., status_only ..⟩,
      fun f hon hf => ?_⟩
    intro e busy
    refine ⟨fun hb => he.trans (congrArg Host.Outcome.next (onFrame_busy hon rfl rfl hf hb)), fun hb ht hv => ?_, fun hb hu => ?_⟩
    · have he := he.trans (congrArg Host.Outcome.next (onFrame_stands hon rfl rfl hf hb))
      rw [frameWord_backed ht hv] at he
      obtain ⟨n, hw⟩ := writeBack_sent s d st f rel
      exact ⟨_, n, he, hw⟩
    · have he := he.trans (congrArg Host.Outcome.next (onFrame_stands hon rfl rfl hf hb))
      refine ⟨?_, ?_, ?_, ?_⟩ <;> rintro rfl
      · exact ⟨_, he.trans (congrArg Host.Outcome.next (frameWord_clean rfl hu)), status_only .., status_sent ..⟩
      · exact fun hp => ⟨_, he.trans (congrArg Host.Outcome.next (frameWord_pinned rfl hu hp)), status_only .., status_sent ..⟩
      · exact fun hp hd ht =>
          ⟨_, he.trans (congrArg Host.Outcome.next (frameWord_unsaved rfl hu hp hd ht)), status_only .., status_sent ..⟩
      · intro hp hd
        obtain ⟨hstate, hl1⟩ := releaseFrame_gone s st f
        obtain ⟨hcnt, hloads⟩ := status_counts (near_eq (releaseFrame_near s st f)).1 d 0
        have he := he.trans (congrArg Host.Outcome.next (frameWord_freed rfl hu hp hd))
        generalize s.releaseFrame st f = t at he hcnt hloads hstate hl1
        exact ⟨_, he, hcnt, hloads, hstate, hl1⟩
  -- pins
  · have reload := fun hr => exec_named (i := .pinReload d a) (show execPinReload d a s = issued _ s _ from rfl) hr rfl rfl
      (refused_of_view s) hc
    have finish := fun hr => exec_named (i := .pinEnd d a) (show execPinEnd d a s = issued _ s _ from rfl) hr rfl rfl
      (refused_of_view s) hc
    have set := fun hr => exec_named (i := .pinSet d a) (show execPinSet d a s = issued _ s _ from rfl) hr rfl rfl
      (refused_of_view s) hc
    have clr := fun hr => exec_named (i := .pinClr d a) (show execPinClr d a s = issued _ s _ from rfl) hr rfl rfl
      (refused_of_view s) hc
    refine ⟨fun i hi hr hw => ?_, fun g k w hw => ⟨fun hr hl => ?_, fun hr hl => ?_, fun hr => ?_⟩,
      fun hr => ⟨fun hp => ?_, fun hp => ?_⟩, fun hr => ⟨fun xs ys hs hp => ?_, fun hp => ?_⟩⟩
    -- `pin.reload` and `pin.end` outside every window, on a lapsed pin, on one that stands
    · simp only [hw] at reload finish
      obtain rfl | rfl := hi
      · exact ⟨_, reload hr, status_sent .., status_only ..⟩
      · exact ⟨_, finish hr, status_sent .., status_only ..⟩
    · simp only [hw, hl, if_true] at reload
      exact ⟨_, reload hr, status_sent ..⟩
    · simp only [hw, hl, Bool.false_eq_true, if_false] at reload
      exact ⟨_, reload hr, status_sent ..⟩
    · simp only [hw] at finish
      exact ⟨_, finish hr, status_sent ..⟩
    -- `pin.set` where the pin fits, and where not
    · have hadd : s.addPin (s.pinRange a) = ({ s with pins := s.pins ++ [s.pinRange a] }, true) := if_pos hp
      simp only [hadd] at set
      exact ⟨_, set hr, ⟨rfl, rfl, rfl⟩, rfl⟩
    · have hadd : s.addPin (s.pinRange a) = (s, false) := if_neg (Bool.eq_false_iff.1 hp)
      simp only [hadd] at set
      exact ⟨_, set hr, status_sent .., rfl⟩
    -- `pin.clr` where the pin stands, and where not
    · have hmem : s.pins.contains (s.pinRange a) = true :=
        List.contains_iff_mem.2 (hs ▸ List.mem_append_right _ (List.mem_cons_self ..))
      simp only [hmem, if_true] at clr
      exact ⟨_, clr hr, ⟨rfl, rfl, rfl⟩, (congrArg _ hs).trans (dropFirst_append hp)⟩
    · have hmem : s.pins.contains (s.pinRange a) = false := Bool.eq_false_iff.2 (mt List.contains_iff_mem.1 hp)
      simp only [hmem, Bool.false_eq_true, if_false] at clr
      exact ⟨_, clr hr, status_sent .., rfl⟩
end

section
/-! PROOF. A walk over lines that stand in level-2 (R241, R242, R244): it ends where the walk without trace ends, and only
registers its stack with the lines. -/

namespace Sys2Proof.Machine

/-- Only what level-2 lines hold has changed: the same lines stand. -/
structure Registered (s t : State) : Prop where
  only : t = { s with l2 := t.l2 }
  lines : ∀ k, (mapGet none t.l2 k).isSome = (mapGet none s.l2 k).isSome

namespace Registered
variable {s t u : State}

theorem refl (s : State) : Registered s s := ⟨rfl, fun _ => rfl⟩

theorem trans (h : Registered s t) (k : Registered t u) : Registered s u :=
  ⟨by rw [k.only, h.only], fun q => (k.lines q).trans (h.lines q)⟩

theorem mem (h : Registered s t) : t.mem = s.mem := (congrArg State.mem h.only).trans rfl
theorem dev (h : Registered s t) : t.dev = s.dev := (congrArg State.dev h.only).trans rfl
theorem walk (h : Registered s t) : t.walk = s.walk := (congrArg State.walk h.only).trans rfl
end Registered

/-- Where a walk ended and at which entry, whatever it read on the way. -/
def WalkOut.ending (w : WalkOut) : WalkKind × Nat × Nat × Nat := (w.kind, w.level, w.entry, w.addr)

/-- A line that stands is read at its home. -/
theorem tableRead_standing {s : State} {off : Nat} (st : Nat)
    (h : (mapGet none s.l2 (lineKey 0 0 (tableBase + off))).isSome = true) :
    ∃ t g, s.tableRead (some st) off = (t, some (s.ld 0 0 (tableBase + off) 16, (lineKey 0 0 (tableBase + off), g))) ∧
      Registered s t := by
  obtain ⟨l, hl⟩ := Option.isSome_iff_exists.1 h
  refine ⟨{ s with l2 := mapSet none s.l2 (lineKey 0 0 (tableBase + off))
                          (some { l with sharers := l.sharers ||| laneBit st }) }, l.gen,
    by simp only [State.tableRead, State.tableLine, hl, Option.isSome_some, if_true], rfl, fun k => ?_⟩
  rw [mapGet_mapSet]
  split
  · next e => rw [e, hl]; rfl
  · rfl

/-- The walk without trace names every line it has read. -/
theorem walkFrom_reads (s : State) (c : Bool) (a va : Nat) : ∀ l n ls ws,
    ∀ x ∈ ls ++ [(lineKey 0 0 (tableBase + (n + 16 * bitsOf va (levelShift l) 9)), 0)],
      x ∈ (s.walkFrom none c a va l n ls ws).2.lines := by
  intro l
  induction l with
  | zero =>
    intro n ls ws x hx
    unfold State.walkFrom
    simp only [tableRead_none, Option.bind_none, ite_self]
    split
    · exact hx
    · generalize entType (s.ld 0 0 _ 16) = k
      match k with
      | 0 | 1 | 2 | 3 | _ + 4 => exact hx
  | succ l ih =>
    intro n ls ws x hx
    unfold State.walkFrom
    simp only [tableRead_none, Option.bind_none, ite_self]
    split
    · exact hx
    · generalize entType (s.ld 0 0 _ 16) = k
      match k with
      | 1 => exact ih _ _ _ _ (List.mem_append_left _ hx)
      | 0 | 2 | 3 | _ + 4 => exact hx

/-- A walk cache that holds nothing of an ASID gives no hit. -/
theorem noHit {s : State} {st a : Nat} (h : ∀ x ∈ s.walk, x.stack = st → x.asid ≠ a) (c : Bool) (l pre : Nat) :
    (if !c then none else (some st).bind (fun st => s.walk.find? (fun w =>
      w.stack == st && w.asid == a && w.level == l && w.pre == pre))) = none := by
  have cold : s.walk.find? (fun w => w.stack == st && w.asid == a && w.level == l && w.pre == pre) = none := by
    rw [List.find?_eq_none]
    intro x hx
    by_cases hst : x.stack = st
    · simp [h x hx hst]
    · simp [hst]
  cases c with
  | false => rfl
  | true => exact cold

/-- The walk over lines that stand, from a level down. -/
theorem walkFrom_standing {st a va : Nat} (c c' : Bool) : ∀ l (s : State) n ls ws ls' ws',
    (∀ x ∈ s.walk, x.stack = st → x.asid ≠ a) →
    (∀ x ∈ (s.walkFrom none c' a va l n ls' ws').2.lines, (mapGet none s.l2 x.1).isSome = true) →
    Registered s (s.walkFrom (some st) c a va l n ls ws).1 ∧
      (s.walkFrom (some st) c a va l n ls ws).2.ending = (s.walkFrom none c' a va l n ls' ws').2.ending := by
  intro l
  induction l with
  | zero =>
    intro s n ls ws ls' ws' hcold hlines
    have hit := noHit hcold c 0 (va / 2 ^ levelShift 0)
    obtain ⟨t, g, hread, hreg⟩ := tableRead_standing st
      (hlines _ (walkFrom_reads s c' a va 0 n ls' ws' _ (List.mem_append_right _ (List.mem_singleton_self _))))
    unfold State.walkFrom
    simp only [hit, hread, tableRead_none, Option.bind_none, ite_self, feat_congr hreg.dev]
    split
    · exact ⟨hreg, rfl⟩
    · generalize entType (s.ld 0 0 _ 16) = k
      match k with
      | 0 | 1 | 2 | 3 | _ + 4 => exact ⟨hreg, rfl⟩
  | succ l ih =>
    intro s n ls ws ls' ws' hcold hlines
    have hit := noHit hcold c (l + 1) (va / 2 ^ levelShift (l + 1))
    obtain ⟨t, g, hread, hreg⟩ := tableRead_standing st
      (hlines _ (walkFrom_reads s c' a va (l + 1) n ls' ws' _ (List.mem_append_right _ (List.mem_singleton_self _))))
    unfold State.walkFrom at hlines ⊢
    simp only [hit, hread, tableRead_none, Option.bind_none, ite_self, feat_congr hreg.dev] at hlines ⊢
    split
    · exact ⟨hreg, rfl⟩
    · next hbad =>
      rw [if_neg hbad] at hlines
      generalize s.ld 0 0 _ 16 = e at hlines ⊢
      generalize entType e = k at hlines ⊢
      match k with
      | 1 =>
        have same := walkFrom_congr hreg.mem hreg.dev c' a va
        obtain ⟨next, ends⟩ := ih t _ _ _ _ _ (hreg.walk ▸ hcold)
          fun x hx => (hreg.lines _).trans (hlines x (by rw [same] at hx; exact hx))
        exact ⟨hreg.trans next, ends.trans (congrArg WalkOut.ending (same ..))⟩
      | 0 | 2 | 3 | _ + 4 => exact ⟨hreg, rfl⟩

/-- The walk from the ASID table. -/
theorem walkOnce_standing {s : State} {st a va : Nat} (c c' : Bool) (hcold : ∀ x ∈ s.walk, x.stack = st → x.asid ≠ a)
    (hlines : ∀ x ∈ (s.walkOnce none c' a va).2.lines, (mapGet none s.l2 x.1).isSome = true) :
    Registered s (s.walkOnce (some st) c a va).1 ∧
      (s.walkOnce (some st) c a va).2.ending = (s.walkOnce none c' a va).2.ending := by
  have first : (lineKey 0 0 (tableBase + 16 * a), 0) ∈ (s.walkOnce none c' a va).2.lines := by
    simp only [State.walkOnce, tableRead_none]
    split
    · exact List.mem_singleton_self _
    · split
      · exact List.mem_singleton_self _
      · exact walkFrom_reads s c' a va 4 _ _ _ _ (List.mem_append_left _ (List.mem_singleton_self _))
  obtain ⟨t, g, hread, hreg⟩ := tableRead_standing st (hlines _ first)
  simp only [State.walkOnce, hread, tableRead_none] at hlines ⊢
  split
  · exact ⟨hreg, rfl⟩
  · next hbad =>
    split
    · exact ⟨hreg, rfl⟩
    · next hstate =>
      rw [if_neg hbad, if_neg hstate] at hlines
      have same := walkFrom_congr hreg.mem hreg.dev c' a va
      obtain ⟨next, ends⟩ := walkFrom_standing c c' 4 t _ _ [] _ [] (hreg.walk ▸ hcold)
        fun x hx => (hreg.lines _).trans (hlines x (by rw [same] at hx; exact hx))
      exact ⟨hreg.trans next, ends.trans (congrArg WalkOut.ending (same ..))⟩

/-- The unit's walk cache and the registrations of level-2 lines are all that differs. -/
def Beyond (s t : State) : Prop := t = { s with l2 := t.l2, walk := t.walk }

theorem Beyond.cacheStep {s t : State} (h : Beyond s t) (w : WalkEntry) : Beyond s (t.cacheStep w) := by
  unfold Beyond at h ⊢
  rw [h]
  rfl

theorem Beyond.cacheSteps {s t : State} (h : Beyond s t) : ∀ ws : List WalkEntry, Beyond s (ws.foldl State.cacheStep t) := by
  intro ws
  induction ws generalizing t with
  | nil => exact h
  | cons w ws ih => exact ih (h.cacheStep w)

theorem Registered.beyond {s t : State} (h : Registered s t) : Beyond s t := by
  rw [Beyond, h.only]

theorem walkRaw_eq (s : State) (a va : Nat) : s.walkRaw a va = (s.walkOnce none true a va).2 := by
  simp [State.walkRaw, State.walkTo]

/-- A walk is its first passage or, where the comparison fails, the one after it that reads every entry at its home. -/
theorem walkTo_passage (s : State) (st a va : Nat) :
    ∃ p : State × WalkOut, s.walkTo (some st) a va = (p.2.steps.foldl State.cacheStep p.1, p.2) ∧
      (p = s.walkOnce (some st) true a va ∨ p = (s.walkOnce (some st) true a va).1.walkOnce (some st) false a va) := by
  unfold State.walkTo
  cases h : (some st).isNone || (s.walkOnce (some st) true a va).1.gensMatch (s.walkOnce (some st) true a va).2.lines with
  | true => exact ⟨_, by simp only [h, if_true], .inl rfl⟩
  | false => exact ⟨_, by simp only [h, Bool.false_eq_true, if_false], .inr rfl⟩

/-- A walk over lines that stand ends as the walk without trace does. -/
theorem walkTo_of_walks {s : State} {st a va : Nat} {w : WalkOut} (h : Walks s st a va w) :
    Beyond s (s.walkTo (some st) a va).1 ∧ (s.walkTo (some st) a va).2.ending = w.ending := by
  have raw : (s.walkOnce none true a va).2 = w := (walkRaw_eq s a va).symm.trans h.ends
  obtain ⟨hreg, ends⟩ := walkOnce_standing true true h.cold (raw ▸ h.lines)
  obtain ⟨p, e, rfl | rfl⟩ := walkTo_passage s st a va
  · rw [e]
    exact ⟨hreg.beyond.cacheSteps _, ends.trans (congrArg _ raw)⟩
  · rw [e]
    generalize (s.walkOnce (some st) true a va).1 = t at hreg
    have raw' : (t.walkOnce none true a va).2 = w :=
      (walkRaw_eq t a va).symm.trans ((walkRaw_congr hreg.mem hreg.dev a va).trans h.ends)
    obtain ⟨again, ends'⟩ := walkOnce_standing (s := t) false true (hreg.walk ▸ h.cold)
      fun x hx => (hreg.lines _).trans (h.lines x (raw' ▸ hx))
    exact ⟨(hreg.trans again).beyond.cacheSteps _, ends'.trans (congrArg _ raw')⟩

end Sys2Proof.Machine
end
section
/-! PROOF. A request whose page has no translation becomes a work item (R240, R241, R252). -/

namespace Sys2Proof.Machine

theorem find?_modWhere {α : Type} {p : α → Bool} {f : α → α} {xs : List α} {x : α} (hf : ∀ y, p (f y) = p y)
    (h : xs.find? p = some x) : (modWhere p f xs).find? p = some (f x) := by
  have hx := List.find?_some h
  have keep : (p ∘ fun x => if p x then f x else x) = p := by
    funext y
    simp only [Function.comp_apply]
    split
    · exact hf y
    · rfl
  rw [modWhere, List.find?_map, keep, h, Option.map_some, if_pos hx]

/-- A request that is found in a state is the one of its number. -/
theorem find?_and_of_find? {α : Type} {p q : α → Bool} {xs : List α} {x : α} (h : xs.find? p = some x) (hq : q x = true) :
    xs.find? (fun y => p y && q y) = some x := by
  obtain ⟨hp, as, bs, e, hno⟩ := List.find?_eq_some_iff_append.1 h
  refine List.find?_eq_some_iff_append.2 ⟨by simp [hp, hq], as, bs, e, fun a ha => ?_⟩
  simp only [Bool.not_eq_true', Bool.and_eq_false_iff]
  exact .inl (by simpa using hno a ha)

/-- R252: the item stands in the list, and the request waits on it. -/
theorem onItem_posts {q : Req} (st c lv a v va e f : Nat) {s : State} (hq : q.who.quiet = false) :
    let t := s.onItem q st c lv a v va e f
    t.items = s.items ++ [⟨s.ids, tileOfStack st, c, lv, q.kind.code, a, v, va, e, f, s.tick, none⟩] ∧
      t.reqs = modWhere (fun r => r.id == q.id) (fun r => { r with state := .onItem s.ids }) s.reqs := by
  simp only [State.onItem, hq, Bool.false_eq_true, if_false]
  exact ⟨rfl, rfl⟩

theorem Absent.withGrids {s : State} {a va : Nat} (h : Absent s a va) (gs : Map (Option Grid)) : Absent (s.withGrids gs) a va where
  line := h.line
  frame := by
    rw [findFrame_congr (t := s.withGrids gs) (s := s) rfl rfl, stackOf_congr (t := s.withGrids gs) (s := s) rfl]
    exact h.frame
  cached := h.cached
  calm := h.calm

theorem locate_absent {s : State} {a va : Nat} (k : AccKind) (b : Bool) (h : Absent s a va) :
    s.locate k b a 0 va = (s.reloadFade a va, .miss) := by
  obtain ⟨gs, hs, -⟩ := reloadFade_only s a va
  have hg := h.withGrids gs
  simp only [State.locate, State.locateKey, State.locateFrame, hs, cowBusy_calm hg.calm, hg.line, hg.frame, hg.cached,
    Bool.false_eq_true, if_false]

theorem Walks.withGrids {s : State} {st a va : Nat} {w : WalkOut} (h : Walks s st a va w) (gs : Map (Option Grid)) :
    Walks (s.withGrids gs) st a va w :=
  ⟨(walkRaw_congr (s := s) (t := s.withGrids gs) rfl rfl a va).trans h.ends, h.lines, h.cold⟩

theorem quiet_not_prefetch {w : ReqWho} (h : w.quiet = false) : (w == .prefetch) = false := by
  rw [beq_eq_false_iff_ne]
  rintro rfl
  nomatch h

/-- The fault of an entry that a walk met: not mapped, or malformed. -/
theorem walkFault_of {q : Req} {st a v va c : Nat} {w : WalkOut} (s : State)
    (h : w.kind = .notMapped ∧ c = 1 ∨ w.kind = .malformed ∧ c = 4) :
    s.walkFault q st a v va w = s.onItem q st c w.level a v va w.addr (frameField st 0) := by
  obtain ⟨hk, rfl⟩ | ⟨hk, rfl⟩ := h <;> simp only [State.walkFault, hk, State.entryFault]

/-- R240, R241: a page without translation is an item, posted where its walk left the unit. -/
theorem serveReq_absent {r : Req} {s : State} {w : WalkOut} {c : Nat} (hv : r.view = 0) (hq : r.who.quiet = false)
    (ht : inTable r.va = false) (ha : Absent s r.asid r.va) (hw : Walks s (s.stackOf r.asid r.va) r.asid r.va w)
    (hc : w.kind = .notMapped ∧ c = 1 ∨ w.kind = .malformed ∧ c = 4) :
    ∃ u : State, u.ids = s.ids ∧ u.reqs = s.reqs ∧ s.serveReq r =
      u.onItem r (s.stackOf r.asid r.va) c w.level r.asid 0 r.va w.addr (frameField (s.stackOf r.asid r.va) 0) := by
  obtain ⟨gs, hs, -⟩ := reloadFade_only s r.asid r.va
  obtain ⟨hb, he⟩ := walkTo_of_walks (hw.withGrids gs)
  have hst : (s.withGrids gs).stackOf r.asid r.va = s.stackOf r.asid r.va := stackOf_congr rfl _ _
  obtain ⟨hkind, hlevel, hentry, haddr⟩ : _ ∧ _ ∧ _ ∧ _ := by simpa [WalkOut.ending] using he
  refine ⟨_, (congrArg State.ids hb).trans rfl, (congrArg State.reqs hb).trans rfl, ?_⟩
  rw [← hlevel, ← haddr, ← walkFault_of _ (by rw [hkind]; exact hc)]
  simp only [State.serveReq, quiet_not_prefetch hq, hv, ne_eq, not_true, locate_absent _ _ ha, hs, ht, hst, Bool.false_eq_true, if_false]
  obtain ⟨hk, -⟩ | ⟨hk, -⟩ := hc <;> rw [hkind, hk]

/-- A request that is still there has not been served (R223). -/
theorem countGone_there {s : State} {q x : Req} (h : s.reqs.find? (fun r => r.id == q.id) = some x) : s.countGone q = s :=
  if_pos (List.any_eq_true.2 ⟨x, List.mem_of_find?_eq_some h, List.find?_some h⟩)

theorem execL2Miss_fresh {s : State} {r : Req} (h : s.reqs.find? (fun x => x.id == r.id) = some r) (hf : r.state = .fresh) :
    exec (.l2Miss r.id) s = .next ((s.serveReq r).countGone r).settleHolds := by
  have found := find?_and_of_find? (q := fun x => x.state == .fresh) h (by simp [hf])
  rw [show exec (.l2Miss r.id) s = execL2Miss r.id s from rfl, execL2Miss, found]

/-- R240, R241, R252 together. -/
theorem l2Miss_posts {r : Req} {s : State} {w : WalkOut} {c : Nat} (h : s.reqs.find? (fun x => x.id == r.id) = some r)
    (hf : r.state = .fresh) (hv : r.view = 0) (hq : r.who.quiet = false) (ht : inTable r.va = false)
    (ha : Absent s r.asid r.va) (hw : Walks s (s.stackOf r.asid r.va) r.asid r.va w)
    (hc : w.kind = .notMapped ∧ c = 1 ∨ w.kind = .malformed ∧ c = 4) :
    ∃ t : State, exec (.l2Miss r.id) s = .next t.settleHolds ∧
      (∃ i ∈ t.items, i.id = s.ids ∧ i.tile = tileOfStack (s.stackOf r.asid r.va) ∧ i.cause = c ∧ i.level = w.level ∧
        i.entry = w.addr ∧ i.asid = r.asid ∧ i.view = 0 ∧ i.va = r.va ∧ i.access = r.kind.code) ∧
      t.reqs.find? (fun x => x.id == r.id) = some { r with state := .onItem s.ids } := by
  obtain ⟨u, hids, hreqs, hs⟩ := serveReq_absent hv hq ht ha hw hc
  obtain ⟨hi, hr⟩ := onItem_posts (q := r) (s.stackOf r.asid r.va) c w.level r.asid 0 r.va w.addr
    (frameField (s.stackOf r.asid r.va) 0) (s := u) hq
  rw [← hs, hids] at hi hr
  have found : (s.serveReq r).reqs.find? (fun x => x.id == r.id) = some { r with state := .onItem s.ids } := by
    rw [hr]
    exact find?_modWhere (fun _ => rfl) (hreqs ▸ h)
  refine ⟨s.serveReq r, by rw [execL2Miss_fresh h hf, countGone_there found], ?_, found⟩
  rw [hi]
  exact ⟨_, List.mem_append_right _ (List.mem_singleton_self _), rfl, rfl, rfl, rfl, rfl, rfl, rfl, rfl, rfl⟩

end Sys2Proof.Machine
end
section
/-! PROOF. A request whose page stands in level-2 is served (R240). -/

namespace Sys2Proof.Machine

theorem served_lanes {q : Req} {s : State} {g : Nat} {m : Word} (hh : q.hint ≠ 2) (hb : q.breaks = false)
    (hw : q.who = .lanes g m) : s.served q = ({ s with reqs := s.reqs.filter (fun x => x.id != q.id) }).wakeLanes g m := by
  simp only [State.served, hh, false_and, if_false, State.wakeReq, State.dropReq, hb, Bool.false_eq_true, hw, State.wakeWho]

theorem serveReq_stands {r : Req} {s : State} {g : Nat} {m : Word} (hv : r.view = 0) (hw : r.who = .lanes g m) (hh : r.hint ≠ 2)
    (hb : r.breaks = false) (hs : Stands s r.asid r.va 1) :
    s.serveReq r = { s.reloadFade r.asid r.va with
      reqs := (s.reloadFade r.asid r.va).reqs.filter (fun x => x.id != r.id) }.wakeLanes g m := by
  have hp : (r.who == ReqWho.prefetch) = false := by rw [hw]; rfl
  simp only [State.serveReq, hp, hv, ne_eq, not_true, locate_of_stands _ _ hs, served_lanes hh hb hw, Bool.false_eq_true, if_false]

end Sys2Proof.Machine
end

section
/-! PROOF. What the fill unit keeps of its own (requests, frames, fills, items): what leaves it alone, and what lets
requests go on (R240, R245, R275, R284, R312). -/

namespace Sys2Proof.Machine

/-- What the fill unit keeps. -/
structure Ledger where
  reqs : List Req
  frames : Map Frame
  fills : List Fill
  items : List Item

def State.ledger (s : State) : Ledger := ⟨s.reqs, s.frames, s.fills, s.items⟩

/-! ### What leaves it alone -/

theorem modG_ledger (s : State) (k : Nat) (f : Group → Group) : (s.modG k f).ledger = s.ledger := by
  simp only [State.ledger, modG_reqs, modG_frames, modG_fills, modG_items]

theorem postDebug_ledger (s : State) (tm e g c : Nat) (m : Word) : (s.postDebug tm e g c m).ledger = s.ledger := rfl

theorem settleHalts_ledger (s : State) (k : Nat) : (s.settleHalts k).ledger = s.ledger := by
  unfold State.settleHalts
  split
  · rfl
  · split
    · rfl
    · extract_lets live h t u v
      have hu : u.ledger = s.ledger := modG_ledger ..
      have hv : v.ledger = s.ledger := by
        unfold v
        split
        · exact hu
        · exact (postDebug_ledger ..).trans hu
      split
      · exact hv
      · exact (postDebug_ledger ..).trans hv

theorem wakeLanes_ledger (s : State) (k : Nat) (m : Word) : (s.wakeLanes k m).ledger = s.ledger :=
  (settleHalts_ledger ..).trans (modG_ledger ..)

/-- All that goes on but a trap's delivery, which reads its handler's word. -/
theorem wakeWho_ledger {s : State} {w : ReqWho} (h : ∀ j, w ≠ .handler j) : (s.wakeWho w).ledger = s.ledger := by
  cases w with
  | lanes g m => exact wakeLanes_ledger ..
  | handler g => exact absurd rfl (h g)
  | _ => rfl

theorem settleKeys_ledger (s : State) (k n : Nat) : (s.settleKeys k n).ledger = s.ledger := by
  unfold State.settleKeys
  split <;> rfl

theorem dropLine_ledger (s : State) (lk : Nat) : (s.dropLine lk).ledger = s.ledger := by
  unfold State.dropLine
  extract_lets words u v
  have hu : u.ledger = s.ledger := foldl_same (v := State.ledger) (fun b e => by split <;> rfl) words s
  clear_value u
  split
  · exact hu
  · exact hu

theorem dropViewBlk_ledger (s : State) (a v va : Nat) : (s.dropViewBlk a v va).ledger = s.ledger := rfl

theorem evictLine_ledger (s : State) (lk : Nat) : (s.evictLine lk).ledger = s.ledger := by
  unfold State.evictLine
  extract_lets a v u
  have hu : u.ledger = s.ledger := dropLine_ledger ..
  split
  · exact (foldl_same (v := State.ledger) (fun _ _ => dropViewBlk_ledger ..) _ u).trans hu
  · exact hu

theorem makeRoom_ledger (s : State) (lk : Nat) : (s.makeRoom lk).ledger = s.ledger := by
  unfold State.makeRoom
  dsimp only
  split
  · rfl
  · split
    · rfl
    · split
      · rfl
      · split
        · exact evictLine_ledger ..
        · rfl

theorem addLine_ledger (s : State) (lk : Nat) (w x : Bool) : (s.addLine lk w x).ledger = s.ledger := by
  unfold State.addLine
  split
  · rfl
  · exact makeRoom_ledger ..

theorem countSlack_ledger (s : State) (a c k : Nat) : (s.countSlack a c k).ledger = s.ledger := by
  unfold State.countSlack
  split
  · rfl
  · split <;> rfl

theorem countServed_ledger (s : State) (d : Stamp) : (s.countServed d).ledger = s.ledger := countSlack_ledger ..

theorem nvmeSend_ledger (s : State) : s.nvmeSend.ledger = s.ledger := by
  refine foldl_same (v := State.ledger) (fun u c => ?_) _ s
  dsimp only
  split <;> rfl

theorem submit_ledger (s : State) (sub : Bool) (op drive ns lba count : Nat) (ps : List (Nat × Nat)) (w : NvmeFor) :
    (s.submit sub op drive ns lba count ps w).1.ledger = s.ledger := nvmeSend_ledger _

theorem syncNext_ledger (s : State) (k : Nat) : (s.syncNext k).ledger = s.ledger := by
  unfold State.syncNext
  split
  · exact modG_ledger ..
  · next drives _ _ _ =>
    refine (modG_ledger ..).trans ?_
    exact foldl_same (v := fun b : State × List Nat => b.1.ledger) (fun b x => submit_ledger ..) drives (s, [])
  · rfl

theorem syncEnd_ledger (s : State) (k id : Nat) (bad : Bool) : (s.syncEnd k id bad).ledger = s.ledger :=
  (syncNext_ledger ..).trans (modG_ledger ..)

theorem unlinkFrame_reqs (s : State) (st f : Nat) : (s.unlinkFrame st f).reqs = s.reqs := by
  unfold State.unlinkFrame
  extract_lets e h
  split
  · rfl
  · split <;> rfl

theorem dropSub_ledger (s : State) (a v va : Nat) : (s.dropSub a v va).ledger = s.ledger := by
  unfold State.dropSub
  extract_lets p u w
  have hw : w.ledger = s.ledger := (foldl_same (v := State.ledger) (fun _ _ => dropLine_ledger ..) _ u).trans (settleKeys_ledger ..)
  clear_value w
  exact hw

/-! ### Requests that are let go on -/

/-- Each request that is left stood before, for the same, and waits for what it did or is served afresh. -/
def Lessened (xs ys : List Req) : Prop :=
  ∀ y ∈ ys, ∃ x ∈ xs, y.id = x.id ∧ y.who = x.who ∧ (y.state = x.state ∨ y.state = .fresh)

namespace Lessened
variable {xs ys zs : List Req}

theorem refl (xs : List Req) : Lessened xs xs := fun y hy => ⟨y, hy, rfl, rfl, .inl rfl⟩

theorem trans (h : Lessened xs ys) (k : Lessened ys zs) : Lessened xs zs := fun z hz => by
  obtain ⟨y, hy, hid, hwho, hst⟩ := k z hz
  obtain ⟨x, hx, hid', hwho', hst'⟩ := h y hy
  refine ⟨x, hx, hid.trans hid', hwho.trans hwho', ?_⟩
  obtain hst | hst := hst
  · rw [hst]; exact hst'
  · exact .inr hst

theorem filter (p : Req → Bool) (xs : List Req) : Lessened xs (xs.filter p) := fun y hy =>
  ⟨y, List.mem_of_mem_filter hy, rfl, rfl, .inl rfl⟩

theorem freshen (p : Req → Bool) (xs : List Req) : Lessened xs (modWhere p (fun r => { r with state := .fresh }) xs) := fun y hy => by
  obtain ⟨x, hx, rfl⟩ := List.mem_map.1 hy
  refine ⟨x, hx, ?_⟩
  split
  · exact ⟨rfl, rfl, .inr rfl⟩
  · exact ⟨rfl, rfl, .inl rfl⟩

/-- No handler's word is awaited. -/
theorem noHandler (h : Lessened xs ys) (hx : ∀ r ∈ xs, ∀ j, r.who ≠ .handler j) :
    ∀ r ∈ ys, ∀ j, r.who ≠ .handler j := fun y hy j => by
  obtain ⟨x, hmem, -, hwho, -⟩ := h y hy
  rw [hwho]
  exact hx x hmem j
end Lessened

/-- Requests have been let go on, and nothing else of the fill unit's has changed. -/
structure LetGo (s t : State) : Prop where
  reqs : Lessened s.reqs t.reqs
  rest : t.ledger = { s.ledger with reqs := t.reqs }

namespace LetGo
variable {s t u : State}

theorem of_ledger (h : t.ledger = s.ledger) : LetGo s t := by
  have hr : t.reqs = s.reqs := congrArg Ledger.reqs h
  refine ⟨?_, ?_⟩
  · rw [hr]; exact .refl _
  · rw [h, hr]; rfl

theorem refl (s : State) : LetGo s s := .of_ledger rfl

theorem trans (h : LetGo s t) (k : LetGo t u) : LetGo s u := ⟨h.reqs.trans k.reqs, by rw [k.rest, h.rest]⟩

theorem frames (h : LetGo s t) : t.frames = s.frames := congrArg Ledger.frames h.rest
theorem fills (h : LetGo s t) : t.fills = s.fills := congrArg Ledger.fills h.rest
theorem items (h : LetGo s t) : t.items = s.items := congrArg Ledger.items h.rest
theorem frame (h : LetGo s t) (k : Nat) : t.frame k = s.frame k := by rw [State.frame, State.frame, h.frames]

end LetGo

theorem dropReq_letGo (s : State) (r : Req) : LetGo s (s.dropReq r) := by
  unfold State.dropReq
  extract_lets u
  have hu : LetGo s u := ⟨.filter _ _, rfl⟩
  split
  · exact hu.trans ⟨.freshen _ _, rfl⟩
  · exact hu

theorem wakeReq_letGo {s : State} {r : Req} (h : ∀ j, r.who ≠ .handler j) : LetGo s (s.wakeReq r) :=
  (dropReq_letGo s r).trans (.of_ledger (wakeWho_ledger h))

/-- Requests of a list are let go on one after the other. -/
theorem wakeReqs_letGo : ∀ {rs : List Req} (s : State), (∀ r ∈ rs, ∀ j, r.who ≠ .handler j) → LetGo s (rs.foldl State.wakeReq s)
  | [], s, _ => .refl s
  | r :: _, _, h => (wakeReq_letGo (h r (by simp))).trans (wakeReqs_letGo _ fun x hx => h x (by simp [hx]))

theorem releaseBlk_letGo {s : State} (h : ∀ r ∈ s.reqs, ∀ j, r.who ≠ .handler j) (b : Nat) : LetGo s (s.releaseBlk b) := by
  unfold State.releaseBlk
  extract_lets q now
  have hq : ∀ r ∈ q, ∀ j, r.who ≠ .handler j := fun r hr => h r (List.mem_of_mem_filter hr)
  split
  · split
    · next r hr => exact .of_ledger (wakeWho_ledger (hq r (List.mem_of_head? hr)))
    · exact .refl s
  · exact wakeReqs_letGo s fun r hr => hq r (List.takeWhile_subset _ hr)

theorem breachDams_letGo {s : State} (h : ∀ r ∈ s.reqs, ∀ j, r.who ≠ .handler j) (p : Dam → Bool) : LetGo s (s.breachDams p) := by
  have released : ∀ (ds : List Dam) (u : State), LetGo s u → LetGo s (ds.foldl (fun u d => u.releaseBlk d.blk) u) := by
    intro ds
    induction ds with
    | nil => exact fun u hu => hu
    | cons d ds ih => exact fun u hu => ih _ (hu.trans (releaseBlk_letGo (hu.reqs.noHandler h) d.blk))
  exact released _ _ (.of_ledger rfl)

theorem findErrors_letGo {s : State} (h : ∀ r ∈ s.reqs, ∀ j, r.who ≠ .handler j) : LetGo s s.findErrors := by
  unfold State.findErrors
  split
  · exact .refl s
  · exact breachDams_letGo h _

end Sys2Proof.Machine
end

section
/-! PROOF. The data of a fill lands (R244, R245). -/

namespace Sys2Proof.Machine

/-- Requests may be let go on; frames keep STATE and SUBMASK, and no fill begins or ends. -/
structure Landing (s t : State) : Prop where
  reqs : Lessened s.reqs t.reqs
  frame : ∀ k, (t.frame k).state = (s.frame k).state ∧ (t.frame k).sub = (s.frame k).sub
  fills : t.fills = s.fills

namespace Landing
variable {s t u : State}

theorem of_letGo (h : LetGo s t) : Landing s t := ⟨h.reqs, fun k => by rw [h.frame k]; exact ⟨rfl, rfl⟩, h.fills⟩

theorem of_ledger (h : t.ledger = s.ledger) : Landing s t := .of_letGo (.of_ledger h)

theorem refl (s : State) : Landing s s := .of_ledger rfl

theorem trans (h : Landing s t) (k : Landing t u) : Landing s u :=
  ⟨h.reqs.trans k.reqs, fun q => ⟨(k.frame q).1.trans (h.frame q).1, (k.frame q).2.trans (h.frame q).2⟩, k.fills.trans h.fills⟩

/-- A change of one frame that keeps both. -/
theorem setFrame (s : State) (fk : Nat) {f : Frame → Frame} (hs : ∀ e, (f e).state = e.state) (hb : ∀ e, (f e).sub = e.sub) :
    Landing s (s.setFrame fk f) := by
  refine ⟨.refl _, fun k => ?_, rfl⟩
  rw [setFrame_frame]
  split
  · next h =>
    rw [h]
    exact ⟨hs _, hb _⟩
  · exact ⟨rfl, rfl⟩

end Landing

theorem setReq_fresh_letGo (s : State) (id : Nat) : LetGo s (s.setReq id .fresh) := ⟨.freshen _ _, rfl⟩

/-- A request under the number that was set waits as it was set to. -/
theorem setReq_state {s : State} {id : Nat} {st : ReqState} {y : Req} (hy : y ∈ (s.setReq id st).reqs) (h : y.id = id) :
    y.state = st := by
  obtain ⟨x, -, rfl⟩ := List.mem_map.1 hy
  by_cases hx : (x.id == id) = true
  · rw [if_pos hx]
  · rw [if_neg hx] at h
    exact absurd (beq_iff_eq.2 h) hx

/-- A request that is done with has gone. -/
theorem dropReq_gone {s : State} {r y : Req} (hy : y ∈ (s.dropReq r).reqs) : y.id ≠ r.id := by
  have left : ∀ x ∈ s.reqs.filter (fun x => x.id != r.id), x.id ≠ r.id := fun x hx => bne_iff_ne.1 (List.mem_filter.1 hx).2
  unfold State.dropReq at hy
  dsimp only at hy
  split at hy
  · obtain ⟨x, hx, rfl⟩ := List.mem_map.1 hy
    split <;> exact left x hx
  · exact left y hy

/-- What of the line and of the access is counted when a request meets its frame (R253). -/
theorem landReq_cases (s : State) (fk : Nat) (r : Req) :
    ∃ u, Landing s u ∧ (s.landReq fk r = u.wakeReq r ∨ s.landReq fk r = u.setReq r.id .fresh) := by
  unfold State.landReq
  extract_lets k e lk own u
  split
  · have hu : Landing s u := by
      unfold u
      split
      · split
        · exact .setFrame s fk (fun _ => rfl) fun _ => rfl
        · exact .refl s
      · split
        · exact .refl s
        · refine Landing.trans ?_ (.of_ledger (addLine_ledger ..))
          split
          · exact .refl s
          · exact .setFrame s fk (fun _ => rfl) fun _ => rfl
    split
    · exact ⟨_, hu.trans (.of_ledger (countServed_ledger u r.stamp)), .inl rfl⟩
    · exact ⟨u, hu, .inr rfl⟩
  · exact ⟨s, .refl s, .inr rfl⟩

/-- A request that has met its frame has gone, or is served afresh. -/
theorem landReq_landing {s : State} {r : Req} (fk : Nat) (hw : ∀ j, r.who ≠ .handler j) :
    Landing s (s.landReq fk r) ∧ ∀ y ∈ (s.landReq fk r).reqs, y.id = r.id → y.state = .fresh := by
  obtain ⟨u, hu, h | h⟩ := landReq_cases s fk r
  · rw [h]
    refine ⟨hu.trans (.of_letGo (wakeReq_letGo hw)), fun y hy hid => ?_⟩
    rw [show (u.wakeReq r).reqs = (u.dropReq r).reqs from congrArg Ledger.reqs (wakeWho_ledger hw)] at hy
    exact absurd hid (dropReq_gone hy)
  · rw [h]
    exact ⟨hu.trans (.of_letGo (setReq_fresh_letGo ..)), fun y hy => setReq_state hy⟩

/-- Requests that meet the frame one after the other. -/
theorem landReqs_landing (fk : Nat) : ∀ {rs : List Req} (s : State), (∀ r ∈ rs, ∀ j, r.who ≠ .handler j) →
    Landing s (rs.foldl (fun u r => u.landReq fk r) s) ∧
      ∀ y ∈ (rs.foldl (fun u r => u.landReq fk r) s).reqs, ∀ r ∈ rs, y.id = r.id → y.state = .fresh := by
  intro rs
  induction rs with
  | nil => exact fun s _ => ⟨.refl s, fun _ _ _ h => nomatch h⟩
  | cons r rs ih =>
    intro s hw
    obtain ⟨h1, met⟩ := landReq_landing (s := s) fk (hw r (by simp))
    obtain ⟨h2, met'⟩ := ih (s.landReq fk r) fun x hx => hw x (by simp [hx])
    refine ⟨h1.trans h2, fun y hy x hx hid => ?_⟩
    obtain rfl | hx := List.mem_cons.1 hx
    · obtain ⟨z, hz, hyz, -, hst⟩ := h2.reqs y hy
      have hzf := met z hz (hyz.symm.trans hid)
      obtain hst | hst := hst
      · exact hst.trans hzf
      · exact hst
    · exact met' y hy x hx hid

/-- Once each that waited for the frame has met it, none waits for it. -/
theorem landReqs_none {s : State} {fk : Nat} (hw : ∀ r ∈ s.reqs, ∀ j, r.who ≠ .handler j) :
    let t := (s.reqs.filter (fun r => r.state == .onFrame fk)).foldl (fun u r => u.landReq fk r) s
    Landing s t ∧ ∀ y ∈ t.reqs, y.state ≠ .onFrame fk := by
  obtain ⟨h, met⟩ := landReqs_landing fk (rs := s.reqs.filter (fun r => r.state == .onFrame fk)) s
    fun r hr => hw r (List.mem_of_mem_filter hr)
  refine ⟨h, fun y hy hfk => ?_⟩
  obtain ⟨x, hx, hid, -, hst⟩ := h.reqs y hy
  have hxfk : x.state = .onFrame fk := by
    obtain hst | hst := hst
    · exact hst.symm.trans hfk
    · exact absurd (hst.symm.trans hfk) (by simp)
  have := met y hy x (List.mem_filter.2 ⟨hx, by simp [hxfk]⟩) hid
  simp [hfk] at this

theorem watchFill_ledger (s : State) (st a v rg : Nat) (d : Stamp) : (s.watchFill st a v rg d).ledger = s.ledger := by
  unfold State.watchFill
  extract_lets depth t near tops u
  refine foldl_same (v := State.ledger) (fun w r => ?_) _ u
  rfl

theorem countServed_gensMatch (s : State) (d : Stamp) (ls : List (Nat × Nat)) : (s.countServed d).gensMatch ls = s.gensMatch ls := by
  unfold State.countServed State.countSlack
  split
  · rfl
  · split <;> rfl

/-- The frame of a fill, its data there. -/
def Frame.filled (fl : Fill) (e : Frame) : Frame :=
  { e with state := 1, access := 1, sub := e.sub ||| fl.subs, w := fl.w, x := fl.x }

/-- R245 step 4, before the requests meet the frame. -/
def State.filledFrame (s : State) (fl : Fill) : State :=
  (({ s with fills := s.fills.filter (fun x => x.fk != fl.fk) }).countServed fl.stamp).setFrame fl.fk
    (Frame.filled fl)

theorem filledFrame_holds (s : State) (fl : Fill) : (s.filledFrame fl).reqs = s.reqs ∧
    (s.filledFrame fl).fills = s.fills.filter (fun x => x.fk != fl.fk) ∧
    (s.filledFrame fl).frame fl.fk = Frame.filled fl (s.frame fl.fk) := by
  have h := countServed_ledger { s with fills := s.fills.filter (fun x => x.fk != fl.fk) } fl.stamp
  refine ⟨congrArg Ledger.reqs h, congrArg Ledger.fills h, ?_⟩
  rw [State.filledFrame, setFrame_frame, if_pos rfl]
  exact congrArg (Frame.filled fl) (congrArg (fun m => mapGet Frame.free m fl.fk) (congrArg Ledger.frames h))

theorem fillLand_matching {s : State} {fl : Fill} (h : s.gensMatch fl.lines = true) :
    s.fillLand fl = (((s.filledFrame fl).reqs.filter (fun r => r.state == .onFrame fl.fk)).foldl (fun u r => u.landReq fl.fk r)
      (s.filledFrame fl)).watchFill (fl.fk / 2 ^ 20) (s.frame fl.fk).asid (s.frame fl.fk).view (s.frame fl.fk).vpn fl.stamp := by
  have hm : (({ s with fills := s.fills.filter (fun x => x.fk != fl.fk) }).countServed fl.stamp).gensMatch fl.lines = true :=
    (countServed_gensMatch ..).trans h
  simp only [State.fillLand, hm, Bool.not_true, Bool.false_eq_true, if_false]
  rfl

/-- A frame whose data lands stands, with its new sub-pages, and no request waits for it. -/
theorem fillLand_stands {s : State} {fl : Fill} (hg : s.gensMatch fl.lines = true) (hw : ∀ r ∈ s.reqs, ∀ j, r.who ≠ .handler j) :
    let t := (s.fillLand fl).findErrors
    (t.frame fl.fk).state = 1 ∧ (t.frame fl.fk).sub = (s.frame fl.fk).sub ||| fl.subs ∧ (∀ y ∈ t.fills, y.fk ≠ fl.fk) ∧
      ∀ y ∈ t.reqs, y.state ≠ .onFrame fl.fk := by
  obtain ⟨hreqs, hfills, hframe⟩ := filledFrame_holds s fl
  obtain ⟨h, none⟩ := landReqs_none (s := s.filledFrame fl) (fk := fl.fk) (hreqs ▸ hw)
  rw [fillLand_matching hg]
  generalize List.foldl _ _ _ = u at h none ⊢
  have watched : LetGo u (u.watchFill (fl.fk / 2 ^ 20) (s.frame fl.fk).asid (s.frame fl.fk).view (s.frame fl.fk).vpn fl.stamp) :=
    .of_ledger (watchFill_ledger ..)
  have found := watched.trans (findErrors_letGo (watched.reqs.noHandler (h.reqs.noHandler (hreqs ▸ hw))))
  obtain ⟨hstate, hsub⟩ := h.frame fl.fk
  refine ⟨?_, ?_, ?_, fun y hy hfk => ?_⟩
  · rw [found.frame, hstate, hframe]; rfl
  · rw [found.frame, hsub, hframe]; rfl
  · rw [found.fills, h.fills, hfills]
    exact fun y hy => bne_iff_ne.1 (List.mem_filter.1 hy).2
  · obtain ⟨x, hx, -, -, hst⟩ := found.reqs y hy
    obtain hst | hst := hst
    · exact none x hx (hst.symm.trans hfk)
    · simp [hfk] at hst

theorem execFillDataLand_found {s : State} {k f : Nat} {fl : Fill}
    (h : s.fills.find? (fun x => x.fk == frameKey k f && x.cmds.isEmpty) = some fl) :
    exec (.fillDataLand k f) s = .next (s.fillLand fl).findErrors.settleHolds := by
  rw [show exec (.fillDataLand k f) s = execFillDataLand k f s from rfl, execFillDataLand, h]

end Sys2Proof.Machine
end
section
/-! PROOF. A write-back ends (R247, R383). -/

namespace Sys2Proof.Machine

theorem frameKey_split (fk : Nat) : frameKey (fk / 2 ^ 20) (fk % 2 ^ 20) = fk := by
  unfold frameKey
  omega

/-- The requests after a frame has been freed. -/
theorem freeFrame_reqs (s : State) (st f : Nat) : Lessened s.reqs (s.freeFrame st f).reqs := by
  unfold State.freeFrame
  extract_lets e u w
  have hu : u.reqs = s.reqs := unlinkFrame_reqs ..
  have hw : w.ledger = u.ledger := foldl_same (v := State.ledger) (fun _ _ => dropSub_ledger ..) _ u
  clear_value w
  rw [← hu, ← show w.reqs = u.reqs from congrArg Ledger.reqs hw]
  exact .freshen _ _

theorem freeFrame_frees (s : State) (fk : Nat) : (s.freeFrame (fk / 2 ^ 20) (fk % 2 ^ 20)).frame fk = Frame.free := by
  have h := freeFrame_frame s (fk / 2 ^ 20) (fk % 2 ^ 20)
  rwa [frameKey_split] at h

/-- A write-back leaves the list, and is counted. -/
def State.spillGone (s : State) (sp : Spill) : State :=
  ({ s with spills := s.spills.filter (fun x => x.id != sp.id) }).countServed sp.stamp

theorem spillGone_ledger (s : State) (sp : Spill) : (s.spillGone sp).ledger = s.ledger :=
  (countServed_ledger { s with spills := s.spills.filter (fun x => x.id != sp.id) } sp.stamp).trans rfl

theorem spillGone_frame (s : State) (sp : Spill) (k : Nat) : (s.spillGone sp).frame k = s.frame k :=
  congrArg (fun m => mapGet Frame.free m k) (congrArg Ledger.frames (spillGone_ledger s sp))

/-- What a write-back wrote is clean. -/
def State.spillClean (s : State) (sp : Spill) : State :=
  (s.spillGone sp).setFrame sp.fk (fun e => { e with dirty := e.dirty &&& ~~~sp.subs })

theorem spillClean_frame (s : State) (sp : Spill) :
    (s.spillClean sp).frame sp.fk = { s.frame sp.fk with dirty := (s.frame sp.fk).dirty &&& ~~~sp.subs } := by
  rw [State.spillClean, setFrame_frame, if_pos rfl, spillGone_frame]

theorem spillClean_reqs (s : State) (sp : Spill) : (s.spillClean sp).reqs = s.reqs :=
  congrArg Ledger.reqs (spillGone_ledger s sp)

/-- The frame of a write-back that does not free it stands again, and those that waited for it are served afresh. -/
def State.standAgain (s : State) (fk : Nat) : State := (s.setFrame fk (fun e => { e with state := 1 })).refresh (.onFrame fk)

theorem standAgain_frame (s : State) (fk : Nat) : (s.standAgain fk).frame fk = { s.frame fk with state := 1 } := by
  rw [State.standAgain, refresh_frame, setFrame_frame, if_pos rfl]

theorem standAgain_reqs (s : State) (fk : Nat) : Lessened s.reqs (s.standAgain fk).reqs := .freshen _ _

section
variable {s : State} {sp : Spill} (hf : sp.failed = none) (ht : sp.tell = false)
include hf ht

theorem spillEnd_freed (hr : sp.resv = false) (hfree : sp.free = true) (h0 : (s.frame sp.fk).dirty &&& ~~~sp.subs = 0) :
    s.spillEnd sp true = (s.spillClean sp).freeFrame (sp.fk / 2 ^ 20) (sp.fk % 2 ^ 20) := by
  have hd : ((s.spillClean sp).frame sp.fk).dirty = 0 := by rw [spillClean_frame]; exact h0
  unfold State.spillEnd
  simp only [hf, ht, hr, hfree, Option.isSome_none, Bool.not_true, Bool.or_self, Bool.false_eq_true, if_false, Bool.false_and,
    Bool.not_false, Bool.and_true, Bool.true_and]
  exact if_pos (beq_iff_eq.2 hd)

theorem spillEnd_stays (hfree : sp.free = false) : s.spillEnd sp true = (s.spillClean sp).standAgain sp.fk := by
  unfold State.spillEnd
  simp only [hf, ht, hfree, Option.isSome_none, Bool.not_true, Bool.or_self, Bool.false_eq_true, if_false, Bool.false_and]
  rfl

theorem spillEnd_failed : s.spillEnd sp false = (((s.spillGone sp).postItem (sp.fk / 2 ^ 20) 10 15 1 (s.frame sp.fk).asid
    (s.frame sp.fk).view ((s.frame sp.fk).vpn * 2 ^ 16) 0 (backingField (sp.fk / 2 ^ 20) (sp.fk % 2 ^ 20) 0 2 0)).1).standAgain sp.fk := by
  rw [← spillGone_frame]
  unfold State.spillEnd
  simp only [hf, ht, Option.isSome_none, Bool.not_false, Bool.or_true, Bool.false_eq_true, if_false, Bool.false_and, if_true,
    Bool.not_true, Bool.and_false]
  rfl
end

/-- After the frame: the groups that wait in `fqe.sync`, and the cofferdams with an error. -/
theorem spillDone_letGo {s : State} {sp : Spill} {ok : Bool}
    (h : s.spills.find? (fun x => x.id == sp.id && x.cmds.isEmpty) = some sp) (hw : ∀ r ∈ s.reqs, ∀ j, r.who ≠ .handler j)
    (hr : Lessened s.reqs (s.spillEnd sp ok).reqs) :
    ∃ t : State, exec (.spillwayWriteBackDone sp.id ok) s = .next t.settleHolds ∧ LetGo (s.spillEnd sp ok) t := by
  have synced : ∀ gs : List Nat, LetGo (s.spillEnd sp ok)
      (gs.foldl (fun u g => u.syncEnd g sp.id (sp.failed.isSome || !ok)) (s.spillEnd sp ok)) := fun gs =>
    .of_ledger (foldl_same (v := State.ledger) (fun u g => syncEnd_ledger u g sp.id (sp.failed.isSome || !ok)) gs _)
  have hsync := synced ((s.spillEnd sp ok).syncers sp.id)
  refine ⟨_, ?_, hsync.trans (findErrors_letGo (hsync.reqs.noHandler (hr.noHandler hw)))⟩
  rw [show exec (.spillwayWriteBackDone sp.id ok) s = execSpillwayWriteBackDone sp.id ok s from rfl, execSpillwayWriteBackDone, h]

section
variable {s : State} {sp : Spill} (h : s.spills.find? (fun x => x.id == sp.id && x.cmds.isEmpty) = some sp) (hf : sp.failed = none)
  (ht : sp.tell = false) (hw : ∀ r ∈ s.reqs, ∀ j, r.who ≠ .handler j)
include h hf ht hw

/-- R247: a frame that is to be freed and has nothing left to write is free. -/
theorem writeBack_frees (hr : sp.resv = false) (h0 : (s.frame sp.fk).dirty &&& ~~~sp.subs = 0) (hfree : sp.free = true) :
    ∃ t : State, exec (.spillwayWriteBackDone sp.id true) s = .next t.settleHolds ∧ (t.frame sp.fk).state = 0 := by
  have e := spillEnd_freed hf ht hr hfree h0
  obtain ⟨t, he, hgo⟩ := spillDone_letGo (ok := true) h hw (by
    rw [e, ← spillClean_reqs s sp]
    exact freeFrame_reqs _ _ _)
  refine ⟨t, he, ?_⟩
  rw [hgo.frame, e, freeFrame_frees]
  rfl

/-- R247: what was written is clean. -/
theorem writeBack_cleans (hfree : sp.free = false) : ∃ t : State, exec (.spillwayWriteBackDone sp.id true) s = .next t.settleHolds ∧
    t.frame sp.fk = { s.frame sp.fk with dirty := (s.frame sp.fk).dirty &&& ~~~sp.subs, state := 1 } := by
  have e := spillEnd_stays (s := s) hf ht hfree
  obtain ⟨t, he, hgo⟩ := spillDone_letGo (ok := true) h hw (by
    rw [e, ← spillClean_reqs s sp]
    exact standAgain_reqs _ _)
  refine ⟨t, he, ?_⟩
  rw [hgo.frame, e, standAgain_frame, spillClean_frame]

/-- R383: after a failure DIRTYMASK stands, and BACKING is posted. -/
theorem writeBack_fails : ∃ t : State, exec (.spillwayWriteBackDone sp.id false) s = .next t.settleHolds ∧
    (t.frame sp.fk).state = 1 ∧ (t.frame sp.fk).dirty = (s.frame sp.fk).dirty ∧
    ∃ i ∈ t.items, i.cause = 10 ∧ i.asid = (s.frame sp.fk).asid ∧ i.va = (s.frame sp.fk).vpn * 2 ^ 16 := by
  have e := spillEnd_failed (s := s) hf ht
  have hreqs : (s.spillGone sp).reqs = s.reqs := congrArg Ledger.reqs (spillGone_ledger s sp)
  obtain ⟨t, he, hgo⟩ := spillDone_letGo (ok := false) h hw (by
    rw [e, ← hreqs]
    exact standAgain_reqs _ _)
  have hframe : t.frame sp.fk = { s.frame sp.fk with state := 1 } := by
    rw [hgo.frame, e, standAgain_frame, ← spillGone_frame s sp]
    rfl
  refine ⟨t, he, by rw [hframe], by rw [hframe], ?_⟩
  rw [hgo.items, e]
  exact ⟨_, List.mem_append_right _ (List.mem_singleton_self _), rfl, rfl, rfl⟩
end

end Sys2Proof.Machine
end

section
/-! PROOF. An invalidation is acted on, and a line leaves level-2 (R202, R242 to R244, R440). -/

namespace Sys2Proof.Machine

/-! ### Invalidations (R243) -/

theorem stackInval_walk {s : State} {i : Inval} {st : Nat} {w : WalkEntry} (hw : w ∈ (s.stackInval i st).walk) (hst : w.stack = st) :
    ∀ l ∈ w.lines, l.1 ≠ i.line := by
  have keep := (List.mem_filter.1 hw).2
  simpa [hst] using keep

theorem stackInval_l1 {s : State} {i : Inval} {st : Nat} {b : L1Block} (hb : b ∈ (s.stackInval i st).l1) (hf : b.fetch = true) :
    b.blk / 2 ^ 57 ∉ i.asids := by
  have keep := (List.mem_filter.1 hb).2
  simpa [hf] using keep

theorem stackInval_frames {s : State} {i : Inval} {st : Nat} {e : Nat × Frame} (he : e ∈ (s.stackInval i st).frames)
    (hst : e.1 / 2 ^ 20 = st) (ha : e.2.asid ∈ i.asids) (ht : e.2.table = false) : e.2.w = false ∧ e.2.x = false := by
  obtain ⟨y, -, rfl⟩ := List.mem_map.1 he
  dsimp only at hst ha ht ⊢
  split at ha
  · next hy => rw [if_pos hy]; exact ⟨rfl, rfl⟩
  · next hy =>
    rw [if_neg hy] at ht
    exact absurd (by rw [hst]; simp [ha, ht]) hy

/-- A store but for its wait on invalidation `k`. -/
def PendStore.told (k : Nat) (x : PendStore) : PendStore :=
  { x with kind := match x.kind with
      | .write ids => .write (ids.filter (· != k))
      | y => y }

theorem told_write {k : Nat} {x : PendStore} {ids : List Nat} (h : (x.told k).kind = .write ids) : k ∉ ids := by
  unfold PendStore.told at h
  dsimp only at h
  split at h
  · cases h
    simp
  · next hx => exact absurd h (hx ids)

theorem execTableInvalidation_of {s : State} {i : Inval} {st : Nat} (h : s.invals.find? (fun x => x.id == i.id) = some i)
    (hst : i.toStacks.getLsbD st = true) :
    ∃ t, exec (.tableInvalidation i.id st) s = .next t ∧ t.walk = (s.stackInval i st).walk ∧ t.l1 = (s.stackInval i st).l1 ∧
      t.frames = (s.stackInval i st).frames ∧
      (i.toStacks &&& ~~~(laneBit st) = 0 → t.invals = s.invals.filter (fun x => x.id != i.id) ∧
        t.stores = s.stores.map (PendStore.told i.id)) := by
  rw [show exec (.tableInvalidation i.id st) s = execTableInvalidation i.id st s from rfl, execTableInvalidation, h]
  simp only [hst, Bool.not_true, Bool.false_eq_true, if_false]
  split
  · exact ⟨_, rfl, rfl, rfl, rfl, fun _ => ⟨rfl, rfl⟩⟩
  · next hleft => exact ⟨_, rfl, rfl, rfl, rfl, fun h0 => absurd h0 hleft⟩

/-! ### Lines that leave (R202, R242, R244, R440) -/

/-- Only what stands beside the bytes of lines has changed. -/
def LineGone (s t : State) : Prop :=
  t = { s with rel := t.rel, race := t.race, stamps := t.stamps, l2 := t.l2, lostDir := t.lostDir, lostClk := t.lostClk }

theorem LineGone.trans {s t u : State} (h : LineGone s t) (k : LineGone t u) : LineGone s u := by
  unfold LineGone at h k
  rw [h] at k
  exact k

theorem LineGone.sameBytes {s t : State} (h : LineGone s t) : SameBytes s t := by
  intro l i hl
  rw [h]
  cases l with
  | reg k b => exact absurd rfl (hl k b)
  | _ => rfl

theorem LineGone.foldl {α : Type} {f : State → α → State} (hf : ∀ s x, LineGone s (f s x)) :
    ∀ (xs : List α) (s : State), LineGone s (xs.foldl f s)
  | [], _ => rfl
  | x :: xs, s => (hf s x).trans (foldl hf xs (f s x))

theorem dropLine_gone (s : State) (lk : Nat) : LineGone s (s.dropLine lk) ∧ mapGet none (s.dropLine lk).l2 lk = none := by
  unfold State.dropLine
  extract_lets words u
  have hu : LineGone s u := LineGone.foldl (fun b e => by split <;> exact rfl) words s
  clear_value u
  split
  · next hl => exact ⟨hu.trans rfl, hl⟩
  · exact ⟨hu.trans rfl, by simp only [mapGet_mapSet_same]⟩

theorem dropViewBlk_l2 (s : State) (a v va : Nat) : (s.dropViewBlk a v va).l2 = s.l2 := rfl

theorem evictLine_none (s : State) (lk : Nat) : mapGet none (s.evictLine lk).l2 lk = none := by
  unfold State.evictLine
  extract_lets a v u
  have hu : mapGet none u.l2 lk = none := (dropLine_gone s lk).2
  split
  · rw [foldl_same (v := State.l2) (fun _ _ => dropViewBlk_l2 ..) _ u]
    exact hu
  · exact hu

theorem evictLine_of_home {s : State} {lk : Nat} (h : lineView lk = 0) : s.evictLine lk = s.dropLine lk := by
  simp [State.evictLine, h]

theorem lineView_lineKey {a w ln : Nat} (hw : w < 64) (hl : ln < 2 ^ 49) : lineView (lineKey a w (256 * ln)) = w := by
  unfold lineView lineKey
  omega

theorem evictable_home {s : State} {lk : Nat} (h : lineView lk = 0) : s.evictable lk = (s.heldBy lk).isNone := if_pos h

theorem evictable_clean {s : State} {lk : Nat} {l : L2Line} (hv : lineView lk ≠ 0) (hl : mapGet none s.l2 lk = some l)
    (hd : l.dirty = false) : s.evictable lk = true := by
  simp [State.evictable, hv, hl, hd]

theorem execL2LineEvict_none {s : State} {a w ln : Nat} (h : mapGet none s.l2 (lineKey a w (256 * ln)) = none) :
    exec (.l2LineEvict a w ln) s = .next s := by
  rw [show exec (.l2LineEvict a w ln) s = execL2LineEvict a w ln s from rfl, execL2LineEvict]
  simp [h]

theorem execL2LineEvict_some {s : State} {a w ln : Nat} {l : L2Line} (h : mapGet none s.l2 (lineKey a w (256 * ln)) = some l) :
    exec (.l2LineEvict a w ln) s = .next (if s.evictable (lineKey a w (256 * ln)) then s.evictLine (lineKey a w (256 * ln))
      else if w = 0 then s else s.viewEvict a w (256 * ln)) := by
  rw [show exec (.l2LineEvict a w ln) s = execL2LineEvict a w ln s from rfl, execL2LineEvict]
  simp only [h, Option.isNone_some, Bool.false_eq_true, if_false]

/-- R202, R244: a line of view 0 goes where no walk holds it. -/
theorem evict_home {s : State} {a ln : Nat} (hln : ln < 2 ^ 49) (hh : s.heldBy (lineKey a 0 (256 * ln)) = none) :
    ∃ t, exec (.l2LineEvict a 0 ln) s = .next t ∧ SameBytes s t ∧ mapGet none t.l2 (lineKey a 0 (256 * ln)) = none := by
  have hv : lineView (lineKey a 0 (256 * ln)) = 0 := lineView_lineKey (by decide) hln
  cases hl : mapGet none s.l2 (lineKey a 0 (256 * ln)) with
  | none => exact ⟨s, execL2LineEvict_none hl, fun _ _ _ => rfl, hl⟩
  | some l =>
    obtain ⟨gone, hnone⟩ := dropLine_gone s (lineKey a 0 (256 * ln))
    refine ⟨_, ?_, gone.sameBytes, hnone⟩
    rw [execL2LineEvict_some hl, evictable_home hv, hh, Option.isNone_none, if_pos rfl, evictLine_of_home hv]

theorem evict_held {s : State} {a ln : Nat} (hln : ln < 2 ^ 49) (hh : s.heldBy (lineKey a 0 (256 * ln)) ≠ none) :
    exec (.l2LineEvict a 0 ln) s = .next s := by
  have hv : lineView (lineKey a 0 (256 * ln)) = 0 := lineView_lineKey (by decide) hln
  cases hl : mapGet none s.l2 (lineKey a 0 (256 * ln)) with
  | none => exact execL2LineEvict_none hl
  | some l =>
    have stays : s.evictable (lineKey a 0 (256 * ln)) ≠ true := by
      rw [evictable_home hv]
      exact fun hn => hh (Option.isNone_iff_eq_none.1 hn)
    rw [execL2LineEvict_some hl, if_neg stays, if_pos rfl]

/-- R440: a clean line of a view goes. -/
theorem evict_view {s : State} {a w ln : Nat} (h0 : 0 < w) (hw : w < 64) (hln : ln < 2 ^ 49)
    (hc : ∀ l, mapGet none s.l2 (lineKey a w (256 * ln)) = some l → l.dirty = false) :
    ∃ t, exec (.l2LineEvict a w ln) s = .next t ∧ mapGet none t.l2 (lineKey a w (256 * ln)) = none := by
  cases hl : mapGet none s.l2 (lineKey a w (256 * ln)) with
  | none => exact ⟨s, execL2LineEvict_none hl, hl⟩
  | some l =>
    have goes := evictable_clean (by rw [lineView_lineKey hw hln]; omega) hl (hc l hl)
    exact ⟨_, by rw [execL2LineEvict_some hl, if_pos goes], evictLine_none ..⟩

end Sys2Proof.Machine
end
section
/-! PROOF. Misses, fills, write-backs, invalidations and evictions, together. -/

namespace Sys2Proof.Machine

theorem wakeLanes_reqs (s : State) (g : Nat) (m : Word) : (s.wakeLanes g m).reqs = s.reqs :=
  congrArg Ledger.reqs (wakeLanes_ledger s g m)

/-- A request that has gone has been served (R223). -/
theorem countGone_gone {s : State} {q : Req} (h : ∀ r ∈ s.reqs, r.id ≠ q.id) : s.countGone q = s.countServed q.stamp :=
  if_neg (by simpa using h)

/-- R240: the lanes of a page that stands go on. -/
theorem l2Miss_stands {r : Req} {g : Nat} {m : Word} {s : State} (h : s.reqs.find? (fun x => x.id == r.id) = some r)
    (hf : r.state = .fresh) (hv : r.view = 0) (hw : r.who = .lanes g m) (hh : r.hint ≠ 2) (hs : Stands s r.asid r.va 1) :
    let u := s.reloadFade r.asid r.va
    exec (.l2Miss r.id) s =
      .next (({ u with reqs := u.reqs.filter (fun x => x.id != r.id) }.wakeLanes g m).countServed r.stamp).settleHolds := by
  have served := serveReq_stands hv hw hh (hs.calm r (List.mem_of_find?_eq_some h)) hs
  rw [execL2Miss_fresh h hf, served, countGone_gone]
  rw [wakeLanes_reqs]
  exact fun x hx => bne_iff_ne.1 (List.mem_filter.1 hx).2

end Sys2Proof.Machine
end
section
open Sys2Proof Sys2Proof.Machine

/-- Settles O49: a walk over lines that stand ends as the walk without trace does, requests that are let go on leave frames,
fills and items alone, and the rest follows the events' own branches. -/
theorem translation : Obligations.Translation := by
  unfold Obligations.Translation
  refine ⟨?_, ?_, ?_, ?_, ?_, ?_, ?_⟩
  · exact fun r w c s h hf hv hq ht ha hw hc => l2Miss_posts h hf hv hq ht ha hw hc
  · exact fun r g m s h hf hv hw hh hs => l2Miss_stands h hf hv hw hh hs
  · intro f k fl s h hg _ hw
    have hfl : (fl.fk == frameKey k f && fl.cmds.isEmpty) = true :=
      List.find?_some (p := fun x : Fill => x.fk == frameKey k f && x.cmds.isEmpty) h
    have hfk : fl.fk = frameKey k f := beq_iff_eq.1 (Bool.and_eq_true_iff.1 hfl).1
    exact ⟨_, execFillDataLand_found h, hfk ▸ fillLand_stands hg hw⟩
  · intro sp s h hf ht hr hw
    exact ⟨writeBack_frees h hf ht hw hr, writeBack_cleans h hf ht hw, writeBack_fails h hf ht hw⟩
  · intro i st s h _ hst
    obtain ⟨t, he, hwalk, hl1, hframes, hlast⟩ := execTableInvalidation_of h hst
    refine ⟨t, he, ?_, ?_, ?_, fun h0 => ?_⟩
    · rw [hwalk]; exact fun w => stackInval_walk
    · rw [hl1]; exact fun b => stackInval_l1
    · rw [hframes]; exact fun e => stackInval_frames
    · obtain ⟨hinvals, hstores⟩ := hlast h0
      rw [hinvals, hstores]
      refine ⟨fun x hx => bne_iff_ne.1 (List.mem_filter.1 hx).2, fun x hx ids hk => ?_⟩
      obtain ⟨y, -, rfl⟩ := List.mem_map.1 hx
      exact told_write hk
  · exact fun a ln s hln => ⟨evict_home hln, evict_held hln⟩
  · exact fun a w ln s h0 hw hln hc => evict_view h0 hw hln hc

end
